-- ==== Sys2Proof/Word.lean ====
section
/-!
DEFINITION. The word types of the machine and their plainest arithmetic (R2, R3).
-/
namespace Sys2Proof

/-- One byte of memory (R3). -/
abbrev Byte := BitVec 8
/-- One vector-wake entry or caddy slot (R30, R37). -/
abbrev Word := BitVec 32
/-- One scalar-wake entry, an instruction word, a program counter (R35, R43). -/
abbrev DWord := BitVec 64
/-- A mask register: bit l governs lane l (R113). -/
abbrev Mask := BitVec 64
/-- A shape register (R251). -/
abbrev Shape := BitVec 512
/-- A segment register (R202). -/
abbrev Seg := BitVec 128

end Sys2Proof
end

