-- ==== Sys2Proof/Config.lean ====
section
/-!
DEFINITION. What this part fixes (figures of R12, R13, the device hash of R392) and the FREE VALUES: constants with no
body, standing for what the specification leaves open. Nothing can be proved of the value of one of them.
-/
namespace Sys2Proof.Config

/-- Physical lanes of a watch, W (R12). -/
def lanes : Nat := 64
/-- Compute dies (R8). -/
def dies : Nat := 4
/-- Clusters of a compute die (R10). -/
def clustersPerDie : Nat := 40
/-- Cores of a compute die (R10, R12). -/
def coresPerDie : Nat := 160
/-- Cores of the module (R12). -/
def cores : Nat := 640
/-- Domains: 0 and the 31 virtual functions (R370). -/
def domains : Nat := 32
/-- Ordinary watch slots of a core; slots 16 and 17 are leeway slots 0 and 1 (R12, R326). -/
def ordinarySlots : Nat := 16
/-- Caddy blocks of a core's pool, and of the reserve bank for one leeway slot (R117). -/
def poolBlocks : Nat := 64
def leewayBlocks : Nat := 16
/-- Scratchpad bytes of a core: 3,072 rows of 128 B (R12). -/
def spadRows : Nat := 3072
def rowBytes : Nat := 128
/-- Accumulator rows of a core and cells of a row (R12). -/
def accRows : Nat := 256
def accCols : Nat := 256
/-- Queues of the module (R372). -/
def queues : Nat := 4096
/-- Exvor ports, nine an I/O die (R10, R13). -/
def exvorPorts : Nat := 18
/-- Nominal arithmetic clock in MHz and its lowest value (R4, R411). -/
def nominalMHz : Nat := 1050
def lowestMHz : Nat := 600
/-- The part's device hash (R392): the first 16 bytes of SHAKE256 over the ASCII bytes of Pramir, 01, 00 and 01 00,
byte 0 in the low bits. -/
def deviceHash : BitVec 128 := 0xfd5dc9eb3f5300ce1066d37b35536fec#128

/-- FREE VALUE: the detail word s2 of a trap for which no rule gives one (log entry 2), by the trap's cause and what the watch's program has
made of its state, so that a replay finds it again (R26, R29). Log 2 (DESIGN CHOICE). -/
opaque freeDetail : List Nat → DWord
/-- FREE VALUE: an argument word that cannot be read, by the launch record's address and its own (R303).
Log 59 (DESIGN CHOICE). -/
opaque freeArg : Nat → Nat → DWord
/-- FREE VALUE: the cycles one step of the machine takes beyond one (log entry 1; timing, R60). Log 1 (DESIGN CHOICE). -/
opaque freeCycles : Nat → Nat
/-- FREE VALUE: bytes of a destination that the specification leaves undefined (R268), by the counter of free values.
Log 50 (DESIGN CHOICE). -/
opaque freeByte : Nat → Byte
/-- FREE VALUE: a 64-bit value that comes from outside the machine, such as a load from a fabric peer's memory (R379). -/
opaque freeWord : Nat → DWord
/-- FREE VALUE: the place in scratchpad or accumulator storage that a device-physical address of the on-chip map names;
R201 gives the windows but not their layout (log entry 6). Log 6 (DESIGN CHOICE). -/
opaque onChipWindow : Nat → Nat
/-- FREE VALUE: whether a frame of a tier, the outer one or not, lies on a failed part, by the part's kind and number (0 an HBM stack, 1 an HBM
channel, 2 an outer-tier channel): the frames of a channel are given by no rule (R357, R407). Log 128 (DESIGN CHOICE). -/
opaque frameOn : Nat → Nat → Bool → Nat → Bool
/-- FREE VALUE: what a sector holds under one key that has been written under another, byte by byte (R361): by the two keys, the sector
and the bytes as written. Log 26 (DESIGN CHOICE). -/
opaque deciphered : BitVec 512 → BitVec 512 → Nat → List Byte → Nat → Byte
/-- FREE VALUE: whether a Falcon-1024 signature of a digest verifies under a public key (R404). Log 8 (DESIGN CHOICE). -/
opaque falconHolds : List Byte → BitVec 512 → List Byte → Bool
/-- FREE VALUE: a byte of a Falcon-1024 signature of a digest under a private key (R410), by the counter of free values.
Log 8 (DESIGN CHOICE). -/
opaque falconByte : List Byte → BitVec 512 → Nat → Byte
/-- FREE VALUE: whether the L1 or LLC holds on to a copy of an HC = 1 host page (R354), by the counter of free values.
Log 16 (DESIGN CHOICE). -/
opaque keepsCopy : Nat → Bool
/-- FREE VALUE: how a fabric peer answers a window access (R379), modulo 3: 0 performed, 1 refused, 2 faulted.
Log 38 (DESIGN CHOICE). -/
opaque peerAnswer : Nat → Nat
/-- FREE VALUE: whether an eligible access fills a line of its home slice (R220; caches are timing, R60).
Log 86 (DESIGN CHOICE). -/
opaque fillsLine : Nat → Bool
/-- FREE VALUE: how many L1 misses and LLC misses an instruction meets (R327, events 5 and 6; caches are timing, R60).
Log 86 (DESIGN CHOICE). -/
opaque l1Misses : Nat → Nat
/-- Log 86 (DESIGN CHOICE). -/
opaque llcMisses : Nat → Nat
/-- FREE VALUE: the LLC slice (0-127) that homes a device-physical address: a hash R11 does not give.
Log 86 (DESIGN CHOICE). -/
opaque homeSlice : Nat → Fin 128
/-- FREE VALUE: the set of its slice that holds a line (R218): an index that no rule gives. Log 86 (DESIGN CHOICE). -/
opaque lineSet : Nat → Fin 384

end Sys2Proof.Config
end

