-- ==== Sys2Proof/Syntax.lean ====
section
/-!
DEFINITION. The instruction set as data: operands, formats, the configuration registers, and ONE constructor for each row
of the opcode table. A row is either a fetched instruction (R52) or a step that the device, the host or the environment
takes (spec/95); the steps carry as arguments what the specification leaves to placement, timing or the outside.
-/
namespace Sys2Proof

/-- A source operand field (R40): vector wake age, scalar wake age, caddy slot, or signed 6-bit immediate. -/
inductive Opnd
  | w (age : BitVec 5)
  | s (age : BitVec 4)
  | c (slot : BitVec 6)
  | imm (v : BitVec 6)
  deriving DecidableEq, Repr

/-- The TYPE codes 0 to 15 of R47, in code order. -/
inductive Ty
  | f32 | f16 | bf16 | f8a | f8b | f4 | i32 | n32 | i16 | n16 | i8 | n8 | i4 | n4 | i64 | b32
  deriving DecidableEq, Repr

/-- The rounding modes of R44, in code order: nearest even, toward zero, toward -infinity, toward +infinity. -/
inductive Rnd
  | ne | tz | dn | up
  deriving DecidableEq, Repr

/-- Conditions of SCMP and ICMP, in FUNC order (R98). -/
inductive Cond
  | eq | ne | lt | le | gt | ge | ltu | leu | gtu | geu
  deriving DecidableEq, Repr

/-- Conditions of FCMP and SFCMP, in code order (R131). -/
inductive FCond
  | eq | ne | lt | le | gt | ge | un | ord
  deriving DecidableEq, Repr

/-- Operations of RED and SCAN, in FUNC order (R174). -/
inductive RedOp
  | add | min | max | nmin | nmax | and | or | xor | fadd | fmin | fmax
  deriving DecidableEq, Repr

/-- Format A (R44), less MAJOR and FUNC, which name the constructor. An operand field the instruction does not use is
`w 0` (encoded 0x00). -/
structure FmtA where
  ty  : Ty
  k   : BitVec 3
  rnd : Rnd
  sat : Bool
  c   : Opnd
  b   : Opnd
  a   : Opnd
  ext : BitVec 16
  deriving DecidableEq, Repr

/-- Format M (R45), less MAJOR. `evict` is also the space selector of the atomics (R234). For ATOM, `disp` is the
sign-extended 12-bit displacement (R49). -/
structure FmtM where
  ord   : BitVec 2
  scope : BitVec 3
  evict : BitVec 3
  seg   : BitVec 4
  ty    : Ty
  c     : Opnd
  b     : Opnd
  a     : Opnd
  disp  : BitVec 16
  deriving DecidableEq, Repr

/-- Format E (R46), less MAJOR and FUNC. -/
structure FmtE where
  sha   : BitVec 4
  shb   : BitVec 4
  shc   : BitVec 4
  flags : BitVec 6
  b     : Opnd
  a     : Opnd
  ext   : BitVec 16
  deriving DecidableEq, Repr

/-- A resident or saved watch, named by what R18 names it: launch (the model's running number of the launch), gang index,
block in gang, watch in block. -/
structure WatchRef where
  launch : Nat
  gang   : Nat
  block  : Nat
  watch  : Nat
  deriving DecidableEq, Repr

/-- The configuration registers of the device that the specification names. Arguments: `c` core 0-639
(die * 160 + cluster * 4 + core), `d` domain, `e` die, `n` index, `q` queue number of the module. -/
inductive Reg
  -- quota block of a domain on a core (R329)
  | qslot (c d : Nat) | qcaddy (c d : Nat) | qspad (c d : Nat) | qacc (c d : Nat) | quotaCtl (c d : Nat) | debt (c d : Nat)
  -- shared registers of a core (R330, R340, R365, R388)
  | ctrown (c : Nat) | lendrng (c : Nat) | lslot (c : Nat) | preq (c : Nat) | pstat (c : Nat)
  | wslist (c : Nat) | wsctl (c : Nat) | csight (c : Nat)
  -- event counters of a core (R327): configuration and 48-bit count
  | ctrcfg (c n : Nat) | ctrcount (c n : Nat)
  -- residency ranges of a domain on a die (R219)
  | rsvbase (e d n : Nat) | rsvlimit (e d n : Nat) | rsvctl (e d n : Nat)
  -- control block of a domain (R332, R353, R366, R367, R372, R378)
  | dpol (d : Nat) | featmask (d : Nat) | grace (d : Nat) | killt (d : Nat) | dstat (d : Nat)
  | part (d : Nat) | dkey (d : Nat) | vfctl (d : Nat) | ptcfg (d : Nat) | ptbal (d : Nat) | qrange (d : Nat)
  | fwbase (d n : Nat) | fwsize (d n : Nat) | fwtgt (d n : Nat) | fwrbase (d n : Nat) | accept (d n : Nat)
  -- scheduler registers of a domain (R304)
  | ntbase (d : Nat) | ntcount (d : Nat) | gsbase (d : Nat) | gssize (d : Nat)
  -- function page of a domain (R356, R364, R380, R386, R392)
  | ptroot (d : Nat) | invaddr (d : Nat) | invctl (d : Nat)
  | prqring (d : Nat) | prqtail (d : Nat) | prqhead (d : Nat) | prqresp (d : Nat)
  | msgring (d : Nat) | msgtail (d : Nat) | msghead (d : Nat)
  | eqring (d : Nat) | eqtail (d : Nat) | eqhead (d : Nat) | eqlost (d : Nat)
  | hashlo (d : Nat) | hashhi (d : Nat)
  -- enable of the hot-page tracker for a domain (R359; log entry 18)
  | tierctl (d : Nat)
  -- queue registers (R372)
  | qbase (q : Nat) | qctl (q : Nat) | qrd (q : Nat)
  -- the words of a function's BAR4, which holds its MSI-X table and pending-bit array (R370; log entry 121)
  | bar4 (d n : Nat)
  -- device registers (R336, R357, R358, R359, R362, R377, R387, R407)
  | gtbase | gtcount | idtbase | idtcount | idtcmd | idtstat | hptctl
  | keydata (n : Nat) | keyctl | plring | pltail | plhead | pllost | bootstat | nodeid | route (n : Nat)
  deriving DecidableEq, Repr

/-- Which register of a quota block a quota write names (R329). -/
inductive QuotaKind
  | slot | caddy | spad | acc
  deriving DecidableEq, Repr

/-- A space in which configuration registers have offsets: the device control space (R332, R387, R407), the scheduler's (R304), a
core's (R329, R330), a die's residency block (R219), a function page (R356, R372), a function's BAR4 (R370). -/
inductive Space
  | control | scheduler
  | core (c : Nat)
  | residency (die : Nat)
  | page (dom : Nat)
  | bar4 (dom : Nat)
  deriving DecidableEq, Repr

/-- What a register write names: an offset of a space, or a register by its name, where no rule gives its offset. -/
inductive RegPlace
  | offset (space : Space) (off : Nat)
  | named (r : Reg)
  deriving DecidableEq, Repr

/-- What a register write names: the function through which it comes, and the place. -/
structure RegTarget where
  fn    : Nat
  place : RegPlace
  deriving DecidableEq, Repr

/-- Which link an error strikes (R383). A mesh error names the memory key whose carried data is poisoned. -/
inductive LinkKind
  | pcie | exvor
  | mesh (key : Nat)
  deriving DecidableEq, Repr

/-- A part that fails at bring-up (R407): a core 0-639, an LLC slice 0-127 (32 a die), an HBM stack 0-7 (two a die) or
one of its channels, an outer-tier channel 0-15 (eight an I/O die), or I/O die 0. -/
inductive ModulePart
  | core (n : Nat)
  | slice (n : Nat)
  | stack (n : Nat)
  | hbmChannel (n : Nat)
  | channel (n : Nat)
  | ioDie0
  deriving DecidableEq, Repr

/-- What a fabric peer asks for (R379): a load, a store, or ATOM with its operation, 9 for ACAS. -/
inductive FabricOp
  | read | write | atomic (op : BitVec 4)
  deriving DecidableEq, Repr

/-- How the fetch of a word or rejoin entry fails (R396). -/
inductive FetchFault
  | recoverable (vpage : Nat) | pageFault | protect
  deriving DecidableEq, Repr

/-- A firmware image with its configuration blob, as module flash holds them (R404, R405, R408, R409): the image's security
version and ADVANCE bit, its other signed bytes, its embedded public key and its signature; the bytes of the blob's record that are
not zero, by offset, and the blob's signature. -/
structure FlashImage where
  version  : BitVec 16
  advance  : Bool
  code     : List Byte
  key      : List Byte
  sig      : List Byte
  blob     : List (Nat × Byte)
  blobSig  : List Byte
  deriving DecidableEq, Repr

/-- The instruction set: one constructor for each row of the opcode table: first the rows that a word can carry or its
fetch can raise, in the table's order, then the steps of the device, the host and the environment, in its order. -/
inductive Instr
  /-- TRAP (R324): Raises SWTRAP with the EXT16 code on the governing-mask lanes, or does nothing when that mask is empty. -/
  | trap (k : BitVec 3) (code : BitVec 16)
  /-- TRET (R325): Ends the handler frame, restores the faulting frame and bank, and retries the faulting instruction. -/
  | tret
  /-- TRET_NEXT (R325): Ends the handler frame, restores the faulting frame and bank, and resumes at the word after the faulting instruction. -/
  | tretNext
  /-- SRD (R326): Pushes a special register once per split to the scalar wake. -/
  | srd (reg : BitVec 12)
  /-- SWR (R326): Writes the RW fields of a special register and clears its RW1C fields from a scalar operand. -/
  | swr (reg : BitVec 12) (a : Opnd)
  /-- GATE (R337): Checks a gate descriptor and enters the target domain on a fresh frame and bank. -/
  | gate (index : BitVec 16)
  /-- GRET (R338): Returns from a gate frame with results and restores the caller bank and frame. -/
  | gret (n : BitVec 7) (m : BitVec 8)
  /-- CTRRD (R328): Pushes an owned event counter, or the device time for n = 15. -/
  | ctrrd (n : BitVec 4)
  /-- SLEEP (R351): Makes the split ineligible for min(opA, 2^20) cycles. -/
  | sleep (a : Opnd)
  /-- YIELDB (R343): Safe point: completes at once, or waits while a soft request stands so that the gang can be saved and requeued. -/
  | yieldb
  /-- YIELD (R344): Resets the split's ready-since time and ends its fairness run. -/
  | yield
  /-- NOP (R351): Does nothing. -/
  | nop
  /-- CGROW_WAIT (R119): Requests n more caddy blocks for the current frame and waits in the pool queue until they are granted. -/
  | cgrowWait (a : Opnd)
  /-- CGROW_TRY (R119): Grants n caddy blocks at once if possible and pushes 1, and otherwise pushes 0. -/
  | cgrowTry (a : Opnd)
  /-- CSHRINK (R120): Returns the n highest blocks of the current frame to the pool. -/
  | cshrink (a : Opnd)
  /-- FEATQ (R335): Pushes the domain's enabled feature groups or the groups this part implements. -/
  | featq (implemented : Bool)
  /-- BR (R70): Unconditional branch of the whole split. -/
  | br (disp : BitVec 24)
  /-- BANY (R70): Branches the split if the tested mask is non-zero. -/
  | bany (k : BitVec 3) (disp : BitVec 24)
  /-- BALL (R70): Branches the split if the tested mask equals k0. -/
  | ball (k : BitVec 3) (disp : BitVec 24)
  /-- BNONE (R70): Branches the split if the tested mask is zero. -/
  | bnone (k : BitVec 3) (disp : BitVec 24)
  /-- IF (R74): Opens a masked conditional region and parks the lanes of arm 1. -/
  | ifRegion (k : BitVec 3) (disp : BitVec 24)
  /-- IFS (R77): Opens a region by creating a child split for arm 1, or falls back to an IF record. -/
  | ifs (k : BitVec 3) (disp : BitVec 24)
  /-- ELSE (R75): Ends arm 0 of the innermost region and begins arm 1. -/
  | elseArm (disp : BitVec 24)
  /-- REJOIN (R76): Closes the innermost region, waits for and merges a twin split, and lays out each lane's wake. -/
  | rejoin (entry : BitVec 16)
  /-- LOOP (R83): Opens a loop record with n carried values and an exit count x. -/
  | loop (n : BitVec 7) (disp : BitVec 24) (x : BitVec 16)
  /-- ENDLOOP (R84): Ends an iteration: lays out continuing and exiting lanes, and either takes the back edge or leaves the loop. -/
  | endloop (k : BitVec 3) (disp : BitVec 24) (entry : BitVec 16)
  /-- BRK (R85): Departing lanes leave the innermost loop with the exit layout. -/
  | brk (k : BitVec 3) (entry : BitVec 16)
  /-- CONT (R85): Departing lanes end the current iteration with the carry layout. -/
  | cont (k : BitVec 3) (entry : BitVec 16)
  /-- CALL (R87): Saves the caller frame and enters the callee with a fresh wake and caddy frame. -/
  | call (n : BitVec 7) (disp : BitVec 24) (m : BitVec 8) (b : BitVec 8)
  /-- CALLI (R87): Indirect call to a target taken from a scalar age. -/
  | calli (n : BitVec 7) (age : BitVec 4) (m : BitVec 8) (b : BitVec 8)
  /-- RET (R88): Returns results to the restored caller wake. -/
  | ret (n : BitVec 7) (m : BitVec 8)
  /-- EXIT (R86): Ends the selected lanes for the rest of the launch. -/
  | exit (k : BitVec 3)
  /-- SADD (R99): Scalar add. -/
  | sadd (f : FmtA)
  /-- SSUB (R99): Scalar subtract. -/
  | ssub (f : FmtA)
  /-- SMUL (R99): Scalar multiply, low half. -/
  | smul (f : FmtA)
  /-- SMULH (R99): Scalar multiply, high half. -/
  | smulh (f : FmtA)
  /-- SAND (R99): Scalar bitwise AND. -/
  | sand (f : FmtA)
  /-- SOR (R99): Scalar bitwise OR. -/
  | sor (f : FmtA)
  /-- SXOR (R99): Scalar bitwise XOR. -/
  | sxor (f : FmtA)
  /-- SNOT (R99): Scalar bitwise NOT. -/
  | snot (f : FmtA)
  /-- SSHL (R99): Scalar shift left. -/
  | sshl (f : FmtA)
  /-- SSHR (R99): Scalar logical shift right. -/
  | sshr (f : FmtA)
  /-- SSAR (R99): Scalar arithmetic shift right. -/
  | ssar (f : FmtA)
  /-- SMIN (R99): Scalar signed minimum. -/
  | smin (f : FmtA)
  /-- SMAX (R99): Scalar signed maximum. -/
  | smax (f : FmtA)
  /-- SNMIN (R99): Scalar unsigned minimum. -/
  | snmin (f : FmtA)
  /-- SNMAX (R99): Scalar unsigned maximum. -/
  | snmax (f : FmtA)
  /-- SCMP (R100): Pushes 1 or 0 according to the scalar compare condition. -/
  | scmp (cond : Cond) (f : FmtA)
  /-- SSEL (R100): Pushes a if c is non-zero, and b otherwise. -/
  | ssel (f : FmtA)
  /-- SLDI (R101): Pushes a sign-extended 16-bit constant to the scalar wake. -/
  | sldi (v : BitVec 16)
  /-- SLDI_HI (R101): Replaces bits [63:48] of a scalar value with a constant and pushes the result. -/
  | sldiHi (a : Opnd) (v : BitVec 16)
  /-- LDIL (R101): Pushes the 48-bit literal of the following word, sign-extended. -/
  | ldil (lit : BitVec 48)
  /-- SLANE (R102): Pushes a vector entry of an indexed lane, or the fill value, to the scalar wake. -/
  | slane (f : FmtA)
  /-- SPICK (R103): Pushes the entry of the lowest selected active lane, or the fill value. -/
  | spick (f : FmtA)
  /-- IADD (R104): Vector element add, optionally saturating. -/
  | iadd (f : FmtA)
  /-- ISUB (R104): Vector element subtract, optionally saturating. -/
  | isub (f : FmtA)
  /-- IADC (R105): 32-bit add with carry; pushes the carry, then the sum. -/
  | iadc (f : FmtA)
  /-- ISBB (R105): 32-bit subtract with borrow; pushes the borrow, then the difference. -/
  | isbb (f : FmtA)
  /-- IMUL (R104): Vector element multiply. -/
  | imul (f : FmtA)
  /-- IMULH (R106): High 32 bits of the 64-bit product. -/
  | imulh (f : FmtA)
  /-- IMAD (R104): Vector element multiply-add, clamped once under SAT. -/
  | imad (f : FmtA)
  /-- INEG (R104): Vector element negate. -/
  | ineg (f : FmtA)
  /-- IABS (R104): Vector element absolute value. -/
  | iabs (f : FmtA)
  /-- IMIN (R104): Vector signed minimum. -/
  | imin (f : FmtA)
  /-- IMAX (R104): Vector signed maximum. -/
  | imax (f : FmtA)
  /-- NMIN (R104): Vector unsigned minimum. -/
  | nmin (f : FmtA)
  /-- NMAX (R104): Vector unsigned maximum. -/
  | nmax (f : FmtA)
  /-- AND (R96): Vector bitwise AND. -/
  | andv (f : FmtA)
  /-- OR (R96): Vector bitwise OR. -/
  | orv (f : FmtA)
  /-- XOR (R96): Vector bitwise XOR. -/
  | xorv (f : FmtA)
  /-- NOT (R96): Vector bitwise NOT. -/
  | notv (f : FmtA)
  /-- ANDN (R96): Vector bitwise AND with the complement of B. -/
  | andnv (f : FmtA)
  /-- SHL (R107): Element shift left. -/
  | shl (f : FmtA)
  /-- SHR (R107): Element logical shift right. -/
  | shr (f : FmtA)
  /-- SAR (R107): Element arithmetic shift right. -/
  | sar (f : FmtA)
  /-- ROT (R107): Element rotate left. -/
  | rot (f : FmtA)
  /-- BFX (R108): Extracts a bit field, zero- or sign-extended. -/
  | bfx (f : FmtA)
  /-- BFI (R108): Inserts a bit field into B. -/
  | bfi (f : FmtA)
  /-- POPC (R109): Pushes the population count. -/
  | popc (f : FmtA)
  /-- CLZ (R109): Pushes the count of leading zeros. -/
  | clz (f : FmtA)
  /-- BREV (R109): Pushes the value with its bits reversed. -/
  | brev (f : FmtA)
  /-- ICMP (R110): Integer compare of enabled lanes into mask kd. -/
  | icmp (cond : Cond) (f : FmtA)
  /-- SEL (R111): Pushes A or B per lane according to a selector mask. -/
  | sel (f : FmtA)
  /-- PICK (R112): Pushes a copy of a source entry. -/
  | pick (f : FmtA)
  /-- LDI (R112): Pushes a sign-extended 16-bit constant. -/
  | ldi (f : FmtA)
  /-- LDI_HI (R112): Pushes a constant in bits [31:16] over the low half of A. -/
  | ldiHi (f : FmtA)
  /-- STASH (R116): Writes an operand into a caddy slot in each enabled lane. -/
  | stash (f : FmtA)
  /-- UNSTASH (R116): Pushes the contents of a caddy slot. -/
  | unstash (f : FmtA)
  /-- KAND (R114): kd = ka AND kb. -/
  | kand (d a b : BitVec 3)
  /-- KOR (R114): kd = ka OR kb. -/
  | kor (d a b : BitVec 3)
  /-- KXOR (R114): kd = ka XOR kb. -/
  | kxor (d a b : BitVec 3)
  /-- KANDN (R114): kd = ka AND NOT kb. -/
  | kandn (d a b : BitVec 3)
  /-- KNOT (R114): kd = NOT ka. -/
  | knot (d a : BitVec 3)
  /-- KMOV (R114): kd = ka. -/
  | kmov (d a : BitVec 3)
  /-- KSET (R114): kd = the 64 bits of a scalar operand. -/
  | kset (d : BitVec 3) (a : Opnd)
  /-- KPOP (R114): Pushes the count of set bits of a mask. -/
  | kpop (a : BitVec 3)
  /-- KFIRST (R114): Pushes the index of the lowest set bit of a mask, or 64. -/
  | kfirst (a : BitVec 3)
  /-- FADD (R133): F32 add, rounded under RND. -/
  | fadd (f : FmtA)
  /-- FSUB (R133): F32 subtract. -/
  | fsub (f : FmtA)
  /-- FMUL (R133): F32 multiply. -/
  | fmul (f : FmtA)
  /-- FFMA (R133): F32 fused multiply-add with one rounding. -/
  | ffma (f : FmtA)
  /-- FFMS (R133): F32 fused multiply-subtract with one rounding. -/
  | ffms (f : FmtA)
  /-- FMIN (R135): minimumNumber of two F32 values. -/
  | fmin (f : FmtA)
  /-- FMAX (R135): maximumNumber of two F32 values. -/
  | fmax (f : FmtA)
  /-- FCMP (R136): F32 compare of enabled lanes into mask kd. -/
  | fcmp (cond : FCond) (f : FmtA)
  /-- FCLASS (R137): Pushes the class bits of an F32 value. -/
  | fclass (f : FmtA)
  /-- FRND (R138): Rounds to an integral F32 value under RND. -/
  | frnd (f : FmtA)
  /-- FDIV (R134): Correctly rounded F32 division in the SFU. -/
  | fdiv (f : FmtA)
  /-- FRCP (R139): Reciprocal in the SFU. -/
  | frcp (f : FmtA)
  /-- FRSQ (R139): Reciprocal square root in the SFU. -/
  | frsq (f : FmtA)
  /-- FSQRT (R134): Correctly rounded square root in the SFU. -/
  | fsqrt (f : FmtA)
  /-- FEXP2 (R139): 2^a in the SFU. -/
  | fexp2 (f : FmtA)
  /-- FLOG2 (R139): log2 a in the SFU. -/
  | flog2 (f : FmtA)
  /-- FSIN (R139): Sine in the SFU. -/
  | fsin (f : FmtA)
  /-- FCOS (R139): Cosine in the SFU. -/
  | fcos (f : FmtA)
  /-- FTANH (R139): Hyperbolic tangent in the SFU. -/
  | ftanh (f : FmtA)
  /-- FCVT (R143): Converts one element between float formats. -/
  | fcvt (f : FmtA)
  /-- ICVT (R144): Converts one integer element to a float format. -/
  | icvt (f : FmtA)
  /-- FICVT (R145): Converts one float element to an integer, rounded and clamped. -/
  | ficvt (f : FmtA)
  /-- HADD2 (R141): Packed 16-bit float pair add. -/
  | hadd2 (f : FmtA)
  /-- HMUL2 (R141): Packed 16-bit float pair multiply. -/
  | hmul2 (f : FmtA)
  /-- HFMA2 (R141): Packed 16-bit float pair fused multiply-add. -/
  | hfma2 (f : FmtA)
  /-- SFADD (R146): Scalar F32 add. -/
  | sfadd (f : FmtA)
  /-- SFMUL (R146): Scalar F32 multiply. -/
  | sfmul (f : FmtA)
  /-- SFFMA (R146): Scalar F32 fused multiply-add. -/
  | sffma (f : FmtA)
  /-- SFCMP (R146): Scalar F32 compare; pushes 1 or 0. -/
  | sfcmp (f : FmtA)
  /-- DOT4 (R158): Exact dot product of four 8-bit pairs added to I32. -/
  | dot4 (f : FmtA)
  /-- DOT8 (R158): Exact dot product of eight 4-bit pairs added to I32. -/
  | dot8 (f : FmtA)
  /-- FDOT4 (R159): F8 dot product of four pairs with one rounding. -/
  | fdot4 (f : FmtA)
  /-- FDOT8 (R159): F4 dot product of eight pairs with one rounding. -/
  | fdot8 (f : FmtA)
  /-- MAC2 (R160): Two I16 products added to I32 and saturated once. -/
  | mac2 (f : FmtA)
  /-- PACK (R161): Narrows the elements of two entries into one. -/
  | pack (f : FmtA)
  /-- UNPK (R162): Widens half of the elements of an entry. -/
  | unpk (f : FmtA)
  /-- SHRR (R163): Rounding shift right, optionally narrowed into an element of B. -/
  | shrr (f : FmtA)
  /-- FSCL (R164): Multiplies float elements by an S8 block scale. -/
  | fscl (f : FmtA)
  /-- SATCLR (R165): Waits for earlier saturating instructions, then clears SATF in the enabled lanes. -/
  | satclr (k : BitVec 3)
  /-- SHFL (R172): Reads an entry from a lane given by a per-lane index. -/
  | shfl (f : FmtA)
  /-- SHFLX (R172): Reads an entry from the lane l XOR index. -/
  | shflx (f : FmtA)
  /-- SLIDE (R173): Slides a packed element sequence across the lanes by n positions. -/
  | slide (f : FmtA)
  /-- BCASTL (R172): Broadcasts the entry of a uniform source lane. -/
  | bcastl (f : FmtA)
  /-- RED (R175): Reduction over the enabled lanes in a fixed tree. -/
  | red (op : RedOp) (f : FmtA)
  /-- SCAN (R175): Inclusive or exclusive prefix scan in lane order. -/
  | scan (op : RedOp) (f : FmtA)
  /-- KBAL (R176): Ballot into mask kd, and pushes each lane's rank. -/
  | kbal (f : FmtA)
  /-- BSET (R187): Builds and normalises a bearing from lane entries. -/
  | bset (f : FmtA)
  /-- BZERO (R187): Writes the zero code to a bearing. -/
  | bzero (f : FmtA)
  /-- BGET (R188): Pushes a bearing's component values to the lanes. -/
  | bget (f : FmtA)
  /-- BDIR (R188): Pushes a bearing's raw Q1.15 directions. -/
  | bdir (f : FmtA)
  /-- BNORM (R189): Pushes the norm code of a bearing. -/
  | bnorm (f : FmtA)
  /-- BTEST (R189): Pushes 0, 1 or 2 for a zero, finite or NaN bearing. -/
  | btest (f : FmtA)
  /-- BSCL (R190): Adds a Q7.8 factor to a bearing's norm. -/
  | bscl (f : FmtA)
  /-- BNEG (R190): Negates a bearing's direction. -/
  | bneg (f : FmtA)
  /-- BMOV (R190): Copies a bearing. -/
  | bmov (f : FmtA)
  /-- BDOT (R191): Pushes the cosine of two bearings. -/
  | bdot (f : FmtA)
  /-- BADD (R192): Adds two bearings and renormalises. -/
  | badd (f : FmtA)
  /-- BMIX (R192): Weighted sum of two bearings, renormalised. -/
  | bmix (f : FmtA)
  /-- BMATCH (R193): Running best-match update of a cosine and its index. -/
  | bmatch (f : FmtA)
  /-- BLD (R195): Loads and checks a 528 B bearing record into a register. -/
  | bld (r : BitVec 3) (m : FmtM)
  /-- BST (R195): Stores a bearing register as a 528 B record. -/
  | bst (r : BitVec 3) (m : FmtM)
  /-- LD (R212): Per-lane global load. -/
  | ld (m : FmtM)
  /-- ST (R212): Per-lane global store. -/
  | st (m : FmtM)
  /-- LDS (R212): Per-lane scratchpad load. -/
  | lds (m : FmtM)
  /-- STS (R212): Per-lane scratchpad store. -/
  | sts (m : FmtM)
  /-- LDU (R214): Uniform load, once per split, to the scalar wake. -/
  | ldu (m : FmtM)
  /-- STU (R214): Uniform store, once per split. -/
  | stu (m : FmtM)
  /-- LDW (R213): 16-byte per-lane load pushed as four entries. -/
  | ldw (m : FmtM)
  /-- STW (R213): 16-byte per-lane store from four entries or slots. -/
  | stw (m : FmtM)
  /-- LEA (R215): Pushes the virtual address of a segment offset after the limit check. -/
  | lea (m : FmtM)
  /-- PREF (R216): Prefetches sectors into the LLC and L1 without faulting. -/
  | pref (m : FmtM)
  /-- CWB (R217): Writes dirty LLC sectors back to media. -/
  | cwb (m : FmtM)
  /-- CINV (R217): Writes back and drops sectors from the LLC and L1. -/
  | cinv (m : FmtM)
  /-- ATOM_ADD (R235): Atomic add that pushes the old value. -/
  | atomAdd (m : FmtM)
  /-- ATOM_AND (R235): Atomic AND that pushes the old value. -/
  | atomAnd (m : FmtM)
  /-- ATOM_OR (R235): Atomic OR that pushes the old value. -/
  | atomOr (m : FmtM)
  /-- ATOM_XOR (R235): Atomic XOR that pushes the old value. -/
  | atomXor (m : FmtM)
  /-- ATOM_MIN (R235): Atomic signed minimum. -/
  | atomMin (m : FmtM)
  /-- ATOM_MAX (R235): Atomic signed maximum. -/
  | atomMax (m : FmtM)
  /-- ATOM_NMIN (R235): Atomic unsigned minimum. -/
  | atomNmin (m : FmtM)
  /-- ATOM_NMAX (R235): Atomic unsigned maximum. -/
  | atomNmax (m : FmtM)
  /-- ATOM_XCHG (R235): Atomic exchange. -/
  | atomXchg (m : FmtM)
  /-- ACAS (R235): Atomic compare-and-swap that pushes the old value. -/
  | acas (m : FmtM)
  /-- AFADD (R235): Atomic F32 add rounded to nearest. -/
  | afadd (m : FmtM)
  /-- AXADD (R237): Exact add of an F32 value into an anchored cell. -/
  | axadd (m : FmtM)
  /-- LRES (R238): Load that sets a reservation on its sector. -/
  | lres (m : FmtM)
  /-- SCND (R238): Conditional store that succeeds only while the reservation holds. -/
  | scnd (m : FmtM)
  /-- FENCE (R231): Fence that orders P0 accesses with P5 or P6 at scope 6 or 7. -/
  | fence (ord : BitVec 2) (scope : BitVec 3)
  /-- FENCEX (R232): Orders the accesses of path X before those of path Y. -/
  | fencex (scope : BitVec 3) (x y : BitVec 4)
  /-- BARRIER_BLOCK (R249): Block barrier arrival; completes when every watch of the block has arrived. -/
  | barrierBlock
  /-- BARRIER_GANG (R249): Gang barrier arrival; completes when every watch of the gang has arrived. -/
  | barrierGang
  /-- BINIT (R245): Initialises a barrier object with expected bytes and phase 0. -/
  | binit (e : FmtE)
  /-- BARM (R245): Adds bytes to the pending count of a barrier object. -/
  | barm (e : FmtE)
  /-- BARRIVE (R245): Subtracts bytes from a barrier object, possibly flipping its phase. -/
  | barrive (e : FmtE)
  /-- WAITB (R246): Waits until a barrier object's phase differs from p, or traps on the fault state. -/
  | waitb (e : FmtE)
  /-- TESTB (R246): Pushes whether a barrier object's phase differs from p. -/
  | testb (e : FmtE)
  /-- WAITC_LD (R248): Waits until the outstanding-load count is at most c. -/
  | waitcLd (limit : BitVec 6)
  /-- WAITC_ENG (R248): Waits until the outstanding engine-command count is at most c. -/
  | waitcEng (acq : Bool) (limit : BitVec 6)
  /-- SHLD (R256): Loads a 64 B shape record into a shape register. -/
  | shld (e : FmtE)
  /-- SHST (R256): Stores a shape register as a 64 B record. -/
  | shst (e : FmtE)
  /-- SHSET (R256): Sets one field of a shape register. -/
  | shset (e : FmtE)
  /-- CPY (R261): Queues a tile copy with optional format conversion. -/
  | cpy (e : FmtE)
  /-- CPYS (R263): Queues a flat copy of n bytes, or sends a tagged message into a message window. -/
  | cpys (e : FmtE)
  /-- CPYP (R264): Queues one tile copy to each named scratchpad rank. -/
  | cpyp (e : FmtE)
  /-- GTHR (R265): Queues a row gather driven by an index list. -/
  | gthr (e : FmtE)
  /-- SCAT (R265): Queues a row scatter driven by an index list. -/
  | scat (e : FmtE)
  /-- COLL_RED (R267): Collective reduction to the root. -/
  | collRed (e : FmtE)
  /-- COLL_BCAST (R267): Collective broadcast of the root's piece. -/
  | collBcast (e : FmtE)
  /-- COLL_GATH (R267): Collective gather of every member's piece to every member. -/
  | collGath (e : FmtE)
  /-- COLL_ALLRED (R267): Collective all-reduce. -/
  | collAllred (e : FmtE)
  /-- MMA (R289): Queues a dense matrix multiply-accumulate on the core's array. -/
  | mma (e : FmtE)
  /-- MMAP (R290): Queues a paired dense multiply in K-split or column mode. -/
  | mmap (e : FmtE)
  /-- MMAS (R289): Checks sparse sector headers and queues a sparse multiply. -/
  | mmas (e : FmtE)
  /-- MMASP (R290): Checks sparse sector headers and queues a paired sparse multiply. -/
  | mmasp (e : FmtE)
  /-- ACCINIT (R291): Sets the anchor and clears the cells and flags of accumulator rows. -/
  | accinit (e : FmtE)
  /-- ANCHOR (R292): Pushes a recommended anchor computed from two shapes. -/
  | anchor (e : FmtE)
  /-- ACCRD (R293): Reads accumulator cells out to a tile, optionally zeroing them. -/
  | accrd (e : FmtE)
  /-- ACCRDW (R294): Reads accumulator cells out with computed block scales. -/
  | accrdw (e : FmtE)
  /-- ACCADD (R295): Adds a tile into accumulator cells. -/
  | accadd (e : FmtE)
  /-- ACCSTAT (R296): Writes row-state records to scratchpad, optionally clearing the flags. -/
  | accstat (e : FmtE)
  /-- NODE (R313): Inserts a node of the domain's node table. -/
  | node (a : Opnd)
  /-- NDEP (R313): Increments a waiting node's dependency counter. -/
  | ndep (a : Opnd) (n : BitVec 16)
  /-- NREL (R313): Decrements a waiting node's dependency counter. -/
  | nrel (a : Opnd) (n : BitVec 16)
  /-- FORK (R316): Inserts k child nodes and adds k to the gang's join count. -/
  | fork (a : Opnd) (k : BitVec 8)
  /-- JOIN (R316): Gang-wide arrival that completes, or swaps the gang out while children remain. -/
  | join
  /-- ARM (R317): Binds a 32-bit tag to a waiting node. -/
  | arm (a : Opnd)
  /-- DISARM (R317): Removes a tag binding and pushes whether it existed. -/
  | disarm (a : Opnd)
  /-- LAUNCHQ (R313): Checks a launch record and inserts an anonymous node for it. -/
  | launchq (a : Opnd)
  /-- ILLEGAL_MAJOR (R54): A split executes a word whose major is 0x00, 0xFF, reserved or a literal word reached other than by LDIL, and raises ILLOP. -/
  | illegalMajor (word : DWord)
  /-- INSTRUCTION_FETCH_FAULT (R396): The fetch of an instruction word, literal word or rejoin entry meets a translation or permission fault, so the split is held or traps with PAGEFAULT or PROTECT. -/
  | instructionFetchFault (addr : DWord) (kind : FetchFault)
  /-- SLEEP_END (R351): The sleep count of a split expires and the split becomes eligible again. -/
  | sleepEnd (w : WatchRef) (split : Nat)
  /-- CADDY_GRANT (R118): A waiting caddy request at the head of its pool queue receives its whole block count once the blocks are free. -/
  | caddyGrant (core pool : Nat)
  /-- UNIT_OPERATION_COMPLETE (R147): An SFU, conversion or bearing-unit operation finishes, writes its pending wake position and frees its queue entry. -/
  | unitOperationComplete (w : WatchRef) (id : Nat)
  /-- PENDING_VALUE_ARRIVAL (R34): The value of a load, atomic or other pending result arrives and fills its wake position, or the saved image, or is dropped if aged out. -/
  | pendingValueArrival (w : WatchRef) (id : Nat)
  /-- PAGE_TABLE_WALK (R355): A page-table walk completes and serves its waiting requesters. -/
  | pageTableWalk (tu dom vpage : Nat) (replaced : Option (Nat × Nat))
  /-- ENGINE_DELIVERY (R260): An engine writes bytes of a queued command and subtracts them from its barrier object, possibly flipping the phase. -/
  | engineDelivery (id count : Nat) (pieces : List (List Byte))
  /-- ENGINE_COMMAND_COMPLETE (R248): An engine command has delivered and counted all its bytes and stops being outstanding. -/
  | engineCommandComplete (id : Nat)
  /-- COLL_ABORT (R268): A member receives ABORT or finds a mismatch, writes STATUS and completes its count. -/
  | collAbort (id : Nat) (mismatch : Bool)
  /-- PASS_GRANT (R287): The arbiter grants a free array, or a pair of arrays, to a ready request for one pass. -/
  | passGrant (array : Nat)
  /-- PAIRED_HOLD (R287): A paired request that has waited through 64 grants starts to hold its arrays. -/
  | pairedHold (id : Nat)
  /-- PASS_END (R288): A matrix pass ends; the command re-enters arbitration or completes and counts its bytes. -/
  | passEnd (array : Nat)
  /-- GANG_PLACE (R310): A die dispatcher obtains a batch of gang indices from the pilot die and places a gang on a cluster within its quotas. -/
  | gangPlace (cores : List Nat)
  /-- GANG_END (R314): A gang ends: its rows and save slot are freed and its staging record is added. -/
  | gangEnd (launch gang : Nat)
  /-- PILOT_DIE_LOSS (R318): The pilot die leaves service and a new pilot rebuilds the gang-index counter from the batch logs. -/
  | pilotDieLoss (die : Nat)
  /-- FAIRNESS_SWITCH (R66): A split that held a port for 512 cycles against waiting splits loses the port. -/
  | fairnessSwitch (w : WatchRef) (split : Nat)
  /-- RESERVATION_DEFER_END (R66): A fairness switch deferred for a load reservation takes place after 256 cycles. -/
  | reservationDeferEnd (w : WatchRef) (split : Nat)
  /-- PREQ_WITHDRAW (R340): A level-0 PREQ write withdraws a standing soft request. -/
  | preqWithdraw (core dom : Nat)
  /-- PREQ_SOFT (R340): A level-1 PREQ write stops placement of the domain on the core and starts the grace timer. -/
  | preqSoft (core dom : Nat)
  /-- PREQ_HARD (R340): A level-2 PREQ write halts the domain's watches and saves and requeues its gangs. -/
  | preqHard (core dom : Nat)
  /-- GRACE_EXPIRY (R340): The grace timer reaches GRACE and the hard step begins. -/
  | graceExpiry (core : Nat)
  /-- KILL_TIMER_EXPIRY (R340): KILLT passes with resources of the domain still on the core, and its gangs there are killed. -/
  | killTimerExpiry (core : Nat)
  /-- RESPONSE_WINDOW_EXPIRY (R342): The 1 µs response window ends; missing responses are recorded as pending and BLD or SHLD are left to repeat. -/
  | responseWindowExpiry (core dom : Nat)
  /-- RESPONSE_TIMEOUT (R342): A PCIe or Exvor response misses its timeout; a load or atomic yields zero and records are written. -/
  | responseTimeout (w : WatchRef) (id : Nat)
  /-- SLICE_END (R365): A world-switch slice ends: NOPRE work finishes, debt accrues, and the outgoing domain is hard-requested. -/
  | sliceEnd (core overrun : Nat)
  /-- LEND_RECLAIM (R350): An owner request for lent rows revokes the leeway context, saves it with its rows, and grants the rows. -/
  | lendReclaim (core : Nat)
  /-- SIGHT_DRAIN (R388): The sight controller drains the next core of the rotation and starts its pass. -/
  | sightDrain (die : Nat)
  /-- SIGHT_PASS_END (R389): A sight pass or retry ends, vouching blocks or marking launches suspect and fencing the core. -/
  | sightPassEnd (die : Nat) (passed : Bool)
  /-- QUEUE_NOTIFY (R372): A write to a queue's notify register marks the enabled queue for service. -/
  | queueNotify (queue : Nat)
  /-- QUEUE_SERVE (R374): The command processor reads a notified queue's next valid byte and packet. -/
  | queueServe (iodie : Nat)
  /-- QUEUE_REREAD (R374): An invalid slot is read once more after 2 µs. -/
  | queueReread (queue : Nat)
  /-- NOP_PACKET (R373): A NOP packet is consumed with no effect. -/
  | nopPacket (iodie : Nat)
  /-- LAUNCH_PACKET (R373): A LAUNCH packet inserts an anonymous node with listed successors. -/
  | launchPacket (iodie : Nat)
  /-- INSERT_PACKET (R373): An INSERT packet inserts the listed nodes in order. -/
  | insertPacket (iodie : Nat)
  /-- RELEASE_PACKET (R373): A RELEASE packet decrements each listed node by 1. -/
  | releasePacket (iodie : Nat)
  /-- HOST_ACCESS (R228): A host read or write of device memory is performed as a P5 access. -/
  | hostAccess (dom : Nat) (own write : Bool) (addr : Nat) (data : List Byte)
  /-- FABRIC_MEMORY_ACCESS (R379): An inbound Exvor memory-window access is performed at this module as a P6 access. -/
  | fabricMemoryAccess (dom node peer : Nat) (op : FabricOp) (addr : Nat) (data : List Byte)
  /-- TAGGED_MESSAGE (R380): An inbound tagged message is written into the domain's message ring and matched against armed tags. -/
  | taggedMessage (dom node peer tag : Nat) (data : List Byte)
  /-- PAGE_REQUEST_RETRY (R363): A fault that found no free entry retries after 1 µs. -/
  | pageRequestRetry (dom vpage : Nat)
  /-- PRQ_RESPONSE (R364): A PRQRESP write answers an entry, and its waiters repeat their translation. -/
  | prqResponse (dom tag : Nat)
  /-- PRQ_DECLINE (R364): A PRQRESP write with DECLINE refuses an entry, and its waiters take PAGEFAULT or an engine fault. -/
  | prqDecline (dom tag : Nat)
  /-- INVALIDATE_PAGE (R356): INVCTL GO with KIND 0 invalidates the translations of one page. -/
  | invalidatePage (dom : Nat)
  /-- INVALIDATE_RANGE (R356): INVCTL GO with KIND 1 invalidates COUNT + 1 pages. -/
  | invalidateRange (dom count : Nat)
  /-- INVALIDATE_ALL (R356): INVCTL GO with KIND 2 invalidates every translation of the domain. -/
  | invalidateAll (dom : Nat)
  /-- INVALIDATION_COMPLETE (R356): An invalidation finishes and BUSY returns to 0. -/
  | invalidationComplete (dom : Nat)
  /-- IDT_MAP (R358): IDTCMD MAP maps a page to a free frame as zero-pending. -/
  | idtMap (outer : Bool) (page frame : Nat)
  /-- IDT_UNMAP (R358): IDTCMD UNMAP waits for any move, then frees the page's frame. -/
  | idtUnmap (page : Nat)
  /-- IDT_SETPIN (R358): IDTCMD SETPIN sets PIN on a page. -/
  | idtSetpin (page : Nat)
  /-- IDT_CLRPIN (R358): IDTCMD CLRPIN clears PIN on a page. -/
  | idtClrpin (page : Nat)
  /-- TRACKING_PERIOD_END (R359): At the end of a tracking period the tracker chooses promotions and demotions and halves its counts. -/
  | trackingPeriodEnd (die : Nat) (presented : List (Nat × Nat))
  /-- PAGE_MOVE (R360): A page move copies the page, recopies dirty sectors, swaps the entry and frees the source frame. -/
  | pageMove (page : Nat) (outer : Bool) (frame : Nat)
  /-- ZP_BACKGROUND_CLEAR (R368): After a reset, the device overwrites the frames of zero-pending pages with zeros. -/
  | zpBackgroundClear (page : Nat)
  /-- KEY_LOAD (R362): KEYCTL LOAD loads KEYDATA into a free key slot. -/
  | keyLoad (slot : Nat)
  /-- KEY_RETIRE (R362): KEYCTL RETIRE drops the lines of a key ID without writeback and frees the slot. -/
  | keyRetire (slot : Nat)
  /-- VF_RESET (R367): A VFCTL RESET write runs the domain reset sequence. -/
  | vfReset (dom : Nat)
  /-- FUNCTION_LEVEL_RESET (R367): A PCIe function-level reset of a virtual function runs the domain reset sequence. -/
  | functionLevelReset (dom : Nat)
  /-- VF_ENABLE (R367): A VFCTL EN write enables a disabled or reset domain. -/
  | vfEnable (dom : Nat)
  /-- QUEUE_ENABLE (R372): Setting QCTL.EN of a queue clears RDIDX and STOP. -/
  | queueEnable (queue : Nat)
  /-- QUOTA_WRITE (R329): A quota block write is performed, or refused with QERR if it would overlap. -/
  | quotaWrite (kind : QuotaKind) (core dom : Nat) (v : DWord)
  /-- PART_WRITE (R353): A PART write is performed, or refused with PARTERR if it would overlap. -/
  | partWrite (dom : Nat) (v : DWord)
  /-- QRANGE_WRITE (R372): A queue range write is performed unless it would overlap another domain's range. -/
  | qrangeWrite (dom : Nat) (v : DWord)
  /-- CTROWN_WRITE (R330): A CTROWN write reassigns counters and clears those whose owner changes. -/
  | ctrownWrite (core : Nat) (v : DWord)
  /-- CTRCFG_CLEAR (R327): Writing CLEAR of CTRCFG sets the count to 0. -/
  | ctrcfgClear (core n : Nat)
  /-- RSVCTL_WRITE (R220): An RSVCTL write puts a residency range in or out of effect and resets its sampling count. -/
  | rsvctlWrite (die dom n : Nat) (v : DWord)
  /-- LEND_CONFIG_WRITE (R350): Writing LSLOT or LENDRNG while a slot is in use revokes its leeway context. -/
  | lendConfigWrite (core : Nat) (slots : Bool) (v : DWord)
  /-- EQRING_WRITE (R386): Writing BASE or SIZE of an error ring sets TAIL and HEAD to 0. -/
  | eqringWrite (dom : Option Nat) (v : DWord)
  /-- REGISTER_WRITE (R332): Write to a configuration register that has no behaviour of its own. -/
  | registerWrite (target : RegTarget) (v : DWord)
  /-- POWER_INTERVAL (R366): At each 100 µs interval unspent tokens are pooled and balances and shares are set. -/
  | powerInterval
  /-- CLOCK_STEP_DOWN (R411): Power management lowers the arithmetic clock by 50 MHz after first lowering the pass limit. -/
  | clockStepDown
  /-- CLOCK_STEP_UP (R411): Power management raises the arithmetic clock, and the higher pass limit then applies. -/
  | clockStepUp
  /-- THERMAL_THROTTLE (R412): A die at 100 °C lowers the clock to 600 MHz and writes a record. -/
  | thermalThrottle (die : Nat)
  /-- THERMAL_SHUTDOWN (R412): A die at 115 °C powers the module off within 1 ms. -/
  | thermalShutdown (die : Nat)
  /-- UNDERVOLTAGE (R411): Input below 40 V for more than 10 ms powers the module off. -/
  | undervoltage
  /-- POWER_ON (R406): Power-on runs the bring-up sequence. -/
  | powerOn (failed : List ModulePart)
  /-- FUNDAMENTAL_RESET (R406): A PCIe fundamental reset runs the bring-up sequence. -/
  | fundamentalReset (failed : List ModulePart)
  /-- LINK_ERROR (R383): An uncorrectable link error takes a PCIe or Exvor port down, or poisons mesh data after 16 retries. -/
  | linkError (kind : LinkKind) (port : Nat)
  /-- ATTESTATION_REQUEST (R410): A mailbox request with a nonce returns a signed attestation report. -/
  | attestationRequest (nonce : List Byte)
  /-- FLASH_IMAGE_WRITE (R408): A new image is written to flash through the mailbox and takes effect at the next reset. -/
  | flashImageWrite (img : FlashImage)
  /-- PRQHEAD_WRITE (R364): Software advances PRQHEAD, and page-request records held in the queue because the ring was full are delivered. -/
  | prqheadWrite (dom : Nat) (v : DWord)
  /-- MSGHEAD_WRITE (R380): Software advances MSGHEAD, freeing message-ring slots, so credit withheld from a waiting tagged message is returned. -/
  | msgheadWrite (dom : Nat) (v : DWord)
  /-- SIGNAL_ATOMIC_COMPLETION (R436): The PCIe CAS that the command processor issued on a completion-signal word completes; on a failed compare it is repeated, and on success a held VOUCHED change may proceed. -/
  | signalAtomicCompletion (id : Nat) (swapped : Bool)
  deriving DecidableEq, Repr

end Sys2Proof
end

