-- ==== Sys2Proof/Machine/Encoding.lean ====
section
/-!
DEFINITION. The fields of the instruction words (R40, R43 to R47): operand, type and rounding codes, and the four formats.
-/
namespace Sys2Proof

/-- The 8-bit field of an operand (R40). -/
def Opnd.code : Opnd → BitVec 8
  | .w a => (0 : BitVec 3) ++ a
  | .s a => (0b0100 : BitVec 4) ++ a
  | .c n => (0b10 : BitVec 2) ++ n
  | .imm v => (0b11 : BitVec 2) ++ v

/-- The operand of an 8-bit field, unless a bit that must be 0 is set (R40). -/
def Opnd.ofCode (f : BitVec 8) : Option Opnd :=
  match f.extractLsb' 6 2 with
  | 0b00#2 => if f.extractLsb' 5 1 = 0 then some (.w (f.extractLsb' 0 5)) else none
  | 0b01#2 => if f.extractLsb' 4 2 = 0 then some (.s (f.extractLsb' 0 4)) else none
  | 0b10#2 => some (.c (f.extractLsb' 0 6))
  | _ => some (.imm (f.extractLsb' 0 6))

/-- TYPE codes (R47). -/
def Ty.code : Ty → BitVec 4
  | .f32 => 0 | .f16 => 1 | .bf16 => 2 | .f8a => 3 | .f8b => 4 | .f4 => 5 | .i32 => 6 | .n32 => 7
  | .i16 => 8 | .n16 => 9 | .i8 => 10 | .n8 => 11 | .i4 => 12 | .n4 => 13 | .i64 => 14 | .b32 => 15

def Ty.ofCode (c : BitVec 4) : Ty :=
  match c with
  | 0#4 => .f32 | 1#4 => .f16 | 2#4 => .bf16 | 3#4 => .f8a | 4#4 => .f8b | 5#4 => .f4 | 6#4 => .i32 | 7#4 => .n32
  | 8#4 => .i16 | 9#4 => .n16 | 10#4 => .i8 | 11#4 => .n8 | 12#4 => .i4 | 13#4 => .n4 | 14#4 => .i64 | _ => .b32

/-- RND codes (R44). -/
def Rnd.code : Rnd → BitVec 2
  | .ne => 0 | .tz => 1 | .dn => 2 | .up => 3

def Rnd.ofCode (c : BitVec 2) : Rnd :=
  match c with
  | 0#2 => .ne | 1#2 => .tz | 2#2 => .dn | _ => .up

/-- FUNC codes of the integer conditions (R98). -/
def Cond.code : Cond → BitVec 6
  | .eq => 0 | .ne => 1 | .lt => 2 | .le => 3 | .gt => 4 | .ge => 5 | .ltu => 6 | .leu => 7 | .gtu => 8 | .geu => 9

def Cond.ofCode (c : BitVec 6) : Option Cond :=
  match c with
  | 0#6 => some .eq | 1#6 => some .ne | 2#6 => some .lt | 3#6 => some .le | 4#6 => some .gt | 5#6 => some .ge
  | 6#6 => some .ltu | 7#6 => some .leu | 8#6 => some .gtu | 9#6 => some .geu | _ => none

/-- FUNC codes of the float conditions (R131). -/
def FCond.code : FCond → BitVec 6
  | .eq => 0 | .ne => 1 | .lt => 2 | .le => 3 | .gt => 4 | .ge => 5 | .un => 6 | .ord => 7

def FCond.ofCode (c : BitVec 6) : Option FCond :=
  match c with
  | 0#6 => some .eq | 1#6 => some .ne | 2#6 => some .lt | 3#6 => some .le | 4#6 => some .gt | 5#6 => some .ge
  | 6#6 => some .un | 7#6 => some .ord | _ => none

/-- FUNC codes of the reductions (R174). -/
def RedOp.code : RedOp → BitVec 6
  | .add => 0 | .min => 1 | .max => 2 | .nmin => 3 | .nmax => 4 | .and => 5 | .or => 6 | .xor => 7 | .fadd => 8
  | .fmin => 9 | .fmax => 10

def RedOp.ofCode (c : BitVec 6) : Option RedOp :=
  match c with
  | 0#6 => some .add | 1#6 => some .min | 2#6 => some .max | 3#6 => some .nmin | 4#6 => some .nmax | 5#6 => some .and
  | 6#6 => some .or | 7#6 => some .xor | 8#6 => some .fadd | 9#6 => some .fmin | 10#6 => some .fmax | _ => none

/-- A word of format A (R44). -/
def packA (maj : BitVec 8) (func : BitVec 6) (f : FmtA) : DWord :=
  maj ++ func ++ f.ty.code ++ f.k ++ f.rnd.code ++ BitVec.ofBool f.sat ++ f.c.code ++ f.b.code ++ f.a.code ++ f.ext

/-- A word of format M (R45). -/
def packM (maj : BitVec 8) (wt : BitVec 4) (m : FmtM) (disp : BitVec 16) : DWord :=
  maj ++ m.ord ++ m.scope ++ m.evict ++ m.seg ++ wt ++ m.c.code ++ m.b.code ++ m.a.code ++ disp

/-- A word of format C (R45). -/
def packC (maj : BitVec 8) (func : BitVec 6) (k : BitVec 3) (n : BitVec 7) (disp : BitVec 24) (tab : BitVec 16) : DWord :=
  maj ++ func ++ k ++ n ++ disp ++ tab

/-- A word of format E (R46). -/
def packE (maj : BitVec 8) (func : BitVec 6) (e : FmtE) : DWord :=
  maj ++ func ++ e.sha ++ e.shb ++ e.shc ++ e.flags ++ e.b.code ++ e.a.code ++ e.ext

/-- The fields of a word by format. -/
def majOf (w : DWord) : BitVec 8 := w.extractLsb' 56 8
def funcOf (w : DWord) : BitVec 6 := w.extractLsb' 50 6
def opcOf (w : DWord) : BitVec 8 := w.extractLsb' 32 8
def opbOf (w : DWord) : BitVec 8 := w.extractLsb' 24 8
def opaOf (w : DWord) : BitVec 8 := w.extractLsb' 16 8
def extOf (w : DWord) : BitVec 16 := w.extractLsb' 0 16

end Sys2Proof
end

