-- ==== Sys2Proof/Machine/State.lean ====
section
/-!
DEFINITION. The state of the machine as plain data: every piece of state the specification names, and the model's own
`sched`, `fresh` and running numbers. `State.reset` is the machine after bring-up (R406), with no work placed.
-/
namespace Sys2Proof.Machine

/-- An entry of a wake: void, or a value, or a value still in flight (*pending*, R34) under the number of the operation
that will deliver it, or one whose parity fails (R383). -/
inductive Entry (α : Type)
  | void
  | val (v : α)
  | pend (v : α) (op : Nat)
  | bad
  deriving DecidableEq, Repr

/-- The scalar wake of a split: 16 positions and the position of age 0 (R35). -/
structure SWake where
  ring : List (Entry DWord)
  head : BitVec 4
  deriving DecidableEq, Repr

/-- The vector wake of a lane in one frame, 32 positions and the head (R30, R31), with the nesting counter of the frame
(R64, R321). -/
structure VWake where
  ring : List (Entry Word)
  head : BitVec 5
  nest : BitVec 8
  deriving DecidableEq, Repr

/-- A lane of a watch (R63, R64). -/
structure Lane where
  /-- The split the lane belongs to (R63). -/
  split  : Nat
  exited : Bool
  wake   : VWake
  /-- Per-lane parts of the caller frames, innermost first (R64). -/
  saved  : List VWake
  /-- The sticky saturation flag (R95, R166). -/
  satf   : Bool
  /-- The reserved 128 B sector: its memory key divided by 128 (R238). -/
  resv   : Option Nat
  deriving DecidableEq, Repr

inductive RegionKind
  | ifr | ifs | loop
  deriving DecidableEq, Repr

/-- A region record (R71). For a LOOP, `arm0` is the broken mask and `arm1` the continued mask, and `resume` the exit
PC. `rid` is the model's own number, equal in the two copies that an IFS makes; `rejoin` is the address of the REJOIN of
an IFS record (R79, R82), whose `n` and `x` name the parent and the child split (R81). -/
structure Region where
  rid    : Nat
  kind   : RegionKind
  phase  : Bool
  resume : DWord
  rejoin : DWord
  arm0   : Mask
  arm1   : Mask
  marks  : List (BitVec 5)
  depths : List Nat
  origin : Bool
  scalar : SWake
  n      : Nat
  x      : Nat
  deriving DecidableEq, Repr

/-- A caddy frame: its blocks of eight slots, slot by slot, each with one entry per lane (R37, R38). -/
structure CaddyFrame where
  id    : Nat
  /-- The pool its blocks come from (R117, R118): a domain 0-31, or 32 + leeway slot. -/
  pool  : Nat
  /-- The blocks of its core that it holds, lowest slots first: 0-63, or 64 to 95 of the reserve bank (R117). -/
  blks  : List Nat
  slots : List (List Word)
  /-- Entries whose parity fails, by slot and lane (R383). -/
  bad   : List (Nat × Nat) := []
  deriving DecidableEq, Repr

/-- A bearing register: 256 Q1.15 components and its 16-bit norm code (R178). -/
structure Bearing where
  comps : List (BitVec 16)
  norm  : BitVec 16
  deriving DecidableEq, Repr

/-- How the frame that runs above a saved frame was entered. -/
inductive FrameKind
  | call | handler | gate
  deriving DecidableEq, Repr

/-- The caller bank that GATE saves (R337): masks, bearings, shapes, segments, SATF of each lane, BOVF, NTID, executing
domain. -/
structure GateBank where
  bears : List Bearing
  shapes : List Shape
  segs  : List Seg
  satf  : List Bool
  bovf  : Bool
  ntid  : BitVec 12
  dom   : Nat
  feat  : DWord
  deriving DecidableEq, Repr

/-- A gate descriptor as read by GATE (R336). -/
structure GateDesc where
  index : Nat
  save  : DWord
  segs  : DWord
  code  : DWord
  traph : DWord
  allow : BitVec 32
  valid : Bool
  tdom  : Nat
  nv    : Nat
  ns    : Nat
  caddy : Nat
  rv    : Nat
  rs    : Nat
  nopre : Bool
  deriving DecidableEq, Repr

/-- The uniform part of a saved caller frame (R64, R87), with what trap entry (R321) and GATE (R337) set aside: `retPc`
is the return PC, the faulting PC, or the PC of the GATE; `retNext` the word after it; `ks` the faulting or caller bank. -/
structure Frame where
  kind    : FrameKind
  retPc   : DWord
  retNext : DWord
  swake   : SWake
  caddy   : Nat
  recs    : List Region
  ks      : List Mask
  bank    : Option GateBank
  desc    : Option GateDesc
  deriving DecidableEq, Repr

/-- Why a split is not eligible for issue. In the first group the PC stays at the instruction, which runs again from its
first check; in the second the instruction has completed, or waits for an event that completes it. -/
inductive Wait
  | none
  /-- An operand or register is pending (R34, R60), or a count or queue is full (R62, R269, R313). -/
  | operand
  /-- WAITB on an object (memory key) and phase (R246). -/
  | waitb (obj : Nat) (phase : Bool)
  /-- WAITC with its limit (R248): `eng` for WAITC.ENG. -/
  | waitc (eng : Bool) (limit : Nat)
  /-- A recoverable page fault on a page (R61, R221). -/
  | page (dom vpage : Nat)
  /-- The request for a page was declined (R364): the split is ready, and its next try of the instruction meets PAGEFAULT
  there. -/
  | declined (dom vpage : Nat)
  /-- FENCEX waits for the split's earlier commands of an engine path (R232). -/
  | fencex (path : Nat)
  /-- Part of a bearing record has been transferred: the BLD or BST goes on with the rest (R195, R223). -/
  | record
  /-- A caddy request of b blocks (R118): from CALL, CALLI or CGROW.WAIT. -/
  | caddy (blocks : Nat)
  /-- Waiting at a REJOIN of an IFS record with the lists of the entry it named (R81). -/
  | rejoin (l0 l1 : List Nat)
  /-- Arrived at a BARRIER.BLOCK or BARRIER.GANG, a JOIN or a YIELDB (R249, R316, R343). -/
  | barrier (gang : Bool)
  | join
  | yieldb
  /-- Asleep until a device time (R351). -/
  | sleep (till : Nat)
  deriving DecidableEq, Repr

/-- Consecutive bytes of storage on one page, with the page's HOST and HC bits. -/
structure Part where
  key  : Nat
  n    : Nat
  host : Bool
  hc   : Bool
  deriving DecidableEq, Repr

/-- A BLD or BST part of the way through its record of 33 events (R195, R223): the events that have taken place, where each of the 33
leads, as the checks have found once and for all, BLD's bytes so far or all of BST's, whether it stores, and how many more events the
present issue performs, 0 for all. -/
structure RecordPart where
  done  : Nat := 0
  parts : List (List Part) := []
  bytes : List Byte := []
  write : Bool := false
  goal  : Nat := 0
  deriving DecidableEq, Repr

/-- A split (R64). -/
structure Split where
  /-- Index in creation order (R321, R326). -/
  id     : Nat
  pc     : DWord
  swake  : SWake
  recs   : List Region
  frames : List Frame
  /-- The current caddy frame's number. -/
  caddy  : Nat
  /-- The call depth (R87). -/
  depth  : BitVec 8
  wait   : Wait
  /-- How many handlers and gates of other splits stop this split (R320, R337). -/
  stops  : Nat
  /-- Whether its next instruction can issue, as the present step found it (R60 to R62, R65). -/
  ready  : Bool
  /-- Ready-since time (R65, R344). -/
  since  : Nat
  /-- The port of its present run of grants (R66), how many consecutive cycles it has held it while others waited, and the
  deferral for a reservation. -/
  port   : Nat
  held   : Nat
  defer  : Bool
  /-- The bearing record that its BLD or BST is transferring. -/
  record : RecordPart := {}
  deriving DecidableEq, Repr

/-- The units whose results arrive after issue (R147, R197, R62). -/
inductive UnitKind
  | sfu | conv | bear | load | atomic
  deriving DecidableEq, Repr

/-- Where the response of a load comes from, for its timeout (R342). -/
inductive LoadPath
  | local | host | fabric
  deriving DecidableEq, Repr

/-- An operation in flight: a queued SFU, conversion or bearing operation, or an outstanding load or atomic. -/
structure Flight where
  id     : Nat
  unit   : UnitKind
  path   : LoadPath
  /-- The bearing register that the operation will write. -/
  bear   : Option (BitVec 3)
  /-- Peer node in bits [15:0] and peer domain in [20:16] of a fabric access. -/
  peer   : Nat := 0
  /-- The virtual address of a host or fabric access: its first lane's (R385). -/
  addr   : Nat := 0
  /-- The lanes whose SATF it sets when it completes (R166). -/
  satf   : Mask := 0
  /-- The lanes whose access goes to the host or a peer, lane 0 standing for a scalar one: a timeout yields zero there (R342). -/
  remote : Mask := 0
  deriving DecidableEq, Repr

/-- A watch (R64) with the state of R39. -/
structure Watch where
  resident : Bool
  ref      : WatchRef
  /-- Core 0-639 and slot 0-17 (R326). -/
  core     : Nat
  slot     : Nat
  /-- The launch's domain, and the executing domain, which differs inside a gate (R326, R337). -/
  home     : Nat
  dom      : Nat
  /-- 0 critical, 1 normal, 2 leeway. -/
  cls      : Nat
  ewidth   : Nat
  blocks   : Nat
  watches  : Nat
  code     : DWord
  traph    : DWord
  rejoinAt : DWord
  rejoinN  : Nat
  spadRows : Nat
  /-- Spill rows of the watch (R91). -/
  spill    : Nat
  /-- FEATMASK when the context started (R333). -/
  feat     : DWord
  ks       : List Mask
  bears    : List Bearing
  bovf     : Bool
  shapes   : List Shape
  segs     : List Seg
  ntid     : BitVec 12
  caddies  : List CaddyFrame
  lanes    : List Lane
  flights  : List Flight
  /-- The issuing split and the other splits. -/
  sp       : Split
  sibs     : List Split
  deriving DecidableEq, Repr

/-- A launch record (R301) as read when its node was inserted, with the rejoin section of its code object (R396). -/
structure LaunchRec where
  va       : DWord
  gangs    : Nat
  blocks   : Nat
  watches  : Nat
  ewidth   : Nat
  cls      : Nat
  prio     : Nat
  caddy    : Nat
  sprows   : Nat
  spill    : Nat
  accrows  : Nat
  code     : DWord
  entry    : DWord
  traph    : DWord
  argptr   : DWord
  argsize  : Nat
  segs     : List Seg
  signal   : DWord
  cntbuf   : DWord
  pilot    : Option Nat
  replay   : Bool
  notify   : Bool
  rejoinAt : DWord
  rejoinN  : Nat
  deriving DecidableEq, Repr

inductive LaunchPhase
  | ready | running | doneUnvouched | closed
  deriving DecidableEq, Repr

/-- A numeric event count of a staging record (R153): slot 0-63, event kind (0 saturation, 1 flush, 2 NaN produced). -/
structure EventCount where
  slot  : Nat
  kind  : Nat
  count : Nat
  deriving DecidableEq, Repr

/-- An entry of a core's table of numeric events (R153): its key, and the counts of saturations, flushes and NaNs produced. -/
structure CountEntry where
  core   : Nat
  launch : Nat
  gang   : Nat
  slot   : Nat
  sat    : Nat
  flush  : Nat
  nan    : Nat
  deriving DecidableEq, Repr

/-- A block that ended, waiting for its cores to vouch for it (R389): gang index, block, cores that still must, and those whose
sight drain had saved it. -/
structure VouchBlock where
  gang  : Nat
  block : Nat
  cores : List Nat
  drained : List Nat := []
  endAt : Nat
  suspect : Bool
  deriving DecidableEq, Repr

/-- A batch of gang indices handed to a die (R17, R318): the indices not yet placed are `next` … `stop` - 1. -/
structure Batch where
  die   : Nat
  start : Nat
  stop  : Nat
  next  : Nat
  deriving DecidableEq, Repr

/-- A launch from the moment its node becomes READY (R308, R310) until it is vouched (R389). -/
structure Launch where
  id      : Nat
  dom     : Nat
  recd    : LaunchRec
  /-- The node's table index; none for an anonymous node (R313), whose successors are `succ`. -/
  node    : Option Nat
  succ    : List Nat
  home    : Nat
  prio    : Nat
  seq     : Nat
  readyAt : Nat
  phase   : LaunchPhase
  /-- The pilot die, from when it runs (R17, R318), which holds the gang-index counter, and the indices that the counter passes
  over: gangs of a lost pilot's batches that had ended. -/
  pilot   : Nat := 0
  handed  : Nat
  skip    : List Nat := []
  batches : List Batch
  /-- A gang was killed and not relaunched: the launch ends FAULTED (R315). -/
  faulted : Bool
  /-- The word of R317 for a node fired by a tag. -/
  payload : Option DWord
  /-- The forking gang (R316): launch number and gang index. -/
  parent  : Option (Nat × Nat)
  vouch   : List VouchBlock
  /-- The reset of its domain ended it (R367). -/
  reset   : Bool
  deriving DecidableEq, Repr

inductive GangPhase
  | placed | saved | swapped | relaunch
  deriving DecidableEq, Repr

/-- Where a block stands: its core, scratchpad rows, spill rows, accumulator rows, cores it has run on. -/
structure BlockPlace where
  core  : Nat
  row   : Nat
  acc   : Nat
  lent  : Bool
  ran   : List Nat
  /-- Cores whose sight drain saved the block, and on which it has not run since (R389). -/
  drained : List Nat := []
  ended : Bool
  deriving DecidableEq, Repr

/-- The state of one accumulator row (R272): ANCHOR, AEXC, NANSEEN, INFSEEN. -/
structure AccRow where
  anchor : BitVec 10
  aexc   : Bool
  nan    : Bool
  inf    : Bool
  deriving DecidableEq, Repr

/-- The SAVE area of a gate that a watch of a saved gang is in: the stretches of memory that its image fills, and whether a write has
altered them (R347). -/
structure SaveArea where
  watch   : WatchRef
  spans   : List (Nat × Nat)
  altered : Bool := false
  deriving DecidableEq, Repr

/-- A gang from placement to its end: placed, saved for pre-emption, or swapped out by JOIN (R310, R316, R340, R348). -/
structure Gang where
  launch   : Nat
  idx      : Nat
  phase    : GangPhase
  places   : List BlockPlace
  /-- The running number of its join count (R316). -/
  join     : Nat
  /-- Generations of BARRIER.BLOCK for each block, of BARRIER.GANG, and of JOIN (R249, R316). -/
  bgen     : List Nat
  ggen     : Nat
  jgen     : Nat
  /-- The staging record (R153), and the counter buffer's tensor-ID list as read at block start (R154). -/
  staging  : List EventCount
  tids     : List Nat
  /-- The first 4 KiB unit of its slot in its domain's save pool (R310, R348); the stretches of memory that its image fills while it is
  saved, with the offsets of bytes that a write has altered; and the SAVE areas of the gates that its watches are in. -/
  unit     : Nat := 0
  image    : List (Nat × Nat) := []
  altered  : List Nat := []
  saves    : List SaveArea := []
  /-- Its SEQ in the ready pool, and the device time at which it returned there (R310, R340). -/
  seq      : Nat
  back     : Nat
  /-- The saved watches of the image (R347, R348); its scratchpad and accumulator rows stand in the stores themselves, under
  keys of the gang's own. -/
  watches  : List Watch
  deriving DecidableEq, Repr

/-- A WAITING table node (R306, R307): its counter, and what insertion read. -/
structure Node where
  dom     : Nat
  idx     : Nat
  counter : Nat
  home    : Nat
  prio    : Nat
  succ    : List Nat
  recd    : LaunchRec
  payload : Option DWord
  parent  : Option (Nat × Nat)
  deriving DecidableEq, Repr

/-- The engine of a command and its majors (R7, R257). -/
inductive EngKind
  | cpy | cpys | cpyp (ranks : Nat) | gthr | scat | coll (kind : BitVec 2) (op : BitVec 2) (root : Nat)
  deriving DecidableEq, Repr

/-- A collective's group as read at issue (R266). -/
structure Group where
  va      : DWord
  seq     : DWord
  members : List (BitVec 21)
  rank    : Nat
  deriving DecidableEq, Repr

/-- A queued or running command of a copy, gather or collective engine. Its work is `total` units, of which `done` are done: a
unit is a tile position, a row of GTHR and SCAT, or an aligned 16-byte part of CPYS. -/
structure EngCmd where
  id      : Nat
  kind    : EngKind
  /-- Cluster 0-159, or 160 + collective engine 0-3. -/
  place   : Nat
  watch   : WatchRef
  split   : Nat
  core    : Nat
  dom     : Nat
  cls     : Nat
  path    : Nat
  a       : Shape
  b       : Shape
  c       : Shape
  obj     : Nat
  /-- Bytes counted into each barrier object (R267). -/
  bytes   : Nat
  group   : Option Group
  total   : Nat
  done    : Nat
  wclass  : BitVec 2
  /-- The page whose recoverable fault holds it (R270), and whether its domain is switched out (R271). -/
  stall   : Option Nat
  paused  : Bool
  /-- The peer of a tagged message: node, domain, and the window's first address (R380). -/
  message : Option (Nat × Nat × Nat) := none
  /-- Whether what it sends to other modules, its local piece or its message, has gone (R267, R380), and what has been read of it: codes
  of the piece, or bytes of the message. -/
  sent    : Bool := true
  read    : List Nat := []
  /-- The increment of SEQ is still to be written (R266, R270). -/
  seqDue  : Bool := false
  /-- The STATUS with which a collective ends early (R268). -/
  ended   : Option Nat := none
  /-- Half bytes, as twice the key and one more for the high half, that commands which arrived later at its engine have written: their
  values stay (R269). -/
  overlaid : List Nat := []
  deriving DecidableEq, Repr

/-- A running pass: its array, its time in cycles, and the pass limit under which it was granted (R288, R411). -/
structure Run where
  array  : Nat
  cycles : Nat
  limit  : Nat
  deriving DecidableEq, Repr

/-- What a matrix command does (R284). -/
inductive MatOp
  | product (paired : Bool)
  | accinit (anchor : BitVec 10)
  | accrd | accrdw | accadd | accstat
  deriving DecidableEq, Repr

/-- A matrix command in a cluster's reservation table, in arrival order (R286); its core is the one its block stands on. -/
structure MatCmd where
  id      : Nat
  core    : Nat
  watch   : WatchRef
  split   : Nat
  dom     : Nat
  /-- Effective priority (R284). -/
  prio    : Nat
  nopre   : Bool
  op      : MatOp
  major   : Nat
  a       : Shape
  b       : Shape
  obj     : Nat
  row     : Nat
  col     : Nat
  /-- Rows of ACCINIT and ACCSTAT, and the address that ACCSTAT writes to. -/
  rows    : Nat
  addr    : Nat
  /-- The block on the partner core, under PAIR and in column mode (R290). -/
  pair    : Option Nat
  /-- ZERO of a readout, or CLR of ACCSTAT. -/
  clear   : Bool
  /-- Bytes to count, and units of the accumulator port's work. -/
  bytes   : Nat
  total   : Nat
  done    : Nat
  /-- Granules of K that the leader's and the partner's shares have done (R288, R290). -/
  left    : Nat
  right   : Nat
  /-- Arrays that run its present pass. -/
  running : List Run
  /-- Grants that a paired request has waited through, and whether it holds (R287). -/
  waited  : Nat
  holding : Bool
  /-- A NaN produced has been recorded (R299). -/
  made    : Bool
  stall   : Option Nat
  /-- It stands in its gang's image (R297). -/
  saved   : Bool
  deriving DecidableEq, Repr

/-- A TLB entry: translation unit (core 0-639, or 640 + cluster for engines, 800 + I/O die), domain, virtual page, and the
mapping (R354, R355). -/
structure TlbEntry where
  unit  : Nat
  dom   : Nat
  vpage : Nat
  page  : Nat
  r     : Bool
  w     : Bool
  host  : Bool
  hc    : Bool
  deriving DecidableEq, Repr

/-- An entry of a die's walk cache (R355): a level-3 or level-2 entry of a domain's tables, for the virtual pages whose number
begins with `index`. -/
structure WalkEntry where
  die   : Nat
  dom   : Nat
  level : Nat
  index : Nat
  entry : DWord
  /-- The partition, its first page and its pages, that its frame is relative to, as the walk found them: so it leads to a
  device-physical page. -/
  part  : Nat × Nat
  deriving DecidableEq, Repr

/-- A retained line of a slice: its die, domain, range, slice, and line number of 512 bytes (R218, R220). -/
structure Retained where
  die   : Nat
  dom   : Nat
  range : Nat
  slice : Nat
  line  : Nat
  deriving DecidableEq, Repr

/-- An entry of the indirection table (R357). -/
structure IdtEntry where
  page   : Nat
  frame  : Nat
  outer  : Bool
  pin    : Bool
  moving : Bool
  zp     : Bool
  deriving DecidableEq, Repr

/-- Who waits on a page request (R363): a split of a watch, or an engine command, matrix command or I/O agent. -/
inductive Waiter
  | split (w : WatchRef) (id : Nat)
  | cmd (id : Nat)
  | io (q : Nat)
  /-- The dispatcher, for a gang whose first core is this one (R303). -/
  | place (core : Nat)
  deriving DecidableEq, Repr

/-- A page-request entry (R363, R364). `sent` when its record stands in the ring. -/
structure PageReq where
  tag     : Nat
  dom     : Nat
  vpage   : Nat
  own     : Bool
  write   : Bool
  engine  : Bool
  sent    : Bool
  waiters : List Waiter
  deriving DecidableEq, Repr

inductive KeyState
  | free | loaded | retiring
  deriving DecidableEq, Repr

/-- A key slot (R361, R362). -/
structure KeySlot where
  state : KeyState
  key   : BitVec 512
  deriving DecidableEq, Repr

/-- A standing pre-emption request of a domain on a core (R340), oldest first: soft, with the grace timer running, or at the hard
step, with the kill timer running; `window` while the response window of R342 is open, from the request on. -/
structure Preempt where
  core   : Nat
  dom    : Nat
  hard   : Bool
  window : Bool
  /-- The kill timer has expired: what the domain had on the core is killed (R340). -/
  killed : Bool := false
  /-- When the timer that runs was started: the grace timer of a soft request, the kill timer at the hard step (R340). -/
  begun  : Nat := 0
  deriving DecidableEq, Repr

/-- A request of an owner domain that waits for lent rows (R350): the cores whose leeway contexts it revokes, and the gang to be placed. -/
structure Reclaim where
  cores  : List Nat
  launch : Nat
  gang   : Nat
  deriving DecidableEq, Repr

/-- The world-switch position of a core (R365): index in WSLIST of the current domain, the outgoing domain while it is being
switched out, and by how many cycles the present slice is shortened (R346). -/
structure Slice where
  core    : Nat
  index   : Nat
  leaving : Option Nat
  short   : Nat
  deriving DecidableEq, Repr

/-- The sight controller of a die (R388, R389): the core tested last or under test, the core being drained with its response
window, whether a retry runs, the device time at which the pass began, and the launches with a suspect block while a retry runs. -/
structure Sight where
  pos      : Nat
  testing  : Bool
  next     : Option Nat
  window   : Bool
  retry    : Bool
  begun    : Nat
  suspects : List Nat
  deriving DecidableEq, Repr

/-- What a pending change does to a completion signal (R376): decrement DONE or VOUCHED, or write an error into DONE,
VOUCHED or both. -/
inductive SigChange
  | dec (vouched : Bool)
  | err (done vouched : Bool) (cls reason : Nat)
  deriving DecidableEq, Repr

/-- What a grant of caddy blocks completes: a CGROW.WAIT, or a call with n vector and m scalar arguments (R118). -/
inductive CaddyUse
  | grow
  | call (n m : Nat) (target : DWord)
  deriving DecidableEq, Repr

/-- A request for caddy blocks, in arrival order (R118). -/
structure CaddyReq where
  core   : Nat
  pool   : Nat
  watch  : WatchRef
  split  : Nat
  blocks : Nat
  use    : CaddyUse
  deriving DecidableEq, Repr

/-- A completion-signal change on a host page, in flight as a PCIe CAS (R376, R436). -/
structure SigOp where
  id     : Nat
  launch : Nat
  dom    : Nat
  va     : Nat
  /-- The memory key of the signal, as it was translated when the change was made. -/
  key    : Nat
  change : SigChange
  notify : Bool
  deriving DecidableEq, Repr

/-- An armed tag (R317). -/
structure Armed where
  dom  : Nat
  tag  : Nat
  node : Nat
  deriving DecidableEq, Repr

/-- A tagged message that waits for ring space (R380). -/
structure Message where
  dom  : Nat
  node : Nat
  peer : Nat
  tag  : Nat
  data : List Byte
  deriving DecidableEq, Repr

/-- What the module has sent out through an Exvor port (R379 to R381), in order. -/
inductive Outgoing
  | load (node dom : Nat) (addr n : Nat)
  | store (node dom : Nat) (addr : Nat) (data : List Byte)
  | atomic (node dom : Nat) (addr : Nat) (op : BitVec 4) (data : List Byte)
  | message (node dom tag : Nat) (data : List Byte)
  | piece (node dom : Nat) (seq : DWord) (data : List Byte)
  | abort (node dom : Nat) (seq : DWord)
  | reply (node dom : Nat) (data : List Byte)
  | refusal (node dom : Nat)
  deriving DecidableEq, Repr

/-- A queue notified for service (R374): `reread` while the second read of an invalid slot is due; the page whose request it
waits for, and one whose request was declined (R364). -/
structure Served where
  queue    : Nat
  reread   : Bool
  stall    : Option Nat
  declined : Option Nat
  deriving DecidableEq, Repr

/-- The command processor of an I/O die (R374): the queue it served last, and the packet it has read, with its queue and the address
of its slot. -/
structure CmdProc where
  last : Option Nat
  held : Option (Nat × Nat × List Byte)
  deriving DecidableEq, Repr

/-- An error that a check of R383 finds: a corrected one, with the hop's place in the table and the syndrome, at a memory key; an
uncorrectable one in the media or the LLC, or in a row of scratchpad or of the accumulator store; a parity error in a wake or caddy. -/
inductive Upset
  | corrected (hop syndrome key : Nat)
  | sector (key : Nat)
  | spadRow (core row : Nat)
  | accRow (core row : Nat)
  | vector (w : WatchRef) (lane pos : Nat)
  | scalar (w : WatchRef) (split pos : Nat)
  | caddy (w : WatchRef) (frame slot lane : Nat)
  deriving DecidableEq, Repr

/-- Something that happens: an event, or the issue of the split that R65 grants a port of a core (0 vector, 1 scalar and control,
2 engine). -/
inductive Act
  | event (i : Instr)
  | issue (core port : Nat)
  deriving DecidableEq, Repr

/-- One choice of what happens next: an event, an issue, the issue of the vector port and of the scalar and control port of a core in
one cycle (R115, R214), an issue that performs at most n more events of a bearing record (R223), an access of a path P1 to P6 whose
writes enter T later, a delivery whose counts come before other lanes' updates in O (R242), the entry of one late write, bytes that a
reader may go on finding as they now stand, or no longer (R226), a sector's line that a key slot fetches again from the media as another
slot's line left it there (R361), several things in one cycle, in the order of R309, or an error that a check finds (R383). -/
inductive Pick
  | event (i : Instr)
  | issue (core port : Nat)
  | cycle (core : Nat)
  | part (core port n : Nat)
  | late (i : Instr)
  | early (i : Instr)
  | enter (n : Nat)
  | behind (reader key n : Nat)
  | forget (n : Nat)
  | refetch (slot src sector : Nat)
  | together (acts : List Act)
  | upset (u : Upset)
  deriving DecidableEq, Repr

/-- How the access of a path P1 to P6 that is under way stands to T and O: its writes enter T at once, or later (R226); or its counts
take their places in O before updates of other lanes (R242, R429). -/
inductive Manner
  | now | late | early
  deriving DecidableEq, Repr

/-- Whose write it is: the path, P1 to P6, or 0 for the core path and every other agent; the engine or port whose writes of one byte keep
their order (R262, R269); the command, with its watch and split; the barrier object, by key, that counts the write, and how often its
phase has flipped since; the splits that have seen that phase complete (R227, R232); and whether a crossing point has brought it into T
(R282). -/
structure Trail where
  path  : Nat := 0
  src   : Nat := 0
  cmd   : Option Nat := none
  watch : WatchRef := ⟨0, 0, 0, 0⟩
  split : Nat := 0
  obj   : Option (Nat × Nat) := none
  seen  : List (WatchRef × Nat) := []
  crossed : Bool := false
  deriving DecidableEq, Repr

/-- A write of a path P1 to P6 that has not entered T yet, which it does as a whole (R226, R262): bytes at a key, or the low or high half
of one byte. Parts of one access share `num` and the range `whole` that they cover together. `passed` are the bytes that later writes of
its port have put into T before it, and `met` the splits that have loaded one of them (R228, R231). -/
structure LateWrite where
  trail  : Trail
  num    : Nat
  key    : Nat
  bytes  : List Byte
  half   : Option Bool := none
  whole  : Nat × Nat
  passed : List Nat := []
  met    : List (WatchRef × Nat) := []
  deriving DecidableEq, Repr

/-- A byte that a reader may still find as it stood once (R226): the reader is a path P1 to P6, or 7 + a launch for its fetches of words
(R397). `writes` are the writes that have changed it since; the splits whose commands from a number on must not find it so (R227, R232);
the bytes of releases that put an end to it when the reader finds them, and the splits whose next write does (R228, R231). -/
structure Stale where
  reader : Nat
  key    : Nat
  byte   : Byte
  writes : List Trail := []
  barred : List (WatchRef × Nat × Nat) := []
  guard  : List Nat := []
  fenced : List (WatchRef × Nat) := []
  deriving DecidableEq, Repr

/-- A split that has updated a barrier object since its last BINIT, which is the first of them, with a running number (R242). -/
structure ObjUse where
  key   : Nat
  watch : WatchRef
  split : Nat
  num   : Nat
  deriving DecidableEq, Repr

/-- The module's flash and mailbox (R404 to R410): the images in the primary and the alternate bank, one written since the last
bring-up, the replay-protected counter, the firmware that runs with its blob, and the last attestation report. -/
structure Flash where
  image     : FlashImage
  alternate : FlashImage
  pending   : Option FlashImage
  minver    : BitVec 16
  running   : FlashImage
  /-- The identity's private key, sealed (R410): no register or path returns it. -/
  sealedKey : List Byte
  report    : List Byte
  deriving DecidableEq, Repr

/-- The state of the machine. -/
structure State where
  /-- The watch in focus, which issues, and the other resident watches. -/
  ctx      : Watch
  others   : List Watch
  /-- What happens next (the model's own): read from its head; when it is empty, a fixed policy decides. -/
  sched    : List Pick
  /-- Counter of free values and running numbers (the model's own). -/
  fresh    : Nat
  /-- The device time before truncation to 48 bits (R328). -/
  time     : Nat
  powered  : Bool
  /-- The arithmetic clock in MHz, the clock that power management is going to, and the pass limit (R288, R411). -/
  clock    : Nat
  clockTo  : Nat
  passMax  : Nat
  /-- Device-physical, host and scratchpad bytes in canonical form (R3, R201, R354). -/
  mem      : List (Nat × Byte)
  /-- Poisoned bytes (R383). -/
  poison   : List Nat
  /-- Writes of the paths P1 to P6 that have not entered T, and bytes, by key, that those paths still read as they stood (R226). -/
  late      : List LateWrite
  behind    : List Stale
  /-- How the access of the present step stands to T and O (the model's own): `now` between steps. -/
  manner    : Manner
  /-- Which splits have updated which barrier objects (R242). -/
  objUses   : List ObjUse
  /-- Copies of HC = 1 host pages (R354, R218): where (the L1 of a core 0-639, or 640, the LLC), key, byte. -/
  copies   : List (Nat × Nat × Byte)
  /-- Accumulator store: row states and cells that are not zero (R272), keyed by core, row and column. -/
  accRows  : List (Nat × AccRow)
  accCells : List (Nat × BitVec 96)
  /-- Poisoned accumulator rows (R383). -/
  accPoison : List Nat
  /-- Configuration registers that differ from their reset values. -/
  cfg      : List (Reg × DWord)
  /-- The cores' tables of numeric events, oldest entry first (R153). -/
  counts   : List CountEntry
  /-- Cores whose leeway contexts are being revoked, with whether the response window is open (R149, R342). -/
  recalls  : List (Nat × Bool)
  /-- The owners' requests that wait for rows which such a revocation frees (R350). -/
  reclaims : List Reclaim
  tlb      : List TlbEntry
  /-- The walk caches of the dies, 512 entries each (R355). -/
  walks    : List WalkEntry
  idt      : List IdtEntry
  keys     : List KeySlot
  gangs    : List Gang
  launches : List Launch
  nodes    : List Node
  /-- The active nodes whose counters the dies' counter files hold, the least recently changed first: die, domain, index (R307). -/
  file     : List (Nat × Nat × Nat)
  /-- The nodes, by domain and index, that have reached zero in the present cycle (R309, R319). -/
  fired    : List (Nat × Nat)
  seqs     : List Nat
  armed    : List Armed
  caddyQ   : List CaddyReq
  cmds     : List EngCmd
  mats     : List MatCmd
  prq      : List PageReq
  served   : List Served
  cps      : List CmdProc
  /-- Invalidations in progress: domain, first page, pages (R356). -/
  invals   : List (Nat × Nat × Nat)
  preempts : List Preempt
  /-- Ports granted out of turn by a fairness switch (R66): core, port, watch and split. -/
  turns    : List (Nat × Nat × WatchRef × Nat)
  slices   : List Slice
  sights   : List Sight
  signals  : List SigOp
  waiting  : List Message
  /-- Each with the port that the route table gives its node (R377). -/
  outgoing : List (Nat × Outgoing)
  /-- MSI-X vectors raised: function and vector (R371), newest first. -/
  msix     : List (Nat × Nat)
  /-- Tracker counts: die, page, count (R359), and page moves chosen but not made. -/
  tracker  : List (Nat × Nat × Nat)
  /-- Pages that each die's tracker chose to promote when its last period ended (R359). -/
  promoted : List (Nat × Nat)
  moves    : List (Nat × Bool)
  /-- Balances and shares of power tokens in picojoules: domain, balance, share (R366). -/
  shares   : List (Nat × Nat × Nat)
  /-- Residency sampling counts (R220): die, domain, range, slice, count. -/
  samples  : List (Nat × Nat × Nat × Nat × Nat)
  /-- Lines that the slices retain, newest first (R220). -/
  retained : List Retained
  /-- Links taken down by errors (R383): 0 PCIe, 1 + p Exvor port p. -/
  down     : List Nat
  /-- Dies out of service. -/
  deadDies : List Nat
  /-- LLC slices, HBM stacks and outer-tier channels out of service since bring-up (R406, R407). -/
  fenced   : List ModulePart
  flash    : Flash
  deriving DecidableEq, Repr

/-- Why the machine stops. -/
inductive Fault
  /-- Raised by a fetched instruction's meaning when no watch is resident: there is no context to run it in. Safe. -/
  | noContext
  deriving DecidableEq, Repr

/-- Why an instruction has no meaning. -/
inductive Refusal
  /-- Raised by exec for an instruction that is rejected by name. Safe. -/
  | notModelled (mnemonic : String)
  deriving DecidableEq, Repr

/-- A void scalar wake. -/
def SWake.empty : SWake := { ring := List.replicate 16 .void, head := 0 }
/-- A void vector wake with nesting counter 0. -/
def VWake.empty : VWake := { ring := List.replicate 32 .void, head := 0, nest := 0 }
/-- A lane that does not exist for the program: exited from entry (R18). -/
def Lane.empty : Lane :=
  { split := 0, exited := true, wake := VWake.empty, saved := [], satf := false, resv := none }
/-- The zero code of a bearing (R39). -/
def Bearing.zero : Bearing := { comps := List.replicate 256 0, norm := 0x8000 }

def Split.empty : Split :=
  { id := 0, pc := 0, swake := SWake.empty, recs := [], frames := [], caddy := 0, depth := 0, wait := .none, stops := 0,
    ready := false, since := 0, port := 0, held := 0, defer := false }

/-- The place of a watch while none is resident. -/
def Watch.empty : Watch :=
  { resident := false, ref := ⟨0, 0, 0, 0⟩, core := 0, slot := 0, home := 0, dom := 0, cls := 1, ewidth := 64, blocks := 1,
    watches := 1, code := 0, traph := 0, rejoinAt := 0, rejoinN := 0, spadRows := 0, spill := 0, feat := 0,
    ks := List.replicate 7 0, bears := List.replicate 8 Bearing.zero, bovf := false, shapes := List.replicate 16 0,
    segs := List.replicate 16 0, ntid := 0, caddies := [], lanes := List.replicate 64 Lane.empty, flights := [],
    sp := Split.empty, sibs := [] }

/-- Firmware as shipped, with a blob of PLIMIT 2,400 W, INLET 40.0 degrees, SERIAL 0, CFGVER 0 and no repair entry.
Log 8 (DESIGN CHOICE). -/
def FlashImage.shipped : FlashImage :=
  { version := 0x0100, advance := false, code := [], key := [], sig := List.replicate 1462 0,
    blob := [(0, 0x50), (1, 0x43), (2, 0x46), (3, 0x42), (5, 0x10), (16, 0x60), (17, 0x09), (20, 0x90), (21, 0x01)], blobSig := List.replicate 1462 0 }

/-- The machine after bring-up (R406): no work placed, registers at their reset values, memory with nothing listed.
Log 4 (DESIGN CHOICE), 8 (DESIGN CHOICE). -/
def State.reset : State :=
  { ctx := Watch.empty, others := [], sched := [], fresh := 0, time := 0, powered := true,
    clock := Config.nominalMHz, clockTo := Config.nominalMHz, passMax := 4096,
    mem := [], poison := [], late := [], behind := [], manner := .now, objUses := [], copies := [], accRows := [], accCells := [], accPoison := [],
    cfg := [(.bootstat, 0x0100000000000006#64)], counts := [], recalls := [], reclaims := [], tlb := [], walks := [], idt := [],
    keys := { state := .loaded, key := 0 } :: List.replicate 63 { state := .free, key := 0 },
    gangs := [], launches := [], nodes := [], file := [], fired := [], seqs := [0, 0, 0, 0], armed := [], caddyQ := [], cmds := [],
    mats := [], prq := [], served := [], cps := List.replicate 2 { last := none, held := none }, invals := [], preempts := [],
    turns := [], slices := [],
    sights := (List.range 4).map (fun d =>
      { pos := 160 * d + 159, testing := false, next := none, window := false, retry := false, begun := 0, suspects := [] }),
    signals := [], waiting := [], outgoing := [], msix := [], tracker := [], promoted := [], moves := [], shares := [],
    samples := [], retained := [],
    down := [], deadDies := [], fenced := [],
    flash :=
      { image := FlashImage.shipped, alternate := FlashImage.shipped, pending := none, minver := 0, running := FlashImage.shipped,
        sealedKey := [], report := [] } }

end Sys2Proof.Machine
end

