-- ==== Sys2Proof/Machine/Bits.lean ====
section
/-!
DEFINITION. Bit fields, byte order (R3), masks over lanes, and maps over numbered lists.
-/
namespace Sys2Proof.Machine

/-- The bytes of a number, lowest first (R3). -/
def leBytes : Nat → Nat → List Byte
  | 0, _ => []
  | n + 1, v => BitVec.ofNat 8 v :: leBytes n (v / 256)

/-- The number whose bytes these are, lowest first (R3). -/
def leNat : List Byte → Nat
  | [] => 0
  | b :: bs => b.toNat + 256 * leNat bs

/-- Bits lo … lo + n - 1 of a number. -/
def bitsAt (v lo n : Nat) : Nat := v / 2 ^ lo % 2 ^ n

/-- Apply `f` to every member with its index, counting from `i`. -/
def mapFrom {α β : Type} (f : Nat → α → β) : Nat → List α → List β
  | _, [] => []
  | i, a :: as => f i a :: mapFrom f (i + 1) as

/-- The indices, from `i` on, of the members that satisfy `p`. -/
def idxsFrom {α : Type} (p : α → Bool) : Nat → List α → List Nat
  | _, [] => []
  | i, a :: as => if p a then i :: idxsFrom p (i + 1) as else idxsFrom p (i + 1) as

/-- The number whose bit i is `p` of member i. -/
def bitsOf {α : Type} (p : α → Bool) : List α → Nat
  | [] => 0
  | a :: as => (if p a then 1 else 0) + 2 * bitsOf p as

/-- The mask of the lanes that satisfy `p`, of at most 64 (R113). -/
def maskWhere {α : Type} (p : α → Bool) (ls : List α) : Mask := BitVec.ofNat 64 (bitsOf p ls)

/-- Whether a mask holds lane l (R113). -/
def has (m : Mask) (l : Nat) : Bool := m.getLsbD l

/-- The mask of lane l alone. -/
def lane1 (l : Nat) : Mask := BitVec.ofNat 64 (2 ^ l)

/-- The lanes 0 … n - 1. -/
def lanesUpTo (n : Nat) : Mask := BitVec.ofNat 64 (2 ^ n - 1)

/-- The lanes of a mask in ascending index. -/
def lanesIn (m : Mask) : List Nat := (List.range 64).filter (has m)

/-- The lane numbers whose predicate holds, as a mask. -/
def maskOf (p : Nat → Bool) : Mask := maskWhere p (List.range 64)

/-- How many bits of a word of n bits are one. -/
def popCount : Nat → Nat → Nat
  | 0, _ => 0
  | n + 1, v => v % 2 + popCount n (v / 2)

/-- The lowest set bit below n, or n. -/
def lowBit : Nat → Nat → Nat
  | 0, _ => 0
  | n + 1, v => if v % 2 = 1 then 0 else 1 + lowBit n (v / 2)

/-- The number of zero bits above the highest set bit of a word of n bits. -/
def leadZeros : Nat → Nat → Nat
  | 0, _ => 0
  | n + 1, v => if v / 2 ^ n % 2 = 1 then 0 else 1 + leadZeros n v

/-- The n low bits in reverse order. -/
def revBits : Nat → Nat → Nat
  | 0, _ => 0
  | n + 1, v => v % 2 * 2 ^ n + revBits n (v / 2)

/-- The number read as an n-bit two's-complement value. -/
def signed (n v : Nat) : Int :=
  if v % 2 ^ n < 2 ^ (n - 1) then (v % 2 ^ n : Nat) else ((v % 2 ^ n : Nat) : Int) - (2 ^ n : Nat)

/-- The n-bit two's-complement pattern of an integer, by wrapping. -/
def wrap (n : Nat) (v : Int) : Nat := (v % ((2 ^ n : Nat) : Int)).toNat

/-- Member i of a list of masks, bearings and so on, replaced. -/
def setAt {α : Type} : List α → Nat → α → List α
  | [], _, _ => []
  | _ :: as, 0, v => v :: as
  | a :: as, i + 1, v => a :: setAt as i v

/-- Change the first element that satisfies `p`. -/
def modFirst (p : α → Bool) (f : α → α) : List α → List α
  | [] => []
  | a :: as => if p a then f a :: as else a :: modFirst p f as

/-- Update member i. -/
def modAt {α : Type} (f : α → α) : List α → Nat → List α
  | [], _ => []
  | a :: as, 0 => f a :: as
  | a :: as, i + 1 => a :: modAt f as i

/-- Replace, or add in front, the value of a key in a list of pairs. -/
def putKey {κ ν : Type} [DecidableEq κ] (k : κ) (v : ν) : List (κ × ν) → List (κ × ν)
  | [] => [(k, v)]
  | p :: ps => if p.1 = k then (k, v) :: ps else p :: putKey k v ps

/-- The value of a key, or a default. -/
def getKey {κ ν : Type} [DecidableEq κ] (k : κ) (d : ν) : List (κ × ν) → ν
  | [] => d
  | p :: ps => if p.1 = k then p.2 else getKey k d ps

/-- Insert before the first member that `f` ranks strictly later, so that equal ranks keep their order of arrival. -/
def insertBy {α : Type} (before : α → α → Bool) (a : α) : List α → List α
  | [] => [a]
  | b :: bs => if before a b then a :: b :: bs else b :: insertBy before a bs

/-- The lists of n consecutive members. -/
def chunks {α : Type} (n : Nat) : Nat → List α → List (List α)
  | 0, _ => []
  | k + 1, l => l.take n :: chunks n k (l.drop n)

/-- Write field [lo + n - 1 : lo] of a 64-bit word. -/
def setField (w : DWord) (lo n v : Nat) : DWord :=
  let m := BitVec.ofNat 64 ((2 ^ n - 1) * 2 ^ lo)
  (w &&& ~~~m) ||| (BitVec.ofNat 64 (v % 2 ^ n * 2 ^ lo))

/-- Field [lo + n - 1 : lo] of a 64-bit word as a number. -/
def field (w : DWord) (lo n : Nat) : Nat := bitsAt w.toNat lo n

end Sys2Proof.Machine
end

