-- ==== Sys2Proof/Machine/Formats.lean ====
section
/-!
DEFINITION. Number formats (R122 to R128), exact values, and the one rounding of each format (R129, R128).
-/
namespace Sys2Proof.Machine

/-- An exact value of a float format: NaN, an infinity, or (-1)^neg * m * 2^e. -/
inductive FVal
  | nan
  | inf (neg : Bool)
  | num (neg : Bool) (m : Nat) (e : Int)
  deriving DecidableEq, Repr

/-- A binary float format: precision with the hidden bit, smallest normal exponent, width in bits, and whether it has
infinities and IEEE NaNs (R122) or only finite codes and one NaN (R124 to R126). -/
structure FFmt where
  prec : Nat
  emin : Int
  bits : Nat
  ieee : Bool
  deriving DecidableEq, Repr

end Sys2Proof.Machine

namespace Sys2Proof
open Sys2Proof.Machine

/-- The format of a float TYPE; F32 for the other codes. -/
def Ty.ffmt : Ty → FFmt
  | .f16 => ⟨11, -14, 16, true⟩
  | .bf16 => ⟨8, -126, 16, true⟩
  | .f8a => ⟨4, -6, 8, false⟩
  | .f8b => ⟨3, -14, 8, false⟩
  | .f4 => ⟨2, 0, 4, false⟩
  | _ => ⟨24, -126, 32, true⟩

def Ty.isFloat : Ty → Bool
  | .f32 | .f16 | .bf16 | .f8a | .f8b | .f4 => true
  | _ => false

/-- Width of one element in bits (R94, R142). -/
def Ty.width : Ty → Nat
  | .f32 | .i32 | .n32 | .b32 => 32
  | .f16 | .bf16 | .i16 | .n16 => 16
  | .f8a | .f8b | .i8 | .n8 => 8
  | .f4 | .i4 | .n4 => 4
  | .i64 => 64

/-- Access size of a type in bytes (R208). -/
def Ty.bytes (t : Ty) : Nat := t.width / 8

/-- Elements of one 32-bit entry, or 1 for a 64-bit value (R94, R142). -/
def Ty.count (t : Ty) : Nat := if t = .i64 then 1 else 32 / t.width

/-- Whether elements are read as two's complement (R94). -/
def Ty.isSigned : Ty → Bool
  | .i32 | .i16 | .i8 | .i4 | .i64 => true
  | _ => false

end Sys2Proof

namespace Sys2Proof.Machine

/-- The exponent of the format's lowest bit. -/
def FFmt.qmin (f : FFmt) : Int := f.emin - (f.prec - 1 : Nat)

/-- The magnitude field's largest value: all ones of exponent and fraction. -/
def FFmt.allOnes (f : FFmt) : Nat := 2 ^ (f.bits - 1) - 1

/-- The magnitude code of +infinity in an IEEE format. -/
def FFmt.infCode (f : FFmt) : Nat := 2 ^ (f.bits - 1) - 2 ^ (f.prec - 1)

/-- The canonical NaN (R123). -/
def FFmt.nanCode (f : FFmt) : Nat := if f.ieee then f.infCode + 2 ^ (f.prec - 2) else 2 ^ (f.bits - 1)

/-- The magnitude code of the largest finite value. -/
def FFmt.maxCode (f : FFmt) : Nat := if f.ieee then f.infCode - 1 else f.allOnes

/-- The value of a code. -/
def FFmt.decode (f : FFmt) (code : Nat) : FVal :=
  let neg := decide (1 ≤ code / 2 ^ (f.bits - 1) % 2)
  let mag := code % 2 ^ (f.bits - 1)
  let ef := mag / 2 ^ (f.prec - 1)
  let fr := mag % 2 ^ (f.prec - 1)
  if f.ieee ∧ f.infCode ≤ mag then (if mag = f.infCode then .inf neg else .nan)
  else if ¬ f.ieee ∧ neg ∧ mag = 0 then .nan
  else if ef = 0 then .num neg fr f.qmin
  else .num neg (2 ^ (f.prec - 1) + fr) (f.qmin + (ef - 1 : Nat))

/-- Whether a rounding mode moves a value whose discarded part is `rem` of `unit` away from zero (R44). -/
def roundsUp (r : Rnd) (neg : Bool) (quo rem unit : Nat) : Bool :=
  match r with
  | .ne => decide (unit < 2 * rem) || (2 * rem == unit && quo % 2 == 1)
  | .tz => false
  | .dn => neg && rem != 0
  | .up => !neg && rem != 0

/-- m * 2^e as a multiple of 2^q, rounded. -/
def roundAt (r : Rnd) (neg : Bool) (m : Nat) (e q : Int) : Nat :=
  if q ≤ e then m * 2 ^ (e - q).toNat
  else
    let u := 2 ^ (q - e).toNat
    m / u + (if roundsUp r neg (m / u) (m % u) u then 1 else 0)

/-- The magnitude code of m * 2^e rounded on the grid of a format, with the exponent unbounded above. -/
def FFmt.magnitude (f : FFmt) (r : Rnd) (neg : Bool) (m : Nat) (e : Int) : Nat :=
  if m = 0 then 0
  else
    let top : Int := (Nat.log2 m : Nat) + e
    let q := max top f.emin - (f.prec - 1 : Nat)
    (q - f.qmin).toNat * 2 ^ (f.prec - 1) + roundAt r neg m e q

/-- A sign and a magnitude code as a code. -/
def FFmt.signed (f : FFmt) (neg : Bool) (mag : Nat) : Nat := (if neg then 2 ^ (f.bits - 1) else 0) + mag

/-- Round an exact value to a format (R128, R129): the code, and whether the conversion saturated. -/
def FFmt.round (f : FFmt) (r : Rnd) (v : FVal) : Nat × Bool :=
  match v with
  | .nan => (f.nanCode, false)
  | .inf neg => if f.ieee then (f.signed neg f.infCode, false) else (f.signed neg f.maxCode, true)
  | .num neg m e =>
    if f.ieee then
      let mag := f.magnitude r neg m e
      if mag < f.infCode then (f.signed neg mag, false)
      else
        let toInf := match r with
          | .ne => true
          | .tz => false
          | .dn => neg
          | .up => !neg
        (f.signed neg (if toInf then f.infCode else f.maxCode), false)
    else
      let mag := f.magnitude .ne neg m e
      if f.maxCode < mag then (f.signed neg f.maxCode, true)
      else if mag = 0 then (0, false)
      else (f.signed neg mag, false)

/-- An integer as an exact value. -/
def FVal.ofInt (i : Int) : FVal := .num (decide (i < 0)) i.natAbs 0

/-- A value rounded to an integer multiple of 1 (R138, R145): its magnitude. -/
def FVal.toIntMag (r : Rnd) (neg : Bool) (m : Nat) (e : Int) : Nat := roundAt r neg m e 0

/-- Negation and magnitude act on the sign bit (R130). -/
def FVal.neg : FVal → FVal
  | .nan => .nan
  | .inf n => .inf (!n)
  | .num n m e => .num (!n) m e
def FVal.abs : FVal → FVal
  | .nan => .nan
  | .inf _ => .inf false
  | .num _ m e => .num false m e

def FVal.isNan : FVal → Bool
  | .nan => true
  | _ => false
def FVal.isZero : FVal → Bool
  | .num _ 0 _ => true
  | _ => false
def FVal.isNeg : FVal → Bool
  | .nan => false
  | .inf n => n
  | .num n _ _ => n

/-- The signed integer (-1)^neg * m * 2^(e - q), for q at most e. -/
def scaled (neg : Bool) (m : Nat) (e q : Int) : Int :=
  let v : Int := (m * 2 ^ (e - q).toNat : Nat)
  if neg then -v else v

/-- The exact sum, with the sign of an exact zero by rounding mode (R129); NaN for infinities of opposite sign. -/
def FVal.add (r : Rnd) (a b : FVal) : FVal :=
  match a, b with
  | .nan, _ => .nan
  | _, .nan => .nan
  | .inf n, .inf n' => if n = n' then .inf n else .nan
  | .inf n, .num .. => .inf n
  | .num .., .inf n => .inf n
  | .num n m e, .num n' m' e' =>
    let q := min e e'
    let t := scaled n m e q + scaled n' m' e' q
    if t = 0 then .num (if n = n' then n else decide (r = .dn)) 0 q
    else .num (decide (t < 0)) t.natAbs q

/-- The exact product; NaN for zero times an infinity. -/
def FVal.mul (a b : FVal) : FVal :=
  match a, b with
  | .nan, _ => .nan
  | _, .nan => .nan
  | .inf n, .inf n' => .inf (n != n')
  | .inf n, .num n' m _ => if m = 0 then .nan else .inf (n != n')
  | .num n m _, .inf n' => if m = 0 then .nan else .inf (n != n')
  | .num n m e, .num n' m' e' => .num (n != n') (m * m') (e + e')

/-- a * b + c, exact (R133). -/
def FVal.fma (r : Rnd) (a b c : FVal) : FVal := (a.mul b).add r c

/-- The quotient to enough bits that every rounding of it is right: the lowest bit is sticky (R134). -/
def FVal.div (a b : FVal) : FVal :=
  match a, b with
  | .nan, _ => .nan
  | _, .nan => .nan
  | .inf _, .inf _ => .nan
  | .inf n, .num n' _ _ => .inf (n != n')
  | .num n _ _, .inf n' => .num (n != n') 0 0
  | .num n m e, .num n' m' e' =>
    if m' = 0 then (if m = 0 then .nan else .inf (n != n'))
    else
      let k : Nat := 80
      .num (n != n') (2 * (m * 2 ^ k / m') + (if m * 2 ^ k % m' = 0 then 0 else 1)) (e - e' - (k : Nat) - 1)

/-- The integer square root, by its bits from bit n - 1 down. -/
def isqrt (x : Nat) : Nat → Nat → Nat
  | 0, r => r
  | n + 1, r => isqrt x n (if (r + 2 ^ n) * (r + 2 ^ n) ≤ x then r + 2 ^ n else r)

/-- The square root to enough bits, with a sticky lowest bit (R134). -/
def FVal.sqrt (a : FVal) : FVal :=
  match a with
  | .nan => .nan
  | .inf n => if n then .nan else .inf false
  | .num n m e =>
    if m = 0 then .num n 0 e
    else if n then .nan
    else
      let m' := if e % 2 = 0 then m * 2 ^ 80 else m * 2 ^ 81
      let e' := if e % 2 = 0 then e - 80 else e - 81
      let r := isqrt m' 64 0
      .num false (2 * r + (if r * r = m' then 0 else 1)) (e' / 2 - 1)

/-- Comparison of two values that are not NaN. -/
def FVal.lt (a b : FVal) : Bool :=
  match a, b with
  | .nan, _ => false
  | _, .nan => false
  | .inf n, .inf n' => n && !n'
  | .inf n, .num .. => n
  | .num .., .inf n => !n
  | .num n m e, .num n' m' e' => decide (scaled n m e (min e e') < scaled n' m' e' (min e e'))

/-- Equality of values, with +0 equal to -0 (R131). -/
def FVal.eqv (a b : FVal) : Bool := !a.isNan && !b.isNan && !a.lt b && !b.lt a

/-- The value of an S8 scale code (R127): none for the zero block's 0x00, which is zero, NaN for 0xFF. -/
def s8Value (c : Nat) : FVal :=
  if c = 0 then .num false 0 0
  else if c = 255 then .nan
  else .num false (8 + c % 8) ((c / 8 : Nat) - 19)

/-- Conversion to S8 (R127). -/
def toS8 (v : FVal) : Nat :=
  match v with
  | .nan => 255
  | .inf _ => 254
  | .num _ m e =>
    if m = 0 then 0
    else
      let top : Int := (Nat.log2 m : Nat) + e
      let q := top - 3
      let n := roundAt .ne false m e q
      let code : Int := (q + 18) * 8 + (n : Int)
      if code < 1 then 1 else if 254 < code then 254 else code.toNat

end Sys2Proof.Machine
end

