-- ==== Sys2Proof/WellFormed.lean ====
section
/-!
DEFINITION. Well-formed instructions: the field values each class accepts (checks of R55 order 3, by the table of each class).
A word whose fields break one raises ILLFIELD. A step of the device or the host (spec/95) is no word, so it is not well-formed
in this sense.
-/
namespace Sys2Proof

/-- A scalar age or an immediate (R42). -/
def Opnd.si : Opnd → Bool
  | .s _ | .imm _ => true
  | _ => false

/-- What an operand field of an instruction may name. -/
inductive Kind
  /-- Not used: 0x00. -/
  | no
  /-- Any space (R40). -/
  | any
  /-- A scalar age or an immediate (R42). -/
  | si
  /-- A scalar age, an immediate, or 0x00 for no operand (R102, R168, R195). -/
  | siOpt
  /-- A vector age (R168, R185). -/
  | vec
  /-- A caddy slot (R116). -/
  | cad
  /-- A vector age at most 28 or a caddy slot at most 60 (R213). -/
  | quad
  deriving DecidableEq, Repr

/-- Whether an operand stands in its space, and a 64-bit one inside it (R33, R37). -/
def Kind.ok (k : Kind) (wide : Bool) (o : Opnd) : Bool :=
  (match k with
  | .no => o == .w 0
  | .any => true
  | .si => o.si
  | .siOpt => o.si || o == .w 0
  | .vec => match o with
    | .w _ => true
    | _ => false
  | .cad => match o with
    | .c _ => true
    | _ => false
  | .quad => match o with
    | .w a => decide (a.toNat ≤ 28)
    | .c n => decide (n.toNat ≤ 60)
    | _ => false) &&
  (match o with
  | .w a => !wide || k == .no || k == .siOpt || decide (a.toNat < 31)
  | .c n => !wide || decide (n.toNat < 63)
  | _ => true)

/-- The common checks of a format A instruction: TYPE, SAT, RND and KSEL where they are free, and the operand fields. -/
def FmtA.ok (f : FmtA) (tys : List Ty) (sat rnd ksel wide : Bool) (a b c : Kind) : Bool :=
  tys.contains f.ty && (sat || !f.sat) && (rnd || f.rnd == .ne) && (ksel || f.k == 0) &&
  a.ok wide f.a && b.ok wide f.b && c.ok wide f.c

/-- The common checks of a format M instruction. -/
def FmtM.ok (m : FmtM) (ords : List (BitVec 2)) (evict : Nat) (tys : List Ty) (a : Kind) (wa : Bool) (b : Kind) (wb : Bool)
    (c : Kind) (wc : Bool) : Bool :=
  ords.contains m.ord && decide (m.evict.toNat ≤ evict) && tys.contains m.ty && a.ok wa m.a && b.ok wb m.b && c.ok wc m.c

/-- The common checks of a format E instruction: shape fields not used are 0, flags inside their mask. -/
def FmtE.ok (e : FmtE) (sa sb sc : Bool) (flags : Nat) (b a : Kind) : Bool :=
  (sa || e.sha == 0) && (sb || e.shb == 0) && (sc || e.shc == 0) && e.flags.toNat &&& flags == e.flags.toNat &&
  b.ok false e.b && a.ok false e.a

/-- BFX and BFI: position in [4:0], length in [13:8], both inside 32 bits (R108). -/
def bfOk (ext : BitVec 16) : Bool :=
  (ext &&& 0xC0E0#16) == 0 && decide (ext.toNat / 256 ≤ 32) && decide (ext.toNat % 32 + ext.toNat / 256 ≤ 32)

/-- The conversions' fields: source format in range, element indexes below the counts (R142). -/
def cvtOk (f : FmtA) (lo hi : Nat) : Bool :=
  let sf := f.ext.toNat % 16
  decide (lo ≤ sf) && decide (sf ≤ hi) && decide (f.ext.toNat < 4096) &&
  decide (f.ext.toNat / 16 % 16 < (Ty.ofCode (BitVec.ofNat 4 sf)).count) && decide (f.ext.toNat / 256 % 16 < f.ty.count)

/-- RND must be 0b00 for the narrow destinations (R128, R131). -/
def narrowRnd (f : FmtA) : Bool := f.rnd == .ne || f.ty == .f32 || f.ty == .f16 || f.ty == .bf16

/-- TYPE, SAT and RND of RED and SCAN by operation (R174). -/
def redOk (op : RedOp) (f : FmtA) : Bool :=
  match op with
  | .add => [Ty.i32, .n32, .i64].contains f.ty && f.rnd == .ne
  | .min | .max | .nmin | .nmax => [Ty.i32, .n32, .b32, .i64].contains f.ty && !f.sat && f.rnd == .ne
  | .and | .or | .xor => [Ty.b32, .i64].contains f.ty && !f.sat && f.rnd == .ne
  | .fadd => f.ty == .f32 && !f.sat
  | .fmin | .fmax => f.ty == .f32 && !f.sat && f.rnd == .ne

/-- The special registers SRD reads (R326). -/
def srdOk (r : Nat) : Bool :=
  decide (r ≤ 4) || (decide (8 ≤ r) && decide (r ≤ 0x0D)) || (decide (0x10 ≤ r) && decide (r ≤ 0x15)) ||
  (decide (0x20 ≤ r) && decide (r < 0x40)) || (decide (0x60 ≤ r) && decide (r < 0x68))

/-- Those with RW or RW1C fields: BSTAT, NTID and the CTRCFG registers (R326). -/
def swrOk (r : Nat) : Bool := r == 9 || r == 0x0A || (decide (0x60 ≤ r) && decide (r < 0x68))

/-- FENCEX's paths and scope (R230). -/
def fencexOk (sc : BitVec 3) (x y : BitVec 4) : Bool :=
  decide (x.toNat ≤ 6) && decide (y.toNat ≤ 6) && x != y &&
  (if x == 5 || y == 5 then sc == 7 else if x == 6 || y == 6 then decide (6 ≤ sc.toNat) else true)

/-- Whether a major is assigned (R52, R54). -/
def assigned (m : Nat) : Bool :=
  (decide (1 ≤ m) && decide (m ≤ 0x29) && m != 0x0F) || (decide (0x30 ≤ m) && decide (m ≤ 0x3E)) ||
  (decide (0x50 ≤ m) && decide (m ≤ 0x5D)) || (decide (0x68 ≤ m) && decide (m ≤ 0x6E)) ||
  (decide (0x70 ≤ m) && decide (m ≤ 0x75)) || (decide (0x78 ≤ m) && decide (m ≤ 0x8A)) ||
  (decide (0x90 ≤ m) && decide (m ≤ 0x9E)) || (decide (0xA0 ≤ m) && decide (m ≤ 0xA7)) ||
  (decide (0xB0 ≤ m) && decide (m ≤ 0xB8)) || (decide (0xC0 ≤ m) && decide (m ≤ 0xC7))

/-- Whether an instruction's fields are ones its class accepts. -/
def Instr.wf (i : Instr) : Bool :=
  match i with
  | .trap _ _ => true
  | .tret => true
  | .tretNext => true
  | .srd r => srdOk r.toNat
  | .swr r a => swrOk r.toNat && a.si
  | .gate _ => true
  | .gret _ _ => true
  | .ctrrd n => decide (n.toNat < 8) || n == 15
  | .sleep a => a.si
  | .sleepEnd _ _ => false
  | .yieldb => true
  | .yield => true
  | .nop => true
  | .cgrowWait a => a.si
  | .cgrowTry a => a.si
  | .caddyGrant _ _ => false
  | .cshrink a => a.si
  | .featq _ => true
  | .br _ => true
  | .bany _ _ => true
  | .ball _ _ => true
  | .bnone _ _ => true
  | .ifRegion _ _ => true
  | .ifs _ _ => true
  | .elseArm _ => true
  | .rejoin _ => true
  | .loop n _ x => decide (n.toNat ≤ 8) && decide (x.toNat ≤ 8)
  | .endloop _ _ _ => true
  | .brk _ _ => true
  | .cont _ _ => true
  | .call n _ m b => decide (n.toNat ≤ 32) && decide (m.toNat ≤ 16) && decide (b.toNat ≤ 8)
  | .calli n _ m b => decide (n.toNat ≤ 32) && decide (m.toNat ≤ 16) && decide (b.toNat ≤ 8)
  | .ret n m => decide (n.toNat ≤ 32) && decide (m.toNat ≤ 16)
  | .exit _ => true
  | .sadd f => f.ok [.i64, .i32, .n32] false false false (f.ty == .i64) .si .si .no && f.ext == 0
  | .ssub f => f.ok [.i64, .i32, .n32] false false false (f.ty == .i64) .si .si .no && f.ext == 0
  | .smul f => f.ok [.i64, .i32, .n32] false false false (f.ty == .i64) .si .si .no && f.ext == 0
  | .smulh f => f.ok [.i64, .i32, .n32] false false false (f.ty == .i64) .si .si .no && f.ext == 0
  | .sand f => f.ok [.i64] false false false (f.ty == .i64) .si .si .no && f.ext == 0
  | .sor f => f.ok [.i64] false false false (f.ty == .i64) .si .si .no && f.ext == 0
  | .sxor f => f.ok [.i64] false false false (f.ty == .i64) .si .si .no && f.ext == 0
  | .snot f => f.ok [.i64] false false false (f.ty == .i64) .si .no .no && f.ext == 0
  | .sshl f => f.ok [.i64, .i32, .n32] false false false (f.ty == .i64) .si .si .no && f.ext == 0
  | .sshr f => f.ok [.i64, .i32, .n32] false false false (f.ty == .i64) .si .si .no && f.ext == 0
  | .ssar f => f.ok [.i64, .i32, .n32] false false false (f.ty == .i64) .si .si .no && f.ext == 0
  | .smin f => f.ok [.i64, .i32, .n32] false false false (f.ty == .i64) .si .si .no && f.ext == 0
  | .smax f => f.ok [.i64, .i32, .n32] false false false (f.ty == .i64) .si .si .no && f.ext == 0
  | .snmin f => f.ok [.i64, .i32, .n32] false false false (f.ty == .i64) .si .si .no && f.ext == 0
  | .snmax f => f.ok [.i64, .i32, .n32] false false false (f.ty == .i64) .si .si .no && f.ext == 0
  | .scmp _ f => f.ok [.i64, .i32, .n32] false false false (f.ty == .i64) .si .si .no && f.ext == 0
  | .ssel f => f.ok [.i64] false false false (f.ty == .i64) .si .si .si && f.ext == 0
  | .sldi _ => true
  | .sldiHi a _ => a.si
  | .ldil _ => true
  | .slane f => f.ok [.i64, .i32, .n32] false false false (f.ty == .i64) .vec .si .siOpt && f.ext == 0
  | .spick f => f.ok [.i64, .i32, .n32] false false false (f.ty == .i64) .vec .no .siOpt && f.ext.toNat < 8
  | .iadd f => f.ok [.i32, .n32, .i16, .n16, .i8, .n8, .i64] true false true (f.ty == .i64) .any .any .no && f.ext == 0
  | .isub f => f.ok [.i32, .n32, .i16, .n16, .i8, .n8, .i64] true false true (f.ty == .i64) .any .any .no && f.ext == 0
  | .iadc f => f.ok [.n32] false false true (f.ty == .i64) .any .any .any && f.ext == 0
  | .isbb f => f.ok [.n32] false false true (f.ty == .i64) .any .any .any && f.ext == 0
  | .imul f => f.ok [.i32, .n32, .i16, .n16, .i8, .n8] true false true (f.ty == .i64) .any .any .no && f.ext == 0
  | .imulh f => f.ok [.i32, .n32] false false true (f.ty == .i64) .any .any .no && f.ext == 0
  | .imad f => f.ok [.i32, .n32, .i16, .n16, .i8, .n8] true false true (f.ty == .i64) .any .any .any && f.ext == 0
  | .ineg f => f.ok [.i32, .i16, .i8, .i64] true false true (f.ty == .i64) .any .no .no && f.ext == 0
  | .iabs f => f.ok [.i32, .i16, .i8, .i64] true false true (f.ty == .i64) .any .no .no && f.ext == 0
  | .imin f => f.ok [.i32, .n32, .i16, .n16, .i8, .n8, .i64] false false true (f.ty == .i64) .any .any .no && f.ext == 0
  | .imax f => f.ok [.i32, .n32, .i16, .n16, .i8, .n8, .i64] false false true (f.ty == .i64) .any .any .no && f.ext == 0
  | .nmin f => f.ok [.i32, .n32, .i16, .n16, .i8, .n8, .i64] false false true (f.ty == .i64) .any .any .no && f.ext == 0
  | .nmax f => f.ok [.i32, .n32, .i16, .n16, .i8, .n8, .i64] false false true (f.ty == .i64) .any .any .no && f.ext == 0
  | .andv f => f.ok [.b32, .i64] false false true (f.ty == .i64) .any .any .no && f.ext == 0
  | .orv f => f.ok [.b32, .i64] false false true (f.ty == .i64) .any .any .no && f.ext == 0
  | .xorv f => f.ok [.b32, .i64] false false true (f.ty == .i64) .any .any .no && f.ext == 0
  | .notv f => f.ok [.b32, .i64] false false true (f.ty == .i64) .any .no .no && f.ext == 0
  | .andnv f => f.ok [.b32, .i64] false false true (f.ty == .i64) .any .any .no && f.ext == 0
  | .shl f => f.ok [.b32, .i32, .n32, .i16, .n16, .i8, .n8, .i64] false false true (f.ty == .i64) .any .any .no && f.ext == 0
  | .shr f => f.ok [.b32, .i32, .n32, .i16, .n16, .i8, .n8, .i64] false false true (f.ty == .i64) .any .any .no && f.ext == 0
  | .sar f => f.ok [.b32, .i32, .n32, .i16, .n16, .i8, .n8, .i64] false false true (f.ty == .i64) .any .any .no && f.ext == 0
  | .rot f => f.ok [.b32, .i32, .n32, .i16, .n16, .i8, .n8, .i64] false false true (f.ty == .i64) .any .any .no && f.ext == 0
  | .bfx f => f.ok [.i32, .n32, .b32] false false true (f.ty == .i64) .any .no .no && bfOk f.ext
  | .bfi f => f.ok [.b32, .i32, .n32] false false true (f.ty == .i64) .any .any .no && bfOk f.ext
  | .popc f => f.ok [.b32, .i64] false false true (f.ty == .i64) .any .no .no && f.ext == 0
  | .clz f => f.ok [.b32, .i64] false false true (f.ty == .i64) .any .no .no && f.ext == 0
  | .brev f => f.ok [.b32, .i64] false false true (f.ty == .i64) .any .no .no && f.ext == 0
  | .icmp _ f => f.ok [.i32, .n32, .b32, .i64] false false true (f.ty == .i64) .any .any .no && decide (1 ≤ f.ext.toNat) && decide (f.ext.toNat < 8)
  | .sel f => f.ok [.b32, .i64] false false true (f.ty == .i64) .any .any .no && decide (f.ext.toNat < 8)
  | .pick f => f.ok [.b32, .i64] false false true (f.ty == .i64) .any .no .no && f.ext == 0
  | .ldi f => f.ok [.b32, .i32, .n32, .i64] false false true (f.ty == .i64) .no .no .no && true
  | .ldiHi f => f.ok [.b32] false false true (f.ty == .i64) .any .no .no && true
  | .stash f => f.ok [.b32, .i64] false false true (f.ty == .i64) .any .no .no && decide (f.ext.toNat < (if f.ty == .i64 then 63 else 64))
  | .unstash f => f.ok [.b32, .i64] false false true (f.ty == .i64) .cad .no .no && f.ext == 0
  | .kand d _ _ => d != 0
  | .kor d _ _ => d != 0
  | .kxor d _ _ => d != 0
  | .kandn d _ _ => d != 0
  | .knot d _ => d != 0
  | .kmov d _ => d != 0
  | .kset d a => d != 0 && a.si
  | .kpop _ => true
  | .kfirst _ => true
  | .fadd f => f.ok [.f32] false true true (false) .any .any .no && decide (f.ext.toNat % 4096 == 0) && !f.ext.getLsbD 14
  | .fsub f => f.ok [.f32] false true true (false) .any .any .no && decide (f.ext.toNat % 4096 == 0) && !f.ext.getLsbD 14
  | .fmul f => f.ok [.f32] false true true (false) .any .any .no && decide (f.ext.toNat % 4096 == 0) && !f.ext.getLsbD 14
  | .ffma f => f.ok [.f32] false true true (false) .any .any .any && decide (f.ext.toNat % 4096 == 0)
  | .ffms f => f.ok [.f32] false true true (false) .any .any .any && decide (f.ext.toNat % 4096 == 0)
  | .fmin f => f.ok [.f32] false false true (false) .any .any .no && decide (f.ext.toNat % 4096 == 0) && !f.ext.getLsbD 14
  | .fmax f => f.ok [.f32] false false true (false) .any .any .no && decide (f.ext.toNat % 4096 == 0) && !f.ext.getLsbD 14
  | .fcmp _ f => f.ok [.f32] false false true (false) .any .any .no && decide (1 ≤ f.ext.toNat % 4096) && decide (f.ext.toNat % 4096 < 8) && !f.ext.getLsbD 14
  | .fclass f => f.ok [.f32] false false true (false) .any .no .no && f.ext == 0
  | .frnd f => f.ok [.f32] false true true (false) .any .no .no && decide (f.ext.toNat % 4096 == 0) && !f.ext.getLsbD 14 && !f.ext.getLsbD 13
  | .fdiv f => f.ok [.f32] false true true (false) .any .any .no && decide (f.ext.toNat % 4096 == 0) && !f.ext.getLsbD 14
  | .frcp f => f.ok [.f32] false false true (false) .any .no .no && decide (f.ext.toNat % 4096 == 0) && !f.ext.getLsbD 14 && !f.ext.getLsbD 13
  | .frsq f => f.ok [.f32] false false true (false) .any .no .no && decide (f.ext.toNat % 4096 == 0) && !f.ext.getLsbD 14 && !f.ext.getLsbD 13
  | .fsqrt f => f.ok [.f32] false true true (false) .any .no .no && decide (f.ext.toNat % 4096 == 0) && !f.ext.getLsbD 14 && !f.ext.getLsbD 13
  | .fexp2 f => f.ok [.f32] false false true (false) .any .no .no && decide (f.ext.toNat % 4096 == 0) && !f.ext.getLsbD 14 && !f.ext.getLsbD 13
  | .flog2 f => f.ok [.f32] false false true (false) .any .no .no && decide (f.ext.toNat % 4096 == 0) && !f.ext.getLsbD 14 && !f.ext.getLsbD 13
  | .fsin f => f.ok [.f32] false false true (false) .any .no .no && decide (f.ext.toNat % 4096 == 0) && !f.ext.getLsbD 14 && !f.ext.getLsbD 13
  | .fcos f => f.ok [.f32] false false true (false) .any .no .no && decide (f.ext.toNat % 4096 == 0) && !f.ext.getLsbD 14 && !f.ext.getLsbD 13
  | .ftanh f => f.ok [.f32] false false true (false) .any .no .no && decide (f.ext.toNat % 4096 == 0) && !f.ext.getLsbD 14 && !f.ext.getLsbD 13
  | .fcvt f => f.ok [.f32, .f16, .bf16, .f8a, .f8b, .f4] false true true (false) .any (if f.ty.count == 1 then .no else .any) .no && cvtOk f 0 5 && narrowRnd f
  | .icvt f => f.ok [.f32, .f16, .bf16, .f8a, .f8b, .f4] false true true (false) .any (if f.ty.count == 1 then .no else .any) .no && Kind.any.ok (f.ext.toNat % 16 == 14) f.a && cvtOk f 6 14 && narrowRnd f
  | .ficvt f => f.ok [.i32, .n32, .i16, .n16, .i8, .n8, .i4, .n4, .i64] false true true (false) .any (if f.ty.count == 1 then .no else .any) .no && cvtOk f 0 5
  | .hadd2 f => f.ok [.f16, .bf16] false true true (false) .any .any .no && decide (f.ext.toNat % 4096 == 0) && !f.ext.getLsbD 14
  | .hmul2 f => f.ok [.f16, .bf16] false true true (false) .any .any .no && decide (f.ext.toNat % 4096 == 0) && !f.ext.getLsbD 14
  | .hfma2 f => f.ok [.f16, .bf16] false true true (false) .any .any .any && decide (f.ext.toNat % 4096 == 0)
  | .sfadd f => f.ok [.f32] false true false (false) .si .si .no && decide (f.ext.toNat % 4096 == 0) && !f.ext.getLsbD 14
  | .sfmul f => f.ok [.f32] false true false (false) .si .si .no && decide (f.ext.toNat % 4096 == 0) && !f.ext.getLsbD 14
  | .sffma f => f.ok [.f32] false true false (false) .si .si .si && decide (f.ext.toNat % 4096 == 0)
  | .sfcmp f => f.ok [.f32] false false false (false) .si .si .no && decide (f.ext.toNat % 4096 < 8) && !f.ext.getLsbD 14
  | .unitOperationComplete _ _ => false
  | .dot4 f => f.ok [.i8, .n8] true false true (false) .any .any .any && decide (f.ext.toNat < 2)
  | .dot8 f => f.ok [.i4, .n4] true false true (false) .any .any .any && decide (f.ext.toNat < 2)
  | .fdot4 f => f.ok [.f8a, .f8b] false true true (false) .any .any .any && (f.ext &&& 0xAFFF#16) == 0
  | .fdot8 f => f.ok [.f4] false true true (false) .any .any .any && (f.ext &&& 0xAFFF#16) == 0
  | .mac2 f => f.ok [.i16] false false true (false) .any .any .any && f.ext == 0
  | .pack f => f.ok [.i16, .n16, .i8, .n8, .i4, .n4] true false true (false) .any .any .no && f.ext == 0
  | .unpk f => f.ok [.i16, .n16, .i8, .n8, .i4, .n4] false false true (false) .any .no .no && decide (f.ext.toNat < 2)
  | .shrr f => f.ok [.i32, .i16, .n16, .i8, .n8] true false true (false) .any (if f.ty == .i32 then .no else .any) .no && (f.ext &&& 0xFCC0#16) == 0 && decide (f.ext.toNat / 256 < f.ty.count)
  | .fscl f => f.ok [.f32, .f16, .bf16] false true true (false) .any .any .no && decide (f.ext.toNat < 4)
  | .satclr _ => true
  | .shfl f => ({ f with b := .w 0 } : FmtA).ok [.b32, .i64] false false true (f.ty == .i64) .vec .no .siOpt && f.ext == 0
  | .shflx f => ({ f with b := .w 0 } : FmtA).ok [.b32, .i64] false false true (f.ty == .i64) .vec .no .siOpt && f.ext == 0
  | .slide f => f.ok [.b32, .i32, .n32, .i16, .n16, .i8, .n8, .i4, .n4] false false true (f.ty == .i64) .vec (if f.ext.getLsbD 8 then .vec else .no) .siOpt && decide (f.ext.toNat < 512)
  | .bcastl f => f.ok [.b32, .i64] false false true (f.ty == .i64) .vec .si .siOpt && f.ext == 0
  | .red op f => redOk op f && Kind.any.ok (f.ty == .i64) f.a && Kind.no.ok false f.b && Kind.no.ok false f.c && f.ext == 0
  | .scan op f => redOk op f && Kind.any.ok (f.ty == .i64) f.a && Kind.no.ok false f.b && Kind.ok (if f.ext.getLsbD 0 then .siOpt else .no) false f.c && decide (f.ext.toNat < 2)
  | .kbal f => f.ok [.b32] false false true (f.ty == .i64) .any .no .no && decide (1 ≤ f.ext.toNat) && decide (f.ext.toNat < 8)
  | .bset f => f.ok [.f32, .bf16] false false true (f.ty == .i64) .vec .no .no && (f.ext &&& 0xF8FF#16) == 0
  | .bzero f => f.ok [.f32] false false false (f.ty == .i64) .no .no .no && (f.ext &&& 0xF8FF#16) == 0
  | .bget f => f.ok [.f32, .bf16] false false true (f.ty == .i64) .no .no .no && (f.ext &&& 0xFF8F#16) == 0
  | .bdir f => f.ok [.i16] false false true (f.ty == .i64) .no .no .no && (f.ext &&& 0xFF8F#16) == 0
  | .bnorm f => f.ok [.f32] false false false (f.ty == .i64) .no .no .no && (f.ext &&& 0xFF8F#16) == 0
  | .btest f => f.ok [.f32] false false false (f.ty == .i64) .no .no .no && (f.ext &&& 0xFF8F#16) == 0
  | .bscl f => f.ok [.f32] false false false (f.ty == .i64) .si .no .no && (f.ext &&& 0xF88F#16) == 0
  | .bneg f => f.ok [.f32] false false false (f.ty == .i64) .no .no .no && (f.ext &&& 0xF88F#16) == 0
  | .bmov f => f.ok [.f32] false false false (f.ty == .i64) .no .no .no && (f.ext &&& 0xF88F#16) == 0
  | .bdot f => f.ok [.f32] false false false (f.ty == .i64) .no .no .no && (f.ext &&& 0xFF88#16) == 0
  | .badd f => f.ok [.f32] false false false (f.ty == .i64) .no .no .no && (f.ext &&& 0xF888#16) == 0
  | .bmix f => f.ok [.f32] false false false (f.ty == .i64) .si .si .no && (f.ext &&& 0xF888#16) == 0
  | .bmatch f => f.ok [.f32] false false false (f.ty == .i64) .si .si .si && (f.ext &&& 0xFF88#16) == 0
  | .bld _ m => m.ok [0, 1] 4 [.f32] .siOpt (false) .siOpt (false) .no (m.ty == .i64)
  | .bst _ m => m.ok [0, 2] 4 [.f32] .siOpt (false) .siOpt (false) .no (m.ty == .i64)
  | .ld m => m.ok [0, 1] 4 [.f32, .f16, .bf16, .f8a, .f8b, .i32, .n32, .i16, .n16, .i8, .n8, .i64, .b32] .any (true) .any (false) .no (m.ty == .i64)
  | .st m => m.ok [0, 2] 4 [.f32, .f16, .bf16, .f8a, .f8b, .i32, .n32, .i16, .n16, .i8, .n8, .i64, .b32] .any (true) .any (false) .any (m.ty == .i64)
  | .lds m => m.ok [0, 1] 0 [.f32, .f16, .bf16, .f8a, .f8b, .i32, .n32, .i16, .n16, .i8, .n8, .i64, .b32] .any (false) .any (false) .no (m.ty == .i64) && m.seg == 0
  | .sts m => m.ok [0, 2] 0 [.f32, .f16, .bf16, .f8a, .f8b, .i32, .n32, .i16, .n16, .i8, .n8, .i64, .b32] .any (false) .any (false) .any (m.ty == .i64) && m.seg == 0
  | .ldu m => m.ok [0, 1] 4 [.f32, .f16, .bf16, .f8a, .f8b, .i32, .n32, .i16, .n16, .i8, .n8, .i64, .b32] .si (true) .si (false) .no (m.ty == .i64)
  | .stu m => m.ok [0, 2] 4 [.f32, .f16, .bf16, .f8a, .f8b, .i32, .n32, .i16, .n16, .i8, .n8, .i64, .b32] .si (true) .si (false) .si (m.ty == .i64)
  | .ldw m => m.ok [0, 1] 4 [.b32] .any (true) .any (false) .no (m.ty == .i64)
  | .stw m => m.ok [0, 2] 4 [.b32] .any (true) .any (false) .quad (m.ty == .i64)
  | .lea m => m.ok [0] 0 [.f32, .f16, .bf16, .f8a, .f8b, .i32, .n32, .i16, .n16, .i8, .n8, .i64, .b32] .any (true) .any (false) .no (m.ty == .i64)
  | .pref m => m.ok [0] 4 [.f32, .f16, .bf16, .f8a, .f8b, .i32, .n32, .i16, .n16, .i8, .n8, .i64, .b32] .any (true) .any (false) .no (m.ty == .i64)
  | .cwb m => m.ok [0] 0 [.f32] .any (true) .any (false) .no (m.ty == .i64)
  | .cinv m => m.ok [0] 0 [.f32] .any (true) .any (false) .no (m.ty == .i64)
  | .pendingValueArrival _ _ => false
  | .pageTableWalk _ _ _ _ => false
  | .atomAdd m => m.ok [0, 1, 2, 3] 1 [.i32, .n32, .i64] .any (m.evict == 0) .any (false) .any (m.ty == .i64) && (m.evict == 0 || m.seg == 0) && m.disp == (m.disp.extractLsb' 0 12).signExtend 16
  | .atomAnd m => m.ok [0, 1, 2, 3] 1 [.b32, .i64] .any (m.evict == 0) .any (false) .any (m.ty == .i64) && (m.evict == 0 || m.seg == 0) && m.disp == (m.disp.extractLsb' 0 12).signExtend 16
  | .atomOr m => m.ok [0, 1, 2, 3] 1 [.b32, .i64] .any (m.evict == 0) .any (false) .any (m.ty == .i64) && (m.evict == 0 || m.seg == 0) && m.disp == (m.disp.extractLsb' 0 12).signExtend 16
  | .atomXor m => m.ok [0, 1, 2, 3] 1 [.b32, .i64] .any (m.evict == 0) .any (false) .any (m.ty == .i64) && (m.evict == 0 || m.seg == 0) && m.disp == (m.disp.extractLsb' 0 12).signExtend 16
  | .atomMin m => m.ok [0, 1, 2, 3] 1 [.i32, .i64] .any (m.evict == 0) .any (false) .any (m.ty == .i64) && (m.evict == 0 || m.seg == 0) && m.disp == (m.disp.extractLsb' 0 12).signExtend 16
  | .atomMax m => m.ok [0, 1, 2, 3] 1 [.i32, .i64] .any (m.evict == 0) .any (false) .any (m.ty == .i64) && (m.evict == 0 || m.seg == 0) && m.disp == (m.disp.extractLsb' 0 12).signExtend 16
  | .atomNmin m => m.ok [0, 1, 2, 3] 1 [.n32, .i64] .any (m.evict == 0) .any (false) .any (m.ty == .i64) && (m.evict == 0 || m.seg == 0) && m.disp == (m.disp.extractLsb' 0 12).signExtend 16
  | .atomNmax m => m.ok [0, 1, 2, 3] 1 [.n32, .i64] .any (m.evict == 0) .any (false) .any (m.ty == .i64) && (m.evict == 0 || m.seg == 0) && m.disp == (m.disp.extractLsb' 0 12).signExtend 16
  | .atomXchg m => m.ok [0, 1, 2, 3] 1 [.b32, .i64] .any (m.evict == 0) .any (false) .any (m.ty == .i64) && (m.evict == 0 || m.seg == 0) && m.disp == (m.disp.extractLsb' 0 12).signExtend 16
  | .acas m => m.ok [0, 1, 2, 3] 1 [.b32, .i32, .n32, .i64] .any (m.evict == 0) .any (m.ty == .i64) .any (m.ty == .i64) && (m.evict == 0 || m.seg == 0)
  | .afadd m => m.ok [0, 1, 2, 3] 1 [.f32] .any (m.evict == 0) .any (false) .any (false) && (m.evict == 0 || m.seg == 0)
  | .axadd m => m.ok [0, 1, 2, 3] 1 [.f32, .b32] .any (m.evict == 0) .any (false) .any (false) && (m.evict == 0 || m.seg == 0)
  | .lres m => m.ok [0, 1] 1 [.b32, .i32, .n32, .i64] .any (m.evict == 0) .any (false) .no (false) && (m.evict == 0 || m.seg == 0)
  | .scnd m => m.ok [0, 2] 1 [.b32, .i32, .n32, .i64] .any (m.evict == 0) .any (false) .any (m.ty == .i64) && (m.evict == 0 || m.seg == 0)
  | .fence o _ => o != 0
  | .fencex sc x y => fencexOk sc x y
  | .barrierBlock => true
  | .barrierGang => true
  | .binit e => e.ok false false false 0 .si .si && e.ext == 0
  | .barm e => e.ok false false false 0 .si .si && e.ext == 0
  | .barrive e => e.ok false false false 0 .si .si && e.ext == 0
  | .waitb e => e.ok false false false 1 .si .si && e.ext == 0
  | .testb e => e.ok false false false 1 .si .si && e.ext == 0
  | .waitcLd _ => true
  | .waitcEng _ _ => true
  | .shld e => e.ok true false false 0 .no .si
  | .shst e => e.ok true false false 0 .no .si
  | .shset e => e.ok true false false 0 .no .si && decide (e.ext.toNat < 24)
  | .cpy e => e.ok true true false 7 .si .no && e.ext == 0
  | .cpys e => e.ok true true false 7 .si .si && e.ext == 0
  | .cpyp e => e.ok true true false 7 .si .no && decide (1 ≤ e.ext.toNat) && decide (e.ext.toNat < 16)
  | .gthr e => e.ok true true true 7 .si .no && e.ext == 0
  | .scat e => e.ok true true true 7 .si .no && e.ext == 0
  | .collRed e => e.ok true true false 7 .si .si && decide (e.ext.toNat % 16 < 3)
  | .collBcast e => e.ok true true false 7 .si .si && decide (e.ext.toNat % 16 == 0)
  | .collGath e => e.ok true true false 7 .si .si && e.ext == 0
  | .collAllred e => e.ok true true false 7 .si .si && decide (e.ext.toNat < 3)
  | .engineDelivery _ _ _ => false
  | .engineCommandComplete _ => false
  | .collAbort _ _ => false
  | .mma e => e.ok true true false 15 .si .si && decide (e.ext.toNat < 256)
  | .mmap e => e.ok true true false 15 .si .si && decide (e.ext.toNat < 256)
  | .mmas e => e.ok true true false 15 .si .si && decide (e.ext.toNat < 256)
  | .mmasp e => e.ok true true false 15 .si .si && decide (e.ext.toNat < 256)
  | .accinit e => e.ok false false false 16 .no .si
  | .anchor e => e.ok true true false 0 .no .no && decide (1 ≤ e.ext.toNat) && decide (e.ext.toNat < 255)
  | .accrd e => e.ok true false false 31 .si .si && decide (e.ext.toNat < 256)
  | .accrdw e => e.ok true false false 31 .si .si && decide (e.ext.toNat < 256)
  | .accadd e => e.ok true false false 17 .si .si && decide (e.ext.toNat < 256)
  | .accstat e => e.ok false false false 24 .si .si
  | .passGrant _ => false
  | .pairedHold _ => false
  | .passEnd _ => false
  | .node a => a.si
  | .ndep a n => a.si && n != 0
  | .nrel a n => a.si && n != 0
  | .fork a _ => a.si
  | .join => true
  | .arm a => a.si
  | .disarm a => a.si
  | .launchq a => a.si
  | .gangPlace _ => false
  | .gangEnd _ _ => false
  | .pilotDieLoss _ => false
  | .fairnessSwitch _ _ => false
  | .reservationDeferEnd _ _ => false
  | .preqWithdraw _ _ => false
  | .preqSoft _ _ => false
  | .preqHard _ _ => false
  | .graceExpiry _ => false
  | .killTimerExpiry _ => false
  | .responseWindowExpiry _ _ => false
  | .responseTimeout _ _ => false
  | .sliceEnd _ _ => false
  | .lendReclaim _ => false
  | .sightDrain _ => false
  | .sightPassEnd _ _ => false
  | .queueNotify _ => false
  | .queueServe _ => false
  | .queueReread _ => false
  | .nopPacket _ => false
  | .launchPacket _ => false
  | .insertPacket _ => false
  | .releasePacket _ => false
  | .hostAccess _ _ _ _ _ => false
  | .fabricMemoryAccess _ _ _ _ _ _ => false
  | .taggedMessage _ _ _ _ _ => false
  | .pageRequestRetry _ _ => false
  | .prqResponse _ _ => false
  | .prqDecline _ _ => false
  | .invalidatePage _ => false
  | .invalidateRange _ _ => false
  | .invalidateAll _ => false
  | .invalidationComplete _ => false
  | .idtMap _ _ _ => false
  | .idtUnmap _ => false
  | .idtSetpin _ => false
  | .idtClrpin _ => false
  | .trackingPeriodEnd _ _ => false
  | .pageMove _ _ _ => false
  | .zpBackgroundClear _ => false
  | .keyLoad _ => false
  | .keyRetire _ => false
  | .vfReset _ => false
  | .functionLevelReset _ => false
  | .vfEnable _ => false
  | .queueEnable _ => false
  | .quotaWrite _ _ _ _ => false
  | .partWrite _ _ => false
  | .qrangeWrite _ _ => false
  | .ctrownWrite _ _ => false
  | .ctrcfgClear _ _ => false
  | .rsvctlWrite _ _ _ _ => false
  | .lendConfigWrite _ _ _ => false
  | .eqringWrite _ _ => false
  | .registerWrite _ _ => false
  | .powerInterval => false
  | .clockStepDown => false
  | .clockStepUp => false
  | .thermalThrottle _ => false
  | .thermalShutdown _ => false
  | .undervoltage => false
  | .powerOn _ => false
  | .fundamentalReset _ => false
  | .linkError _ _ => false
  | .attestationRequest _ => false
  | .flashImageWrite _ => false
  | .illegalMajor w => !assigned (majOf w).toNat
  | .instructionFetchFault _ _ => false
  | .prqheadWrite _ _ => false
  | .msgheadWrite _ _ => false
  | .signalAtomicCompletion _ _ => false

end Sys2Proof
end

