-- ==== Sys2Proof/Decode.lean ====
section
/-!
DEFINITION. The decoder, total on any bytes, and the encoder, from the formats of R44 to R46 and the table of each class. A word
of an unassigned major decodes to `illegalMajor`, which raises ILLOP (R54); a word with a bad field is rejected by name.
-/
namespace Sys2Proof

/-- The words of an instruction: one, or two for LDIL (R43, R51). A device step has none. -/
def encode (i : Instr) : List DWord :=
  match i with
  | .trap k code => [packA 0x1 0 ⟨.f32, k, .ne, false, .w 0, .w 0, .w 0, code⟩]
  | .tret => [packC 0x2 0 0 0 0 0]
  | .tretNext => [packC 0x2 1 0 0 0 0]
  | .srd r => [packA 0x3 0 ⟨.f32, 0, .ne, false, .w 0, .w 0, .w 0, (r.zeroExtend 16)⟩]
  | .swr r a => [packA 0x4 0 ⟨.f32, 0, .ne, false, .w 0, .w 0, a, (r.zeroExtend 16)⟩]
  | .gate i => [packC 0x5 0 0 0 0 i]
  | .gret n m => [packC 0x6 0 0 n 0 (m ++ (0 : BitVec 8))]
  | .ctrrd n => [packA 0x7 0 ⟨.f32, 0, .ne, false, .w 0, .w 0, .w 0, (n.zeroExtend 16)⟩]
  | .sleep a => [packA 0x8 0 ⟨.f32, 0, .ne, false, .w 0, .w 0, a, 0⟩]
  | .sleepEnd _ _ => []
  | .yieldb => [packC 0x9 0 0 0 0 0]
  | .yield => [packC 0xa 0 0 0 0 0]
  | .nop => [packA 0xb 0 ⟨.f32, 0, .ne, false, .w 0, .w 0, .w 0, 0⟩]
  | .cgrowWait a => [packA 0xc 0 ⟨.f32, 0, .ne, false, .w 0, .w 0, a, 0⟩]
  | .cgrowTry a => [packA 0xc 1 ⟨.f32, 0, .ne, false, .w 0, .w 0, a, 0⟩]
  | .caddyGrant _ _ => []
  | .cshrink a => [packA 0xd 0 ⟨.f32, 0, .ne, false, .w 0, .w 0, a, 0⟩]
  | .featq i => [packA 0xe 0 ⟨.f32, 0, .ne, false, .w 0, .w 0, .w 0, (if i then 1 else 0)⟩]
  | .br d => [packC 0x10 0 0 0 d 0]
  | .bany k d => [packC 0x11 0 k 0 d 0]
  | .ball k d => [packC 0x12 0 k 0 d 0]
  | .bnone k d => [packC 0x13 0 k 0 d 0]
  | .ifRegion k d => [packC 0x14 0 k 0 d 0]
  | .ifs k d => [packC 0x15 0 k 0 d 0]
  | .elseArm d => [packC 0x16 0 0 0 d 0]
  | .rejoin t => [packC 0x17 0 0 0 0 t]
  | .loop n d x => [packC 0x18 0 0 n d x]
  | .endloop k d t => [packC 0x19 0 k 0 d t]
  | .brk k t => [packC 0x1a 0 k 0 0 t]
  | .cont k t => [packC 0x1b 0 k 0 0 t]
  | .call n d m b => [packC 0x1c 0 0 n d (m ++ b)]
  | .calli n g m b => [packC 0x1d 0 0 n (g.zeroExtend 24) (m ++ b)]
  | .ret n m => [packC 0x1e 0 0 n 0 (m ++ (0 : BitVec 8))]
  | .exit k => [packC 0x1f 0 k 0 0 0]
  | .sadd f => [packA 0x20 0 f]
  | .ssub f => [packA 0x20 1 f]
  | .smul f => [packA 0x20 2 f]
  | .smulh f => [packA 0x20 3 f]
  | .sand f => [packA 0x21 0 f]
  | .sor f => [packA 0x21 1 f]
  | .sxor f => [packA 0x21 2 f]
  | .snot f => [packA 0x21 3 f]
  | .sshl f => [packA 0x22 0 f]
  | .sshr f => [packA 0x22 1 f]
  | .ssar f => [packA 0x22 2 f]
  | .smin f => [packA 0x23 0 f]
  | .smax f => [packA 0x23 1 f]
  | .snmin f => [packA 0x23 2 f]
  | .snmax f => [packA 0x23 3 f]
  | .scmp x f => [packA 0x24 x.code f]
  | .ssel f => [packA 0x25 0 f]
  | .sldi v => [packA 0x26 0 ⟨.i64, 0, .ne, false, .w 0, .w 0, .w 0, v⟩]
  | .sldiHi a v => [packA 0x26 1 ⟨.i64, 0, .ne, false, .w 0, .w 0, a, v⟩]
  | .ldil l => [packA 0x27 0 ⟨.i64, 0, .ne, false, .w 0, .w 0, .w 0, 0⟩, (0xFFFF : BitVec 16) ++ l]
  | .slane f => [packA 0x28 0 f]
  | .spick f => [packA 0x29 0 f]
  | .iadd f => [packA 0x30 0 f]
  | .isub f => [packA 0x30 1 f]
  | .iadc f => [packA 0x30 2 f]
  | .isbb f => [packA 0x30 3 f]
  | .imul f => [packA 0x31 0 f]
  | .imulh f => [packA 0x31 1 f]
  | .imad f => [packA 0x31 2 f]
  | .ineg f => [packA 0x32 0 f]
  | .iabs f => [packA 0x32 1 f]
  | .imin f => [packA 0x32 2 f]
  | .imax f => [packA 0x32 3 f]
  | .nmin f => [packA 0x32 4 f]
  | .nmax f => [packA 0x32 5 f]
  | .andv f => [packA 0x33 0 f]
  | .orv f => [packA 0x33 1 f]
  | .xorv f => [packA 0x33 2 f]
  | .notv f => [packA 0x33 3 f]
  | .andnv f => [packA 0x33 4 f]
  | .shl f => [packA 0x34 0 f]
  | .shr f => [packA 0x34 1 f]
  | .sar f => [packA 0x34 2 f]
  | .rot f => [packA 0x34 3 f]
  | .bfx f => [packA 0x35 0 f]
  | .bfi f => [packA 0x35 1 f]
  | .popc f => [packA 0x36 0 f]
  | .clz f => [packA 0x36 1 f]
  | .brev f => [packA 0x36 2 f]
  | .icmp x f => [packA 0x37 x.code f]
  | .sel f => [packA 0x38 0 f]
  | .pick f => [packA 0x39 0 f]
  | .ldi f => [packA 0x3a 0 f]
  | .ldiHi f => [packA 0x3a 1 f]
  | .stash f => [packA 0x3b 0 f]
  | .unstash f => [packA 0x3b 1 f]
  | .kand d a b => [packA 0x3c 0 ⟨.f32, 0, .ne, false, .w 0, .w 0, .w 0, ((0 : BitVec 5) ++ d ++ (0 : BitVec 1) ++ a ++ (0 : BitVec 1) ++ b)⟩]
  | .kor d a b => [packA 0x3c 1 ⟨.f32, 0, .ne, false, .w 0, .w 0, .w 0, ((0 : BitVec 5) ++ d ++ (0 : BitVec 1) ++ a ++ (0 : BitVec 1) ++ b)⟩]
  | .kxor d a b => [packA 0x3c 2 ⟨.f32, 0, .ne, false, .w 0, .w 0, .w 0, ((0 : BitVec 5) ++ d ++ (0 : BitVec 1) ++ a ++ (0 : BitVec 1) ++ b)⟩]
  | .kandn d a b => [packA 0x3c 3 ⟨.f32, 0, .ne, false, .w 0, .w 0, .w 0, ((0 : BitVec 5) ++ d ++ (0 : BitVec 1) ++ a ++ (0 : BitVec 1) ++ b)⟩]
  | .knot d a => [packA 0x3d 0 ⟨.f32, 0, .ne, false, .w 0, .w 0, .w 0, ((0 : BitVec 5) ++ d ++ (0 : BitVec 1) ++ a ++ (0 : BitVec 4))⟩]
  | .kmov d a => [packA 0x3d 1 ⟨.f32, 0, .ne, false, .w 0, .w 0, .w 0, ((0 : BitVec 5) ++ d ++ (0 : BitVec 1) ++ a ++ (0 : BitVec 4))⟩]
  | .kset d a => [packA 0x3d 2 ⟨.f32, 0, .ne, false, .w 0, .w 0, a, ((0 : BitVec 5) ++ d ++ (0 : BitVec 8))⟩]
  | .kpop a => [packA 0x3e 0 ⟨.f32, 0, .ne, false, .w 0, .w 0, .w 0, ((0 : BitVec 9) ++ a ++ (0 : BitVec 4))⟩]
  | .kfirst a => [packA 0x3e 1 ⟨.f32, 0, .ne, false, .w 0, .w 0, .w 0, ((0 : BitVec 9) ++ a ++ (0 : BitVec 4))⟩]
  | .fadd f => [packA 0x50 0 f]
  | .fsub f => [packA 0x50 1 f]
  | .fmul f => [packA 0x50 2 f]
  | .ffma f => [packA 0x51 0 f]
  | .ffms f => [packA 0x51 1 f]
  | .fmin f => [packA 0x52 0 f]
  | .fmax f => [packA 0x52 1 f]
  | .fcmp x f => [packA 0x53 x.code f]
  | .fclass f => [packA 0x54 0 f]
  | .frnd f => [packA 0x55 0 f]
  | .fdiv f => [packA 0x56 0 f]
  | .frcp f => [packA 0x57 0 f]
  | .frsq f => [packA 0x57 1 f]
  | .fsqrt f => [packA 0x57 2 f]
  | .fexp2 f => [packA 0x58 0 f]
  | .flog2 f => [packA 0x58 1 f]
  | .fsin f => [packA 0x59 0 f]
  | .fcos f => [packA 0x59 1 f]
  | .ftanh f => [packA 0x59 2 f]
  | .fcvt f => [packA 0x5a 0 f]
  | .icvt f => [packA 0x5b 0 f]
  | .ficvt f => [packA 0x5b 1 f]
  | .hadd2 f => [packA 0x5c 0 f]
  | .hmul2 f => [packA 0x5c 1 f]
  | .hfma2 f => [packA 0x5c 2 f]
  | .sfadd f => [packA 0x5d 0 f]
  | .sfmul f => [packA 0x5d 1 f]
  | .sffma f => [packA 0x5d 2 f]
  | .sfcmp f => [packA 0x5d 3 f]
  | .unitOperationComplete _ _ => []
  | .dot4 f => [packA 0x68 0 f]
  | .dot8 f => [packA 0x68 1 f]
  | .fdot4 f => [packA 0x69 0 f]
  | .fdot8 f => [packA 0x69 1 f]
  | .mac2 f => [packA 0x6a 0 f]
  | .pack f => [packA 0x6b 0 f]
  | .unpk f => [packA 0x6b 1 f]
  | .shrr f => [packA 0x6c 0 f]
  | .fscl f => [packA 0x6d 0 f]
  | .satclr k => [packA 0x6e 0 ⟨.f32, k, .ne, false, .w 0, .w 0, .w 0, 0⟩]
  | .shfl f => [packA 0x70 0 f]
  | .shflx f => [packA 0x70 1 f]
  | .slide f => [packA 0x71 0 f]
  | .bcastl f => [packA 0x72 0 f]
  | .red x f => [packA 0x73 x.code f]
  | .scan x f => [packA 0x74 x.code f]
  | .kbal f => [packA 0x75 0 f]
  | .bset f => [packA 0x78 0 f]
  | .bzero f => [packA 0x78 1 f]
  | .bget f => [packA 0x79 0 f]
  | .bdir f => [packA 0x79 1 f]
  | .bnorm f => [packA 0x7a 0 f]
  | .btest f => [packA 0x7a 1 f]
  | .bscl f => [packA 0x7b 0 f]
  | .bneg f => [packA 0x7b 1 f]
  | .bmov f => [packA 0x7b 2 f]
  | .bdot f => [packA 0x7c 0 f]
  | .badd f => [packA 0x7d 0 f]
  | .bmix f => [packA 0x7d 1 f]
  | .bmatch f => [packA 0x7e 0 f]
  | .bld r m => [packM 0x7F ((0 : BitVec 1) ++ r) m m.disp]
  | .bst r m => [packM 0x7F ((1 : BitVec 1) ++ r) m m.disp]
  | .ld m => [packM 0x80 m.ty.code m m.disp]
  | .st m => [packM 0x81 m.ty.code m m.disp]
  | .lds m => [packM 0x82 m.ty.code m m.disp]
  | .sts m => [packM 0x83 m.ty.code m m.disp]
  | .ldu m => [packM 0x84 m.ty.code m m.disp]
  | .stu m => [packM 0x85 m.ty.code m m.disp]
  | .ldw m => [packM 0x86 m.ty.code m m.disp]
  | .stw m => [packM 0x87 m.ty.code m m.disp]
  | .lea m => [packM 0x88 m.ty.code m m.disp]
  | .pref m => [packM 0x89 m.ty.code m m.disp]
  | .cwb m => [packM 0x8A 0 m m.disp]
  | .cinv m => [packM 0x8A 1 m m.disp]
  | .pendingValueArrival _ _ => []
  | .pageTableWalk _ _ _ _ => []
  | .atomAdd m => [packM 0x90 m.ty.code m ((0 : BitVec 4) ++ m.disp.extractLsb' 0 12)]
  | .atomAnd m => [packM 0x90 m.ty.code m ((1 : BitVec 4) ++ m.disp.extractLsb' 0 12)]
  | .atomOr m => [packM 0x90 m.ty.code m ((2 : BitVec 4) ++ m.disp.extractLsb' 0 12)]
  | .atomXor m => [packM 0x90 m.ty.code m ((3 : BitVec 4) ++ m.disp.extractLsb' 0 12)]
  | .atomMin m => [packM 0x90 m.ty.code m ((4 : BitVec 4) ++ m.disp.extractLsb' 0 12)]
  | .atomMax m => [packM 0x90 m.ty.code m ((5 : BitVec 4) ++ m.disp.extractLsb' 0 12)]
  | .atomNmin m => [packM 0x90 m.ty.code m ((6 : BitVec 4) ++ m.disp.extractLsb' 0 12)]
  | .atomNmax m => [packM 0x90 m.ty.code m ((7 : BitVec 4) ++ m.disp.extractLsb' 0 12)]
  | .atomXchg m => [packM 0x90 m.ty.code m ((8 : BitVec 4) ++ m.disp.extractLsb' 0 12)]
  | .acas m => [packM 0x91 m.ty.code m m.disp]
  | .afadd m => [packM 0x92 m.ty.code m m.disp]
  | .axadd m => [packM 0x93 m.ty.code m m.disp]
  | .lres m => [packM 0x94 m.ty.code m m.disp]
  | .scnd m => [packM 0x95 m.ty.code m m.disp]
  | .fence o sc => [packM 0x96 0 ⟨o, sc, 0, 0, .f32, .w 0, .w 0, .w 0, 0⟩ 0]
  | .fencex sc x y => [packM 0x97 y ⟨0, sc, 0, x, .f32, .w 0, .w 0, .w 0, 0⟩ 0]
  | .barrierBlock => [packE 0x98 0 ⟨0, 0, 0, 0, .w 0, .w 0, 0⟩]
  | .barrierGang => [packE 0x98 1 ⟨0, 0, 0, 0, .w 0, .w 0, 0⟩]
  | .binit e => [packE 0x99 0 e]
  | .barm e => [packE 0x9a 0 e]
  | .barrive e => [packE 0x9b 0 e]
  | .waitb e => [packE 0x9c 0 e]
  | .testb e => [packE 0x9d 0 e]
  | .waitcLd c => [packE 0x9e 0 ⟨0, 0, 0, 0, .w 0, .w 0, (c.zeroExtend 16)⟩]
  | .waitcEng q c => [packE 0x9e 1 ⟨0, 0, 0, (if q then 1 else 0), .w 0, .w 0, (c.zeroExtend 16)⟩]
  | .shld e => [packE 0xa0 0 e]
  | .shst e => [packE 0xa0 1 e]
  | .shset e => [packE 0xa1 0 e]
  | .cpy e => [packE 0xa2 0 e]
  | .cpys e => [packE 0xa3 0 e]
  | .cpyp e => [packE 0xa4 0 e]
  | .gthr e => [packE 0xa5 0 e]
  | .scat e => [packE 0xa6 0 e]
  | .collRed e => [packE 0xa7 0 e]
  | .collBcast e => [packE 0xa7 1 e]
  | .collGath e => [packE 0xa7 2 e]
  | .collAllred e => [packE 0xa7 3 e]
  | .engineDelivery _ _ _ => []
  | .engineCommandComplete _ => []
  | .collAbort _ _ => []
  | .mma e => [packE 0xb0 0 e]
  | .mmap e => [packE 0xb1 0 e]
  | .mmas e => [packE 0xb2 0 e]
  | .mmasp e => [packE 0xb2 1 e]
  | .accinit e => [packE 0xb3 0 e]
  | .anchor e => [packE 0xb4 0 e]
  | .accrd e => [packE 0xb5 0 e]
  | .accrdw e => [packE 0xb6 0 e]
  | .accadd e => [packE 0xb7 0 e]
  | .accstat e => [packE 0xb8 0 e]
  | .passGrant _ => []
  | .pairedHold _ => []
  | .passEnd _ => []
  | .node a => [packE 0xc0 0 ⟨0, 0, 0, 0, .w 0, a, 0⟩]
  | .ndep a n => [packE 0xc1 0 ⟨0, 0, 0, 0, .w 0, a, n⟩]
  | .nrel a n => [packE 0xc2 0 ⟨0, 0, 0, 0, .w 0, a, n⟩]
  | .fork a k => [packE 0xc3 0 ⟨0, 0, 0, 0, .w 0, a, (k.zeroExtend 16)⟩]
  | .join => [packE 0xc4 0 ⟨0, 0, 0, 0, .w 0, .w 0, 0⟩]
  | .arm a => [packE 0xc5 0 ⟨0, 0, 0, 0, .w 0, a, 0⟩]
  | .disarm a => [packE 0xc6 0 ⟨0, 0, 0, 0, .w 0, a, 0⟩]
  | .launchq a => [packE 0xc7 0 ⟨0, 0, 0, 0, .w 0, a, 0⟩]
  | .gangPlace _ => []
  | .gangEnd _ _ => []
  | .pilotDieLoss _ => []
  | .fairnessSwitch _ _ => []
  | .reservationDeferEnd _ _ => []
  | .preqWithdraw _ _ => []
  | .preqSoft _ _ => []
  | .preqHard _ _ => []
  | .graceExpiry _ => []
  | .killTimerExpiry _ => []
  | .responseWindowExpiry _ _ => []
  | .responseTimeout _ _ => []
  | .sliceEnd _ _ => []
  | .lendReclaim _ => []
  | .sightDrain _ => []
  | .sightPassEnd _ _ => []
  | .queueNotify _ => []
  | .queueServe _ => []
  | .queueReread _ => []
  | .nopPacket _ => []
  | .launchPacket _ => []
  | .insertPacket _ => []
  | .releasePacket _ => []
  | .hostAccess _ _ _ _ _ => []
  | .fabricMemoryAccess _ _ _ _ _ _ => []
  | .taggedMessage _ _ _ _ _ => []
  | .pageRequestRetry _ _ => []
  | .prqResponse _ _ => []
  | .prqDecline _ _ => []
  | .invalidatePage _ => []
  | .invalidateRange _ _ => []
  | .invalidateAll _ => []
  | .invalidationComplete _ => []
  | .idtMap _ _ _ => []
  | .idtUnmap _ => []
  | .idtSetpin _ => []
  | .idtClrpin _ => []
  | .trackingPeriodEnd _ _ => []
  | .pageMove _ _ _ => []
  | .zpBackgroundClear _ => []
  | .keyLoad _ => []
  | .keyRetire _ => []
  | .vfReset _ => []
  | .functionLevelReset _ => []
  | .vfEnable _ => []
  | .queueEnable _ => []
  | .quotaWrite _ _ _ _ => []
  | .partWrite _ _ => []
  | .qrangeWrite _ _ => []
  | .ctrownWrite _ _ => []
  | .ctrcfgClear _ _ => []
  | .rsvctlWrite _ _ _ _ => []
  | .lendConfigWrite _ _ _ => []
  | .eqringWrite _ _ => []
  | .registerWrite _ _ => []
  | .powerInterval => []
  | .clockStepDown => []
  | .clockStepUp => []
  | .thermalThrottle _ => []
  | .thermalShutdown _ => []
  | .undervoltage => []
  | .powerOn _ => []
  | .fundamentalReset _ => []
  | .linkError _ _ => []
  | .attestationRequest _ => []
  | .flashImageWrite _ => []
  | .illegalMajor w => [w]
  | .instructionFetchFault _ _ => []
  | .prqheadWrite _ _ => []
  | .msgheadWrite _ _ => []
  | .signalAtomicCompletion _ _ => []

/-- An operand field, or `w 0` where the instruction does not use it. -/
def opndIf (use : Bool) (f : BitVec 8) : Option Opnd := if use then Opnd.ofCode f else some (.w 0)

/-- The fields of a format A word, with the operand fields that the instruction uses. -/
def parseA (w : DWord) (a b c : Bool) : Option FmtA :=
  match opndIf a (opaOf w), opndIf b (opbOf w), opndIf c (opcOf w) with
  | some x, some y, some z =>
    some ⟨Ty.ofCode (w.extractLsb' 46 4), w.extractLsb' 43 3, Rnd.ofCode (w.extractLsb' 41 2), w.getLsbD 40, z, y, x, extOf w⟩
  | _, _, _ => none

/-- The fields of a format M word with a given TYPE and displacement. -/
def parseM (w : DWord) (t : Ty) (d : BitVec 16) : Option FmtM :=
  match Opnd.ofCode (opaOf w), Opnd.ofCode (opbOf w), Opnd.ofCode (opcOf w) with
  | some x, some y, some z =>
    some ⟨w.extractLsb' 54 2, w.extractLsb' 51 3, w.extractLsb' 48 3, w.extractLsb' 44 4, t, z, y, x, d⟩
  | _, _, _ => none

/-- The WIDTH/TYPE field of a format M word as a TYPE. -/
def tyM (w : DWord) : Ty := Ty.ofCode (w.extractLsb' 40 4)

/-- The fields of a format E word; an operand that is not used is not looked at. -/
def parseE (w : DWord) (a b : Bool) : Option FmtE :=
  match opndIf a (opaOf w), opndIf b (opbOf w) with
  | some x, some y =>
    some ⟨w.extractLsb' 46 4, w.extractLsb' 42 4, w.extractLsb' 38 4, w.extractLsb' 32 6, y, x, extOf w⟩
  | _, _ => none

/-- Whether a conversion's destination holds more than one element, so that it reads B (R142). -/
def readsB (w : DWord) : Bool := (Ty.ofCode (w.extractLsb' 46 4)).count != 1

/-- Parse a word of the majors 0x0 to 0xf, by major and FUNC. -/
def parseSystem (w : DWord) : Option Instr :=
  match (majOf w).toNat with
  | 0x1 =>
    match (funcOf w).toNat with
    | 0 => some (.trap (w.extractLsb' 43 3) (extOf w))
    | _ => none
  | 0x2 =>
    match (funcOf w).toNat with
    | 0 => some .tret
    | 1 => some .tretNext
    | _ => none
  | 0x3 =>
    match (funcOf w).toNat with
    | 0 => some (.srd (w.extractLsb' 0 12))
    | _ => none
  | 0x4 =>
    match (funcOf w).toNat with
    | 0 => (Opnd.ofCode (opaOf w)).map (.swr (w.extractLsb' 0 12))
    | _ => none
  | 0x5 =>
    match (funcOf w).toNat with
    | 0 => some (.gate (extOf w))
    | _ => none
  | 0x6 =>
    match (funcOf w).toNat with
    | 0 => some (.gret (w.extractLsb' 40 7) (w.extractLsb' 8 8))
    | _ => none
  | 0x7 =>
    match (funcOf w).toNat with
    | 0 => some (.ctrrd (w.extractLsb' 0 4))
    | _ => none
  | 0x8 =>
    match (funcOf w).toNat with
    | 0 => (Opnd.ofCode (opaOf w)).map .sleep
    | _ => none
  | 0x9 =>
    match (funcOf w).toNat with
    | 0 => some .yieldb
    | _ => none
  | 0xa =>
    match (funcOf w).toNat with
    | 0 => some .yield
    | _ => none
  | 0xb =>
    match (funcOf w).toNat with
    | 0 => some .nop
    | _ => none
  | 0xc =>
    match (funcOf w).toNat with
    | 0 => (Opnd.ofCode (opaOf w)).map .cgrowWait
    | 1 => (Opnd.ofCode (opaOf w)).map .cgrowTry
    | _ => none
  | 0xd =>
    match (funcOf w).toNat with
    | 0 => (Opnd.ofCode (opaOf w)).map .cshrink
    | _ => none
  | 0xe =>
    match (funcOf w).toNat with
    | 0 => some (.featq (extOf w == 1))
    | _ => none
  | _ => none

/-- Parse a word of the majors 0x10 to 0x1f, by major and FUNC. -/
def parseControl (w : DWord) : Option Instr :=
  match (majOf w).toNat with
  | 0x10 =>
    match (funcOf w).toNat with
    | 0 => some (.br (w.extractLsb' 16 24))
    | _ => none
  | 0x11 =>
    match (funcOf w).toNat with
    | 0 => some (.bany (w.extractLsb' 47 3) (w.extractLsb' 16 24))
    | _ => none
  | 0x12 =>
    match (funcOf w).toNat with
    | 0 => some (.ball (w.extractLsb' 47 3) (w.extractLsb' 16 24))
    | _ => none
  | 0x13 =>
    match (funcOf w).toNat with
    | 0 => some (.bnone (w.extractLsb' 47 3) (w.extractLsb' 16 24))
    | _ => none
  | 0x14 =>
    match (funcOf w).toNat with
    | 0 => some (.ifRegion (w.extractLsb' 47 3) (w.extractLsb' 16 24))
    | _ => none
  | 0x15 =>
    match (funcOf w).toNat with
    | 0 => some (.ifs (w.extractLsb' 47 3) (w.extractLsb' 16 24))
    | _ => none
  | 0x16 =>
    match (funcOf w).toNat with
    | 0 => some (.elseArm (w.extractLsb' 16 24))
    | _ => none
  | 0x17 =>
    match (funcOf w).toNat with
    | 0 => some (.rejoin (extOf w))
    | _ => none
  | 0x18 =>
    match (funcOf w).toNat with
    | 0 => some (.loop (w.extractLsb' 40 7) (w.extractLsb' 16 24) (extOf w))
    | _ => none
  | 0x19 =>
    match (funcOf w).toNat with
    | 0 => some (.endloop (w.extractLsb' 47 3) (w.extractLsb' 16 24) (extOf w))
    | _ => none
  | 0x1a =>
    match (funcOf w).toNat with
    | 0 => some (.brk (w.extractLsb' 47 3) (extOf w))
    | _ => none
  | 0x1b =>
    match (funcOf w).toNat with
    | 0 => some (.cont (w.extractLsb' 47 3) (extOf w))
    | _ => none
  | 0x1c =>
    match (funcOf w).toNat with
    | 0 => some (.call (w.extractLsb' 40 7) (w.extractLsb' 16 24) (w.extractLsb' 8 8) (w.extractLsb' 0 8))
    | _ => none
  | 0x1d =>
    match (funcOf w).toNat with
    | 0 => some (.calli (w.extractLsb' 40 7) (w.extractLsb' 16 4) (w.extractLsb' 8 8) (w.extractLsb' 0 8))
    | _ => none
  | 0x1e =>
    match (funcOf w).toNat with
    | 0 => some (.ret (w.extractLsb' 40 7) (w.extractLsb' 8 8))
    | _ => none
  | 0x1f =>
    match (funcOf w).toNat with
    | 0 => some (.exit (w.extractLsb' 47 3))
    | _ => none
  | _ => none

/-- Parse a word of the majors 0x20 to 0x2f, by major and FUNC. -/
def parseScalar (w lit : DWord) : Option Instr :=
  match (majOf w).toNat with
  | 0x20 =>
    match (funcOf w).toNat with
    | 0 => (parseA w true true true).map .sadd
    | 1 => (parseA w true true true).map .ssub
    | 2 => (parseA w true true true).map .smul
    | 3 => (parseA w true true true).map .smulh
    | _ => none
  | 0x21 =>
    match (funcOf w).toNat with
    | 0 => (parseA w true true true).map .sand
    | 1 => (parseA w true true true).map .sor
    | 2 => (parseA w true true true).map .sxor
    | 3 => (parseA w true true true).map .snot
    | _ => none
  | 0x22 =>
    match (funcOf w).toNat with
    | 0 => (parseA w true true true).map .sshl
    | 1 => (parseA w true true true).map .sshr
    | 2 => (parseA w true true true).map .ssar
    | _ => none
  | 0x23 =>
    match (funcOf w).toNat with
    | 0 => (parseA w true true true).map .smin
    | 1 => (parseA w true true true).map .smax
    | 2 => (parseA w true true true).map .snmin
    | 3 => (parseA w true true true).map .snmax
    | _ => none
  | 0x24 =>
    match Cond.ofCode (funcOf w), parseA w true true true with
    | some x, some f => some (.scmp x f)
    | _, _ => none
  | 0x25 =>
    match (funcOf w).toNat with
    | 0 => (parseA w true true true).map .ssel
    | _ => none
  | 0x26 =>
    match (funcOf w).toNat with
    | 0 => some (.sldi (extOf w))
    | 1 => (Opnd.ofCode (opaOf w)).map (fun a => .sldiHi a (extOf w))
    | _ => none
  | 0x27 =>
    match (funcOf w).toNat with
    | 0 => some (.ldil (lit.extractLsb' 0 48))
    | _ => none
  | 0x28 =>
    match (funcOf w).toNat with
    | 0 => (parseA w true true true).map .slane
    | _ => none
  | 0x29 =>
    match (funcOf w).toNat with
    | 0 => (parseA w true true true).map .spick
    | _ => none
  | _ => none

/-- Parse a word of the majors 0x30 to 0x3f, by major and FUNC. -/
def parseInteger (w : DWord) : Option Instr :=
  match (majOf w).toNat with
  | 0x30 =>
    match (funcOf w).toNat with
    | 0 => (parseA w true true true).map .iadd
    | 1 => (parseA w true true true).map .isub
    | 2 => (parseA w true true true).map .iadc
    | 3 => (parseA w true true true).map .isbb
    | _ => none
  | 0x31 =>
    match (funcOf w).toNat with
    | 0 => (parseA w true true true).map .imul
    | 1 => (parseA w true true true).map .imulh
    | 2 => (parseA w true true true).map .imad
    | _ => none
  | 0x32 =>
    match (funcOf w).toNat with
    | 0 => (parseA w true true true).map .ineg
    | 1 => (parseA w true true true).map .iabs
    | 2 => (parseA w true true true).map .imin
    | 3 => (parseA w true true true).map .imax
    | 4 => (parseA w true true true).map .nmin
    | 5 => (parseA w true true true).map .nmax
    | _ => none
  | 0x33 =>
    match (funcOf w).toNat with
    | 0 => (parseA w true true true).map .andv
    | 1 => (parseA w true true true).map .orv
    | 2 => (parseA w true true true).map .xorv
    | 3 => (parseA w true true true).map .notv
    | 4 => (parseA w true true true).map .andnv
    | _ => none
  | 0x34 =>
    match (funcOf w).toNat with
    | 0 => (parseA w true true true).map .shl
    | 1 => (parseA w true true true).map .shr
    | 2 => (parseA w true true true).map .sar
    | 3 => (parseA w true true true).map .rot
    | _ => none
  | 0x35 =>
    match (funcOf w).toNat with
    | 0 => (parseA w true true true).map .bfx
    | 1 => (parseA w true true true).map .bfi
    | _ => none
  | 0x36 =>
    match (funcOf w).toNat with
    | 0 => (parseA w true true true).map .popc
    | 1 => (parseA w true true true).map .clz
    | 2 => (parseA w true true true).map .brev
    | _ => none
  | 0x37 =>
    match Cond.ofCode (funcOf w), parseA w true true true with
    | some x, some f => some (.icmp x f)
    | _, _ => none
  | 0x38 =>
    match (funcOf w).toNat with
    | 0 => (parseA w true true true).map .sel
    | _ => none
  | 0x39 =>
    match (funcOf w).toNat with
    | 0 => (parseA w true true true).map .pick
    | _ => none
  | 0x3a =>
    match (funcOf w).toNat with
    | 0 => (parseA w true true true).map .ldi
    | 1 => (parseA w true true true).map .ldiHi
    | _ => none
  | 0x3b =>
    match (funcOf w).toNat with
    | 0 => (parseA w true true true).map .stash
    | 1 => (parseA w true true true).map .unstash
    | _ => none
  | 0x3c =>
    match (funcOf w).toNat with
    | 0 => some (.kand (w.extractLsb' 8 3) (w.extractLsb' 4 3) (w.extractLsb' 0 3))
    | 1 => some (.kor (w.extractLsb' 8 3) (w.extractLsb' 4 3) (w.extractLsb' 0 3))
    | 2 => some (.kxor (w.extractLsb' 8 3) (w.extractLsb' 4 3) (w.extractLsb' 0 3))
    | 3 => some (.kandn (w.extractLsb' 8 3) (w.extractLsb' 4 3) (w.extractLsb' 0 3))
    | _ => none
  | 0x3d =>
    match (funcOf w).toNat with
    | 0 => some (.knot (w.extractLsb' 8 3) (w.extractLsb' 4 3))
    | 1 => some (.kmov (w.extractLsb' 8 3) (w.extractLsb' 4 3))
    | 2 => (Opnd.ofCode (opaOf w)).map (.kset (w.extractLsb' 8 3))
    | _ => none
  | 0x3e =>
    match (funcOf w).toNat with
    | 0 => some (.kpop (w.extractLsb' 4 3))
    | 1 => some (.kfirst (w.extractLsb' 4 3))
    | _ => none
  | _ => none

/-- Parse a word of the majors 0x50 to 0x5f, by major and FUNC. -/
def parseFloat (w : DWord) : Option Instr :=
  match (majOf w).toNat with
  | 0x50 =>
    match (funcOf w).toNat with
    | 0 => (parseA w true true false).map .fadd
    | 1 => (parseA w true true false).map .fsub
    | 2 => (parseA w true true false).map .fmul
    | _ => none
  | 0x51 =>
    match (funcOf w).toNat with
    | 0 => (parseA w true true true).map .ffma
    | 1 => (parseA w true true true).map .ffms
    | _ => none
  | 0x52 =>
    match (funcOf w).toNat with
    | 0 => (parseA w true true false).map .fmin
    | 1 => (parseA w true true false).map .fmax
    | _ => none
  | 0x53 =>
    match FCond.ofCode (funcOf w), parseA w true true false with
    | some x, some f => some (.fcmp x f)
    | _, _ => none
  | 0x54 =>
    match (funcOf w).toNat with
    | 0 => (parseA w true false false).map .fclass
    | _ => none
  | 0x55 =>
    match (funcOf w).toNat with
    | 0 => (parseA w true false false).map .frnd
    | _ => none
  | 0x56 =>
    match (funcOf w).toNat with
    | 0 => (parseA w true true false).map .fdiv
    | _ => none
  | 0x57 =>
    match (funcOf w).toNat with
    | 0 => (parseA w true false false).map .frcp
    | 1 => (parseA w true false false).map .frsq
    | 2 => (parseA w true false false).map .fsqrt
    | _ => none
  | 0x58 =>
    match (funcOf w).toNat with
    | 0 => (parseA w true false false).map .fexp2
    | 1 => (parseA w true false false).map .flog2
    | _ => none
  | 0x59 =>
    match (funcOf w).toNat with
    | 0 => (parseA w true false false).map .fsin
    | 1 => (parseA w true false false).map .fcos
    | 2 => (parseA w true false false).map .ftanh
    | _ => none
  | 0x5a =>
    match (funcOf w).toNat with
    | 0 => (parseA w true (readsB w) false).map .fcvt
    | _ => none
  | 0x5b =>
    match (funcOf w).toNat with
    | 0 => (parseA w true (readsB w) false).map .icvt
    | 1 => (parseA w true (readsB w) false).map .ficvt
    | _ => none
  | 0x5c =>
    match (funcOf w).toNat with
    | 0 => (parseA w true true false).map .hadd2
    | 1 => (parseA w true true false).map .hmul2
    | 2 => (parseA w true true true).map .hfma2
    | _ => none
  | 0x5d =>
    match (funcOf w).toNat with
    | 0 => (parseA w true true false).map .sfadd
    | 1 => (parseA w true true false).map .sfmul
    | 2 => (parseA w true true true).map .sffma
    | 3 => (parseA w true true false).map .sfcmp
    | _ => none
  | _ => none

/-- Parse a word of the majors 0x60 to 0x6f, by major and FUNC. -/
def parsePacked (w : DWord) : Option Instr :=
  match (majOf w).toNat with
  | 0x68 =>
    match (funcOf w).toNat with
    | 0 => (parseA w true true true).map .dot4
    | 1 => (parseA w true true true).map .dot8
    | _ => none
  | 0x69 =>
    match (funcOf w).toNat with
    | 0 => (parseA w true true true).map .fdot4
    | 1 => (parseA w true true true).map .fdot8
    | _ => none
  | 0x6a =>
    match (funcOf w).toNat with
    | 0 => (parseA w true true true).map .mac2
    | _ => none
  | 0x6b =>
    match (funcOf w).toNat with
    | 0 => (parseA w true true false).map .pack
    | 1 => (parseA w true false false).map .unpk
    | _ => none
  | 0x6c =>
    match (funcOf w).toNat with
    | 0 => (parseA w true true false).map .shrr
    | _ => none
  | 0x6d =>
    match (funcOf w).toNat with
    | 0 => (parseA w true true false).map .fscl
    | _ => none
  | 0x6e =>
    match (funcOf w).toNat with
    | 0 => some (.satclr (w.extractLsb' 43 3))
    | _ => none
  | _ => none

/-- Parse a word of the majors 0x70 to 0x7f, by major and FUNC. -/
def parseLane (w : DWord) : Option Instr :=
  match (majOf w).toNat with
  | 0x70 =>
    match (funcOf w).toNat with
    | 0 => (parseA w true true true).map .shfl
    | 1 => (parseA w true true true).map .shflx
    | _ => none
  | 0x71 =>
    match (funcOf w).toNat with
    | 0 => (parseA w true true true).map .slide
    | _ => none
  | 0x72 =>
    match (funcOf w).toNat with
    | 0 => (parseA w true true true).map .bcastl
    | _ => none
  | 0x73 =>
    match RedOp.ofCode (funcOf w), parseA w true true true with
    | some x, some f => some (.red x f)
    | _, _ => none
  | 0x74 =>
    match RedOp.ofCode (funcOf w), parseA w true true true with
    | some x, some f => some (.scan x f)
    | _, _ => none
  | 0x75 =>
    match (funcOf w).toNat with
    | 0 => (parseA w true true true).map .kbal
    | _ => none
  | 0x78 =>
    match (funcOf w).toNat with
    | 0 => (parseA w true true true).map .bset
    | 1 => (parseA w true true true).map .bzero
    | _ => none
  | 0x79 =>
    match (funcOf w).toNat with
    | 0 => (parseA w true true true).map .bget
    | 1 => (parseA w true true true).map .bdir
    | _ => none
  | 0x7a =>
    match (funcOf w).toNat with
    | 0 => (parseA w true true true).map .bnorm
    | 1 => (parseA w true true true).map .btest
    | _ => none
  | 0x7b =>
    match (funcOf w).toNat with
    | 0 => (parseA w true true true).map .bscl
    | 1 => (parseA w true true true).map .bneg
    | 2 => (parseA w true true true).map .bmov
    | _ => none
  | 0x7c =>
    match (funcOf w).toNat with
    | 0 => (parseA w true true true).map .bdot
    | _ => none
  | 0x7d =>
    match (funcOf w).toNat with
    | 0 => (parseA w true true true).map .badd
    | 1 => (parseA w true true true).map .bmix
    | _ => none
  | 0x7e =>
    match (funcOf w).toNat with
    | 0 => (parseA w true true true).map .bmatch
    | _ => none
  | 0x7f => if w.getLsbD 43 then (parseM w .f32 (extOf w)).map (.bst (w.extractLsb' 40 3)) else (parseM w .f32 (extOf w)).map (.bld (w.extractLsb' 40 3))
  | _ => none

/-- Parse a word of the majors 0x80 to 0x8f, by major and FUNC. -/
def parseMemory (w : DWord) : Option Instr :=
  match (majOf w).toNat with
  | 0x80 => (parseM w (tyM w) (extOf w)).map .ld
  | 0x81 => (parseM w (tyM w) (extOf w)).map .st
  | 0x82 => (parseM w (tyM w) (extOf w)).map .lds
  | 0x83 => (parseM w (tyM w) (extOf w)).map .sts
  | 0x84 => (parseM w (tyM w) (extOf w)).map .ldu
  | 0x85 => (parseM w (tyM w) (extOf w)).map .stu
  | 0x86 => (parseM w (tyM w) (extOf w)).map .ldw
  | 0x87 => (parseM w (tyM w) (extOf w)).map .stw
  | 0x88 => (parseM w (tyM w) (extOf w)).map .lea
  | 0x89 => (parseM w (tyM w) (extOf w)).map .pref
  | 0x8a =>
    match (w.extractLsb' 40 4).toNat with
    | 0 => (parseM w .f32 (extOf w)).map .cwb
    | 1 => (parseM w .f32 (extOf w)).map .cinv
    | _ => none
  | _ => none

/-- Parse a word of the majors 0x90 to 0x9f, by major and FUNC. -/
def parseOrder (w : DWord) : Option Instr :=
  match (majOf w).toNat with
  | 0x90 =>
    let d := (w.extractLsb' 0 12).signExtend 16
    match (w.extractLsb' 12 4).toNat with
    | 0 => (parseM w (tyM w) d).map .atomAdd
    | 1 => (parseM w (tyM w) d).map .atomAnd
    | 2 => (parseM w (tyM w) d).map .atomOr
    | 3 => (parseM w (tyM w) d).map .atomXor
    | 4 => (parseM w (tyM w) d).map .atomMin
    | 5 => (parseM w (tyM w) d).map .atomMax
    | 6 => (parseM w (tyM w) d).map .atomNmin
    | 7 => (parseM w (tyM w) d).map .atomNmax
    | 8 => (parseM w (tyM w) d).map .atomXchg
    | _ => none
  | 0x91 => (parseM w (tyM w) (extOf w)).map .acas
  | 0x92 => (parseM w (tyM w) (extOf w)).map .afadd
  | 0x93 => (parseM w (tyM w) (extOf w)).map .axadd
  | 0x94 => (parseM w (tyM w) (extOf w)).map .lres
  | 0x95 => (parseM w (tyM w) (extOf w)).map .scnd
  | 0x96 => some (.fence (w.extractLsb' 54 2) (w.extractLsb' 51 3))
  | 0x97 => some (.fencex (w.extractLsb' 51 3) (w.extractLsb' 44 4) (w.extractLsb' 40 4))
  | 0x98 =>
    match (funcOf w).toNat with
    | 0 => some .barrierBlock
    | 1 => some .barrierGang
    | _ => none
  | 0x99 =>
    match (funcOf w).toNat with
    | 0 => (parseE w true true).map .binit
    | _ => none
  | 0x9a =>
    match (funcOf w).toNat with
    | 0 => (parseE w true true).map .barm
    | _ => none
  | 0x9b =>
    match (funcOf w).toNat with
    | 0 => (parseE w true true).map .barrive
    | _ => none
  | 0x9c =>
    match (funcOf w).toNat with
    | 0 => (parseE w true true).map .waitb
    | _ => none
  | 0x9d =>
    match (funcOf w).toNat with
    | 0 => (parseE w true true).map .testb
    | _ => none
  | 0x9e =>
    match (funcOf w).toNat with
    | 0 => some (.waitcLd (w.extractLsb' 0 6))
    | 1 => some (.waitcEng (w.getLsbD 32) (w.extractLsb' 0 6))
    | _ => none
  | _ => none

/-- Parse a word of the majors 0xa0 to 0xaf, by major and FUNC. -/
def parseCopy (w : DWord) : Option Instr :=
  match (majOf w).toNat with
  | 0xa0 =>
    match (funcOf w).toNat with
    | 0 => (parseE w true false).map .shld
    | 1 => (parseE w true false).map .shst
    | _ => none
  | 0xa1 =>
    match (funcOf w).toNat with
    | 0 => (parseE w true false).map .shset
    | _ => none
  | 0xa2 =>
    match (funcOf w).toNat with
    | 0 => (parseE w false true).map .cpy
    | _ => none
  | 0xa3 =>
    match (funcOf w).toNat with
    | 0 => (parseE w true true).map .cpys
    | _ => none
  | 0xa4 =>
    match (funcOf w).toNat with
    | 0 => (parseE w false true).map .cpyp
    | _ => none
  | 0xa5 =>
    match (funcOf w).toNat with
    | 0 => (parseE w false true).map .gthr
    | _ => none
  | 0xa6 =>
    match (funcOf w).toNat with
    | 0 => (parseE w false true).map .scat
    | _ => none
  | 0xa7 =>
    match (funcOf w).toNat with
    | 0 => (parseE w true true).map .collRed
    | 1 => (parseE w true true).map .collBcast
    | 2 => (parseE w true true).map .collGath
    | 3 => (parseE w true true).map .collAllred
    | _ => none
  | _ => none

/-- Parse a word of the majors 0xb0 to 0xbf, by major and FUNC. -/
def parseMatrix (w : DWord) : Option Instr :=
  match (majOf w).toNat with
  | 0xb0 =>
    match (funcOf w).toNat with
    | 0 => (parseE w true true).map .mma
    | _ => none
  | 0xb1 =>
    match (funcOf w).toNat with
    | 0 => (parseE w true true).map .mmap
    | _ => none
  | 0xb2 =>
    match (funcOf w).toNat with
    | 0 => (parseE w true true).map .mmas
    | 1 => (parseE w true true).map .mmasp
    | _ => none
  | 0xb3 =>
    match (funcOf w).toNat with
    | 0 => (parseE w true true).map .accinit
    | _ => none
  | 0xb4 =>
    match (funcOf w).toNat with
    | 0 => (parseE w true true).map .anchor
    | _ => none
  | 0xb5 =>
    match (funcOf w).toNat with
    | 0 => (parseE w true true).map .accrd
    | _ => none
  | 0xb6 =>
    match (funcOf w).toNat with
    | 0 => (parseE w true true).map .accrdw
    | _ => none
  | 0xb7 =>
    match (funcOf w).toNat with
    | 0 => (parseE w true true).map .accadd
    | _ => none
  | 0xb8 =>
    match (funcOf w).toNat with
    | 0 => (parseE w true true).map .accstat
    | _ => none
  | _ => none

/-- Parse a word of the majors 0xc0 to 0xcf, by major and FUNC. -/
def parseTask (w : DWord) : Option Instr :=
  match (majOf w).toNat with
  | 0xc0 =>
    match (funcOf w).toNat with
    | 0 => (Opnd.ofCode (opaOf w)).map .node
    | _ => none
  | 0xc1 =>
    match (funcOf w).toNat with
    | 0 => (Opnd.ofCode (opaOf w)).map (fun a => .ndep a (extOf w))
    | _ => none
  | 0xc2 =>
    match (funcOf w).toNat with
    | 0 => (Opnd.ofCode (opaOf w)).map (fun a => .nrel a (extOf w))
    | _ => none
  | 0xc3 =>
    match (funcOf w).toNat with
    | 0 => (Opnd.ofCode (opaOf w)).map (fun a => .fork a (w.extractLsb' 0 8))
    | _ => none
  | 0xc4 =>
    match (funcOf w).toNat with
    | 0 => some .join
    | _ => none
  | 0xc5 =>
    match (funcOf w).toNat with
    | 0 => (Opnd.ofCode (opaOf w)).map .arm
    | _ => none
  | 0xc6 =>
    match (funcOf w).toNat with
    | 0 => (Opnd.ofCode (opaOf w)).map .disarm
    | _ => none
  | 0xc7 =>
    match (funcOf w).toNat with
    | 0 => (Opnd.ofCode (opaOf w)).map .launchq
    | _ => none
  | _ => none

/-- Parse a word, with the word after it for LDIL, by the high digit of its major. -/
def parse (w lit : DWord) : Option Instr :=
  match (w.extractLsb' 60 4).toNat with
  | 0x0 => parseSystem w
  | 0x1 => parseControl w
  | 0x2 => parseScalar w lit
  | 0x3 => parseInteger w
  | 0x5 => parseFloat w
  | 0x6 => parsePacked w
  | 0x7 => parseLane w
  | 0x8 => parseMemory w
  | 0x9 => parseOrder w
  | 0xa => parseCopy w
  | 0xb => parseMatrix w
  | 0xc => parseTask w
  | _ => none

/-- The operand fields whose content the device ignores (R40): those that an instruction does not use and for which no rule
requires 0x00, as R96, R168, R185, R206, R244, R284, R312 and R326 do. -/
def ignored (i : Instr) : DWord :=
  match i with
  | .fadd _ => 0xff00000000
  | .fsub _ => 0xff00000000
  | .fmul _ => 0xff00000000
  | .fmin _ => 0xff00000000
  | .fmax _ => 0xff00000000
  | .fcmp _ _ => 0xff00000000
  | .fclass _ => 0xffff000000
  | .frnd _ => 0xffff000000
  | .fdiv _ => 0xff00000000
  | .frcp _ => 0xffff000000
  | .frsq _ => 0xffff000000
  | .fsqrt _ => 0xffff000000
  | .fexp2 _ => 0xffff000000
  | .flog2 _ => 0xffff000000
  | .fsin _ => 0xffff000000
  | .fcos _ => 0xffff000000
  | .ftanh _ => 0xffff000000
  | .fcvt f => if f.ty.count = 1 then 0xFFFF000000 else 0xFF00000000
  | .icvt f => if f.ty.count = 1 then 0xFFFF000000 else 0xFF00000000
  | .ficvt f => if f.ty.count = 1 then 0xFFFF000000 else 0xFF00000000
  | .hadd2 _ => 0xff00000000
  | .hmul2 _ => 0xff00000000
  | .sfadd _ => 0xff00000000
  | .sfmul _ => 0xff00000000
  | .sfcmp _ => 0xff00000000
  | .pack _ => 0xff00000000
  | .unpk _ => 0xffff000000
  | .shrr _ => 0xff00000000
  | .fscl _ => 0xff00000000
  | .shld _ => 0xff000000
  | .shst _ => 0xff000000
  | .shset _ => 0xff000000
  | .cpy _ => 0xff0000
  | .cpyp _ => 0xff0000
  | .gthr _ => 0xff0000
  | .scat _ => 0xff0000
  | .trap _ _ => 0xFFFFFF0000
  | .satclr _ => 0xFFFFFF0000
  | _ => 0

/-- What a word is: an instruction, or a word with a field that its class does not accept. -/
inductive Decoded
  | ok (i : Instr)
  | illField
  deriving DecidableEq, Repr

/-- Decode a word and the word after it (R55 checks 1 and 3). An instruction is accepted when its fields are accepted and the
word is the one that encodes it, up to ignored fields: so no reserved bit is set. -/
def decodeWord (w lit : DWord) : Decoded :=
  if !assigned (majOf w).toNat then .ok (.illegalMajor w)
  else
    match parse w lit with
    | none => .illField
    | some i =>
      if i.wf then
        match encode i with
        | [v] => if w &&& ~~~(ignored i) = v then .ok i else .illField
        | [v, l] => if w = v ∧ lit = l then .ok i else .illField
        | _ => .illField
      else .illField

/-- A word from its bytes, lowest first (R3, R43); missing bytes read as 0. -/
def wordOf (bs : List Byte) : DWord := BitVec.ofNat 64 (Machine.leNat (bs.take 8))

/-- Decode any bytes. -/
def decode (bs : List Byte) : Decoded := decodeWord (wordOf bs) (wordOf (bs.drop 8))

/-- The bytes of an instruction's words (R43). -/
def encodeBytes (i : Instr) : List Byte := (encode i).flatMap (fun w => Machine.leBytes 8 w.toNat)

/-- What the decoder reads from an instruction whose bits are `w`, bit 0 the lowest bit of the first word. -/
def decodeTableWord (_nbits w : Nat) : Option Instr :=
  match decode (Machine.leBytes 16 w) with
  | .ok i => some i
  | .illField => none

/-- The feature group of a major (R334): every FUNC of a major lies in the same group. -/
def featGroup (maj : Nat) : Option Nat :=
  if maj = 0xB0 ∨ maj = 0xB1 ∨ maj = 0xB7 then some 0
  else if maj = 0xB2 then some 1
  else if 0x78 ≤ maj ∧ maj ≤ 0x7F then some 2
  else if maj = 0xA7 then some 3
  else if maj = 0xA5 ∨ maj = 0xA6 then some 4
  else if maj = 0x92 then some 5
  else if maj = 0x93 then some 6
  else if maj = 0xC3 ∨ maj = 0xC4 then some 7
  else if maj = 0xC5 ∨ maj = 0xC6 then some 8
  else if maj = 0xC7 ∨ maj = 0xC0 then some 9
  else if maj = 0x07 then some 10
  else if maj = 0x05 then some 11
  else if maj = 0x59 ∨ maj = 0x58 then some 12
  else none

end Sys2Proof
end

