-- ==== Sys2Proof/Machine/Registers.lean ====
section
/-!
DEFINITION. The configuration registers: their reset values, the bits that software can write, and reading and writing them.
-/
namespace Sys2Proof.Machine

/-- The reset value of a configuration register, from the rule that names it; zero where that rule gives none or gives 0
(log entries 4 and 5). Log 4 (DESIGN CHOICE), 5 (DEDUCED), 18 (PRESUMED). -/
def resetVal : Reg → DWord
  | .featmask _ => 0xFFFFFFFFFFFFFFFF#64
  | .grace _ => 200
  | .killt _ => 2000
  | .ptcfg _ => 0x10000#64
  | .wsctl _ => 2000
  | .hptctl => 0x001000400003E800#64
  | .qctl _ => 4
  | .idtcount => BitVec.ofNat 64 (2 ^ 23 + 2 ^ 24)
  | .hashlo _ => Config.deviceHash.extractLsb' 0 64
  | .hashhi _ => Config.deviceHash.extractLsb' 64 64
  | _ => 0

/-- The present value of a configuration register. -/
def State.reg (s : State) (r : Reg) : DWord := getKey r (resetVal r) s.cfg

/-- Store a value into a configuration register as it stands. -/
def State.setReg (s : State) (r : Reg) (v : DWord) : State := { s with cfg := putKey r v s.cfg }

/-- Field [lo + n - 1 : lo] of a configuration register. -/
def State.regField (s : State) (r : Reg) (lo n : Nat) : Nat := field (s.reg r) lo n

/-- Write field [lo + n - 1 : lo] of a configuration register. -/
def State.setRegField (s : State) (r : Reg) (lo n v : Nat) : State := s.setReg r (setField (s.reg r) lo n v)

/-- The next free value's number, and the state that has used it. Log 94 (DESIGN CHOICE). -/
def State.tick (s : State) : State := { s with fresh := s.fresh + 1 }

/-- Apply an update to every resident watch, the one in focus first. -/
def State.mapWatches (f : Watch → Watch) (s : State) : State :=
  { s with ctx := f s.ctx, others := s.others.map f }

/-- The resident watches, the one in focus first. -/
def State.watches (s : State) : List Watch := (s.ctx :: s.others).filter (·.resident)

/-- Whether the module is up: powered, and not in recovery, where only BOOTSTAT and the flash mailbox answer (R407). -/
def State.isUp (s : State) : Bool := s.powered && s.regField .bootstat 7 1 == 0

/-- Raise an MSI-X vector of a function (R371). Log 121 (DESIGN CHOICE). -/
def State.raiseMsix (s : State) (fn v : Nat) : State := { s with msix := (fn, v) :: s.msix }

/-- Whether a domain accepts traffic of a kind from a peer: the bit of its accept list (R378). -/
def State.accepts (s : State) (dom node peer bit : Nat) : Bool :=
  (List.range 16).any (fun n =>
    let a := s.reg (.accept dom n)
    field a 31 1 == 1 && field a 0 16 == node && field a 16 5 == peer && field a bit 1 == 1)

/-- The peer node that a piece of outgoing traffic goes to. -/
def Outgoing.node (o : Outgoing) : Nat :=
  match o with
  | .load n _ _ _ | .store n _ _ _ | .atomic n _ _ _ _ | .message n _ _ _ | .piece n _ _ _ | .abort n _ _ | .reply n _ _
  | .refusal n _ => n

/-- The port that the route table maps a node to (R377): one of the 18 (R13). Log 4 (DESIGN CHOICE). -/
def State.portTo (s : State) (node : Nat) : Nat := s.regField (.route node) 0 5 % Config.exvorPorts

/-- Send through the port of the node (R377). -/
def State.send (s : State) (o : Outgoing) : State := { s with outgoing := s.outgoing ++ [(s.portTo o.node, o)] }

/-- Send several in order. -/
def State.sendAll (s : State) (os : List Outgoing) : State := os.foldl State.send s

end Sys2Proof.Machine
end

