-- ==== Sys2Proof/Machine/Memory.lean ====
section
/-!
DEFINITION. Memory and its translation: the canonical store of bytes, zero-pending pages (R368), poison (R383, R384), the
clearing of reservations by writes (R239), the page-table walk (R353, R354), the TLBs (R355) and the fabric windows (R378).

A byte's key is a plain number: a device-physical address with the key ID above bit 52 (R201, R353); 2^58 + domain * 2^52 +
address for host memory, which each domain reaches through its own function (R354); 2^60 + core * 2^19 + offset for a
core's scratchpad (R12).
-/
namespace Sys2Proof.Machine

/-- Log 26 (DESIGN CHOICE). -/
def devKey (key addr : Nat) : Nat := key * 2 ^ 52 + addr
def hostKey (dom addr : Nat) : Nat := 2 ^ 58 + dom * 2 ^ 52 + addr
def spadKey (core off : Nat) : Nat := 2 ^ 60 + core * 2 ^ 19 + off

/-- What an unlisted byte reads as: pages are mapped zero-pending (R358, R368). Log 3 (DESIGN CHOICE). -/
def blank : Byte := 0

/-- The canonical form: keys strictly rising, and nothing listed that equals `blank`. -/
def memWfFrom : Nat → List (Nat × Byte) → Bool
  | _, [] => true
  | lo, (a, b) :: m => decide (lo ≤ a) && b != blank && memWfFrom (a + 1) m

abbrev Memory := List (Nat × Byte)

def Memory.wf (m : Memory) : Bool := memWfFrom 0 m

/-- The byte at a key. Log 3 (DESIGN CHOICE). -/
def Memory.get (m : Memory) (k : Nat) : Byte :=
  match m with
  | [] => blank
  | (a, b) :: m' => if k < a then blank else if k = a then b else Memory.get m' k

/-- Put a byte at a key, keeping the canonical form. -/
def Memory.put (m : Memory) (k : Nat) (v : Byte) : Memory :=
  match m with
  | [] => if v = blank then [] else [(k, v)]
  | (a, b) :: m' =>
    if k < a then (if v = blank then (a, b) :: m' else (k, v) :: (a, b) :: m')
    else if k = a then (if v = blank then m' else (k, v) :: m')
    else (a, b) :: Memory.put m' k v

/-- Make every byte whose key satisfies `p` blank. -/
def Memory.clear (m : Memory) (p : Nat → Bool) : Memory := m.filter (fun c => !p c.1)

/-- Put consecutive bytes. -/
def Memory.putAll (m : Memory) (k : Nat) : List Byte → Memory
  | [] => m
  | b :: bs => (m.put k b).putAll (k + 1) bs

/-- n consecutive bytes. -/
def Memory.getAll (m : Memory) (k : Nat) : Nat → List Byte
  | 0 => []
  | n + 1 => m.get k :: m.getAll (k + 1) n

/-- The device-physical page of a key below 2^58 (R357). -/
def pageOf (k : Nat) : Nat := k % 2 ^ 52 / 2 ^ 16

def State.idtOf (s : State) (page : Nat) : Option IdtEntry := s.idt.find? (fun e => e.page == page)

/-- Whether the page of a key is zero-pending (R368). -/
def State.isZp (s : State) (k : Nat) : Bool :=
  decide (k < 2 ^ 58) && ((s.idtOf (pageOf k)).map (·.zp)).getD false

/-- A byte as any path reads it: zero while its page is zero-pending (R368). -/
def State.byte (s : State) (k : Nat) : Byte := if s.isZp k then blank else Memory.get s.mem k

/-- n bytes from a key, lowest first. -/
def State.bytes (s : State) (k : Nat) : Nat → List Byte
  | 0 => []
  | n + 1 => s.byte k :: s.bytes (k + 1) n

/-- Before the first write to a zero-pending page, every sector is filled with zeros, whose poison goes with it, and ZP is cleared
(R368, R384). -/
def State.openPage (s : State) (k : Nat) : State :=
  if s.isZp k then
    { s with mem := Memory.clear s.mem (fun j => decide (j < 2 ^ 58) && pageOf j == pageOf k),
             poison := s.poison.filter (fun j => !(decide (j < 2 ^ 58) && pageOf j == pageOf k)),
             idt := s.idt.map (fun e => if e.page = pageOf k then { e with zp := false } else e) }
  else s

/-- The size of the code word that carries poison at a key: 8 B in scratchpad, 32 B elsewhere (R383). Log 27 (DEDUCED). -/
def codeWord (k : Nat) : Nat := if 2 ^ 60 ≤ k then 8 else 32

/-- A write of n bytes at k clears the poison of the code words it covers in full (R384). Log 27 (DEDUCED). -/
def healPoison (k n : Nat) (ps : List Nat) : List Nat :=
  ps.filter (fun p => !(decide (k ≤ p) && decide (p + codeWord p ≤ k + n)))

/-- Whether any of n bytes at k is poisoned; a zero-pending page reads as zero on every path (R368, R384).
Log 27 (DEDUCED). -/
def State.poisoned (s : State) (k n : Nat) : Bool :=
  !s.isZp k && s.poison.any (fun p => decide (p < k + n) && decide (k < p + codeWord p))

/-- A write to any byte of a sector clears every reservation on it (R239). -/
def Lane.losesResv (lo hi : Nat) (l : Lane) : Lane :=
  match l.resv with
  | some r => if lo ≤ r ∧ r ≤ hi then { l with resv := none } else l
  | none => l

/-- Clear the reservations on the sectors of n bytes at k, in every resident watch (R239). -/
def State.dropResv (s : State) (k n : Nat) : State :=
  s.mapWatches (fun w => { w with lanes := w.lanes.map (Lane.losesResv (k / 128) ((k + n - 1) / 128)) })

/-- A write of n bytes at k changes what the bytes that readers may find as they stood have been followed by, and what late writes have
been passed by (R226, R228). -/
def State.followed (s : State) (t : Trail) (k n : Nat) : State :=
  if s.behind.isEmpty && s.late.isEmpty then s
  else
    { s with
      behind := s.behind.map (fun (e : Stale) => if k ≤ e.key ∧ e.key < k + n ∧ t ∉ e.writes then { e with writes := t :: e.writes } else e)
      late := s.late.map (fun (e : LateWrite) => { e with passed := e.passed.filter (fun j => !(decide (k ≤ j) && decide (j < k + n))) }) }

/-- Write bytes at a key: the one way bytes of memory change. -/
def State.put (s : State) (t : Trail) (k : Nat) (bs : List Byte) : State :=
  if bs.isEmpty then s
  else
    let s := ((s.openPage k).dropResv k bs.length).followed t k bs.length
    { s with mem := Memory.putAll s.mem k bs, poison := healPoison k bs.length s.poison }

/-- Write bytes at a key, by the core path or an agent of no path. -/
def State.write (s : State) (k : Nat) (bs : List Byte) : State := s.put {} k bs

/-- The module's own writes go through to the host and into the copies it holds (R218, R354). -/
def State.putThrough (s : State) (t : Trail) (k : Nat) (bs : List Byte) : State :=
  let s' := s.put t k bs
  if s.copies.isEmpty then s'
  else { s' with copies := s'.copies.map (fun c =>
           if k ≤ c.2.1 ∧ c.2.1 < k + bs.length then (c.1, c.2.1, bs.getD (c.2.1 - k) 0) else c) }

/-! ### Writes that enter T late, and bytes that readers find late (R226 to R232) -/

/-- Whether two late writes share a byte. -/
def LateWrite.meets (a b : LateWrite) : Bool := decide (a.key < b.key + b.bytes.length) && decide (b.key < a.key + a.bytes.length)

/-- The late writes that enter T, and those that stay: of writes of one byte by one engine or port, an earlier one enters no later than a
later one (R262, R265, R269). -/
def pullLate (sel : Nat → LateWrite → Bool) : Nat → List LateWrite → List LateWrite × List LateWrite
  | _, [] => ([], [])
  | i, e :: es =>
    let r := pullLate sel (i + 1) es
    if sel i e || r.1.any (fun x => x.trail.src == e.trail.src && x.meets e) then (e :: r.1, r.2) else (r.1, e :: r.2)

/-- The bytes that a late write puts in place. -/
def State.lateBytes (s : State) (e : LateWrite) : List Byte :=
  let v := (e.bytes.getD 0 0).toNat
  let old := (s.byte e.key).toNat
  match e.half with
  | none => e.bytes
  | some false => [BitVec.ofNat 8 (old / 16 * 16 + v % 16)]
  | some true => [BitVec.ofNat 8 (old % 16 + v % 16 * 16)]

/-- One late write enters T; the last part of an access heals what the access covers in full (R384). A host write into its own memory does
not pass the module's caches (R354). -/
def State.enterOne (s : State) (e : LateWrite) : State :=
  let t := if e.trail.path = 5 ∧ 2 ^ 58 ≤ e.key then s.put e.trail e.key (s.lateBytes e) else s.putThrough e.trail e.key (s.lateBytes e)
  if t.late.any (fun x => x.num == e.num) then t else { t with poison := healPoison e.whole.1 e.whole.2 t.poison }

/-- A late write that stays has been passed by those of its port that came after it and have entered (R228). -/
def LateWrite.pass (es : List LateWrite) (e : LateWrite) : LateWrite :=
  let later := es.filter (fun x => x.trail.src == e.trail.src && decide (e.num < x.num))
  { e with passed := later.flatMap (fun x => (List.range x.bytes.length).map (x.key + ·)) ++ e.passed }

/-- Late writes that are selected enter T, in order, with those that must precede them (R226). -/
def State.enterSome (s : State) (sel : Nat → LateWrite → Bool) : State :=
  if s.late.isEmpty then s
  else
    let r := pullLate sel 0 s.late
    let t := r.1.foldl State.enterOne { s with late := r.2 }
    { t with late := t.late.map (LateWrite.pass r.1) }

/-- Every late write enters T. -/
def State.enterAll (s : State) : State := s.enterSome (fun _ _ => true)

/-- The late writes of a gang's commands enter T: it is killed, and nothing of it comes after that.
Log 15 (DESIGN CHOICE). -/
def State.enterGang (s : State) (launch gang : Nat) : State :=
  s.enterSome (fun _ e => e.trail.cmd.isSome && e.trail.watch.launch == launch && e.trail.watch.gang == gang)

/-- A write of a path P1 to P6 (R226): at once, after the earlier late writes of its engine or port to the same bytes, or late. -/
def State.pathPut (s : State) (t : Trail) (num : Nat) (whole : Nat × Nat) (k : Nat) (bs : List Byte) : State :=
  let e : LateWrite := { trail := t, num := num, key := k, bytes := bs, whole := whole }
  if s.manner = .late then { s with late := s.late ++ [e] }
  else
    let s := s.enterSome (fun _ x => x.trail.src == t.src && x.meets e)
    if t.path = 5 ∧ 2 ^ 58 ≤ k then s.put t k bs else s.putThrough t k bs

/-- Half a byte: late, or over the byte as it stands. -/
def State.halfPut (s : State) (t : Trail) (k : Nat) (high : Bool) (v : Nat) : State :=
  let e : LateWrite := { trail := t, num := s.fresh, key := k, bytes := [BitVec.ofNat 8 v], half := some high, whole := (k, 0) }
  if s.manner = .late then { s with late := s.late ++ [e], fresh := s.fresh + 1 }
  else
    let s := s.enterSome (fun _ x => x.trail.src == t.src && x.meets e)
    s.putThrough t k (s.lateBytes e)

/-- Whether a reader's access may find a byte as it stood: a command not, from where its split has passed a crossing point
(R227, R232). -/
def Stale.finds (t : Trail) (e : Stale) : Bool :=
  e.reader == t.path && !(e.barred.any (fun b => decide (b.1 = t.watch) && b.2.1 == t.split && t.cmd.any (fun c => decide (b.2.2 ≤ c))))

/-- n bytes as an access of a path P1 to P6 reads them: some of them perhaps as they stood before (R226). -/
def State.pathBytes (s : State) (t : Trail) (k n : Nat) : List Byte :=
  (List.range n).map (fun i => ((s.behind.find? (fun e => e.key == k + i && e.finds t)).map (·.byte)).getD (s.byte (k + i)))

/-- A reader finds n bytes: what a release put an end to, if it finds what that wrote, it does not find any more (R228). -/
def State.observe (s : State) (reader k n : Nat) : State :=
  let found := ((List.range n).map (k + ·)).filter fun j => !(s.behind.any (fun e => e.reader == reader && e.key == j))
  { s with behind := s.behind.filter (fun e => !(e.reader == reader && e.guard.any (fun j => found.contains j))) }

/-- The accesses of path X that stand before a crossing point of a split (R232). -/
def Trail.before (t : Trail) (r : WatchRef) (split x : Nat) : Bool :=
  t.path == x && (x == 0 || decide (5 ≤ x) || (decide (t.watch = r) && t.split == split) || t.seen.any (fun v => decide (v = (r, split))))

/-- Change what is known of writes that are late or have followed a byte. -/
def State.mapTrails (s : State) (f : Trail → Trail) : State :=
  if s.behind.isEmpty && s.late.isEmpty then s
  else
    { s with behind := s.behind.map (fun (e : Stale) => { e with writes := e.writes.map f }),
             late := s.late.map (fun (e : LateWrite) => { e with trail := f e.trail }) }

/-- Selected writes are brought into T by a crossing point. -/
def State.crossSome (s : State) (sel : Trail → Bool) : State :=
  (s.enterSome (fun _ e => sel e.trail)).mapTrails (fun t => if sel t then { t with crossed := true } else t)

/-- Selected writes are found by the accesses of path Y that stand after a place in a split's program order. -/
def State.barStale (s : State) (r : WatchRef) (split : Nat) (sel : Trail → Bool) (y : Nat) : State :=
  let met := fun (e : Stale) => e.reader == y && e.writes.any sel
  if 5 ≤ y then { s with behind := s.behind.filter (fun e => !met e) }
  else { s with behind := s.behind.map (fun (e : Stale) => if met e then { e with barred := (r, split, s.fresh) :: e.barred } else e) }

/-- A crossing point of a split from path X to path Y (R227, R232): the writes of X that stand before it are in T, and the accesses of Y
that stand after it find them. -/
def State.crossPaths (s : State) (r : WatchRef) (split : Nat) (before : Trail → Bool) (y : Nat) : State :=
  (s.crossSome before).barStale r split before y

/-- An object at a key counts the writes of a command that no object has counted. -/
def State.tagTrails (s : State) (cmd : Nat) (k : Option Nat) : State :=
  s.mapTrails (fun t => if t.cmd = some cmd ∧ t.obj = none then { t with obj := k.map (·, 0) } else t)

/-- The phase of the object at a key flips; after BINIT no write is counted into a phase that is observed. -/
def State.flipTrails (s : State) (k : Nat) (init : Bool) : State :=
  s.mapTrails (fun t => match t.obj with
    | some (j, n) => if j = k then { t with obj := some (j, if init then 2 else n + 1) } else t
    | none => t)

/-- A split has seen the last phase of the object at a key complete (R232). -/
def State.seePhase (s : State) (k : Nat) (r : WatchRef) (split : Nat) : State :=
  s.mapTrails (fun t => if t.obj = some (k, 1) then { t with seen := (r, split) :: t.seen } else t)

/-- An acquiring wait on the object at a key: the writes counted into the phase that has completed enter T (R227). -/
def State.crossPhase (s : State) (k : Nat) : State := s.crossSome (fun t => t.obj == some (k, 1))

/-- A launch has completed: its writes, on any path, are in T, and no reader misses them (R314). Log 15 (DESIGN CHOICE). -/
def State.crossLaunch (s : State) (launch : Nat) : State :=
  let s := s.enterSome (fun _ e => e.trail.cmd.isSome && e.trail.watch.launch == launch)
  { s with behind := s.behind.filter (fun e => !e.writes.any (fun t => t.path == 0 || (t.cmd.isSome && t.watch.launch == launch))) }

/-- Readers may go on finding n bytes as they now stand (R226); a launch's fetches, from its acceptance on (R397). -/
def State.keepBehind (s : State) (reader k n : Nat) : State :=
  if 7 ≤ reader ∧ ¬ s.launches.any (fun l => l.id == reader - 7) then s
  else { s with behind := (List.range n).map (fun i => ({ reader := reader, key := k + i, byte := s.byte (k + i) } : Stale)) ++ s.behind }

/-- The n-th byte is not found any more as it stood. -/
def State.forgetByte (s : State) (n : Nat) : State := { s with behind := s.behind.eraseIdx n }

/-- The same under other keys. -/
def Trail.rekey (f : Nat → Nat) (t : Trail) : Trail := { t with obj := t.obj.map (fun o => (f o.1, o.2)) }
def Stale.rekey (f : Nat → Nat) (e : Stale) : Stale := { e with key := f e.key, guard := e.guard.map f, writes := e.writes.map (·.rekey f) }
def LateWrite.rekey (f : Nat → Nat) (e : LateWrite) : LateWrite :=
  { e with key := f e.key, whole := (f e.whole.1, e.whole.2), passed := e.passed.map f, trail := e.trail.rekey f }

/-- Bytes move with what has still to enter T there, what readers may find of them, and the objects among them. -/
def State.rekey (s : State) (f : Nat → Nat) : State :=
  { s with behind := s.behind.map (Stale.rekey f), late := s.late.map (LateWrite.rekey f),
           objUses := s.objUses.map (fun u => { u with key := f u.key }) }

/-- Bytes are gone, with what had still to enter T there. -/
def State.forgetKeys (s : State) (inside : Nat → Bool) : State :=
  { s with late := s.late.filter (fun e => !inside e.key), behind := s.behind.filter (fun e => !inside e.key),
           objUses := s.objUses.filter (fun u => !inside u.key) }

/-- What has still to enter T in some bytes enters it, and no reader finds them as they stood: the storage they are in changes hands. -/
def State.enterHere (s : State) (inside : Nat → Bool) : State := (s.enterSome (fun _ e => inside e.key)).forgetKeys inside

/-- Read n bytes as a number (R3). -/
def State.load (s : State) (k n : Nat) : Nat := leNat (s.bytes k n)

/-- A word as a launch's fetch finds it: the old one where the fetch may still find all of its bytes as they stood, else the new one, with
what has still to enter T in it (R397). Log 137 (DEDUCED). -/
def State.fetched (s : State) (launch k : Nat) : Nat :=
  let old := (List.range 8).filterMap (fun i => (s.behind.find? (fun e => e.reader == 7 + launch && e.key == k + i)).map (·.byte))
  if old.length = 8 then leNat old
  else (s.enterSome (fun _ e => decide (e.key < k + 8) && decide (k < e.key + e.bytes.length))).load k 8

/-- Write the low n bytes of a number (R3). -/
def State.store (s : State) (k n v : Nat) : State := s.write k (leBytes n v)

/-! ### Translation -/

/-- A mapping of one virtual page: the device-physical or host page, and its permissions (R354). -/
structure Mapping where
  page : Nat
  r    : Bool
  w    : Bool
  host : Bool
  hc   : Bool
  deriving DecidableEq, Repr

/-- The outcome of a translation (R354). -/
inductive Trans
  | ok (m : Mapping)
  | recoverable
  | bad
  deriving DecidableEq, Repr

/-- The key slot of a domain, when its accesses are accepted: KEYV set and the slot not retiring (R353, R362). -/
def State.keyOf (s : State) (dom : Nat) : Option Nat :=
  let d := s.reg (.dkey dom)
  let k := field d 0 6
  if field d 8 1 = 1 ∧ (s.keys[k]?.map (·.state)) ≠ some .retiring then some k else none

/-- A domain's partition: its first page and its pages (R353). -/
def State.partOf (s : State) (dom : Nat) : Nat × Nat := (s.regField (.part dom) 0 36, s.regField (.part dom) 36 24)

/-- The device-physical page of a frame relative to a partition (R353). -/
def frameIn (part : Nat × Nat) (frame : Nat) : Option Nat := if frame < part.2 then some (part.1 + frame) else none

/-- The device-physical page of a frame relative to the domain's partition (R353). -/
def State.frameOf (s : State) (dom frame : Nat) : Option Nat := frameIn (s.partOf dom) frame

/-- Whether a device-physical page lies in the on-chip map (R201). Log 6 (DESIGN CHOICE). -/
def onChipPage (page : Nat) : Bool := page / 2 ^ 32 == 15

/-- Whether a device-physical page, the domain's own, may stand in a table entry or be the root (R201, R354). -/
def pageAllowed (dom page : Nat) : Bool := !onChipPage page || dom == 0

/-- The key of a byte of a device-physical page; a page of the on-chip map leads to the storage its window names (log entry 6). -/
def pageKey (key page off : Nat) : Nat :=
  if onChipPage page then Config.onChipWindow (page * 2 ^ 16 + off) else devKey key (page * 2 ^ 16 + off)

/-- A page-table entry at a node's device-physical page (R354). -/
def State.pteAt (s : State) (key node idx : Nat) : DWord := BitVec.ofNat 64 (s.load (pageKey key node (8 * idx)) 8)

/-- An access to a page at or above IDTCOUNT, or not mapped in the indirection table, is an uncorrectable error (R357). -/
def State.mediaOk (s : State) (k : Nat) : Bool :=
  decide (2 ^ 58 ≤ k) || (decide (pageOf k < (s.reg .idtcount).toNat) && (s.idtOf (pageOf k)).isSome)

/-- The checks of R354 on an entry that is valid, at its level. -/
def pteSound (level : Nat) (e : DWord) : Bool :=
  let leaf := field e 1 1 == 1
  let host := field e 4 1 == 1
  field e 52 12 == 0 && field e 6 10 == 0 &&
  (if level = 3 then !leaf else if level = 1 then leaf else true) &&
  (!host || leaf) &&
  !(level == 2 && leaf && field e 16 13 != 0)

/-- The mapping a leaf entry gives for a virtual page (R354). Log 6 (DESIGN CHOICE), 19 (DEDUCED). -/
def leafOf (part : Nat × Nat) (dom vpage level : Nat) (e : DWord) : Trans :=
  let sub := if level = 2 then vpage % 2 ^ 13 else 0
  let f := field e 16 36 + sub
  let r := field e 2 1 == 1
  let w := field e 3 1 == 1
  if field e 4 1 = 1 then .ok { page := f, r := r, w := w, host := true, hc := field e 5 1 == 1 }
  else
    match frameIn part f with
    | none => .bad
    | some p => if !pageAllowed dom p then .bad else .ok { page := p, r := r, w := w, host := false, hc := false }

/-- The die whose walker serves a translation unit (R355): a compute die, or 4 for the I/O dies. -/
def dieOfUnit (tu : Nat) : Nat := if tu < 640 then tu / 160 else if tu < 800 then (tu - 640) / 40 else 4

/-- The part of a virtual page number that indexes down to a level: 3, 2 or 1 (R354). -/
def walkIndex (level vpage : Nat) : Nat := vpage / 2 ^ (13 * (level - 1))

/-- What a die's walk cache holds for a page at a level (R355). -/
def State.cachedEntry (s : State) (die dom level vpage : Nat) : Option WalkEntry :=
  s.walks.find? (fun e => e.die == die && e.dom == dom && e.level == level && e.index == walkIndex level vpage)

/-- The entry that a walk finds for a page at a level, in the walk cache or in the node at a device-physical page, with the partition its
frame is relative to; or the end of the walk: a node outside the
partition or in the on-chip map, or one on a page that the indirection table does not map, whose uncorrectable error the access
meets as its own (R201, R353, R354, R355, R357). Log 106 (DEDUCED). -/
def State.entryOf (s : State) (die dom key level vpage : Nat) (node : Option Nat) : (DWord × Nat × Nat) ⊕ Trans :=
  match s.cachedEntry die dom level vpage with
  | some e => .inl (e.entry, e.part)
  | none =>
    match node with
    | none => .inr .bad
    | some p =>
      if !pageAllowed dom p then .inr .bad
      else if ¬ s.mediaOk (pageKey key p 0) then .inr (.ok { page := p, r := true, w := true, host := false, hc := false })
      else .inl (s.pteAt key p (walkIndex level vpage % 2 ^ 13), s.partOf dom)

/-- The walk from a node at `level` down (R354). -/
def State.walkFrom (s : State) (die dom key vpage : Nat) : Nat → Option Nat → Trans
  | 0, _ => .bad
  | level + 1, node =>
    match s.entryOf die dom key (level + 1) vpage node with
    | .inr t => t
    | .inl (e, part) =>
      if field e 0 1 = 0 then .recoverable
      else if !pteSound (level + 1) e then .bad
      else if field e 1 1 = 1 then leafOf part dom vpage (level + 1) e
      else s.walkFrom die dom key vpage level (frameIn part (field e 16 36))

/-- The page-table walk of a virtual page of a domain, by the walker of a unit's die (R353, R354, R355, R356). -/
def State.walk (s : State) (tu dom vpage : Nat) : Trans :=
  match s.keyOf dom with
  | none => .bad
  | some key =>
    if s.regField (.ptroot dom) 0 1 = 0 then .bad
    else s.walkFrom (dieOfUnit tu) dom key vpage 3 (s.frameOf dom (s.regField (.ptroot dom) 16 36))

/-- The TLBs that a unit looks into: a core's L1 TLB, and the cluster TLB that it shares with its cluster's cores and engines; an
I/O die's (R10, R355). -/
def tlbsOf (tu : Nat) : List Nat := if tu < 640 then [tu, 640 + tu / 4] else [tu]

/-- Entries of a unit's TLB (R12): 64 in a core, 2,048 in a cluster. The manual gives no size for an I/O die's (log entry 85). -/
def tlbSize (tu : Nat) : Nat := if tu < 640 then 64 else 2048

/-- The TLB entry that a unit finds for a page (R355). -/
def State.tlbHit (s : State) (tu dom vpage : Nat) : Option TlbEntry :=
  (tlbsOf tu).findSome? (fun u => s.tlb.find? (fun e => e.unit == u && e.dom == dom && e.vpage == vpage))

/-- Translation of a virtual page by a unit: a TLB entry if it holds one, else a walk (R355). With PTROOT.V 0 every access is an
unrecoverable fault (R356). Nothing maps a page at or above 2^39: virtual addresses have 55 bits (R201).
Log 25 (DEDUCED), 91 (DEDUCED). -/
def State.translate (s : State) (tu dom vpage : Nat) : Trans :=
  match s.keyOf dom with
  | none => .bad
  | some _ =>
    if s.regField (.ptroot dom) 0 1 = 0 ∨ 2 ^ 39 ≤ vpage then .bad
    else
    match s.tlbHit tu dom vpage with
    | some e => .ok { page := e.page, r := e.r, w := e.w, host := e.host, hc := e.hc }
    | none => s.walk tu dom vpage

/-- The key of the byte at offset `off` of a mapped page of a domain. Log 6 (DESIGN CHOICE). -/
def State.keyAt (s : State) (dom : Nat) (m : Mapping) (off : Nat) : Nat :=
  if m.host then hostKey dom (m.page * 2 ^ 16 + off) else pageKey ((s.keyOf dom).getD 0) m.page off

/-- The fabric window of a domain that holds a virtual address (R378): its number. -/
def State.window (s : State) (dom va : Nat) : Option Nat :=
  (List.range 16).find? (fun n =>
    let t := s.reg (.fwtgt dom n)
    let base := s.regField (.fwbase dom n) 16 39
    field t 63 1 == 1 && decide (field t 21 2 < 2) && decide (base ≤ va / 2 ^ 16) &&
      decide (va / 2 ^ 16 < base + s.regField (.fwsize dom n) 0 24))

/-- The byte of device storage at a domain's virtual address as an I/O agent or record writer reaches it: the key, when
the translation completes with the wanted permission. -/
def State.reach (s : State) (tu dom va : Nat) (write : Bool) : Option Nat :=
  match s.translate tu dom (va / 2 ^ 16) with
  | .ok m => if (if write then m.w else m.r) then some (s.keyAt dom m (va % 2 ^ 16)) else none
  | _ => none

/-- Why a range cannot be reached: held at a recoverable fault on a page, or refused. -/
inductive Reach (α : Type)
  | ok (a : α)
  | hold (vpage : Nat)
  | refused (perm : Bool)
  deriving DecidableEq, Repr

/-- The keys of each aligned part of a range, all of whose pages must translate with the wanted permission. -/
def State.reachAt (s : State) (tu dom va : Nat) (write : Bool) : Reach Nat :=
  match s.translate tu dom (va / 2 ^ 16) with
  | .ok m => if (if write then m.w else m.r) then .ok (s.keyAt dom m (va % 2 ^ 16)) else .refused true
  | .recoverable => .hold (va / 2 ^ 16)
  | .bad => .refused false

/-- Read n bytes at a virtual address, byte by byte, through a unit's translations. Log 56 (DEDUCED). -/
def State.vread (s : State) (tu dom : Nat) : Nat → Nat → Reach (List Byte)
  | _, 0 => .ok []
  | va, n + 1 =>
    match s.reachAt tu dom va false with
    | .ok k =>
      match s.vread tu dom (va + 1) n with
      | .ok bs => .ok (s.byte k :: bs)
      | e => e
    | .hold p => .hold p
    | .refused p => .refused p

/-- The first byte of a range that can be read which is poisoned, or lies on a page that the indirection table does not map: its key, and
whether it is poisoned (R357, R384). Log 32 (DEDUCED). -/
def State.vbad (s : State) (tu dom : Nat) : Nat → Nat → Option (Nat × Bool)
  | _, 0 => none
  | va, n + 1 =>
    match s.reachAt tu dom va false with
    | .ok k => if ¬ s.mediaOk k then some (k, false) else if s.poisoned k 1 then some (k, true) else s.vbad tu dom (va + 1) n
    | _ => s.vbad tu dom (va + 1) n

/-- The first page of a range that cannot be written, if any. -/
def State.vwritable (s : State) (tu dom : Nat) : Nat → Nat → Reach Unit
  | _, 0 => .ok ()
  | va, n + 1 =>
    match s.reachAt tu dom va true with
    | .ok _ => s.vwritable tu dom (va + 1) n
    | .hold p => .hold p
    | .refused p => .refused p

/-- The first bytes of a list that lie on one page with the address, and the rest. -/
def pageCut (va : Nat) (bs : List Byte) : List Byte × List Byte := bs.splitAt (2 ^ 16 - va % 2 ^ 16)

/-- Write bytes at a virtual address whose pages were found writable, page by page. -/
def State.vwriteFuel : Nat → State → Nat → Nat → Nat → List Byte → State
  | 0, s, _, _, _, _ => s
  | fuel + 1, s, tu, dom, va, bs =>
    if bs.isEmpty then s
    else
      let c := pageCut va bs
      let t := match s.reachAt tu dom va true with
        | .ok k => s.write k c.1
        | _ => s
      State.vwriteFuel fuel t tu dom (va + c.1.length) c.2

/-- The same for all of them. -/
def State.vwrite (s : State) (tu dom va : Nat) (bs : List Byte) : State :=
  State.vwriteFuel (bs.length / 2 ^ 16 + 2) s tu dom va bs

end Sys2Proof.Machine
end

