-- ==== Sys2Proof/Machine/Records.lean ====
section
/-!
DEFINITION. Error records: the virtual error queues of the domains and the physical log (R385 to R387).
-/
namespace Sys2Proof.Machine

/-- The translation unit that stands for the I/O dies' agents. Log 85 (DEDUCED). -/
def ioUnit : Nat := 800

/-- An error record before it is placed (R385). -/
structure ErrRec where
  kind   : Nat
  sub    : Nat := 0
  dom    : Nat := 0
  gang   : Nat := 0xFFFFFFFF
  detail : Nat := 0
  addr   : Nat := 0
  addr2  : Nat := 0
  deriving DecidableEq, Repr

/-- The 64 bytes of a record with its lap bit and whether ADDR is virtual (R385). Log 55 (DEDUCED). -/
def ErrRec.bytes (r : ErrRec) (lap virt : Bool) (time : Nat) : List Byte :=
  leBytes 1 (lap.toNat + 2 * virt.toNat) ++ leBytes 1 r.kind ++ leBytes 1 r.sub ++ leBytes 1 r.dom ++ leBytes 4 r.gang ++
  leBytes 8 r.detail ++ leBytes 8 time ++ leBytes 8 r.addr ++ leBytes 8 r.addr2 ++ leBytes 24 0

/-- How many records a ring with this SIZE field holds (R386): SIZE above 10 counts as 10. -/
def ringLen (size : Nat) : Nat := 2 ^ (min size 10 + 6)

/-- Passes of TAIL are numbered from 1, so the lap bit is 1 on the first (log entry 10). The device keeps one bit more of TAIL and
of HEAD than the registers show: it tells the passes of a ring of 2^16 records apart (log entry 20). Log 10 (DEDUCED). -/
def lapBit (tail size : Nat) : Bool := tail / ringLen size % 2 == 0

/-- Count a dropped record, saturating (R386). -/
def State.countLost (s : State) (r : Reg) : State := s.setRegField r 0 32 (min (s.regField r 0 32 + 1) (2 ^ 32 - 1))

/-- Write a record into a domain's virtual error queue, or count it as lost (R386). -/
def State.domainRecord (s : State) (dom : Nat) (r : ErrRec) : State :=
  let size := s.regField (.eqring dom) 0 4
  let tail := s.regField (.eqtail dom) 0 17
  let head := s.regField (.eqhead dom) 0 17
  let va := s.regField (.eqring dom) 12 43 * 2 ^ 12 + 64 * (tail % ringLen size)
  if ringLen size ≤ (tail + 2 ^ 17 - head) % 2 ^ 17 then s.countLost (.eqlost dom)
  else
    match s.reach ioUnit dom va true with
    | none => s.countLost (.eqlost dom)
    | some k =>
      ((s.write k (r.bytes (lapBit tail size) true (s.time % 2 ^ 48))).setReg (.eqtail dom)
        (BitVec.ofNat 64 ((tail + 1) % 2 ^ 17))).raiseMsix dom 2

/-- Write a record into the physical log, or count it as lost (R387). Log 84 (DEDUCED). -/
def State.physRecord (s : State) (r : ErrRec) (virt : Bool) : State :=
  let size := s.regField .plring 0 4
  let tail := s.regField .pltail 0 17
  let head := s.regField .plhead 0 17
  let k := devKey 0 (s.regField .plring 12 40 * 2 ^ 12 + 64 * (tail % ringLen size))
  if ringLen size ≤ (tail + 2 ^ 17 - head) % 2 ^ 17 ∨ ¬ s.mediaOk k then s.countLost .pllost
  else
    ((s.write k (r.bytes (lapBit tail size) virt (s.time % 2 ^ 48))).setReg .pltail
      (BitVec.ofNat 64 ((tail + 1) % 2 ^ 17))).raiseMsix 0 8

/-- Whether ADDR of a record is a virtual address of the event (R385): not of kinds without one, of poison outside global memory
or met in gate code (ADDR 0), or of engine faults at an OOB row or a sparse header. Log 55 (DEDUCED). -/
def ErrRec.hasAddr (r : ErrRec) : Bool :=
  (r.kind == 1 && decide (r.sub ≤ 2) && r.addr != 0) || r.kind == 2 || (r.kind == 3 && decide (r.sub ≤ 2)) || r.kind == 7 ||
  (r.kind == 10 && r.addr != 0)

/-- A record of KIND 0x01 to 0x0B: into the domain's queue, and into the physical log with its address translated where a
translation is known (R386, R387). Log 10 (DEDUCED), 20 (DEDUCED). -/
def State.record (s : State) (r : ErrRec) : State :=
  let s' := s.domainRecord r.dom r
  if ¬ r.hasAddr then s'.physRecord r true
  else
  match s'.translate ioUnit r.dom (r.addr / 2 ^ 16) with
  | .ok m =>
    if m.host then s'.physRecord r true else s'.physRecord { r with addr := m.page * 2 ^ 16 + r.addr % 2 ^ 16 } false
  | _ => s'.physRecord r true

/-- PLACE's core bits (R326): [9:8] core, [7:2] cluster, [1:0] die. -/
def placeBits (core : Nat) : Nat := core % 4 * 2 ^ 8 + core % 160 / 4 * 2 ^ 2 + core / 160

end Sys2Proof.Machine
end

