-- ==== Sys2Proof/Machine/Launch.lean ====
section
/-!
DEFINITION. The task-graph scheduler's shared operations: completion signals (R376, R436), launch records and their checks
(R301, R302, R395, R396), nodes and counters (R305 to R309), the ready pool, the end of gangs and launches (R314) and the
killing of gangs (R315).
-/
namespace Sys2Proof.Machine

/-! ### Completion signals -/

/-- An error value (R376). -/
def errValue (cls reason : Nat) : Nat := 0xE * 2 ^ 60 + cls * 2 ^ 8 + reason

/-- One change of one word (R376). -/
def SigChange.word (c : SigChange) (w : Nat) : Nat :=
  if w / 2 ^ 60 % 16 = 0xE then w
  else
    match c with
    | .dec _ => if w = 0 then errValue 5 0 else w - 1
    | .err _ _ cls reason => errValue cls reason

/-- Whether a change concerns the DONE word, or the VOUCHED word. -/
def SigChange.touches (c : SigChange) (vouched : Bool) : Bool :=
  match c with
  | .dec v => v == vouched
  | .err d v _ _ => if vouched then v else d

/-- Perform a change on the words at a key: DONE in bytes 0–7, VOUCHED in bytes 8–15 (R376). -/
def State.changeSignal (s : State) (k : Nat) (c : SigChange) : State :=
  let s := if c.touches false then s.store k 8 (c.word (s.load k 8)) else s
  if c.touches true then s.store (k + 8) 8 (c.word (s.load (k + 8) 8)) else s

/-- Whether a change decrements or marks DONE as part of completion, after which NOTIFY raises vector 0 (R301, R376). -/
def State.notifyDone (s : State) (dom : Nat) (notify : Bool) : State := if notify then s.raiseMsix dom 0 else s

/-- Send a change of a launch's signal: at once in device memory, as a PCIe AtomicOp in flight in host memory (R376,
R436); nothing where the record names no signal or its page cannot be written. Log 22 (DESIGN CHOICE). -/
def State.signal (s : State) (launch dom va : Nat) (c : SigChange) (notify : Bool) : State :=
  if va = 0 then s.notifyDone dom notify
  else
    match s.translate ioUnit dom (va / 2 ^ 16) with
    | .ok m =>
      if ¬ m.w then s.notifyDone dom notify
      else if m.host then
        { s with signals := s.signals ++ [{ id := s.fresh, launch := launch, dom := dom, va := va, key := s.keyAt dom m (va % 2 ^ 16),
                                            change := c, notify := notify }],
                 fresh := s.fresh + 1 }
      else (s.changeSignal (s.keyAt dom m (va % 2 ^ 16)) c).notifyDone dom notify
    | _ => s.notifyDone dom notify

/-! ### Launch records -/

/-- Fields of a byte list: n bytes from `at` as a number. -/
def fieldOf (bs : List Byte) (pos n : Nat) : Nat := leNat ((bs.drop pos).take n)

/-- A launch record's fields (R301), without the rejoin section. -/
def parseLaunch (va : Nat) (bs : List Byte) : LaunchRec :=
  let f := fieldOf bs
  { va := BitVec.ofNat 64 va, gangs := f 48 4, blocks := f 52 1, watches := f 53 1, ewidth := f 54 1, cls := f 62 1,
    prio := f 63 1 % 4, caddy := f 55 1, sprows := f 56 2, spill := f 58 2, accrows := f 60 2,
    code := BitVec.ofNat 64 (f 24 8), entry := BitVec.ofNat 64 (f 32 8), traph := BitVec.ofNat 64 (f 40 8),
    argptr := BitVec.ofNat 64 (f 320 8), argsize := f 328 4,
    segs := (List.range 16).map (fun i => BitVec.ofNat 128 (f (64 + 16 * i) 16)),
    signal := BitVec.ofNat 64 (f 336 8), cntbuf := BitVec.ofNat 64 (f 344 8),
    pilot := if f 352 1 / 128 % 2 = 1 then some (f 352 1 % 4) else none,
    replay := f 4 4 % 2 == 1, notify := f 4 4 / 2 % 2 == 1, rejoinAt := 0, rejoinN := 0 }

/-- BASE and LIMIT of a segment binding (R202). -/
def segBase (g : Seg) : Nat := bitsAt g.toNat 0 55
def segLimit (g : Seg) : Nat := bitsAt g.toNat 64 56

/-- Whether a core is in service: not fenced and on a die in service (R302). -/
def State.inService (s : State) (core : Nat) : Bool :=
  s.powered && s.regField (.csight core) 2 1 == 0 && !s.deadDies.contains (core / 160)

/-- Whether QCTL of a domain on a core allows a launch class (R329). -/
def State.classAllowed (s : State) (core dom cls : Nat) : Bool :=
  let c := s.regField (.quotaCtl core dom) 0 2
  s.regField (.quotaCtl core dom) 2 1 == 1 &&
  (if cls = 2 then c == 2 else if cls = 0 then c == 0 else decide (c ≤ 1))

/-- The leeway slots of a core assigned to a domain (R330, R349). -/
def State.leewaySlots (s : State) (core dom : Nat) : List Nat :=
  (if s.regField (.lslot core) 7 1 = 1 ∧ s.regField (.lslot core) 0 5 = dom then [16] else []) ++
  (if s.regField (.lslot core) 15 1 = 1 ∧ s.regField (.lslot core) 8 5 = dom then [17] else [])

/-- The domain whose QSPAD range holds LENDRNG, if exactly one does (R330, R350). -/
def State.lendOwner (s : State) (core : Nat) : Option Nat :=
  let first := s.regField (.lendrng core) 0 12
  let n := s.regField (.lendrng core) 16 13
  match (List.range Config.domains).filter (fun d =>
    decide (s.regField (.qspad core d) 0 12 ≤ first) &&
      decide (first + n ≤ s.regField (.qspad core d) 0 12 + s.regField (.qspad core d) 16 13)) with
  | [d] => some d
  | _ => none

/-- Lendable rows of a core: enabled, and inside one domain's range (R330). -/
def State.lendRows (s : State) (core : Nat) : Nat :=
  if s.regField (.lendrng core) 31 1 = 1 ∧ (s.lendOwner core).isSome then s.regField (.lendrng core) 16 13 else 0

/-- Whether a core's configured quotas are large enough for one block of a record (R302). -/
def State.coreCounts (s : State) (core dom : Nat) (r : LaunchRec) : Bool :=
  s.inService core && s.classAllowed core dom r.cls &&
  (if r.cls = 2 then
    decide (r.watches ≤ (s.leewaySlots core dom).length) && decide (r.sprows + r.spill ≤ s.lendRows core) &&
      decide (r.caddy ≤ Config.leewayBlocks)
  else
    decide (r.watches ≤ s.regField (.qslot core dom) 8 5) &&
    decide (r.watches * r.caddy ≤ s.regField (.qcaddy core dom) 8 7) &&
    decide (r.sprows + r.spill ≤ s.regField (.qspad core dom) 16 13) &&
    decide (r.accrows ≤ s.regField (.qacc core dom) 16 9))

/-- Whether some cluster holds BLOCKS cores that count (R302). -/
def State.quotaFits (s : State) (dom : Nat) (r : LaunchRec) : Bool :=
  (List.range (Config.cores / 4)).any (fun cl =>
    decide (r.blocks ≤ ((List.range 4).filter (fun i => s.coreCounts (4 * cl + i) dom r)).length))

/-- Reserved bytes and bits of a record (R301, reason 0x02). -/
def recordReserved (bs : List Byte) : Bool :=
  (bs.drop 353).all (· == 0) && fieldOf bs 352 1 / 4 % 32 == 0 && fieldOf bs 332 4 == 0 && decide (fieldOf bs 63 1 < 4) &&
  decide (fieldOf bs 4 4 < 4) && decide (fieldOf bs 62 1 ≤ 2) &&
  (List.range 16).all (fun i =>
    let g := fieldOf bs (64 + 16 * i) 16
    bitsAt g 122 6 == 0 && bitsAt g 55 9 == 0)

/-- The checks of R302's table, 0x01 to 0x0A before the code object header, in order: the refusal reason, or 0. -/
def State.recordReason (s : State) (dom : Nat) (bs : List Byte) : Nat :=
  let r := parseLaunch 0 bs
  if fieldOf bs 0 2 ≠ 0x0100 ∨ fieldOf bs 2 2 ≠ 512 then 1
  else if ¬ recordReserved bs then 2
  else if ¬ (1 ≤ r.gangs ∧ 1 ≤ r.blocks ∧ r.blocks ≤ 4 ∧ 1 ≤ r.watches ∧ r.watches ≤ 16 ∧
      (r.ewidth = 16 ∨ r.ewidth = 32 ∨ r.ewidth = 64) ∧ r.caddy ≤ 8 ∧ r.sprows + r.spill ≤ 3072 ∧ r.accrows ≤ 256) then 3
  else if 2 ^ 32 < r.gangs * r.blocks * r.watches * r.ewidth then 4
  else if ¬ s.quotaFits dom r then 5
  else if r.cls = 2 ∧ (r.accrows ≠ 0 ∨ r.blocks ≠ 1) then 6
  else if r.segs.any (fun g => decide (2 ^ 55 < segBase g + segLimit g)) then 7
  else if r.code.toNat % 64 ≠ 0 ∨ r.entry.toNat % 8 ≠ 0 ∨ r.traph.toNat % 8 ≠ 0 ∨ r.signal.toNat % 16 ≠ 0 ∨
      r.cntbuf.toNat % 32 ≠ 0 ∨ (r.argsize ≠ 0 ∧ r.argptr.toNat % 8 ≠ 0) then 8
  else if 4096 < r.argsize ∨ r.argsize % 8 ≠ 0 then 9
  else if fieldOf bs 8 16 ≠ Config.deviceHash.toNat then 10
  else 0

/-- The section of a type in a code object header's entries: OFFSET and SIZE (R395). -/
def sectionOf (entries : List (List Byte)) (ty : Nat) : Option (Nat × Nat) :=
  (entries.find? (fun e => fieldOf e 0 4 == ty)).map (fun e => (fieldOf e 8 8, fieldOf e 4 4))

/-- The header checks of R396, on 64 bytes and the section entries. -/
def headerSound (h : List Byte) (entries : List (List Byte)) (hash : Nat) : Bool :=
  let tys := entries.map (fun e => fieldOf e 0 4)
  fieldOf h 0 4 == 0x4F434C47 && fieldOf h 4 2 == 0x0100 && fieldOf h 8 16 == hash && fieldOf h 7 1 == 0 &&
  (h.drop 24).all (· == 0) && decide (1 ≤ fieldOf h 6 1) && decide (fieldOf h 6 1 ≤ 16) &&
  tys.all (fun t => decide (1 ≤ t) && decide (t ≤ 5)) && decide tys.Nodup &&
  tys.contains 1 && tys.contains 2

/-- The outcome of accepting a launch record (R302): accepted, held at a recoverable fault, or refused with a reason; with its SIGNAL
where the record could be read. -/
inductive Accept
  | ok (r : LaunchRec)
  | hold (vpage : Nat) (signal : Option Nat)
  | refused (reason : Nat) (signal : Option Nat)
  deriving DecidableEq, Repr

/-- Accept or refuse the record at a virtual address of a domain, read through a translation unit (R302, R396). -/
def State.acceptLaunch (s : State) (tu dom va : Nat) : Accept :=
  if va % 64 ≠ 0 then .refused 8 none
  else
    match s.vread tu dom va 512 with
    | .hold p => .hold p none
    | .refused _ => .refused 11 none
    | .ok bs =>
      let r := parseLaunch va bs
      let sig := some r.signal.toNat
      if s.recordReason dom bs ≠ 0 then .refused (s.recordReason dom bs) sig
      else
        match s.vread tu dom r.code.toNat 64 with
        | .hold p => .hold p sig
        | .refused _ => .refused 11 sig
        | .ok h =>
          let n := if fieldOf h 6 1 ≤ 16 then fieldOf h 6 1 else 0
          match s.vread tu dom (r.code.toNat + 64) (16 * n) with
          | .hold p => .hold p sig
          | .refused _ => .refused 11 sig
          | .ok es =>
            let entries := chunks 16 n es
            if headerSound h entries (fieldOf bs 8 16) then
              let rj := (sectionOf entries 2).getD (0, 0)
              .ok { r with rejoinAt := BitVec.ofNat 64 (r.code.toNat + rj.1), rejoinN := rj.2 / 32 }
            else .refused 10 sig

/-! ### Nodes -/

/-- The virtual address of a node record (R305). -/
def State.nodeVa (s : State) (dom idx : Nat) : Nat := s.regField (.ntbase dom) 16 39 * 2 ^ 16 + 128 * idx

/-- The home die of a node (R307). -/
def State.homeDie (s : State) (idx : Nat) : Nat :=
  (((List.range 4).map (fun i => (idx + i) % 4)).find? (fun d => !s.deadDies.contains d)).getD (idx % 4)

/-- Write a node record's STATE (R305): 0 IDLE, 1 WAITING, 2 READY, 3 RUNNING, 4 DONE, 5 FAULTED. -/
def State.setNodeState (s : State) (dom idx v : Nat) : State :=
  s.vwrite ioUnit dom (s.nodeVa dom idx + 36) (leBytes 1 v)

/-- Reserved bytes and bits, NSUCC and successors of a node record (R305, detail 0x06). Log 133 (DEDUCED). -/
def State.nodeSound (s : State) (dom : Nat) (bs : List Byte) : Bool :=
  let n := fieldOf bs 34 1
  (bs.drop 64).all (· == 0) && ((bs.drop 37).take 3).all (· == 0) && decide (n ≤ 8) && decide (fieldOf bs 35 1 < 4) &&
  (List.range 8).all (fun i =>
    let x := fieldOf bs (8 + 3 * i) 3
    if i < n then decide (x < s.regField (.ntcount dom) 0 24) else x == 0)

/-- The checks before an insertion (R302, R305, R312): a code of R312 with a refusal reason, a hold, or what is inserted. -/
inductive NodeCheck
  | ok (n : Node)
  | hold (vpage : Nat)
  | bad (code reason : Nat)
  deriving DecidableEq, Repr

def State.checkNode (s : State) (tu dom idx : Nat) : NodeCheck :=
  if s.regField (.ntcount dom) 0 24 ≤ idx then .bad 1 0
  else
    match s.vread tu dom (s.nodeVa dom idx) 128 with
    | .hold p => .hold p
    | .refused _ => .bad 7 0
    | .ok bs =>
      if ¬ s.nodeSound dom bs then .bad 6 0
      else if ¬ (fieldOf bs 36 1 = 0 ∨ fieldOf bs 36 1 = 4 ∨ fieldOf bs 36 1 = 5) then .bad 2 0
      else
        match s.acceptLaunch tu dom (fieldOf bs 0 8) with
        | .hold p _ => .hold p
        | .refused r _ => .bad 4 r
        | .ok r =>
          .ok { dom := dom, idx := idx, counter := fieldOf bs 32 2, home := s.homeDie idx, prio := fieldOf bs 35 1 % 4,
                succ := (List.range (fieldOf bs 34 1)).map (fun i => fieldOf bs (8 + 3 * i) 3), recd := r, payload := none,
                parent := none }

/-- Take the next sequence value of a die (R308). -/
def State.nextSeq (s : State) (die : Nat) : State :=
  { s with seqs := modAt (fun v => (v + 1) % 2 ^ 48) s.seqs die }

/-- A launch enters the ready pool of its home die with the next sequence value (R308, R310, R313). -/
def State.enterPool (s : State) (dom : Nat) (node : Option Nat) (succ : List Nat) (home prio : Nat) (r : LaunchRec)
    (payload : Option DWord) (parent : Option (Nat × Nat)) : State :=
  let l : Launch :=
    { id := s.fresh, dom := dom, recd := r, node := node, succ := succ, home := home, prio := prio,
      seq := s.seqs.getD home 0, readyAt := s.time, phase := .ready, handed := 0, batches := [], faulted := false,
      payload := payload, parent := parent, vouch := [], reset := false }
  { s.nextSeq home with launches := s.launches ++ [l], fresh := s.fresh + 1 }

/-- Counters that a die's counter file holds (R12, R307). -/
def counterFile : Nat := 16384

/-- The counter of an active node: a READY or RUNNING one has 0 (R308). -/
def State.counterValue (s : State) (dom idx : Nat) : Nat :=
  ((s.nodes.find? (fun m => m.dom == dom && m.idx == idx)).map (·.counter)).getD 0

/-- Where a die's counter file is over full, its least recently changed counters are written back to CUR (R305, R307).
Log 89 (DEDUCED). -/
def State.writeBack (s : State) (die : Nat) : State :=
  let mine := s.file.filter (fun x => x.1 == die)
  let out := mine.take (mine.length - counterFile)
  out.foldl (fun s x => s.vwrite ioUnit x.2.1 (s.nodeVa x.2.1 x.2.2 + 40) (leBytes 2 (s.counterValue x.2.1 x.2.2)))
    { s with file := s.file.filter (fun x => !out.contains x) }

/-- The counter of an active node has changed: its die's counter file holds it as the latest (R307). Log 89 (DEDUCED). -/
def State.touchCounter (s : State) (die dom idx : Nat) : State :=
  State.writeBack { s with file := s.file.filter (fun x => !(x.2.1 == dom && x.2.2 == idx)) ++ [(die, dom, idx)] } die

/-- A node is no longer active: it has no counter (R306, R307). -/
def State.dropCounter (s : State) (dom idx : Nat) : State :=
  { s with file := s.file.filter (fun x => !(x.2.1 == dom && x.2.2 == idx)) }

/-- A counter as it stands after a change (R307). -/
def State.putNode (s : State) (n : Node) : State :=
  State.touchCounter { s with nodes := s.nodes.filter (fun m => !(m.dom == n.dom && m.idx == n.idx)) ++ [n] } n.home n.dom n.idx

/-- A node whose counter reached zero becomes READY (R308); it keeps its counter while it is active (R307). -/
def State.nodeReady (s : State) (n : Node) : State :=
  let va := s.nodeVa n.dom n.idx
  let s := { s with nodes := s.nodes.filter (fun m => !(m.dom == n.dom && m.idx == n.idx)) }
  let s := s.vwrite ioUnit n.dom (va + 48) (leBytes 8 (s.seqs.getD n.home 0))
  ((s.setNodeState n.dom n.idx 2).touchCounter n.home n.dom n.idx).enterPool n.dom (some n.idx) n.succ n.home n.prio n.recd n.payload n.parent

/-- Insert a checked node (R306). A fork records its gang in LINK, in a form that is the device's own (free bytes).
Log 23 (DESIGN CHOICE), 89 (DEDUCED). -/
def State.insertNode (s : State) (n : Node) : State :=
  let va := s.nodeVa n.dom n.idx
  let s := s.vwrite ioUnit n.dom (va + 56) (leBytes 8 0)
  let s := s.vwrite ioUnit n.dom (va + 42)
    (if n.parent.isSome then (List.range 6).map (fun i => Config.freeByte (s.fresh + i)) else leBytes 6 0)
  let s := if n.parent.isSome then { s with fresh := s.fresh + 6 } else s
  if n.counter = 0 then s.nodeReady n
  else (s.setNodeState n.dom n.idx 1).putNode n

/-- Decrement of a node by n from a completion, a RELEASE packet or a fired tag (R308). -/
def State.decNode (s : State) (dom idx n : Nat) : State :=
  match s.nodes.find? (fun m => m.dom == dom && m.idx == idx) with
  | none => s.record { kind := 4, dom := dom, detail := idx }
  | some m =>
    if m.counter < n then (s.putNode { m with counter := 0 }).record { kind := 4, dom := dom, detail := idx }
    else if m.counter = n then { s with fired := (dom, idx) :: s.fired }.nodeReady { m with counter := 0 }
    else s.putNode { m with counter := m.counter - n }

/-! ### The end of gangs and launches -/

def State.launchOf (s : State) (id : Nat) : Option Launch := s.launches.find? (fun l => l.id == id)
def State.gangOf (s : State) (launch idx : Nat) : Option Gang :=
  s.gangs.find? (fun g => g.launch == launch && g.idx == idx)
def State.modLaunch (s : State) (id : Nat) (f : Launch → Launch) : State :=
  { s with launches := s.launches.map (fun l => if l.id = id then f l else l) }
def State.modGang (s : State) (launch idx : Nat) (f : Gang → Gang) : State :=
  { s with gangs := s.gangs.map (fun g => if g.launch = launch ∧ g.idx = idx then f g else g) }

/-- The number that names a block's rows while its gang is not placed. -/
def imageNo (launch idx block : Nat) : Nat := (launch * 2 ^ 32 + idx) * 4 + block

/-- The memory key of scratchpad offset 0 of a block: on its core while the gang is placed, in its image otherwise (R204,
R205, R348). -/
def Gang.spadAt (g : Gang) (block : Nat) : Nat :=
  if g.phase = .placed then
    (match g.places[block]? with
    | some p => spadKey p.core (128 * p.row)
    | none => 0)
  else 2 ^ 62 + imageNo g.launch g.idx block * 2 ^ 19

/-- The key of accumulator row 0 of a block (R273). -/
def Gang.accAt (g : Gang) (block : Nat) : Nat :=
  if g.phase = .placed then
    (match g.places[block]? with
    | some p => p.core * 256 + p.acc
    | none => 0)
  else 2 ^ 20 + imageNo g.launch g.idx block * 256

/-- Move the bytes, and the poison, of n keys (R347, R350). -/
def State.moveBytes (s : State) (src dst n : Nat) : State :=
  let inside := fun (k : Nat) => decide (src ≤ k) && decide (k < src + n)
  let moved := s.mem.filter (fun c => inside c.1)
  { s.rekey (fun k => if inside k then k - src + dst else k) with
           mem := moved.foldl (fun (m : Memory) c => Memory.put m (c.1 - src + dst) c.2)
             (Memory.clear (Memory.clear s.mem (fun k => decide (dst ≤ k) && decide (k < dst + n))) inside),
           poison := (s.poison.filter (fun k => inside k || !(decide (dst ≤ k) && decide (k < dst + n)))).map
             (fun k => if inside k then k - src + dst else k) }

def AccRow.zero : AccRow := { anchor := 0, aexc := false, nan := false, inf := false }

/-- The state of a row, and a cell's 96 bits. -/
def State.accRow (s : State) (k : Nat) : AccRow := getKey k AccRow.zero s.accRows
def State.accCell (s : State) (k col : Nat) : Nat := ((getKey (k * 256 + col) 0 s.accCells) : BitVec 96).toNat

def State.setRow (s : State) (k : Nat) (r : AccRow) : State := { s with accRows := putKey k r s.accRows }

/-- Put a cell; a zero cell is not listed. -/
def State.setCell (s : State) (k col v : Nat) : State :=
  let rest := s.accCells.filter (fun c => c.1 != k * 256 + col)
  { s with accCells := if v = 0 then rest else (k * 256 + col, BitVec.ofNat 96 v) :: rest }

/-- Move n accumulator rows with their cells and poison (R273, R384). -/
def State.moveRows (s : State) (src dst n : Nat) : State :=
  let inside := fun (k : Nat) => decide (src ≤ k) && decide (k < src + n)
  { s with accRows := s.accRows.map (fun r => if inside r.1 then (r.1 - src + dst, r.2) else r),
           accCells := s.accCells.map (fun c => if inside (c.1 / 256) then (c.1 + dst * 256 - src * 256, c.2) else c),
           accPoison := s.accPoison.map (fun k => if inside k then k - src + dst else k) }

/-- Clear n bytes, and n accumulator rows (R273). -/
def State.clearBytes (s : State) (k n : Nat) : State :=
  let inside := fun (j : Nat) => decide (k ≤ j) && decide (j < k + n)
  { s.forgetKeys inside with mem := Memory.clear s.mem inside, poison := s.poison.filter (fun j => !inside j) }
def State.clearRows (s : State) (k n : Nat) : State :=
  let inside := fun (j : Nat) => decide (k ≤ j) && decide (j < k + n)
  { s with accRows := s.accRows.filter (fun r => !inside r.1), accCells := s.accCells.filter (fun c => !inside (c.1 / 256)),
           accPoison := s.accPoison.filter (fun k => !inside k) }

/-- Whether a watch belongs to a gang. -/
def Watch.of (w : Watch) (launch gang : Nat) : Bool := w.ref.launch == launch && w.ref.gang == gang

/-- Keep the resident watches that satisfy `p`; when the one in focus goes, the next takes its place. -/
def State.keepWatches (s : State) (p : Watch → Bool) : State :=
  let o := s.others.filter p
  if p s.ctx then { s with others := o }
  else
    match o with
    | [] => { s with ctx := Watch.empty, others := [] }
    | w :: ws => { s with ctx := w, others := ws }

/-! ### World-switch turns (R365) -/

/-- Entry n of a core's rotation list, when it is valid (R365). -/
def State.wsEntry (s : State) (core n : Nat) : Option Nat :=
  if s.regField (.wslist core) (8 * n + 7) 1 = 1 then some (s.regField (.wslist core) (8 * n) 5) else none

/-- The domains of the list, with their places. -/
def State.wsListed (s : State) (core : Nat) : List (Nat × Nat) :=
  (List.range 8).filterMap (fun n => (s.wsEntry core n).map (fun d => (n, d)))

/-- A list with one valid entry, or none, performs no switches (R365). -/
def State.wsOn (s : State) (core : Nat) : Bool :=
  s.regField (.wsctl core) 17 1 == 1 && decide (2 ≤ (s.wsListed core).length)

/-- The world-switch position of a core: at first, the first valid entry. -/
def State.sliceOf (s : State) (core : Nat) : Slice :=
  (s.slices.find? (fun x => x.core == core)).getD
    { core := core, index := (((s.wsListed core).head?).map (·.1)).getD 0, leaving := none, short := 0 }

def State.setSlice (s : State) (x : Slice) : State :=
  { s with slices := x :: s.slices.filter (fun y => y.core != x.core) }

/-- Whether a domain may place gangs on a core now: not listed, or the listed one whose slice runs (R365). -/
def State.hasTurn (s : State) (core dom : Nat) : Bool :=
  !s.wsOn core || !((s.wsListed core).any (fun x => x.2 == dom)) ||
    ((s.sliceOf core).leaving.isNone && s.wsEntry core (s.sliceOf core).index == some dom)

/-- Whether gangs of a domain may be dispatched: no hard request halts it, and on some core its slice runs or it needs none
(R319, R340, R365). Log 136 (DEDUCED). -/
def State.dispatches (s : State) (dom : Nat) : Bool :=
  !s.preempts.any (fun p => p.dom == dom && p.hard) && (List.range Config.cores).any (fun c => s.inService c && s.hasTurn c dom)

/-- A swapped-out gang whose join count is 0 returns to the ready pool of its launch (R316); while its domain is halted or switched out,
that waits for its next dispatch (R319). -/
def State.returnSwapped (s : State) (l g : Nat) : State :=
  match s.gangOf l g, s.launchOf l with
  | some x, some la =>
    if x.join = 0 ∧ x.phase = .swapped ∧ s.dispatches la.dom then
      (s.modGang l g (fun y => { y with phase := .saved, seq := s.seqs.getD la.home 0, back := s.time })).nextSeq la.home
    else s
  | _, _ => s

/-- The same for every gang. -/
def State.pollSwapped (s : State) : State :=
  (s.gangs.filter (fun g => g.phase == .swapped)).foldl (fun s g => s.returnSwapped g.launch g.idx) s

/-- A child of a fork has ended: its parent's join count falls, and a swapped-out parent whose count reaches 0 returns to
the ready pool (R316, R319). -/
def State.joinFall (s : State) (p : Option (Nat × Nat)) : State :=
  match p with
  | none => s
  | some (l, g) =>
    (s.modGang l g (fun x => { x with join := x.join - 1 })).returnSwapped l g

/-- Add to a staging record. -/
def addCount (slot kind n : Nat) : List EventCount → List EventCount
  | [] => if n = 0 then [] else [{ slot := slot, kind := kind, count := n }]
  | e :: es =>
    if e.slot = slot ∧ e.kind = kind then { e with count := (e.count + n) % 2 ^ 64 } :: es else e :: addCount slot kind n es

/-- An entry of a core's table is added into its gang's staging record (R153). -/
def State.flushCount (s : State) (e : CountEntry) : State :=
  s.modGang e.launch e.gang (fun g =>
    { g with staging := addCount e.slot 2 e.nan (addCount e.slot 1 e.flush (addCount e.slot 0 e.sat g.staging)) })

/-- The entries that satisfy `p` leave their tables for the staging records (R153). -/
def State.flushCounts (s : State) (p : CountEntry → Bool) : State :=
  (s.counts.filter p).foldl State.flushCount { s with counts := s.counts.filter (fun e => !p e) }

/-- n more events of a kind. -/
def CountEntry.more (e : CountEntry) (kind n : Nat) : CountEntry :=
  if kind = 0 then { e with sat := e.sat + n } else if kind = 1 then { e with flush := e.flush + n } else { e with nan := e.nan + n }

/-- Count n events of a kind under a key of a core's table of 64 entries: the oldest entry makes room for a new key, and an entry
with a count of 2^31 is flushed (R153). Log 99 (DESIGN CHOICE). -/
def State.tally (s : State) (core launch gang slot kind n : Nat) : State :=
  let mine := fun (e : CountEntry) => e.core == core && e.launch == launch && e.gang == gang && e.slot == slot
  let full := fun (e : CountEntry) => decide (2 ^ 31 ≤ e.sat) || decide (2 ^ 31 ≤ e.flush) || decide (2 ^ 31 ≤ e.nan)
  if s.counts.any mine then
    ({ s with counts := modFirst mine (·.more kind n) s.counts } : State).flushCounts (fun e => mine e && full e)
  else
    let here := s.counts.filter (fun e => e.core == core)
    let s := match here with
      | e :: _ => if 64 ≤ here.length then s.flushCounts (· == e) else s
      | [] => s
    let e : CountEntry := { core := core, launch := launch, gang := gang, slot := slot, sat := 0, flush := 0, nan := 0 }
    ({ s with counts := s.counts ++ [e.more kind n] } : State).flushCounts (fun e => mine e && full e)

/-- Whether a gang holds a slot of its domain's save pool: one that has never been placed does not (R310). -/
def Gang.hasSlot (g : Gang) : Bool := !g.places.isEmpty

/-- Add a gang's staging record into the counter buffer (R153, R154). Where a slot record cannot be read its old count counts as 0,
and a write that cannot be made is dropped. Log 101 (DESIGN CHOICE). -/
def State.addCounts (s : State) (dom : Nat) (buf : Nat) : List EventCount → State
  | [] => s
  | e :: es =>
    let va := buf + 128 + 32 * e.slot + 8 * e.kind
    let old := match s.vread ioUnit dom va 8 with
      | .ok bs => leNat bs
      | _ => 0
    (s.vwrite ioUnit dom va (leBytes 8 ((old + e.count) % 2 ^ 64))).addCounts dom buf es

/-- Decrement the successors of a completed launch, in list order (R309). -/
def State.releaseAll (s : State) (dom : Nat) : List Nat → State
  | [] => s
  | i :: is => (s.decNode dom i 1).releaseAll dom is

/-- A launch ends: completes under R314, or ends FAULTED under R315 (`quiet`: killed with its parent or its domain). -/
def State.endLaunch (s : State) (l : Launch) (quiet : Bool) : State :=
  if l.faulted then
    let s := match l.node with
      | some i => (s.setNodeState l.dom i 5).dropCounter l.dom i
      | none => s
    let s := s.modLaunch l.id (fun x => { x with phase := .closed })
    if l.reset then (if quiet then s else s.joinFall l.parent)
    else
      let s := s.signal l.id l.dom l.recd.signal.toNat (.err true true 3 0) false
      let s := s.record { kind := 6, dom := l.dom, detail := l.node.getD 0xFFFFFF, addr2 := l.recd.va.toNat }
      if quiet then s else s.joinFall l.parent
  else
    let s := s.crossLaunch l.id
    let s := match l.node with
      | some i => (s.setNodeState l.dom i 4).dropCounter l.dom i
      | none => s
    let s := s.modLaunch l.id (fun x => { x with phase := .doneUnvouched })
    let s := s.releaseAll l.dom l.succ
    let s := s.signal l.id l.dom l.recd.signal.toNat (.dec false) l.recd.notify
    s.joinFall l.parent

/-- Whether a launch has nothing left to run: no gang of it lives, and all indices are handed out or it is FAULTED. -/
def State.launchSpent (s : State) (l : Launch) : Bool :=
  !(s.gangs.any (fun g => g.launch == l.id)) && l.phase == .running &&
  (l.faulted || (decide (l.recd.gangs ≤ l.handed) && l.batches.all (fun b => decide (b.stop ≤ b.next))))

/-- End a launch that has nothing left to run. -/
def State.settleLaunch (s : State) (id : Nat) (quiet : Bool) : State :=
  match s.launchOf id with
  | some l => if s.launchSpent l then s.endLaunch l quiet else s
  | none => s

/-- Discard the rows of a gang's image (R314, R315). -/
def State.dropImage (s : State) (launch idx : Nat) : State :=
  (s.clearBytes (2 ^ 62 + imageNo launch idx 0 * 2 ^ 19) (2 ^ 21)).clearRows (2 ^ 20 + imageNo launch idx 0 * 256) 1024

/-- Free what a gang holds: its watches, its image, its caddy requests, commands, matrix commands and counts (R153, R269, R271, R315). -/
def State.dropGang (s : State) (launch idx : Nat) : State :=
  let s := ((s.enterGang launch idx).keepWatches (fun w => !w.of launch idx)).dropImage launch idx
  { s with cmds := s.cmds.filter (fun c => !(c.watch.launch == launch && c.watch.gang == idx)),
           mats := s.mats.filter (fun c => !(c.watch.launch == launch && c.watch.gang == idx)),
           caddyQ := s.caddyQ.filter (fun c => !(c.watch.launch == launch && c.watch.gang == idx)),
           counts := s.counts.filter (fun c => !(c.launch == launch && c.gang == idx)),
           prq := s.prq.map (fun e => { e with waiters := e.waiters.filter (fun x =>
             match x with
             | .split w _ => !(w.launch == launch && w.gang == idx)
             | _ => true) }) }

/-- Fail an active node whose parent was killed, or whose domain is reset (R315, R319). -/
def State.failNode (s : State) (n : Node) : State :=
  { (s.setNodeState n.dom n.idx 5).dropCounter n.dom n.idx with
    nodes := s.nodes.filter (fun m => !(m.dom == n.dom && m.idx == n.idx)) }

/-- Whether a launch has failed: no gang of it starts any more (R315). -/
def State.launchFailed (s : State) (id : Nat) : Bool := ((s.launchOf id).map (·.faulted)).getD true

/-- A launch will end FAULTED: none of its gangs starts from now on, nor starts again (R315). -/
def State.failLaunch (s : State) (id : Nat) : State :=
  ({ s with gangs := s.gangs.filter (fun (g : Gang) => !(g.launch == id && decide (g.phase = GangPhase.relaunch))) }).modLaunch id
    (fun l => { l with faulted := true })

/-- Kill a gang (R315). `again`: a replayable gang killed by an uncorrectable error or a sight failure is relaunched with the
same index, unless its launch has failed. The open children are killed with it, and theirs, to the depth of `fuel`. -/
def State.killGangFuel : Nat → State → Nat → Nat → Bool → Bool → State
  | 0, s, _, _, _, _ => s
  | fuel + 1, s, launch, idx, again, quiet =>
    let s := s.dropGang launch idx
    let kids := s.launches.filter (fun l => l.parent == some (launch, idx) && (l.phase == .ready || l.phase == .running))
    let kidNodes := s.nodes.filter (fun n => n.parent == some (launch, idx))
    let s := kidNodes.foldl (fun s n =>
      ((s.failNode n).signal 0 n.dom n.recd.signal.toNat (.err true true 3 0) false).record
        { kind := 6, dom := n.dom, detail := n.idx, addr2 := n.recd.va.toNat }) s
    let s := kids.foldl (fun s l =>
      let s := s.modLaunch l.id (fun x => { x with faulted := true, phase := .running })
      let s := (s.gangs.filter (fun g => g.launch == l.id)).foldl
        (fun s g => State.killGangFuel fuel s l.id g.idx false true) s
      s.settleLaunch l.id true) s
    let s := s.modLaunch launch (fun l => { l with vouch := l.vouch.filter (fun v => v.gang != idx) })
    if again && !s.launchFailed launch then
      s.modGang launch idx (fun g =>
        { g with phase := .relaunch, join := 0, staging := [], watches := [], seq := 0, back := 0 })
    else
      let s := { s with gangs := s.gangs.filter (fun g => !(g.launch == launch && g.idx == idx)) }
      (s.failLaunch launch).settleLaunch launch quiet

/-- Kill a gang for good, or relaunch it where the cause allows and its record is REPLAYABLE (R315). -/
def State.killGang (s : State) (launch idx : Nat) (mayRelaunch : Bool) : State :=
  let rep := ((s.launchOf launch).map (·.recd.replay)).getD false
  State.killGangFuel (s.launches.length + 1) s launch idx (mayRelaunch && rep) false

/-- A block has ended when its last watch has: from then on the cores it ran on may vouch for it (R389). -/
def State.settleBlock (s : State) (launch idx block : Nat) : State :=
  match s.gangOf launch idx with
  | none => s
  | some g =>
    match g.places[block]? with
    | none => s
    | some p =>
      if p.ended ∨ g.phase ≠ .placed ∨ s.watches.any (fun w => w.of launch idx && w.ref.block == block) then s
      else
        ((s.flushCounts (fun e => e.launch == launch && e.gang == idx && e.core == p.core)).modGang launch idx
          (fun g => { g with places := modAt (fun q => { q with ended := true }) g.places block })).modLaunch
          launch (fun x => { x with vouch := x.vouch ++
            [{ gang := idx, block := block, cores := p.ran, drained := p.drained, endAt := s.time, suspect := false }] })

/-- A gang has ended: its staging record is added to the counter buffer, and its rows and save slot are freed (R314). -/
def State.endGang (s : State) (launch idx : Nat) : State :=
  let s := s.flushCounts (fun e => e.launch == launch && e.gang == idx)
  match s.gangOf launch idx, s.launchOf launch with
  | some g, some l =>
    let s := if l.recd.cntbuf = 0 then s else s.addCounts l.dom l.recd.cntbuf.toNat g.staging
    ({ s with gangs := s.gangs.filter (fun x => !(x.launch == launch && x.idx == idx)) }).settleLaunch launch false
  | _, _ => s

/-- End a gang whose watches have all ended and whose engine commands have all completed (R314). -/
def State.settleGang (s : State) (launch idx : Nat) : State :=
  match s.gangOf launch idx with
  | none => s
  | some g =>
    if g.phase = .placed ∧ ¬ s.watches.any (·.of launch idx) ∧
        ¬ s.cmds.any (fun c => c.watch.launch == launch && c.watch.gang == idx) ∧
        ¬ s.mats.any (fun c => c.watch.launch == launch && c.watch.gang == idx) then s.endGang launch idx
    else s

end Sys2Proof.Machine
end

