-- ==== Sys2Proof/Machine/Ops.lean ====
section
/-!
DEFINITION. The named operations over a watch and the machine: active lanes (R63), pushes (R30, R35, R71), caddy frames and
pools (R37, R117), spill rows (R91), event counters (R327), taking a trap (R320 to R323, R338) and returning from one (R325),
and the end of lanes, splits and watches (R64, R86).
-/
namespace Sys2Proof.Machine

/-- What a meaning answers. -/
abbrev Out := Host.Outcome State Fault Refusal

/-- What software does through a register: nothing, unless the module is up (R407). -/
def State.byRegister (s : State) (f : State → State) : Out := .next (if s.isUp then f s else s)

/-! ### Trap causes (R322) -/

def causeIllop : Nat := 0x01
def causeIllfield : Nat := 0x02
def causeVoidread : Nat := 0x03
def causeNestovf : Nat := 0x04
def causeCalldepth : Nat := 0x05
def causeSpillfull : Nat := 0x06
def causeSeglimit : Nat := 0x07
def causePagefault : Nat := 0x08
def causeProtect : Nat := 0x09
def causeDomain : Nat := 0x0A
def causeAlign : Nat := 0x0B
def causeShape : Nat := 0x0C
def causeSparsehdr : Nat := 0x0D
def causeBarfault : Nat := 0x0E
def causeDepunder : Nat := 0x0F
def causeNodefault : Nat := 0x10
def causeScope : Nat := 0x11
def causeGate : Nat := 0x12
def causeCaddy : Nat := 0x13
def causeLayout : Nat := 0x14
def causeSwtrap : Nat := 0x15
def causeLeeway : Nat := 0x16
def causeBearing : Nat := 0x17

/-! ### Lanes, masks and wakes -/

/-- Whether a lane is active in a split (R63). -/
def Lane.active (sp : Nat) (l : Lane) : Bool := l.split == sp && !l.exited && l.wake.nest == 0

/-- k0: the active mask of the issuing split (R63). -/
def Watch.k0 (w : Watch) : Mask := maskWhere (Lane.active w.sp.id) w.lanes

/-- Every lane of the issuing split that has not exited (R321). -/
def Watch.present (w : Watch) : Mask := maskWhere (fun l => l.split == w.sp.id && !l.exited) w.lanes

/-- Mask register n, with n = 0 the issuing split's active mask (R113). -/
def Watch.kreg (w : Watch) (n : Nat) : Mask := if n = 0 then w.k0 else w.ks.getD (n - 1) 0

/-- The governing mask of KSEL n: k0, or kn AND k0 (R44). -/
def Watch.gov (w : Watch) (k : BitVec 3) : Mask := if k = 0 then w.k0 else w.kreg k.toNat &&& w.k0

/-- The entry of a wake at an age (R30). -/
def VWake.get (v : VWake) (age : Nat) : Entry Word := v.ring.getD (v.head - BitVec.ofNat 5 age).toNat .void
def SWake.get (v : SWake) (age : Nat) : Entry DWord := v.ring.getD (v.head - BitVec.ofNat 4 age).toNat .void

/-- Push one entry (R30, R35). -/
def VWake.push (v : VWake) (e : Entry Word) : VWake :=
  { v with ring := setAt v.ring (v.head + 1).toNat e, head := v.head + 1 }
def SWake.push (v : SWake) (e : Entry DWord) : SWake :=
  { ring := setAt v.ring (v.head + 1).toNat e, head := v.head + 1 }

/-- The value of an entry, or 0 when it is void. -/
def Entry.bits {n : Nat} : Entry (BitVec n) → Nat
  | .void => 0
  | .val v => v.toNat
  | .pend v _ => v.toNat
  | .bad => 0

def Entry.isBad {α : Type} : Entry α → Bool
  | .bad => true
  | _ => false

def Entry.isVoid {α : Type} : Entry α → Bool
  | .void => true
  | _ => false

def Entry.isPend {α : Type} : Entry α → Bool
  | .pend _ _ => true
  | _ => false

/-- How far a wake position lies past a mark: 1 to 32 (R71). -/
def ahead (mark pos : BitVec 5) : Nat := if pos = mark then 32 else (pos - mark).toNat

/-- A lane of `m` has written position `pos l`: its depth in an open record rises to the distance from its mark (R71). -/
def Region.touch (m : Mask) (pos : List (BitVec 5)) (r : Region) : Region :=
  { r with depths := mapFrom (fun l d => if has m l then max d (ahead (r.marks.getD l 0) (pos.getD l 0)) else d) 0 r.depths }

/-- The heads of all lanes. -/
def Watch.heads (w : Watch) : List (BitVec 5) := w.lanes.map (·.wake.head)

/-- Push one entry in every lane of a mask (R30, R31, R71). -/
def Watch.push (w : Watch) (m : Mask) (e : Nat → Entry Word) : Watch :=
  let ls := mapFrom (fun i (l : Lane) => if has m i then { l with wake := l.wake.push (e i) } else l) 0 w.lanes
  { w with lanes := ls, sp := { w.sp with recs := w.sp.recs.map (Region.touch m (ls.map (·.wake.head))) } }

/-- Push a list of entries for each lane, the last one ending at age 0 (R30). -/
def Watch.pushEach (w : Watch) (m : Mask) : List (Nat → Entry Word) → Watch
  | [] => w
  | e :: es => (w.push m e).pushEach m es

/-- Push to the issuing split's scalar wake (R35). -/
def Watch.spush (w : Watch) (e : Entry DWord) : Watch := { w with sp := { w.sp with swake := w.sp.swake.push e } }

/-- Update every lane by its index. -/
def Watch.mapLanes (w : Watch) (f : Nat → Lane → Lane) : Watch := { w with lanes := mapFrom f 0 w.lanes }

def Watch.lane (w : Watch) (l : Nat) : Lane := w.lanes.getD l Lane.empty

/-- Set the sticky saturation flag of lanes (R95, R166). -/
def Watch.setSatf (w : Watch) (m : Mask) : Watch := w.mapLanes (fun i l => if has m i then { l with satf := true } else l)

/-- Write mask register n, 1 to 7 (R113). -/
def Watch.setK (w : Watch) (n : Nat) (v : Mask) : Watch := { w with ks := setAt w.ks (n - 1) v }

/-! ### The machine around the watch in focus -/

def State.mapCtx (s : State) (f : Watch → Watch) : State := { s with ctx := f s.ctx }
/-- The issuing split goes on at `pc`; it waits for nothing. -/
def State.setPc (s : State) (pc : DWord) : State :=
  { s with ctx := { s.ctx with sp := { s.ctx.sp with pc := pc, wait := .none } } }
/-- Move past the present word: by 8, or by 16 past LDIL and its literal (R43, R51). -/
def State.advance (s : State) (n : Nat) : State := s.setPc (s.ctx.sp.pc + BitVec.ofNat 64 n)
/-- Set aside what the issuing split has transferred of a bearing record (R195). -/
def State.setRecord (s : State) (r : RecordPart) : State := { s with ctx := { s.ctx with sp := { s.ctx.sp with record := r } } }

/-- The issuing split waits; its PC stays (R60). Log 34 (DEDUCED). -/
def State.hold (s : State) (wt : Wait) : State := { s with ctx := { s.ctx with sp := { s.ctx.sp with wait := wt } } }

/-- Update the splits of one watch, wherever it stands. -/
def State.modWatch (s : State) (r : WatchRef) (f : Watch → Watch) : State :=
  s.mapWatches (fun w => if w.resident ∧ w.ref = r then f w else w)

def Watch.mapSplits (w : Watch) (f : Split → Split) : Watch := { w with sp := f w.sp, sibs := w.sibs.map f }
def Watch.splits (w : Watch) : List Split := w.sp :: w.sibs

/-- Bring a watch and one of its splits into focus, if they are there. -/
def Watch.focus (w : Watch) (id : Nat) : Watch :=
  if w.sp.id = id then w
  else
    match w.sibs.find? (fun p => p.id == id) with
    | some p => { w with sp := p, sibs := w.sp :: w.sibs.filter (fun q => q.id != id) }
    | none => w

def State.focus (s : State) (r : WatchRef) (id : Nat) : State :=
  if s.ctx.resident ∧ s.ctx.ref = r then { s with ctx := s.ctx.focus id }
  else
    match s.others.find? (fun w => w.resident && decide (w.ref = r)) with
    | some w => { s with ctx := w.focus id, others := s.ctx :: s.others.filter (fun v => decide (v.ref ≠ r)) }
    | none => s

/-! ### Event counters (R327) -/

/-- Count n events of a kind in one counter of a core. -/
def State.countOne (s : State) (core dom ev n i : Nat) : State :=
  if s.regField (.ctrown core) (5 * i) 5 = dom ∧ s.regField (.ctrcfg core i) 15 1 = 1 ∧
      s.regField (.ctrcfg core i) 0 8 = ev ∧ 0 < n then
    let c := s.regField (.ctrcount core i) 0 48 + n
    let s := s.setReg (.ctrcount core i) (BitVec.ofNat 64 (c % 2 ^ 48))
    if c < 2 ^ 48 then s
    else
      let s := s.setRegField (.ctrcfg core i) 14 1 1
      if s.regField (.ctrcfg core i) 13 1 = 1 then
        (s.domainRecord dom { kind := 8, sub := i, dom := dom, detail := placeBits core }).raiseMsix dom 3
      else s
  else s

/-- Count n events of a kind for an owner's contexts on a core. Log 24 (DEDUCED). -/
def State.countEvent (s : State) (core dom ev n : Nat) : State :=
  (List.range 8).foldl (fun s i => s.countOne core dom ev n i) s

/-! ### Numeric events (R152 to R155) -/

/-- The slot of a tensor ID in a counter buffer's list (R153, R154). -/
def slotOf (tids : List Nat) (tid : Nat) : Nat :=
  match idxsFrom (fun t => t == tid) 0 (tids.take 63) with
  | i :: _ => i
  | [] => 63

/-- Count n numeric events of a watch's gang under a tensor ID: 0 saturation, 1 flush, 2 NaN produced, in the table of the core
that its block stands on. A launch without a counter buffer records nothing (R153). -/
def State.countNumeric (s : State) (w : WatchRef) (tid kind n : Nat) : State :=
  match s.gangOf w.launch w.gang with
  | some g =>
    if n = 0 ∨ ((s.launchOf w.launch).map (·.recd.cntbuf)).getD 0 = 0 then s
    else s.tally (((g.places[w.block]?).map (·.core)).getD 0) w.launch w.gang (slotOf g.tids tid) kind n
  | none => s

/-! ### Caddy frames and pools (R37, R117) -/

def Watch.frameOf (w : Watch) (id : Nat) : CaddyFrame :=
  (w.caddies.find? (fun f => f.id == id)).getD { id := id, pool := 0, blks := [], slots := [] }

/-- The current caddy frame of the issuing split. -/
def Watch.caddy (w : Watch) : CaddyFrame := w.frameOf w.sp.caddy

/-- The blocks of a frame. -/
def CaddyFrame.blocks (f : CaddyFrame) : Nat := f.slots.length / 8

/-- n blocks of zeros (R38). -/
def zeroBlocks (n : Nat) : List (List Word) := List.replicate (8 * n) (List.replicate 64 0)

/-- The frames whose blocks a split holds on chip: its current one and those of its four most recent caller frames (R91). -/
def Split.onChip (p : Split) : List Nat := p.caddy :: (p.frames.take 4).map (·.caddy)

/-- The caddy frames of a watch that stand on chip (R91). -/
def Watch.framesOnChip (w : Watch) : List CaddyFrame :=
  let ids := (w.splits.map Split.onChip).flatten
  w.caddies.filter (fun f => ids.contains f.id)

/-- The blocks that a watch holds: those of its frames on chip, once these have been filled (R91, R117). Log 95 (DEDUCED). -/
def Watch.blockSet (w : Watch) : List Nat := w.framesOnChip.flatMap (·.blks)

/-- How many blocks of a pool a watch holds (R117). Log 95 (DEDUCED). -/
def Watch.blocksHeld (w : Watch) (pool : Nat) : Nat :=
  ((w.framesOnChip.filter (fun f => f.pool == pool)).map (·.blks.length)).foldl (· + ·) 0

/-- Whether a frame holds the blocks that its slots need: one that has spilled does not until it is filled again (R91). -/
def CaddyFrame.filled (f : CaddyFrame) : Bool := f.blks.length == f.blocks

/-- The pool of a class, slot and domain (R117). -/
def poolOf (cls slot dom : Nat) : Nat := if cls = 2 then 32 + (slot - 16) else dom

/-- The pool a watch draws from (R117). -/
def Watch.pool (w : Watch) : Nat := poolOf w.cls w.slot w.dom

/-- The blocks of a pool on a core: the domain's range of the core's 64, or a leeway slot's 16 (R117, R329). -/
def State.poolRange (s : State) (core pool : Nat) : List Nat :=
  if 32 ≤ pool then (List.range Config.leewayBlocks).map (· + (64 + Config.leewayBlocks * (pool - 32)))
  else ((List.range (s.regField (.qcaddy core pool) 8 7)).map (· + s.regField (.qcaddy core pool) 0 6)).filter (fun n => decide (n < 64))

/-- The size of a pool on a core (R117, R329). -/
def State.poolSize (s : State) (core pool : Nat) : Nat := (s.poolRange core pool).length

/-- The blocks that the watches of a core hold. -/
def State.blocksOn (s : State) (core : Nat) : List Nat := (s.watches.filter (fun w => w.core == core)).flatMap Watch.blockSet

/-- The blocks of a pool that no watch of the core holds (R118). Log 95 (DEDUCED). -/
def State.freeBlocks (s : State) (core pool : Nat) : List Nat :=
  (s.poolRange core pool).filter (fun n => !(s.blocksOn core).contains n)

/-- How many blocks of a pool are free on a core. Log 95 (DEDUCED). -/
def State.poolFree (s : State) (core pool : Nat) : Nat := (s.freeBlocks core pool).length

/-- Frames that have spilled hold no block, and one on chip again is filled where as many blocks of its pool are free (R91, R117).
Log 95 (DEDUCED). -/
def State.fillFrame (s : State) (r : WatchRef) (id : Nat) : State :=
  match s.watches.find? (fun w => decide (w.ref = r)) with
  | some w =>
    if w.framesOnChip.any (fun f => f.id == id) then
      let f := w.frameOf id
      if f.filled ∨ s.poolFree w.core f.pool < f.blocks then s
      else
        s.modWatch r (fun w => { w with caddies := w.caddies.map (fun g =>
          if g.id = id then { g with blks := (s.freeBlocks w.core f.pool).take f.blocks } else g) })
    else s.modWatch r (fun w => { w with caddies := w.caddies.map (fun g => if g.id = id then { g with blks := [] } else g) })
  | none => s

/-- The same for every frame of every watch that is spilled or not filled: spilled ones first. -/
def State.fillFrames (s : State) : State :=
  let due := fun (p : Watch → CaddyFrame → Bool) => s.watches.flatMap (fun w => (w.caddies.filter (p w)).map (fun f => (w.ref, f.id)))
  let onChip := fun (w : Watch) (f : CaddyFrame) => w.framesOnChip.any (fun g => g.id == f.id)
  (due (fun w f => !f.blks.isEmpty && !onChip w f) ++ due (fun w f => !f.filled && onChip w f)).foldl (fun s x => s.fillFrame x.1 x.2) s

/-- Write one caddy slot in one lane (R116). -/
def Watch.stash (w : Watch) (slot : Nat) (m : Mask) (v : Nat → Word) : Watch :=
  { w with caddies := w.caddies.map (fun f =>
      if f.id = w.sp.caddy then
        { f with slots := modAt (fun row => mapFrom (fun i x => if has m i then v i else x) 0 row) f.slots slot,
                 bad := f.bad.filter (fun b => !(b.1 == slot && has m b.2)) }
      else f) }

/-! ### Spill rows (R91) -/

/-- The rows a split spills: records beyond its top 8, caller frames beyond its 4 most recent. -/
def Watch.splitSpill (w : Watch) (p : Split) : Nat :=
  3 * (p.recs.length + (p.frames.map (fun f => f.recs.length)).foldl (· + ·) 0 - 8) +
  ((p.frames.drop 4).map (fun f => 72 + 16 * (w.frameOf f.caddy).blocks)).foldl (· + ·) 0

/-- Whether what the watch's splits would spill fits its rows. -/
def Watch.spillFits (w : Watch) : Bool :=
  decide ((w.splits.map (w.splitSpill)).foldl (· + ·) 0 ≤ w.spill)

/-! ### Ends -/

/-- A watch in focus has ended: it leaves its core, and its block, gang and launch may end with it (R64, R314). -/
def State.endCtx (s : State) : State :=
  let r := s.ctx.ref
  let s := s.keepWatches (fun w => decide (w.ref ≠ r))
  (s.settleBlock r.launch r.gang r.block).settleGang r.launch r.gang

/-- Whether a split has ended: all its lanes have exited and no frame of it holds an open record (R64). -/
def Watch.splitEnded (w : Watch) (p : Split) : Bool :=
  w.lanes.all (fun l => l.split != p.id || l.exited) && p.recs.isEmpty && p.frames.all (fun f => f.recs.isEmpty)

/-! ### Gang-wide arrivals (R249, R316, R343) -/

/-- Whether a watch has arrived: each of its splits waits as `p` says, waits at a REJOIN, or has ended. -/
def Watch.arrived (w : Watch) (p : Wait → Bool) : Bool :=
  w.splits.all (fun q => p q.wait || (match q.wait with
    | .rejoin _ _ => true
    | _ => false) || w.splitEnded q)

/-- Whether some split of a watch waits as `p` says. -/
def Watch.someWait (w : Watch) (p : Wait → Bool) : Bool := w.splits.any (fun q => p q.wait)

/-- Release the splits that wait as `p` says. -/
def Watch.release (w : Watch) (p : Wait → Bool) : Watch :=
  w.mapSplits (fun q => if p q.wait then { q with wait := .none } else q)

/-- Whether every watch satisfying `q` has arrived, and one of them waits. -/
def State.allArrived (s : State) (q : Watch → Bool) (p : Wait → Bool) : Bool :=
  (s.watches.filter q).all (·.arrived p) && (s.watches.filter q).any (·.someWait p)

/-- Release a completed generation of BARRIER.BLOCK or BARRIER.GANG (R249). -/
def State.pollBarrier (s : State) (r : WatchRef) : State :=
  let inBlock := fun (w : Watch) => w.of r.launch r.gang && w.ref.block == r.block
  let inGang := fun (w : Watch) => w.of r.launch r.gang
  let blk := fun (x : Wait) => decide (x = .barrier false)
  let gng := fun (x : Wait) => decide (x = .barrier true)
  let s := if s.allArrived inBlock blk then
      (s.mapWatches (fun w => if inBlock w then w.release blk else w)).modGang r.launch r.gang
        (fun g => { g with bgen := modAt (· + 1) g.bgen r.block })
    else s
  if s.allArrived inGang gng then
    (s.mapWatches (fun w => if inGang w then w.release gng else w)).modGang r.launch r.gang
      (fun g => { g with ggen := g.ggen + 1 })
  else s

/-! ### Taking a trap -/

/-- Whether some frame of the issuing split is a handler frame or was called from one (R323). -/
def Split.inHandler (p : Split) : Bool := p.frames.any (fun f => f.kind == .handler)

/-- The innermost gate frame, with the frames below it (R338). -/
def gateBelow : List Frame → Option (Frame × List Frame)
  | [] => none
  | f :: fs => if f.kind = .gate then some (f, fs) else gateBelow fs

/-- How many saved wakes a lane has above the gate frame. -/
def framesAbove : List Frame → Nat
  | [] => 0
  | f :: fs => if f.kind = .gate then 0 else 1 + framesAbove fs

/-- Drop the caddy frames that no split holds any more. -/
def Watch.dropCaddies (w : Watch) : Watch :=
  let ids := (w.splits.map (fun p => p.caddy :: p.frames.map (·.caddy))).flatten
  { w with caddies := w.caddies.filter (fun f => ids.contains f.id) }

/-- Restore the per-lane parts of the frame n levels up for the lanes of the issuing split. -/
def Watch.unwind (w : Watch) (n : Nat) : Watch :=
  w.mapLanes (fun _ l =>
    if l.split = w.sp.id then { l with wake := l.saved.getD n VWake.empty, saved := l.saved.drop (n + 1) } else l)

/-- Restore a caller bank that GATE set aside (R337, R338): a conversion that the gate has in flight sets SATF no more.
Log 129 (DEDUCED). -/
def Watch.restoreBank (w : Watch) (ks : List Mask) (b : GateBank) : Watch :=
  { w.mapLanes (fun i l => { l with satf := b.satf.getD i false }) with
    ks := ks, bears := b.bears, shapes := b.shapes, segs := b.segs, bovf := b.bovf, ntid := b.ntid, dom := b.dom,
    feat := b.feat, flights := w.flights.map (fun f => { f with satf := 0 }) }

/-- Let the splits that a handler or gate stopped go on (R325, R338). -/
def Watch.unstop (w : Watch) : Watch := { w with sibs := w.sibs.map (fun q => { q with stops := q.stops - 1 }) }
/-- Stop the other splits of the watch (R320, R337). -/
def Watch.stop (w : Watch) : Watch := { w with sibs := w.sibs.map (fun q => { q with stops := q.stops + 1 }) }

/-- Leave a frame: the lanes' saved parts and the uniform part return (R87, R325, R338). `n` counts the frames above it. -/
def Watch.leave (w : Watch) (n : Nat) (f : Frame) (below : List Frame) (pc : DWord) : Watch :=
  let w := w.unwind n
  { w with sp := { w.sp with pc := pc, swake := f.swake, recs := f.recs, frames := below, caddy := f.caddy, wait := .none } }.dropCaddies

/-- Give the lanes of the splits that an IFS made inside a gate frame back to one split, each at the level of the frame
above the gate, and drop those splits: the gate's state is discarded (R338). -/
def Watch.gatherGate (w : Watch) (f : Frame) (below : List Frame) : Watch :=
  let inside := fun (q : Split) => decide (gateBelow q.frames = some (f, below))
  let gone := w.sibs.filter inside
  let id := (gone.map (·.id)).foldl min w.sp.id
  let w := w.mapLanes (fun _ l =>
    match (w.sp :: gone).find? (fun q => q.id == l.split) with
    | some q => { l with split := id, saved := l.saved.drop (framesAbove q.frames) }
    | none => l)
  { w with sp := { w.sp with id := id }, sibs := w.sibs.filter (fun q => !inside q) }

/-- A gate whose descriptor has no handler is aborted: its state is discarded and the caller's frame and bank return, at the
GATE instruction (R338). -/
def Watch.abortGate (w : Watch) (f : Frame) (below : List Frame) : Watch :=
  let n := framesAbove w.sp.frames
  let w := ((w.gatherGate f below).leave 0 f below f.retPc).unstop
  let w := { w with sp := { w.sp with depth := w.sp.depth - BitVec.ofNat 8 (n + 1) } }
  match f.bank with
  | some b => w.restoreBank f.ks b
  | none => w

/-- Whether a watch executes in another domain, inside a gate: a record for its own domain names none of that one's addresses
(R386). -/
def Watch.abroad (w : Watch) : Bool := w.dom != w.home

/-- The PC of the outermost GATE of the issuing split: the last of its own domain's instructions. -/
def Watch.gatePc (w : Watch) : Nat := (((w.sp.frames.filter (fun f => f.kind == .gate)).getLast?).map (·.retPc.toNat)).getD 0

/-- Whether a trap's detail is a virtual address: SEGLIMIT, PAGEFAULT, PROTECT, DOMAIN, ALIGN (R87, R204, R210, R234, R281, R396). -/
def detailIsAddr (cause : Nat) : Bool := decide (7 ≤ cause) && decide (cause ≤ 11)

/-- Kill the gang of the watch in focus for a trap (R323): in gate code the record names no address of the gate's domain (R386).
Log 112 (DESIGN CHOICE). -/
def State.killForTrap (s : State) (cause : Nat) (detail : DWord) : State :=
  let w := s.ctx
  let r : ErrRec := { kind := 2, sub := cause, dom := w.home, gang := w.ref.gang, detail := detail.toNat, addr := w.sp.pc.toNat }
  (s.record (if w.abroad then { r with detail := if detailIsAddr cause then 0 else r.detail, addr := w.gatePc } else r)).killGang w.ref.launch w.ref.gang false

/-- The watch at handler entry (R321): the faulting frame becomes a caller frame, the faulting bank is set aside, and the
handler starts at `pc` with fresh wakes. `len` is the length of the faulting instruction. -/
def Watch.enterHandler (w : Watch) (fid cause : Nat) (mask : Mask) (detail : DWord) (pc : DWord) (len : Nat) : Watch :=
  let gated := (gateBelow w.sp.frames).isSome
  let s3 := BitVec.ofNat 64 (w.sp.id + 4 * w.sp.depth.toNat + (if gated then 1024 else 0))
  let sw := (((SWake.empty.push (.val s3)).push (.val detail)).push (.val w.sp.pc)).push (.val (BitVec.ofNat 64 cause))
  let f : Frame :=
    { kind := .handler, retPc := w.sp.pc, retNext := w.sp.pc + BitVec.ofNat 64 len, swake := w.sp.swake, caddy := w.sp.caddy,
      recs := w.sp.recs, ks := w.ks, bank := none, desc := none }
  let w := w.mapLanes (fun _ l =>
    let l := if l.split = w.sp.id then { l with saved := l.wake :: l.saved, wake := VWake.empty } else l
    { l with resv := none })
  { w.stop with
    ks := mask :: List.replicate 6 0,
    caddies := { id := fid, pool := w.pool, blks := [], slots := [] } :: w.caddies,
    sp := { w.sp with pc := pc, swake := sw, recs := [], frames := f :: w.sp.frames, caddy := fid, wait := .none } }

/-- A trap of the watch in focus counts (R327, event 10). -/
def State.countTrap (s : State) : State := s.countEvent s.ctx.core s.ctx.dom 10 1

/-- Take a trap in the issuing split (R320 to R323, R338): enter the launch's or the gate's handler, abort a gate that has
none, or kill the gang; each trap counts (R327). `fuel` bounds the nesting of gates. -/
def State.trapFuel : Nat → State → Nat → Mask → DWord → Nat → State
  | 0, s, cause, _, detail, _ => s.killForTrap cause detail
  | fuel + 1, s, cause, mask, detail, len =>
    let s := s.countTrap
    let w := s.ctx
    if w.sp.inHandler then s.killForTrap cause detail
    else
      match gateBelow w.sp.frames with
      | some (f, below) =>
        let th := (f.desc.map (·.traph)).getD 0
        if th = 0 then
          let s := s.mapCtx (fun w => w.abortGate f below)
          State.trapFuel fuel s causeGate s.ctx.k0 (BitVec.ofNat 64 (6 + 256 * cause)) 8
        else
          let v := w.enterHandler s.fresh cause mask detail th len
          if v.spillFits then { s with ctx := v, fresh := s.fresh + 1 } else s.killForTrap cause detail
      | none =>
        if w.traph = 0 then s.killForTrap cause detail
        else
          let v := w.enterHandler s.fresh cause mask detail (w.code + w.traph) len
          if v.spillFits then { s with ctx := v, fresh := s.fresh + 1 } else s.killForTrap cause detail

/-- Take a trap raised by an instruction of `len` bytes. -/
def State.takeTrapLen (s : State) (cause : Nat) (mask : Mask) (detail : DWord) (len : Nat) : State :=
  State.trapFuel (s.ctx.sp.frames.length + 1) s cause mask detail len

/-- Take a trap (R320): the one operation by which an instruction traps. -/
def State.takeTrap (s : State) (cause : Nat) (mask : Mask) (detail : DWord) : State := s.takeTrapLen cause mask detail 8

/-- What a watch's program has made of the state of its issuing split, in numbers: nothing of it depends on timing (R26).
Log 2 (DESIGN CHOICE). -/
def Watch.made (w : Watch) : List Nat :=
  [w.ref.gang, w.ref.block, w.ref.watch, w.sp.pc.toNat, w.sp.id, w.sp.depth.toNat, w.k0.toNat] ++ w.ks.map (·.toNat) ++
    w.sp.swake.ring.map Entry.bits ++ w.lanes.flatMap (fun l => l.wake.ring.map Entry.bits)

/-- Take a trap whose detail no rule gives: a free value (log entry 2). Log 2 (DESIGN CHOICE). -/
def State.takeTrapFree (s : State) (cause : Nat) (mask : Mask) : State := s.takeTrap cause mask (Config.freeDetail (cause :: s.ctx.made))

/-- Raise DOMAIN with its physical-log record (R20, R204, R331). -/
def State.domainTrap (s : State) (mask : Mask) (detail : DWord) : State :=
  (s.physRecord { kind := 0x21, sub := causeDomain, dom := s.ctx.dom, gang := s.ctx.ref.gang, detail := detail.toNat } true).takeTrap
    causeDomain mask detail

/-! ### Returning from a trap -/

/-- The watch when TRET ends a handler frame (R325): its blocks, wakes and bank are discarded, the faulting frame and bank
return, and the other splits go on. -/
def Watch.exitHandler (w : Watch) (f : Frame) (below : List Frame) (pc : DWord) : Watch :=
  { (w.leave 0 f below pc).unstop with ks := f.ks }

/-! ### Poison -/

/-- A gang consumes poison: it is killed, and relaunched where R315 allows (R384). -/
def State.consumePoison (s : State) (dom core : Nat) (r : WatchRef) (sub addr : Nat) : State :=
  (s.record { kind := 1, sub := sub, dom := dom, gang := r.gang, detail := placeBits core, addr := addr }).killGang r.launch
    r.gang true

/-- The watch in focus reads a wake or caddy entry whose parity fails (R383, R384). Log 90 (DEDUCED). -/
def State.parityKill (s : State) : State := s.consumePoison s.ctx.home s.ctx.core s.ctx.ref 3 0

/-! ### Beginning an instruction -/

/-- The check that comes before every meaning: a watch in focus, and the feature group of the instruction enabled (R55 check
2, R333). `maj` stands in the physical-log record. -/
def State.enter (s : State) (group : Option Nat) (maj : Nat) (k : State → Out) : Out :=
  if ¬ s.ctx.resident then .fault .noContext
  else
    match group with
    | none => k s
    | some g =>
      if s.ctx.feat.getLsbD g then k s
      else
        .next ((s.physRecord { kind := 0x22, sub := g, dom := s.ctx.dom, gang := s.ctx.ref.gang, detail := maj } true).takeTrap
          causeIllop s.ctx.k0 1)

end Sys2Proof.Machine
end

