-- ==== Sys2Proof/Machine/Operands.lean ====
section
/-!
DEFINITION. Operands: every form of R40 with the conversions of R41, 64-bit values over two ages or slots (R33, R37), and the
checks on an instruction's sources: caddy slots inside the frame, void entries, pending entries (R55, R32, R35, R34).
-/
namespace Sys2Proof.Machine

/-- Elements of a 32-bit entry, element 0 in the low bits (R94). -/
def elemsOf (t : Ty) (v : Nat) : List Nat := (List.range t.count).map (fun i => bitsAt v (t.width * i) t.width)

/-- The entry whose elements these are. -/
def ofElems (width : Nat) : List Nat → Nat
  | [] => 0
  | x :: xs => x % 2 ^ width + 2 ^ width * ofElems width xs

/-- One element of a type for an immediate: the float nearest to it, or the integer (R41). -/
def immElem (t : Ty) (v : BitVec 6) : Nat :=
  if t.isFloat then (t.ffmt.round .ne (.ofInt v.toInt)).1 else wrap t.width v.toInt

/-- An immediate as the operand of a type, in every element of a packed type (R41). -/
def immBits (t : Ty) (v : BitVec 6) : Nat := ofElems t.width (List.replicate t.count (immElem t v))

/-- Slot n of the current caddy frame in lane l (R37). -/
def Watch.slotAt (w : Watch) (n l : Nat) : Nat := (((w.caddy.slots.getD n []).getD l 0) : Word).toNat

/-- A 32-bit source operand in lane l. -/
def Watch.word (w : Watch) (t : Ty) (o : Opnd) (l : Nat) : Nat :=
  match o with
  | .w a => ((w.lane l).wake.get a.toNat).bits
  | .s a => (w.sp.swake.get a.toNat).bits % 2 ^ 32
  | .c n => w.slotAt n.toNat l
  | .imm v => immBits t v

/-- A 64-bit source operand in lane l: high half at the age or slot named, low half at the next (R33, R37). -/
def Watch.dword (w : Watch) (o : Opnd) (l : Nat) : Nat :=
  match o with
  | .w a => ((w.lane l).wake.get a.toNat).bits * 2 ^ 32 + ((w.lane l).wake.get (a.toNat + 1)).bits
  | .s a => (w.sp.swake.get a.toNat).bits
  | .c n => w.slotAt n.toNat l * 2 ^ 32 + w.slotAt (n.toNat + 1) l
  | .imm v => wrap 64 v.toInt

/-- A source operand of a type in lane l. -/
def Watch.opnd (w : Watch) (t : Ty) (o : Opnd) (l : Nat) : Nat := if t = .i64 then w.dword o l else w.word t o l

/-- A uniform operand as 64 bits: a scalar age, or an immediate sign-extended (R41, R42). -/
def Watch.uni (w : Watch) (o : Opnd) : DWord :=
  match o with
  | .s a => BitVec.ofNat 64 (w.sp.swake.get a.toNat).bits
  | .imm v => v.signExtend 64
  | _ => 0

/-- A source of an instruction: its position (0 A, 1 B, 2 C), its field, and how many ages or slots it spans (R32). -/
structure Src where
  pos  : Nat
  o    : Opnd
  span : Nat
  deriving DecidableEq, Repr

/-- A source of a type: two ages or slots for .I64. -/
def Src.of (pos : Nat) (t : Ty) (o : Opnd) : Src := ⟨pos, o, if t = .i64 then 2 else 1⟩

/-- Whether a source names a slot at or beyond the frame (R37). -/
def Src.beyond (w : Watch) (x : Src) : Bool :=
  match x.o with
  | .c n => decide (w.caddy.slots.length < n.toNat + x.span)
  | _ => false

/-- Whether some entry of a wake at ages a … a + n - 1 satisfies `p`. -/
def VWake.someAt (v : VWake) (p : Entry Word → Bool) (a : Nat) : Nat → Bool
  | 0 => false
  | n + 1 => p (v.get a) || v.someAt p (a + 1) n

/-- The lanes of m in which some entry a source names satisfies `p` (for a scalar age, all of them, by `q`). -/
def Src.lanesWhere (w : Watch) (m : Mask) (p : Entry Word → Bool) (q : Entry DWord → Bool) (x : Src) : Mask :=
  match x.o with
  | .w a => m &&& maskWhere (fun l => l.wake.someAt p a.toNat x.span) w.lanes
  | .s a => if q (w.sp.swake.get a.toNat) then m else 0
  | _ => 0

/-- The lanes of m in which a source is void (R32, R33). -/
def Src.voidIn (w : Watch) (m : Mask) (x : Src) : Mask := x.lanesWhere w m Entry.isVoid Entry.isVoid
/-- The lanes of m in which a source is still in flight (R34). -/
def Src.pendIn (w : Watch) (m : Mask) (x : Src) : Mask := x.lanesWhere w m Entry.isPend Entry.isPend

/-- The lanes of m in which the parity of what a source names fails (R383). -/
def Src.badIn (w : Watch) (m : Mask) (x : Src) : Mask :=
  match x.o with
  | .c n => m &&& maskOf (fun l => w.caddy.bad.any (fun b => decide (n.toNat ≤ b.1) && decide (b.1 < n.toNat + x.span) && b.2 == l))
  | _ => x.lanesWhere w m Entry.isBad Entry.isBad

/-- Detail s2 of VOIDREAD: the first void operand's field and position (R32). -/
def Src.detail (x : Src) : DWord := BitVec.ofNat 64 ((Opnd.code x.o).toNat + 256 * x.pos)

/-- The checks on the sources of a vector instruction under its mask, in the order of R55: CADDY, VOIDREAD, then poison (R384)
and the wait for pending entries (R60). `none` when it may go on; nothing is checked when the mask is empty. -/
def State.vecFront (s : State) (m : Mask) (srcs : List Src) : Option State :=
  let w := s.ctx
  if m = 0 then none
  else if srcs.any (Src.beyond w) then some (s.takeTrap causeCaddy m 1)
  else
    match srcs.find? (fun x => x.voidIn w m != 0) with
    | some x => some (s.takeTrap causeVoidread ((srcs.map (Src.voidIn w m)).foldl (· ||| ·) 0) x.detail)
    | none =>
      if srcs.any (fun x => x.badIn w m != 0) then some s.parityKill
      else if srcs.any (fun x => x.pendIn w m != 0) then some (s.hold .operand) else none

/-- Whether a uniform source is void, or pending. -/
def Src.uniIs (w : Watch) (q : Entry DWord → Bool) (x : Src) : Bool :=
  match x.o with
  | .s a => q (w.sp.swake.get a.toNat)
  | _ => false

/-- The checks on the sources of a scalar, uniform, mask or engine instruction, which executes once per split: VOIDREAD with
mask k0, then poison and the wait (R35, R384). -/
def State.uniFront (s : State) (srcs : List Src) : Option State :=
  match srcs.find? (Src.uniIs s.ctx Entry.isVoid) with
  | some x => some (s.takeTrap causeVoidread s.ctx.k0 x.detail)
  | none =>
    if srcs.any (Src.uniIs s.ctx Entry.isBad) then some s.parityKill
    else if srcs.any (Src.uniIs s.ctx Entry.isPend) then some (s.hold .operand) else none

/-- Go on with `k` unless a check answered. -/
def orElse (c : Option State) (k : Out) : Out :=
  match c with
  | some t => .next t
  | none => k

/-- Push a 64-bit value in each lane of a mask, low half first (R33). -/
def Watch.push64 (w : Watch) (m : Mask) (v : Nat → Nat) : Watch :=
  (w.push m (fun l => .val (BitVec.ofNat 32 (v l)))).push m (fun l => .val (BitVec.ofNat 32 (v l / 2 ^ 32)))

/-- Push a value of a type in each lane of a mask. -/
def Watch.pushVal (w : Watch) (m : Mask) (t : Ty) (v : Nat → Nat) : Watch :=
  if t = .i64 then w.push64 m v else w.push m (fun l => .val (BitVec.ofNat 32 (v l)))

/-- Push a scalar value (R35). -/
def Watch.pushUni (w : Watch) (v : DWord) : Watch := w.spush (.val v)

end Sys2Proof.Machine
end

