-- ==== Sys2Proof/Machine/Paging.lean ====
section
/-!
DEFINITION. The page-request queue (R363, R364), the accesses of the issuing split (R221, R354), uncorrectable errors of a
gang (R357, R384), and copies of cacheable host pages (R354).
-/
namespace Sys2Proof.Machine

/-! ### Page requests -/

/-- How many records a request ring holds (R364): SIZE above 8 counts as 8. -/
def prqLen (size : Nat) : Nat := 2 ^ (min size 8 + 4)

/-- The 32 bytes of a page-request record (R364). -/
def PageReq.bytes (e : PageReq) : List Byte :=
  leBytes 8 (e.vpage * 2 ^ 16) ++ leBytes 1 (e.write.toNat + 2 * e.engine.toNat) ++ leBytes 1 (min 255 e.waiters.length) ++
  leBytes 2 e.tag ++ leBytes 20 0

/-- Deliver the record of one entry into its domain's ring, if the ring has room and can be written; otherwise the record
stays inside the queue (R364). Log 36 (DEDUCED). -/
def State.sendReq (s : State) (e : PageReq) : State :=
  let size := s.regField (.prqring e.dom) 0 4
  let tail := s.regField (.prqtail e.dom) 0 16
  let head := s.regField (.prqhead e.dom) 0 16
  let va := s.regField (.prqring e.dom) 12 43 * 2 ^ 12 + 32 * (tail % prqLen size)
  if prqLen size ≤ (tail + 2 ^ 16 - head) % 2 ^ 16 then s
  else
    match s.reach ioUnit e.dom va true with
    | none => s
    | some k =>
      let s := (s.write k e.bytes).setReg (.prqtail e.dom) (BitVec.ofNat 64 ((tail + 1) % 2 ^ 16))
      { s with prq := s.prq.map (fun (x : PageReq) => if x.tag = e.tag then { x with sent := true } else x) }.raiseMsix e.dom 1

/-- Deliver the records of a domain that are still inside the queue, oldest first (R364). -/
def State.sendReqs (s : State) (dom : Nat) : State :=
  (s.prq.filter (fun e => e.dom == dom && !e.sent)).foldl (fun s e => s.sendReq e) s

/-- Entry numbers that no entry holds, in a range. Log 11 (DESIGN CHOICE). -/
def State.freeTags (s : State) (lo n : Nat) : List Nat :=
  ((List.range n).map (· + lo)).filter (fun t => !(s.prq.any (fun e => e.tag == t)))

/-- The entry number that a new fault of a domain takes (R363): one of its four reserved entries, else a shared one while it
holds fewer than 128 of them (numbers: log entry 11). Log 11 (DESIGN CHOICE). -/
def State.prqTag (s : State) (dom : Nat) : Option (Nat × Bool) :=
  match (if dom = 0 then [] else s.freeTags (4 * (dom - 1)) 4) with
  | t :: _ => some (t, true)
  | [] =>
    if 128 ≤ (s.prq.filter (fun e => e.dom == dom && !e.own)).length then none
    else
      match s.freeTags 124 388 with
      | t :: _ => some (t, false)
      | [] => none

/-- A recoverable fault joins the entry of its page, takes an entry, or finds none and must retry (R363). -/
def State.pageReq (s : State) (dom vpage : Nat) (write engine : Bool) (w : Waiter) : State :=
  if s.prq.any (fun e => e.dom == dom && e.vpage == vpage) then
    { s with prq := s.prq.map (fun (e : PageReq) =>
        if e.dom = dom ∧ e.vpage = vpage ∧ w ∉ e.waiters then { e with waiters := e.waiters ++ [w] } else e) }
  else
    match s.prqTag dom with
    | none => s
    | some (t, own) =>
      let e : PageReq :=
        { tag := t, dom := dom, vpage := vpage, own := own, write := write, engine := engine, sent := false, waiters := [w] }
      ({ s with prq := s.prq ++ [e] }).sendReqs dom

/-- Hold the issuing split at a recoverable fault (R61, R221). -/
def State.holdPage (s : State) (dom vpage : Nat) (write : Bool) : State :=
  (s.pageReq dom vpage write false (.split s.ctx.ref s.ctx.sp.id)).hold (.page dom vpage)

/-! ### Accesses of the issuing split -/

/-- Where the executing domain's access of one byte goes: a page whose request was declined counts as unresolvable (R364). -/
def State.acc (s : State) (va : Nat) (write : Bool) : Reach Nat :=
  if s.ctx.sp.wait = .declined s.ctx.dom (va / 2 ^ 16) then .refused false
  else s.reachAt s.ctx.core s.ctx.dom va write

/-- The same for a range that an instruction reads or writes as a record: each page it touches, in ascending order. -/
def State.accRange (s : State) (va n : Nat) (write : Bool) : Reach Unit :=
  ((List.range ((va + n - 1) / 2 ^ 16 - va / 2 ^ 16 + 1)).map (fun i => max va ((va / 2 ^ 16 + i) * 2 ^ 16))).foldl
    (fun r a =>
      match r with
      | .ok _ =>
        match s.acc a write with
        | .ok _ => .ok ()
        | .hold p => .hold p
        | .refused b => .refused b
      | e => e) (.ok ())

/-- The keys of n consecutive bytes that were found reachable. -/
def State.keysOf (s : State) (tu dom va : Nat) (write : Bool) : Nat → List Nat
  | 0 => []
  | n + 1 =>
    match s.reachAt tu dom va write with
    | .ok k => k :: s.keysOf tu dom (va + 1) write n
    | _ => s.keysOf tu dom (va + 1) write n

/-! ### Uncorrectable errors -/

/-- A gang accesses a page that the indirection table does not map (R357). -/
def State.unmappedPage (s : State) (r : WatchRef) (key : Nat) : State :=
  (s.physRecord { kind := 0x24, sub := 2, dom := ((s.launchOf r.launch).map (·.dom)).getD 0, gang := r.gang, detail := pageOf key,
                  addr := key % 2 ^ 52 } false).killGang r.launch
    r.gang true

/-! ### Copies of cacheable host pages -/

/-- The copy of a byte that a core's read meets: in its L1, else in the LLC, as place 640 (R218). -/
def State.copyOf (s : State) (core k : Nat) : Option Byte :=
  [core, 640].findSome? (fun p => (s.copies.find? (fun c => c.1 == p && c.2.1 == k)).map (·.2.2))

/-- Whether the copies of a key's line are still there when an access comes (R218, R354). Log 16 (DESIGN CHOICE). -/
def State.lineKept (s : State) (k : Nat) : Bool := Config.keepsCopy (s.fresh + k / 128)

/-- A byte of a host page as a cached read of a core sees it: the copy, if one is held and has not been evicted (R354).
Log 16 (DESIGN CHOICE). -/
def State.cachedByte (s : State) (core : Nat) (hc : Bool) (k : Nat) : Byte :=
  if hc && s.lineKept k then (s.copyOf core k).getD (s.byte k) else s.byte k

/-- Where a core's access fills a line on a miss: its L1 and the LLC, or with EVICT 3 neither (R218). -/
def fillPlaces (core : Nat) (evict : BitVec 3) : List Nat := if evict = 3 then [] else [core, 640]

/-- Whether a place holds a copy of a key. -/
def State.hasCopy (s : State) (place k : Nat) : Bool := s.copies.any (fun c => c.1 == place && c.2.1 == k)

/-- The bytes of a line in a place that holds none yet. -/
def State.fillAt (s : State) (place k : Nat) (v : Nat → Byte) : State :=
  if s.hasCopy place k then s
  else { s with copies := (List.range 128).map (fun i => (place, k + i, v (k + i))) ++ s.copies }

/-- A core's access to the line at `k` of a cacheable host page: a hit in the L1 fills nothing; on a miss the named places take the whole
line, the LLC from the host and the L1 from the LLC (R218, R354). Log 16 (DESIGN CHOICE). -/
def State.keepLine (s : State) (core : Nat) (places : List Nat) (k : Nat) : State :=
  let s := if s.lineKept k then s
    else { s with copies := s.copies.filter (fun c => !((c.1 == core || c.1 == 640) && c.2.1 / 128 == k / 128)) }
  let miss := !(places.contains core && s.hasCopy core k)
  let s := if places.contains 640 && miss then s.fillAt 640 k s.byte else s
  if places.contains core then s.fillAt core k (fun j => (s.copyOf core j).getD (s.byte j)) else s

/-- The same for the lines of n bytes. -/
def State.keepCopy (s : State) (core : Nat) (places : List Nat) (hc : Bool) (k n : Nat) : State :=
  if hc then (List.range ((k + n - 1) / 128 - k / 128 + 1)).foldl (fun s i => s.keepLine core places (128 * (k / 128 + i))) s else s

/-- A write of the core path, or of an agent of no path, that goes through (R218, R354). -/
def State.writeThrough (s : State) (k : Nat) (bs : List Byte) : State := s.putThrough {} k bs

/-- A core's CINV drops n bytes from the LLC, with the line that a slice retains, and from the core's own L1 (R217, R220).
Log 16 (DESIGN CHOICE). -/
def State.dropCopies (s : State) (core k n : Nat) : State :=
  { s with copies := s.copies.filter (fun c => !((c.1 == core || c.1 == 640) && decide (k ≤ c.2.1) && decide (c.2.1 < k + n))),
           retained := s.retained.filter (fun r => r.line != k / 512) }

end Sys2Proof.Machine
end

