-- ==== Sys2Proof/Machine/Save.lean ====
section
/-!
DEFINITION. Completing operations in flight (R34, R148, R197), saving and restoring gangs (R19, R342, R347, R348), and the
gang-wide arrivals that may lead to a save: JOIN (R316) and YIELDB (R343).
-/
namespace Sys2Proof.Machine

/-! ### Values that arrive -/

/-- The value of operation `id` arrives in an entry (R34). -/
def Entry.settle {α : Type} (id : Nat) (e : Entry α) : Entry α :=
  match e with
  | .pend v i => if i = id then .val v else e
  | _ => e

/-- The same with zero as the value (R342, R379). -/
def Entry.settleZero {n : Nat} (id : Nat) (e : Entry (BitVec n)) : Entry (BitVec n) :=
  match e with
  | .pend _ i => if i = id then .val 0 else e
  | _ => e

/-- Apply a change of entries to every wake of a watch: the lanes' wakes and saved wakes, and the scalar wakes of splits,
frames and records. -/
def VWake.mapEntries (f : Entry Word → Entry Word) (v : VWake) : VWake := { v with ring := v.ring.map f }
def SWake.mapEntries (f : Entry DWord → Entry DWord) (v : SWake) : SWake := { v with ring := v.ring.map f }
def Region.mapEntries (f : Entry DWord → Entry DWord) (r : Region) : Region := { r with scalar := r.scalar.mapEntries f }
def Frame.mapEntries (f : Entry DWord → Entry DWord) (r : Frame) : Frame :=
  { r with swake := r.swake.mapEntries f, recs := r.recs.map (Region.mapEntries f) }
def Split.mapEntries (f : Entry DWord → Entry DWord) (p : Split) : Split :=
  { p with swake := p.swake.mapEntries f, recs := p.recs.map (Region.mapEntries f), frames := p.frames.map (Frame.mapEntries f) }
def Watch.mapEntries (w : Watch) (f : Entry Word → Entry Word) (g : Entry DWord → Entry DWord) : Watch :=
  { w with lanes := w.lanes.map (fun l =>
             { l with wake := l.wake.mapEntries f, saved := l.saved.map (VWake.mapEntries f) }),
           sp := w.sp.mapEntries g, sibs := w.sibs.map (Split.mapEntries g) }

/-- The lanes whose SATF operation `id` sets (R166). -/
def Watch.satfOf (w : Watch) (id : Nat) : Mask := ((w.flights.find? (fun f => f.id == id)).map (·.satf)).getD 0

/-- An operation of a watch completes: its values arrive, SATF rises where it saturated (R166), and it leaves the list of
operations in flight. -/
def Watch.complete (w : Watch) (id : Nat) : Watch :=
  let m := w.satfOf id
  let w := { w.mapEntries (Entry.settle id) (Entry.settle id) with flights := w.flights.filter (fun f => f.id != id) }
  if m = 0 then w else w.setSatf m

/-- A load or atomic is answered with zero in the lanes where it goes to the host or a peer (R342). -/
def Watch.completeZero (w : Watch) (id : Nat) : Watch :=
  let m := ((w.flights.find? (fun f => f.id == id)).map (·.remote)).getD 0
  let zeros := fun (l : Nat) (v : VWake) => if has m l then v.mapEntries (Entry.settleZero id) else v
  (({ w with lanes := mapFrom (fun i (l : Lane) => { l with wake := zeros i l.wake, saved := l.saved.map (zeros i) }) 0 w.lanes } : Watch).mapEntries
    (fun e => e) (fun e => if m = 0 then e else e.settleZero id)).complete id

/-- Operations of the watch's own units: SFU, conversion and bearing (R150). -/
def Flight.inUnit (f : Flight) : Bool := f.unit == .sfu || f.unit == .conv || f.unit == .bear

/-- Outstanding loads of a watch (R62). -/
def Watch.loadCount (w : Watch) : Nat := (w.flights.filter (fun f => !f.inUnit)).length

/-- All operations of the watch's units complete (R148, R149, R197). -/
def Watch.drain (w : Watch) : Watch :=
  (w.flights.filter Flight.inUnit).foldl (fun w f => w.complete f.id) w

/-- Apply a change to a watch wherever it is: resident, or in the image of its gang. -/
def State.modWatchOrImage (s : State) (r : WatchRef) (f : Watch → Watch) : State :=
  { s.modWatch r f with gangs := s.gangs.map (fun g =>
      if g.launch = r.launch ∧ g.idx = r.gang then
        { g with watches := g.watches.map (fun w => if w.ref = r then f w else w) }
      else g) }

/-- The watch of a name, resident or in an image. -/
def State.findWatch (s : State) (r : WatchRef) : Option Watch :=
  match s.watches.find? (fun w => decide (w.ref = r)) with
  | some w => some w
  | none => ((s.gangOf r.launch r.gang).map (·.watches)).bind (fun ws => ws.find? (fun w => decide (w.ref = r)))

/-- Apply a change to one split of a watch, wherever it is. -/
def State.modSplit (s : State) (r : WatchRef) (id : Nat) (f : Split → Split) : State :=
  s.modWatchOrImage r (fun w => w.mapSplits (fun p => if p.id = id then f p else p))

/-! ### Saving and restoring -/

/-- What a wait becomes in an image: SLEEP ends, a caddy request is withdrawn, YIELDB completes after restore, and a wait that
only stands for a condition to try again, or for a page, is dropped: the instruction runs again from its first check (R119, R221, R340,
R343, R351, R369). With `joined` the gang is swapped out by JOIN and
continues after it (R316). -/
def Wait.saved (joined : Bool) (x : Wait) : Wait :=
  match x with
  | .sleep _ => .none
  | .yieldb => .none
  | .operand => .none
  | .page _ _ => .none
  | .declined _ _ => .none
  | .record => .none
  | .caddy _ => .none
  | .join => if joined then .none else .join
  | y => y

/-- A watch as its image holds it (R347): units drained, reservations cleared. -/
def Watch.image (w : Watch) (joined : Bool) : Watch :=
  let w := w.drain
  let w := w.mapLanes (fun _ l => { l with resv := none })
  w.mapSplits (fun p => { p with wait := p.wait.saved joined, held := 0, defer := false, record := {} })

/-- The size of a watch's context image: the region records, caller frames and caddy blocks that it holds on chip (R347). -/
def Watch.imageSize (w : Watch) : Nat :=
  15616 + 384 * (w.splits.map (fun p => min 8 p.recs.length)).foldl (· + ·) 0 +
    9216 * (w.splits.map (fun p => min 4 p.frames.length)).foldl (· + ·) 0 + 2048 * w.blockSet.length

/-- The stretches of memory behind n bytes at a virtual address, page by page, where they can be written. -/
def State.stretches (s : State) (tu dom : Nat) : Nat → Nat → Nat → List (Nat × Nat)
  | 0, _, _ => []
  | fuel + 1, va, n =>
    if n = 0 then []
    else
      let k := min n (2 ^ 16 - va % 2 ^ 16)
      (match s.reachAt tu dom va true with
      | .ok key => [(key, k)]
      | _ => []) ++ s.stretches tu dom fuel (va + k) (n - k)

/-- n bytes of an image whose values the manual does not give. -/
def openBytes (n : Nat) : List (Option Byte) := List.replicate n none
/-- Bytes of an image whose values it gives. -/
def givenBytes (n v : Nat) : List (Option Byte) := (leBytes n v).map some

/-- The valid bits of a lane's wake: bit i for position i of the ring (R30, R347). -/
def VWake.validBits (v : VWake) : Nat := ((mapFrom (fun i (e : Entry Word) => if e.isVoid then 0 else 2 ^ i) 0 v.ring).foldl (· + ·) 0)

/-- A watch's context image (R347): vector wakes, lane by lane, and their valid bits, bearing directions and shape registers stand at the
offsets that it gives; the rest is open. Log 29 (DESIGN CHOICE). -/
def Watch.imageBytes (w : Watch) : List (Option Byte) :=
  openBytes 2048 ++
    w.lanes.flatMap (fun l => l.wake.ring.flatMap (fun e => match e with
      | .val v => givenBytes 4 v.toNat
      | _ => openBytes 4)) ++
    w.lanes.flatMap (fun l => givenBytes 4 l.wake.validBits) ++
    w.bears.flatMap (fun b => b.comps.flatMap (fun d => givenBytes 2 d.toNat)) ++
    w.shapes.flatMap (fun h => givenBytes 64 h.toNat) ++ openBytes (w.imageSize - 15616)

/-- The watch as it stood at the GATE whose frame is innermost: the caller's context (R337, R347). -/
def Watch.caller (w : Watch) (f : Frame) (below : List Frame) : Watch := (w.gatherGate f below).leave 0 f below f.retPc

/-- The gates that a watch is in, the innermost first, with the context inside each (R347). -/
def Watch.gateViews : Nat → Watch → List (GateDesc × Watch)
  | 0, _ => []
  | fuel + 1, w =>
    match gateBelow w.sp.frames with
    | some (f, below) =>
      let inside := fun (q : Split) => decide (gateBelow q.frames = some (f, below))
      let own := fun (q : Split) => { q with frames := q.frames.take (framesAbove q.frames) }
      (match f.desc with
      | some d => [(d, { w with sp := own w.sp, sibs := (w.sibs.filter inside).map own })]
      | none => []) ++ Watch.gateViews fuel (w.caller f below)
    | none => []

/-- The context outside every gate. -/
def Watch.outerView : Nat → Watch → Watch
  | 0, w => w
  | fuel + 1, w =>
    match gateBelow w.sp.frames with
    | some (f, below) => Watch.outerView fuel (w.caller f below)
    | none => w

/-- A watch with a split of it that is inside a gate in focus, if one is. -/
def Watch.gateFirst (w : Watch) : Watch :=
  match w.splits.find? (fun p => p.frames.any (fun f => f.kind == .gate)) with
  | some p => w.focus p.id
  | none => w

def Watch.depthOfGates (w : Watch) : Nat := w.gateFirst.sp.frames.length

/-- Whether a watch is inside a gate: the gates' contexts then stand in their SAVE areas, with the banks of their callers (R347). -/
def Watch.gateOpen (w : Watch) : Bool := w.splits.any (fun p => p.frames.any (fun f => f.kind == .gate))

/-- A watch's context as its gang's image holds it: that of the caller of every gate (R347). -/
def Watch.ownContext (w : Watch) : Watch := if w.gateOpen then w.gateFirst.outerView w.depthOfGates else w

/-- A watch's part of its gang's image: of a caller's context, whose bank stands in a SAVE area, the vector wakes (R347). -/
def Watch.ownImage (w : Watch) : List (Option Byte) :=
  let bs := w.ownContext.imageBytes
  if w.gateOpen then bs.take 10496 ++ openBytes (bs.length - 10496) else bs

/-- The size of a watch's part of its gang's image. -/
def Watch.ownSize (w : Watch) : Nat := w.ownContext.imageSize

/-- The size of a gang's image: its header, and for each block its state, matrix commands, watches and rows (R348). -/
def LaunchRec.imageSize (r : LaunchRec) (ws : List Watch) : Nat :=
  4096 + r.blocks * (2304 + 128 * (r.sprows + r.spill) + 3080 * r.accrows) + (ws.map Watch.ownSize).foldl (· + ·) 0

/-- An accumulator row: 256 cells of 12 bytes, and 8 bytes of row state, whose layout is open (R272, R348). -/
def State.rowImage (s : State) (k : Nat) : List (Option Byte) :=
  (List.range 256).flatMap (fun c => givenBytes 12 (s.accCell k c)) ++ openBytes 8

/-- A staging record: 64 slots of three counts (R153). Log 29 (DESIGN CHOICE). -/
def stagingImage (cs : List EventCount) : List (Option Byte) :=
  (List.range 64).flatMap (fun i => (List.range 3).flatMap (fun k =>
    givenBytes 8 (((cs.find? (fun e => e.slot == i && e.kind == k)).map (·.count)).getD 0)))

/-- A gang's image (R348): a header with the staging record, and for each block its state and matrix commands, watch images, and rows; what
has no layout is open. Log 29 (DESIGN CHOICE). -/
def State.imageBytes (s : State) (r : LaunchRec) (g : Gang) : List (Option Byte) :=
  stagingImage g.staging ++ openBytes 2560 ++ (List.range r.blocks).flatMap (fun b =>
    openBytes 2304 ++ (g.watches.filter (fun w => w.ref.block == b)).flatMap Watch.ownImage ++
      (s.bytes (g.spadAt b) (128 * r.sprows)).map some ++ openBytes (128 * r.spill) ++
      (List.range r.accrows).flatMap (fun i => s.rowImage (g.accAt b + i)))

/-- Bytes stand at a virtual address; those whose values the manual does not give are free. Log 29 (DESIGN CHOICE). -/
def State.writeOpen (s : State) (dom va : Nat) (bs : List (Option Byte)) : State :=
  ({ s.vwrite ioUnit dom va (mapFrom (fun i (b : Option Byte) => b.getD (Config.freeByte (s.fresh + i))) 0 bs) with
    fresh := s.fresh + bs.length } : State)

/-- The bytes that a caller's bank takes in a SAVE area: masks, bearings with norms, shapes, segments, SATF, BOVF and NTID (R337, R347).
Log 29 (DESIGN CHOICE). -/
def bankSize : Nat := 56 + 4096 + 16 + 1024 + 256 + 8 + 8

/-- The image of a gate's context goes to its descriptor's SAVE area in the target domain, with its caller's bank (R347).
Log 29 (DESIGN CHOICE). -/
def State.saveGate (s : State) (launch gang : Nat) (ref : WatchRef) (d : GateDesc) (v : Watch) : State :=
  let bs := v.imageBytes ++ openBytes bankSize
  let spans := s.stretches ioUnit d.tdom (bs.length / 2 ^ 16 + 2) d.save.toNat bs.length
  (s.writeOpen d.tdom d.save.toNat bs).modGang launch gang (fun g => { g with saves := g.saves ++ [{ watch := ref, spans := spans }] })

/-- The same for every gate that a watch is in. -/
def State.saveGates (s : State) (w : Watch) : State :=
  (w.gateFirst.gateViews w.depthOfGates).foldl (fun s x => s.saveGate w.ref.launch w.ref.gang w.ref x.1 x.2) s

/-- The image of a gang fills its slot of the save pool, as far as the pool reaches (R304, R348). Log 29 (DESIGN CHOICE). -/
def State.writeImage (s : State) (l : Launch) (g : Gang) : State :=
  let units := s.regField (.gssize l.dom) 0 32
  let va := (s.reg (.gsbase l.dom)).toNat + 4096 * g.unit
  let n := min (l.recd.imageSize g.watches) (4096 * (units - g.unit))
  let s := (s.writeOpen l.dom va ((s.imageBytes l.recd g).take n)).modGang g.launch g.idx (fun g =>
    { g with image := s.stretches ioUnit l.dom (n / 2 ^ 16 + 2) va n, altered := [], saves := [] })
  g.watches.foldl State.saveGates s

/-- Move every block's rows between the store and the image. `f` and `t` give the keys before and after. -/
def State.moveBlocks (s : State) (f t : Nat → Nat) (fa ta : Nat → Nat) (bytes rows : Nat) : Nat → State
  | 0 => s
  | b + 1 => ((s.moveBlocks f t fa ta bytes rows b).moveBytes (f b) (t b) bytes).moveRows (fa b) (ta b) rows

/-- The watches of a gang as they are saved, in ascending block and watch, in which order they take slots again (R310, R348). -/
def State.imagesOf (s : State) (launch idx : Nat) (joined : Bool) : List Watch :=
  ((s.watches.filter (fun w => w.of launch idx)).map (Watch.image · joined)).foldl (fun l w => insertBy (fun (a b : Watch) =>
    decide (a.ref.block < b.ref.block) || (a.ref.block == b.ref.block && decide (a.ref.watch < b.ref.watch))) w l) []

/-- Save a gang: its watches leave their cores, its rows go into its image, and it returns to the ready pool of its launch with
a new SEQ, or stays swapped out (R316, R340, R348). Log 29 (DESIGN CHOICE). -/
def State.saveGang (s : State) (launch idx : Nat) (joined : Bool) : State :=
  match s.gangOf launch idx, s.launchOf launch with
  | some g, some l =>
    if g.phase ≠ .placed then s
    else
      let s := s.flushCounts (fun e => e.launch == launch && e.gang == idx)
      let g := (s.gangOf launch idx).getD g
      let g' : Gang :=
        { g with phase := if joined then .swapped else .saved, seq := s.seqs.getD l.home 0, back := s.time,
                 watches := s.imagesOf launch idx joined }
      let s := if joined then s else s.nextSeq l.home
      let s := s.keepWatches (fun w => !w.of launch idx)
      let s := { s with caddyQ := s.caddyQ.filter (fun c => !(c.watch.launch == launch && c.watch.gang == idx)),
                        mats := s.mats.map (fun (c : MatCmd) =>
                          if c.watch.launch = launch ∧ c.watch.gang = idx then { c with saved := true } else c) }
      ((s.moveBlocks g.spadAt g'.spadAt g.accAt g'.accAt (128 * l.recd.sprows) l.recd.accrows l.recd.blocks).modGang launch idx
        (fun _ => g')).writeImage l g'
  | _, _ => s

/-- The cells of memory in a stretch. -/
def memoryIn (m : Memory) (x : Nat × Nat) : Memory := m.filter (fun c => decide (x.1 ≤ c.1) && decide (c.1 < x.1 + x.2))

/-- The offsets, in some stretches laid end to end from one on, of bytes that differ between two memories. -/
def changedIn (a b : Memory) : Nat → List (Nat × Nat) → List Nat
  | _, [] => []
  | off, x :: xs =>
    (if memoryIn a x = memoryIn b x then []
      else ((List.range x.2).filter (fun i => Memory.get a (x.1 + i) != Memory.get b (x.1 + i))).map (off + ·)) ++
    changedIn a b (off + x.2) xs

/-- A write to the image of a saved gang alters it, but for the context unit's own (R342, R347, R348): `s` is the state before what
happened. -/
def State.noteAltered (s t : State) : State :=
  { t with gangs := t.gangs.map (fun (g : Gang) =>
      match s.gangOf g.launch g.idx with
      | some h =>
        if h.phase ≠ .placed ∧ h.image = g.image ∧ h.watches = g.watches then
          { g with altered := (g.altered ++ changedIn s.mem t.mem 0 g.image).eraseDups,
                   saves := g.saves.map (fun (x : SaveArea) => { x with altered := x.altered || !(changedIn s.mem t.mem 0 x.spans).isEmpty }) }
        else g
      | none => g) }

/-- Whether no write has altered what a saved gang comes back from (R348). -/
def Gang.intact (g : Gang) : Bool := g.altered.isEmpty && g.saves.all (fun x => !x.altered)

/-- The bytes of a saved gang's image as they stand. -/
def State.imageNow (s : State) (g : Gang) : List Byte := g.image.flatMap (fun x => s.bytes x.1 x.2)

/-- Sizes of the watch images in a gang's image. -/
def sizesOf (ws : List Watch) : Nat := (ws.map Watch.ownSize).foldl (· + ·) 0

/-- Where a block's part of its gang's image begins, and where its rows do (R348). -/
def LaunchRec.blockAt (r : LaunchRec) (ws : List Watch) (b : Nat) : Nat :=
  4096 + (2304 + 128 * (r.sprows + r.spill) + 3080 * r.accrows) * b + sizesOf (ws.filter (fun w => decide (w.ref.block < b)))
def LaunchRec.rowsAt (r : LaunchRec) (ws : List Watch) (b : Nat) : Nat :=
  r.blockAt ws b + 2304 + sizesOf (ws.filter (fun w => w.ref.block == b))

/-- Where a watch's image begins there: before those of the watches from it on. -/
def LaunchRec.imageAt (r : LaunchRec) (ws : List Watch) (ref : WatchRef) : Nat :=
  r.rowsAt ws ref.block - sizesOf ((ws.filter (fun w => w.ref.block == ref.block)).dropWhile (fun w => decide (w.ref ≠ ref)))

/-- The key of the byte at an offset in stretches laid end to end. -/
def keyIn : Nat → List (Nat × Nat) → Option Nat
  | _, [] => none
  | off, x :: xs => if off < x.2 then some (x.1 + off) else keyIn (off - x.2) xs

/-- The offsets in a watch's image of the vector wake's positions that have been pending and are no longer, with their values (R342). -/
def arrivals (old new : Watch) : List (Nat × Word) :=
  (mapFrom (fun l (x : Lane) => (mapFrom (fun i (e : Entry Word) =>
    match e, (new.lane l).wake.ring.getD i .void with
    | .pend _ _, .val v => [(2048 + 128 * l + 4 * i, v)]
    | _, _ => []) 0 x.wake.ring).flatten) 0 old.lanes).flatten

/-- The context unit writes values that arrive into the bytes of a saved image (R342, R348). -/
def State.writeArrivals (s : State) (g : Gang) (r : LaunchRec) (old new : Watch) : State :=
  if old.gateOpen then s
  else
    (arrivals old new).foldl (fun (s : State) x =>
      (mapFrom (fun i b => (i, b)) 0 (leBytes 4 x.2.toNat)).foldl (fun (s : State) y =>
        match keyIn (r.imageAt g.watches old.ref + x.1 + y.1) g.image with
        | some k => s.write k [y.2]
        | none => s) s) s

/-- What arrives for a watch, running or saved: in its image, in the bytes of it too (R34, R342). -/
def State.intoImage (s : State) (w : WatchRef) (f : Watch → Watch) : State :=
  let t := s.modWatchOrImage w f
  match s.gangOf w.launch w.gang, s.launchOf w.launch with
  | some g, some l =>
    match g.watches.find? (fun v => decide (v.ref = w)) with
    | some v => if g.image.isEmpty then t else t.writeArrivals g l.recd v (f v)
    | none => t
  | _, _ => t

/-- What stands in an image from one place on, and the offsets of bytes that a write has altered. -/
structure Altered where
  bytes : List Byte
  hits  : List Nat

def Altered.from (x : Altered) (off : Nat) : Altered :=
  { bytes := x.bytes.drop off, hits := x.hits.filterMap (fun o => if off ≤ o then some (o - off) else none) }

/-- Whether a byte of a part has been altered. -/
def Altered.hit (x : Altered) (lo n : Nat) : Bool := x.hits.any (fun o => decide (lo ≤ o) && decide (o < lo + n))

/-- A part of it as a number. -/
def Altered.field (x : Altered) (lo n : Nat) : Nat := leNat ((x.bytes.drop lo).take n)

/-- Wakes whose valid entries are free. -/
def SWake.openedFrom (v : SWake) (n : Nat) : SWake :=
  { v with ring := mapFrom (fun i (e : Entry DWord) => if e.isVoid then e else .val (Config.freeWord (n + i))) 0 v.ring }
def VWake.openedFrom (v : VWake) (n : Nat) : VWake :=
  { v with ring := mapFrom (fun i (e : Entry Word) => if e.isVoid then e else .val ((Config.freeWord (n + i)).setWidth 32)) 0 v.ring }

/-- An address of a word that is free. -/
def freePc (n : Nat) : DWord := Config.freeWord n &&& ~~~7#64

/-- A region record and a caller frame, and the list of them, whose contents are free. -/
def Region.opened (n : Nat) (r : Region) : Region :=
  { r with phase := (Config.freeWord n).getLsbD 0, resume := freePc (n + 1), rejoin := freePc (n + 2),
           arm0 := Config.freeWord (n + 3), arm1 := Config.freeWord (n + 4),
           marks := mapFrom (fun i _ => (Config.freeWord (n + 16 + i)).setWidth 5) 0 r.marks,
           depths := mapFrom (fun i _ => (Config.freeWord (n + 80 + i)).toNat % 33) 0 r.depths, scalar := r.scalar.openedFrom (n + 144) }
def openedRecs (n : Nat) (rs : List Region) : List Region := mapFrom (fun i r => Region.opened (n + 256 * i) r) 0 rs
def Frame.opened (n : Nat) (f : Frame) : Frame :=
  { f with retPc := freePc n, retNext := freePc (n + 1), swake := f.swake.openedFrom (n + 16) }

/-- The header of a watch's image, split records, region records, caller frames and caddy blocks have no layout: where a write has
altered one, what it holds is free. Log 29 (DESIGN CHOICE). -/
def Watch.openHeader (n : Nat) (w : Watch) : Watch :=
  { w.mapLanes (fun i l => if w.ewidth ≤ i then l else
      { l with satf := (Config.freeWord n).getLsbD i, exited := (Config.freeWord (n + 1)).getLsbD i,
               wake := { l.wake with head := (Config.freeWord (n + 64 + i)).setWidth 5, nest := (Config.freeWord (n + 128 + i)).setWidth 8 } }) with
    ks := mapFrom (fun i _ => Config.freeWord (n + 2 + i)) 0 w.ks,
    bovf := (Config.freeWord (n + 10)).getLsbD 0, ntid := (Config.freeWord (n + 11)).setWidth 12,
    bears := mapFrom (fun i (b : Bearing) => { b with norm := (Config.freeWord (n + 12 + i)).setWidth 16 }) 0 w.bears,
    sp := { w.sp with frames := w.sp.frames.map (fun f => { f with ks := mapFrom (fun i _ => Config.freeWord (n + 32 + i)) 0 f.ks }) },
    sibs := w.sibs.map (fun q => { q with frames := q.frames.map (fun f => { f with ks := mapFrom (fun i _ => Config.freeWord (n + 32 + i)) 0 f.ks }) }) }
def Watch.openSplit (n id : Nat) (w : Watch) : Watch :=
  w.mapSplits (fun p => if p.id = id then
    { p with pc := freePc n, depth := (Config.freeWord (n + 1)).setWidth 8, since := (Config.freeWord (n + 2)).toNat, swake := p.swake.openedFrom (n + 16) }
    else p)

/-- The region records of every frame from the `lo`-th on, and up to `hi`. -/
def Watch.openRecs (n : Nat) (w : Watch) : Watch :=
  w.mapSplits (fun p => { p with
    recs := openedRecs (n + 2 ^ 14 * p.id) p.recs
    frames := mapFrom (fun i (f : Frame) => { f with recs := openedRecs (n + 2 ^ 14 * p.id + 4096 * (i + 1)) f.recs }) 0 p.frames })

/-- Caller frames from one depth up to another, with the lanes' wakes in them. -/
def Watch.openFrames (n lo hi : Nat) (w : Watch) : Watch :=
  let inside := fun (i : Nat) => decide (lo ≤ i) && decide (i < hi)
  (w.mapLanes (fun l x => { x with saved := mapFrom (fun i (v : VWake) => if inside i then v.openedFrom (n + 4096 * (i + 1) + 32 * l) else v) 0 x.saved })).mapSplits
    (fun p => { p with frames := mapFrom (fun i (f : Frame) => if inside i then f.opened (n + 64 * i) else f) 0 p.frames })

def Watch.openCaddies (n : Nat) (w : Watch) : Watch :=
  { w with caddies := mapFrom (fun i (f : CaddyFrame) => { f with slots := mapFrom (fun j (row : List Word) =>
      mapFrom (fun l _ => (Config.freeWord (n + 4096 * i + 64 * j + l)).setWidth 32) 0 row) 0 f.slots }) 0 w.caddies }

/-- The parts of an image that have a layout: vector wakes, bearing directions and shape registers, as they stand now (R347). -/
def Watch.reread (w : Watch) (x : Altered) : Watch :=
  { w.mapLanes (fun l (y : Lane) => { y with wake := { y.wake with ring := mapFrom (fun i e =>
      if ¬ (x.hit (2048 + 128 * l + 4 * i) 4 || x.hit (10240 + 4 * l) 4) then e
      else if (x.field (10240 + 4 * l) 4).testBit i then .val (BitVec.ofNat 32 (x.field (2048 + 128 * l + 4 * i) 4)) else .void) 0 y.wake.ring } }) with
    bears := mapFrom (fun i (b : Bearing) =>
      { b with comps := mapFrom (fun j c => if x.hit (10496 + 512 * i + 2 * j) 2 then BitVec.ofNat 16 (x.field (10496 + 512 * i + 2 * j) 2) else c) 0 b.comps }) 0 w.bears,
    shapes := mapFrom (fun i h => if x.hit (14592 + 64 * i) 64 then BitVec.ofNat 512 (x.field (14592 + 64 * i) 64) else h) 0 w.shapes }

/-- Do something to a watch where a condition holds. -/
def Watch.when (w : Watch) (b : Bool) (f : Watch → Watch) : Watch := if b then f w else w

/-- A watch inside no gate, whose image or whose block's spill rows have been altered (R91, R347, R348).
Log 29 (DESIGN CHOICE). -/
def Watch.alter (w : Watch) (x : Altered) (spill : Bool) (n : Nat) : Watch :=
  let g := 384 * (w.splits.map (fun p => min 8 p.recs.length)).foldl (· + ·) 0
  let f := 9216 * (w.splits.map (fun p => min 4 p.frames.length)).foldl (· + ·) 0
  let v := (w.reread x).when (x.hit 0 1024) (Watch.openHeader n)
  let v := (List.range 4).foldl (fun (v : Watch) i => v.when (x.hit (1024 + 256 * i) 256) (Watch.openSplit (n + 256 + 64 * i) i)) v
  let v := v.when (x.hit 15616 g || spill) (Watch.openRecs (n + 2 ^ 16))
  let v := v.when (x.hit (15616 + g) f) (Watch.openFrames (n + 2 ^ 17) 0 4)
  let v := v.when spill (Watch.openFrames (n + 2 ^ 17) 4 256)
  v.when (x.hit (15616 + g + f) w.imageSize || spill) (Watch.openCaddies (n + 2 ^ 19))

/-- A watch inside a gate, one of whose images has been altered: all that they hold is free. Log 29 (DESIGN CHOICE). -/
def Watch.opened (n : Nat) (w : Watch) : Watch :=
  let v := (((w.openHeader n).openRecs (n + 2 ^ 16)).openFrames (n + 2 ^ 17) 0 256).openCaddies (n + 2 ^ 19)
  let v := (List.range 4).foldl (fun (v : Watch) i => v.openSplit (n + 256 + 64 * i) i) v
  let norm := fun (b : Bearing) => { b with comps := mapFrom (fun j _ => (Config.freeWord (n + 1024 + j)).setWidth 16) 0 b.comps }
  let bank := fun (b : GateBank) => { b with
    bears := b.bears.map norm
    shapes := mapFrom (fun i _ => ((Config.freeWord (n + 2048 + i)).setWidth 512 : Shape)) 0 b.shapes
    segs := mapFrom (fun i _ => ((Config.freeWord (n + 2080 + i)).setWidth 128 : Seg)) 0 b.segs
    satf := mapFrom (fun i _ => (Config.freeWord (n + 2100)).getLsbD i) 0 b.satf
    bovf := (Config.freeWord (n + 2101)).getLsbD 0, ntid := (Config.freeWord (n + 2102)).setWidth 12 }
  { v.mapLanes (fun l x => { x with wake := x.wake.openedFrom (n + 2 ^ 15 + 32 * l) }) with
    bears := v.bears.map norm, shapes := mapFrom (fun i _ => ((Config.freeWord (n + 2048 + i)).setWidth 512 : Shape)) 0 v.shapes,
    sp := { v.sp with frames := v.sp.frames.map (fun f => { f with bank := f.bank.map bank }) },
    sibs := v.sibs.map (fun q => { q with frames := q.frames.map (fun f => { f with bank := f.bank.map bank }) }) }

/-- A watch of a gang as it comes back from its images. -/
def Gang.returned (g : Gang) (r : LaunchRec) (x : Altered) (w : Watch) (n : Nat) : Watch :=
  let y := x.from (r.imageAt g.watches w.ref)
  let spill := x.hit (r.rowsAt g.watches w.ref.block + 128 * r.sprows) (128 * r.spill)
  if w.gateOpen then w.when (y.hit 0 w.ownSize || spill || g.saves.any (fun a => decide (a.watch = w.ref) && a.altered)) (Watch.opened n)
  else w.alter y spill n

/-- Where a byte of an altered image stands for a row, the row returns as it is there: bytes of scratchpad, and the cells and the row state,
which has no layout, of accumulator rows (R272, R348). Log 29 (DESIGN CHOICE). -/
def State.restoreRows (s : State) (r : LaunchRec) (g : Gang) (x : Altered) : State :=
  (List.range r.blocks).foldl (fun (s : State) b =>
    let at_ := r.rowsAt g.watches b
    let s := ((List.range (128 * r.sprows)).filter (fun i => x.hit (at_ + i) 1)).foldl (fun (s : State) i =>
      { s with mem := Memory.put s.mem (g.spadAt b + i) (BitVec.ofNat 8 (x.field (at_ + i) 1)) }) s
    (List.range r.accrows).foldl (fun (s : State) i =>
      let y := x.from (at_ + 128 * (r.sprows + r.spill) + 3080 * i)
      let k := g.accAt b + i
      let s := ((List.range 256).filter (fun c => y.hit (12 * c) 12)).foldl (fun s c => s.setCell k c (y.field (12 * c) 12)) s
      if y.hit 3072 8 then
        let v := Config.freeWord (s.fresh + 3 * (256 * b + i))
        s.setRow k { anchor := v.setWidth 10, aexc := v.getLsbD 10, nan := v.getLsbD 11, inf := v.getLsbD 12 }
      else s) s) s

/-- The gang's own part of an altered image: its staging record, and what else its header and block states hold, which has no layout
(R153, R348). Log 29 (DESIGN CHOICE). -/
def Gang.alter (g : Gang) (r : LaunchRec) (x : Altered) (n : Nat) : Gang :=
  let counts := (List.range 64).flatMap (fun i => (List.range 3).map (fun k => ({ slot := i, kind := k, count := x.field (24 * i + 8 * k) 8 } : EventCount)))
  let g := if x.hit 0 1536 then { g with staging := counts.filter (fun e => e.count != 0) } else g
  let g := if x.hit 1536 2560 then
      { g with join := (Config.freeWord n).toNat, ggen := (Config.freeWord (n + 1)).toNat, jgen := (Config.freeWord (n + 2)).toNat } else g
  { g with bgen := mapFrom (fun b v => if x.hit (r.blockAt g.watches b) 256 then (Config.freeWord (n + 8 + b)).toNat else v) 0 g.bgen }

/-- A saved matrix command whose bytes have been altered holds operands that are free (R297, R348).
Log 29 (DESIGN CHOICE). -/
def MatCmd.alter (c : MatCmd) (r : LaunchRec) (g : Gang) (x : Altered) (n : Nat) : MatCmd :=
  if c.saved ∧ c.watch.launch = g.launch ∧ c.watch.gang = g.idx ∧ x.hit (r.blockAt g.watches c.watch.block + 256) 2048 then
    { c with a := (Config.freeWord n).setWidth 512, b := (Config.freeWord (n + 1)).setWidth 512, obj := (Config.freeWord (n + 2)).toNat % 2 ^ 32 }
  else c

/-- Whether a split has stored part of a bearing record: it goes on to the next instruction boundary before it is saved (R19, R21). -/
def Split.midStore (p : Split) : Bool := p.record.write && p.record.done != 0

/-- Whether a gang has a matrix pass running, a BST part of the way, or an answer still to arrive: what the hard step waits for (R19, R340,
R342). -/
def State.mustWait (s : State) (launch idx : Nat) (window : Bool) : Bool :=
  s.watches.any (fun w => w.of launch idx && w.splits.any Split.midStore) ||
  s.mats.any (fun c => c.watch.launch == launch && c.watch.gang == idx && !c.running.isEmpty) ||
  (window && s.watches.any (fun w => w.of launch idx && w.flights.any (fun f => !f.inUnit)))

/-- The gangs that hold a core for a domain, on one core (R340, R341). -/
def State.gangsOn (s : State) (core : Nat) (p : Gang → Launch → Bool) : List Gang :=
  s.gangs.filter (fun g => g.phase == .placed && g.places.any (fun q => q.core == core) &&
    ((s.launchOf g.launch).map (p g)).getD false)

/-! ### Halting -/

/-- Whether a sight controller keeps a core: it is under test or being drained (R388). -/
def Sight.holds (x : Sight) (core : Nat) : Bool := (x.testing && x.pos == core) || x.next == some core

/-- Whether the hard step of a request, or a sight drain, holds a gang at its instruction boundaries on a core (R340, R388). -/
def State.halts (s : State) (dom core : Nat) : Bool :=
  s.preempts.any (fun p => p.dom == dom && p.hard && p.core == core) ||
  s.sights.any (fun x => x.holds core)

/-- Whether a gang is held at its instruction boundaries: a request on any of its cores acts on all of it (R341), and so does the
revocation of leeway contexts on one of them (R342, R350). -/
def State.gangHalted (s : State) (launch idx dom : Nat) : Bool :=
  let leeway := ((s.launchOf launch).map (fun l => l.recd.cls == 2)).getD false
  (((s.gangOf launch idx).map (·.places)).getD []).any (fun q =>
    s.halts dom q.core || (leeway && s.recalls.any (fun x => x.1 == q.core)))

/-- Whether a watch is held there: what holds one core of a gang holds all of it (R341). -/
def State.halted (s : State) (w : Watch) : Bool :=
  s.gangHalted w.ref.launch w.ref.gang w.home

/-! ### Gang-wide arrivals -/

/-- Whether a pre-emption request of a domain stands on one of a gang's cores. -/
def State.requested (s : State) (g : Gang) (dom : Nat) : Bool :=
  s.preempts.any (fun p => p.dom == dom && g.places.any (fun q => q.core == p.core))

/-- Complete or swap out a gang whose watches have all arrived at a JOIN (R316). -/
def State.pollJoin (s : State) (r : WatchRef) : State :=
  let inGang := fun (w : Watch) => w.of r.launch r.gang
  let at_ := fun (x : Wait) => decide (x = .join)
  match s.gangOf r.launch r.gang with
  | none => s
  | some g =>
    if s.allArrived inGang at_ ∧
        ¬ s.cmds.any (fun c => c.watch.launch == r.launch && c.watch.gang == r.gang) ∧
        ¬ s.mats.any (fun c => c.watch.launch == r.launch && c.watch.gang == r.gang) then
      let s := s.modGang r.launch r.gang (fun g => { g with jgen := g.jgen + 1 })
      if g.join = 0 then s.mapWatches (fun w => if inGang w then w.release at_ else w)
      else s.saveGang r.launch r.gang true
    else s

/-- Whether a gang is to be saved at its YIELDBs: a request stands and every watch has arrived (R343). -/
def State.yielding (s : State) (launch idx dom : Nat) : Bool :=
  ((s.gangOf launch idx).map (fun g => g.phase == .placed && s.requested g dom)).getD false &&
    decide (s.allArrived (fun w => w.of launch idx) (fun x => decide (x = .yieldb)))

/-- Whether the response window of a request of a domain on one of a gang's cores is open (R342). -/
def State.windowOpen (s : State) (g : Gang) (dom : Nat) : Bool :=
  s.preempts.any (fun p => p.dom == dom && p.window && g.places.any (fun q => q.core == p.core))

/-- Save a gang whose watches have all arrived at a YIELDB while a soft request stands, as at the hard step, or let them go on
(R342, R343). -/
def State.pollYieldb (s : State) (r : WatchRef) : State :=
  let inGang := fun (w : Watch) => w.of r.launch r.gang
  let at_ := fun (x : Wait) => decide (x = .yieldb)
  match s.gangOf r.launch r.gang, s.launchOf r.launch with
  | some g, some l =>
    if ¬ s.requested g l.dom then s.mapWatches (fun w => if inGang w then w.release at_ else w)
    else if s.yielding r.launch r.gang l.dom ∧ ¬ s.mustWait r.launch r.gang (s.windowOpen g l.dom) then s.saveGang r.launch r.gang false
    else s
  | _, _ => s

/-- After a watch or split has arrived or ended: every arrival of its gang is looked at again. -/
def State.pollGang (s : State) (r : WatchRef) : State := ((s.pollBarrier r).pollJoin r).pollYieldb r

end Sys2Proof.Machine
end

