-- ==== Sys2Proof/Machine/Fetch.lean ====
section
/-!
DEFINITION. Fetching instruction words, literal words and rejoin entries through the domain's page tables, and the faults of a
fetch (R43, R73, R396).
-/
namespace Sys2Proof.Machine

/-- What a check or read of the issuing split gives: a value, or the state in which the instruction has ended (trapped, held,
or killed with its gang). -/
inductive Got (α : Type)
  | ok (a : α)
  | stop (s : State)

/-- Go on with the value, or end. -/
def Got.andThen {α : Type} (g : Got α) (k : α → Out) : Out :=
  match g with
  | .ok a => k a
  | .stop s => .next s

/-- How the word at an address answers a fetch: its 8 bytes, or a fault, or an uncorrectable error at a key. -/
inductive Word8
  | ok (w : DWord)
  | fault (k : FetchFault)
  | unmapped (key : Nat)
  | poison (key : Nat)

/-- Fetch an aligned word (R396). -/
def State.word8 (s : State) (va : DWord) : Word8 :=
  match s.acc va.toNat false with
  | .hold p => .fault (.recoverable p)
  | .refused perm => .fault (if perm then .protect else .pageFault)
  | .ok k =>
    if ¬ s.mediaOk k then .unmapped k
    else if s.poisoned k 8 then .poison k
    else .ok (BitVec.ofNat 64 (s.fetched s.ctx.ref.launch k))

/-- The length of the instruction at the PC: 16 for LDIL, 8 otherwise (R43, R51). -/
def State.wordLen (s : State) : Nat :=
  match s.word8 s.ctx.sp.pc with
  | .ok w => if majOf w = 0x27 then 16 else 8
  | _ => 8

/-- The fetch of the word or entry at `addr` fails: the split is held, or traps (R396). -/
def State.fetchFault (s : State) (addr : DWord) (k : FetchFault) : State :=
  match k with
  | .recoverable p => s.holdPage s.ctx.dom p false
  | .pageFault => s.takeTrapLen causePagefault s.ctx.k0 addr s.wordLen
  | .protect => s.takeTrapLen causeProtect s.ctx.k0 addr s.wordLen

/-- The state in which a fetch that gave no word leaves the machine. Log 32 (DEDUCED). -/
def State.noWord (s : State) (addr : DWord) (x : Word8) : State :=
  match x with
  | .fault k => s.fetchFault addr k
  | .unmapped k => s.unmappedPage s.ctx.ref k
  | .poison _ => s.consumePoison s.ctx.home s.ctx.core s.ctx.ref 1 (if s.ctx.abroad then 0 else addr.toNat)
  | .ok _ => s

/-- The LAYOUT trap (R89). -/
def State.layoutTrap (s : State) (d : Nat) : State := s.takeTrap causeLayout s.ctx.k0 (BitVec.ofNat 64 d)

/-- A rejoin entry: the two lists of ages, oldest first (R73). -/
structure RejoinEntry where
  l0 : List Nat
  l1 : List Nat
  deriving DecidableEq, Repr

/-- The bytes of one list agree with its count: ages below 32, zeros beyond (R73). -/
def listSound (n : Nat) (bs : List Byte) : Bool :=
  decide (n ≤ 8) && (mapFrom (fun i (b : Byte) => if i < n then decide (b.toNat < 32) else b == 0) 0 bs).all id

/-- The entry in 32 bytes, unless a count or a reserved bit is bad (R73). -/
def parseRejoin (bs : List Byte) : Option RejoinEntry :=
  let n0 := fieldOf bs 0 1
  let n1 := fieldOf bs 1 1
  let l0 := (bs.drop 16).take 8
  let l1 := (bs.drop 24).take 8
  if listSound n0 l0 ∧ listSound n1 l1 ∧ ((bs.drop 2).take 14).all (· == 0) then
    some { l0 := (l0.take n0).map (·.toNat), l1 := (l1.take n1).map (·.toNat) }
  else none

/-- The words of n consecutive addresses; `entry` is the address that a fault reports. -/
def State.words8 (s : State) (entry va : DWord) : Nat → Got (List Byte)
  | 0 => .ok []
  | n + 1 =>
    match s.word8 va with
    | .ok w =>
      match s.words8 entry (va + 8) n with
      | .ok bs => .ok (leBytes 8 w.toNat ++ bs)
      | .stop t => .stop t
    | x => .stop (s.noWord entry x)

/-- Fetch rejoin entry `idx` of the watch's code object (R73, R396); its address is the detail of a fault.
Log 21 (DEDUCED). -/
def State.rejoinEntry (s : State) (idx : BitVec 16) : Got RejoinEntry :=
  if s.ctx.rejoinN ≤ idx.toNat then .stop (s.layoutTrap 9)
  else
    let va := s.ctx.rejoinAt + BitVec.ofNat 64 (32 * idx.toNat)
    match s.words8 va va 4 with
    | .stop t => .stop t
    | .ok bs =>
      match parseRejoin bs with
      | some e => .ok e
      | none => .stop (s.layoutTrap 9)

/-- The instruction at the PC, with its word's major and length (R43, R51); or why there is none. -/
inductive Fetched
  | ok (i : Instr)
  | illField (maj len : Nat)
  | none (addr : DWord) (x : Word8)

/-- Fetch and decode the instruction at the issuing split's PC. -/
def State.fetch (s : State) : Fetched :=
  match s.word8 s.ctx.sp.pc with
  | .ok w =>
    if majOf w = 0x27 then
      match s.word8 (s.ctx.sp.pc + 8) with
      | .ok l =>
        match decodeWord w l with
        | .ok i => .ok i
        | .illField => .illField 0x27 16
      | x => .none (s.ctx.sp.pc + 8) x
    else
      match decodeWord w 0 with
      | .ok i => .ok i
      | .illField => .illField (majOf w).toNat 8
  | x => .none s.ctx.sp.pc x

end Sys2Proof.Machine
end

