-- ==== Sys2Proof/Machine/Control.lean ====
section
/-!
DEFINITION. The control class: branches, regions, splits, loops and calls (R63 to R92).
-/
namespace Sys2Proof.Machine

/-- PC + 8 * DISP24 (R45, R68). -/
def State.target (s : State) (disp : BitVec 24) : DWord := s.ctx.sp.pc + disp.signExtend 64 * 8

/-- Whether some of the split's lanes in m have a nesting counter of 255, as a mask (R90). -/
def Watch.nestFull (w : Watch) (m : Mask) : Mask := m &&& maskWhere (fun l => l.wake.nest == 255) w.lanes

/-- Add to the nesting counters of the lanes of a mask. -/
def Watch.addNest (w : Watch) (m : Mask) (d : BitVec 8) : Watch :=
  w.mapLanes (fun i l => if has m i then { l with wake := { l.wake with nest := l.wake.nest + d } } else l)

/-- Subtract 1 from the nesting counters of the lanes of a mask that have one above 0 (R76). -/
def Watch.subNest (w : Watch) (m : Mask) : Watch :=
  w.mapLanes (fun i l =>
    if has m i ∧ l.wake.nest ≠ 0 then { l with wake := { l.wake with nest := l.wake.nest - 1 } } else l)

/-! ### The empty split and the end of splits -/

/-- Where R82 sends a split with no active lane and an open record in the current frame. -/
def Watch.redirect (w : Watch) : Watch :=
  if w.k0 ≠ 0 then w
  else
    match w.sp.recs with
    | [] => w
    | r :: _ =>
      let pc := match r.kind with
        | .ifr => r.resume
        | .ifs => r.rejoin
        | .loop => r.resume - 8
      { w with sp := { w.sp with pc := pc } }

/-- What the frames of a split that ends had set aside returns to the watch: banks, and the splits that were stopped. -/
def Watch.dropFrames (w : Watch) : List Frame → Watch
  | [] => w
  | f :: fs =>
    match f.kind, f.bank with
    | .gate, some b => ((w.restoreBank f.ks b).unstop).dropFrames fs
    | .handler, _ => ({ w with ks := f.ks }.unstop).dropFrames fs
    | _, _ => w.dropFrames fs

/-- The issuing split of a watch has ended; another split comes into focus (R64). -/
def Watch.dropSplit (w : Watch) : Watch :=
  let w := w.dropFrames w.sp.frames
  match w.sibs with
  | [] => w
  | p :: ps => { w with sp := p, sibs := ps }.dropCaddies

/-- After a control instruction: the watch ends when all its lanes have exited, the split ends when it may, and a split left
empty goes where R82 sends it (R64, R82, R86). -/
def State.settle (s : State) : State :=
  let r := s.ctx.ref
  if s.ctx.lanes.all (·.exited) then s.endCtx.pollGang r
  else if s.ctx.splitEnded s.ctx.sp then (s.mapCtx Watch.dropSplit).pollGang r
  else s.mapCtx Watch.redirect

/-! ### Layouts -/

/-- Make the entries void whose age is at least n. -/
def VWake.keep (v : VWake) (n : Nat) : VWake :=
  { v with ring := mapFrom (fun p e => if (v.head - BitVec.ofNat 5 p).toNat < n then e else .void) 0 v.ring }
def SWake.keep (v : SWake) (n : Nat) : SWake :=
  { v with ring := mapFrom (fun p e => if (v.head - BitVec.ofNat 4 p).toNat < n then e else .void) 0 v.ring }

/-- The layout of one lane against a record with its mark and depth: ages L, oldest first (R72). -/
def VWake.layout (v : VWake) (mark : BitVec 5) (depth : Nat) (ages : List Nat) : VWake :=
  let k := ages.length
  let vals := ages.map v.get
  let ring := mapFrom (fun p e =>
    let past := (BitVec.ofNat 5 p - mark).toNat
    let q := (mark - BitVec.ofNat 5 p).toNat
    if 1 ≤ past ∧ past ≤ k then vals.getD (past - 1) .void
    else if q + depth ≤ 31 then e
    else .void) 0 v.ring
  { v with ring := ring, head := mark + BitVec.ofNat 5 k }

/-- Lay out the lanes of a mask, and raise their depths in every open record by what was written (R71, R72). -/
def Watch.layout (w : Watch) (m : Mask) (r : Region) (ages : List Nat) : Watch :=
  let mark := fun l => r.marks.getD l 0
  let ls := mapFrom (fun i (l : Lane) =>
    if has m i then { l with wake := l.wake.layout (mark i) (r.depths.getD i 0) ages } else l) 0 w.lanes
  let touch := fun (rs : List Region) (j : Nat) =>
    rs.map (Region.touch m ((List.range 64).map (fun l => mark l + BitVec.ofNat 5 (j + 1))))
  { w with lanes := ls, sp := { w.sp with recs := (List.range ages.length).foldl touch w.sp.recs } }

/-- Whether a layout must wait for entries in flight (R60, R72). -/
def Watch.layoutPends (w : Watch) (m : Mask) (ages : List Nat) : Bool :=
  m &&& maskWhere (fun l => ages.any (fun a => (l.wake.get a).isPend)) w.lanes != 0

/-- Whether a layout reads an entry whose parity fails (R383, R384). -/
def Watch.layoutBad (w : Watch) (m : Mask) (ages : List Nat) : Bool :=
  m &&& maskWhere (fun l => ages.any (fun a => (l.wake.get a).isBad)) w.lanes != 0

/-- What a layout reads under two masks: an entry whose parity fails ends the gang, and one in flight holds the split (R60, R72, R384). -/
def State.layoutReads (s : State) (ms : List (Mask × List Nat)) (k : Out) : Out :=
  if ms.any (fun x => s.ctx.layoutBad x.1 x.2) then .next s.parityKill
  else if ms.any (fun x => s.ctx.layoutPends x.1 x.2) then .next (s.hold .operand)
  else k

/-! ### Uniform branches -/

/-- BR (R70). -/
def execBr (disp : BitVec 24) (s : State) : Out := s.enter none 0 fun s => .next (s.setPc (s.target disp))

/-- A uniform branch on a condition (R70). -/
def State.branchIf (s : State) (taken : Bool) (disp : BitVec 24) : State :=
  if taken then s.setPc (s.target disp) else s.advance 8

/-- BANY (R70). -/
def execBany (k : BitVec 3) (disp : BitVec 24) (s : State) : Out :=
  s.enter none 0 fun s => .next (s.branchIf (s.ctx.gov k != 0) disp)
/-- BALL (R70). -/
def execBall (k : BitVec 3) (disp : BitVec 24) (s : State) : Out :=
  s.enter none 0 fun s => .next (s.branchIf (s.ctx.gov k == s.ctx.k0) disp)
/-- BNONE (R70). -/
def execBnone (k : BitVec 3) (disp : BitVec 24) (s : State) : Out :=
  s.enter none 0 fun s => .next (s.branchIf (s.ctx.gov k == 0) disp)

/-! ### Conditional regions -/

/-- The record of an IF or IFS (R71). -/
def Watch.newRegion (w : Watch) (rid : Nat) (kind : RegionKind) (resume rejoin : DWord) (t e : Mask) (origin : Bool) (n x : Nat) :
    Region :=
  { rid := rid, kind := kind, phase := false, resume := resume, rejoin := rejoin, arm0 := t, arm1 := e, marks := w.heads,
    depths := List.replicate 64 0, origin := origin, scalar := w.sp.swake, n := n, x := x }

/-- Put a state in place of the present one if what its watch spills fits its rows; otherwise SPILLFULL (R91). -/
def State.spillOr (s t : State) (detail : DWord) : Out :=
  .next (if t.ctx.spillFits then t else s.takeTrap causeSpillfull s.ctx.k0 detail)

/-- IF, and IFS in fallback (R74, R77). -/
def State.openIf (s : State) (k : BitVec 3) (disp : BitVec 24) (origin : Bool) : Out :=
  let w := s.ctx
  let t := w.gov k
  let e := w.k0 &&& ~~~t
  if w.nestFull e ≠ 0 then .next (s.takeTrapFree causeNestovf (w.nestFull e))
  else
    let r := w.newRegion s.fresh .ifr (s.target disp) 0 t e origin 0 0
    let w' := { w with sp := { w.sp with recs := r :: w.sp.recs } }.addNest e 1
    s.spillOr ({ s.tick with ctx := w' }.setPc (if t = 0 then s.target disp else w.sp.pc + 8)) 0

/-- IF (R74). -/
def execIfRegion (k : BitVec 3) (disp : BitVec 24) (s : State) : Out := s.enter none 0 fun s => s.openIf k disp false

/-- The lowest split index that is free (R321). Log 30 (DEDUCED). -/
def Watch.freeSplit (w : Watch) : Nat :=
  ((List.range 4).find? (fun i => !(w.splits.any (fun p => p.id == i)))).getD 0

/-- Create the child split of an IFS: the lanes of E, with copies of the parent's uniform parts (R77). -/
def State.splitOff (s : State) (t e : Mask) (resume rejoin child : DWord) : Out :=
  let w := s.ctx
  let id := w.freeSplit
  let r := w.newRegion s.fresh .ifs resume rejoin t e false w.sp.id id
  let sp := { w.sp with recs := r :: w.sp.recs }
  let c := { sp with id := id, pc := child, wait := .none, since := s.time, port := 1, held := 0, defer := false }
  let w' := { w.mapLanes (fun i l => if has e i then { l with split := id } else l) with sp := sp, sibs := c :: w.sibs }
  s.spillOr ({ s.tick with ctx := w' }.setPc (w.sp.pc + 8)) 0

/-- IFS (R77, R80): its resume word is checked before anything else. Log 30 (DEDUCED). -/
def execIfs (k : BitVec 3) (disp : BitVec 24) (s : State) : Out :=
  s.enter none 0 fun s =>
    let t := s.ctx.gov k
    let e := s.ctx.k0 &&& ~~~t
    let resume := s.target disp
    match s.word8 resume with
    | .ok v =>
      if majOf v ≠ 0x16 ∧ majOf v ≠ 0x17 then .next (s.layoutTrap 0x0A)
      else if t = 0 ∨ e = 0 ∨ 4 ≤ s.ctx.splits.length then s.openIf k disp true
      else if majOf v = 0x16 then s.splitOff t e resume (resume + (v.extractLsb' 16 24).signExtend 64 * 8) (resume + 8)
      else s.splitOff t e resume resume resume
    | x => .next (s.noWord resume x)

/-- ELSE (R75); on an IFS record it jumps to the REJOIN (R79). -/
def execElseArm (disp : BitVec 24) (s : State) : Out :=
  s.enter none 0 fun s =>
    let w := s.ctx
    match w.sp.recs with
    | r :: rs =>
      if r.kind = .ifs ∧ r.phase = false then .next (s.setPc (s.target disp))
      else if r.kind = .ifr ∧ r.phase = false then
        if w.nestFull r.arm0 ≠ 0 then .next (s.takeTrapFree causeNestovf (w.nestFull r.arm0))
        else
          let r' := { r with phase := true, resume := s.target disp }
          let w' := (w.addNest r.arm0 1).subNest r.arm1
          let w' := { w' with sp := { w'.sp with recs := r' :: rs, swake := r.scalar } }
          .next (({ s with ctx := w' }.setPc (if r.arm1 = 0 then s.target disp else w.sp.pc + 8)).settle)
      else .next (s.layoutTrap 1)
    | [] => .next (s.layoutTrap 1)

/-- The end of a region for the lanes of one split: layouts by arm (R76). -/
def Watch.layoutArms (w : Watch) (m : Mask) (r : Region) (l0 l1 : List Nat) : Watch :=
  (w.layout (m &&& r.arm0) r l0).layout (m &&& r.arm1) r l1

/-- Pop the innermost record, whose lanes have been laid out: counters, scalar wake, PC (R76). -/
def Watch.closeRegion (w : Watch) (r : Region) (pc : DWord) : Watch :=
  let w := w.subNest (r.arm0 ||| r.arm1)
  { w with sp := { w.sp with recs := w.sp.recs.drop 1, swake := r.scalar, pc := pc, wait := .none } }

/-- The merged record of two copies: each lane's part from the split that held it (R81). `m` are the lanes of the second. -/
def Region.mergeWith (m : Mask) (a b : Region) : Region :=
  { a with arm0 := (a.arm0 &&& ~~~m) ||| (b.arm0 &&& m), arm1 := (a.arm1 &&& ~~~m) ||| (b.arm1 &&& m),
           marks := mapFrom (fun l x => if has m l then b.marks.getD l 0 else x) 0 a.marks,
           depths := mapFrom (fun l x => if has m l then b.depths.getD l 0 else x) 0 a.depths }

/-- The lanes of a split, exited or not. -/
def Watch.lanesOf (w : Watch) (id : Nat) : Mask := maskWhere (fun l => l.split == id) w.lanes

/-- Merge the issuing split with its twin, both arrived at a REJOIN, record by record in every frame (R81), and complete R76 for
both. -/
def Watch.mergeTwins (w : Watch) (q : Split) (la lb qa qb : List Nat) : Watch :=
  match w.sp.recs with
  | [] => w
  | top :: _ =>
    let mine := w.lanesOf w.sp.id
    let theirs := w.lanesOf q.id
    let recs := mapFrom (fun i r => Region.mergeWith theirs r (q.recs.getD i r)) 0 w.sp.recs
    let frames := mapFrom (fun i (f : Frame) => { f with
      recs := mapFrom (fun j r => Region.mergeWith theirs r (((q.frames.getD i f).recs).getD j r)) 0 f.recs }) 0 w.sp.frames
    let parent := if w.sp.id = top.n then w.sp else q
    let sp := { w.sp with id := parent.id, recs := recs, frames := frames, since := min w.sp.since q.since }
    let w := { w.mapLanes (fun i l => if has (mine ||| theirs) i then { l with split := parent.id } else l) with
      sp := sp, sibs := w.sibs.filter (fun p => p.id != q.id) }
    match recs with
    | [] => w
    | r :: _ => ((w.layoutArms mine r la lb).layoutArms theirs r qa qb).closeRegion r (parent.pc + 8)

/-- The split that holds the other copy of an IFS record and has arrived, with the lists it named (R81). -/
def Watch.twin (w : Watch) (rid : Nat) : Option (Split × List Nat × List Nat) :=
  w.sibs.findSome? (fun q =>
    match q.recs, q.wait with
    | r :: _, .rejoin a b => if r.rid = rid then some (q, a, b) else none
    | _, _ => none)

/-- REJOIN (R76, R81). -/
def execRejoin (entry : BitVec 16) (s : State) : Out :=
  s.enter none 0 fun s =>
    match s.ctx.sp.recs with
    | [] => .next (s.layoutTrap 1)
    | r :: _ =>
      if r.kind = .loop then .next (s.layoutTrap 1)
      else
        (s.rejoinEntry entry).andThen fun e =>
          let w := s.ctx
          if e.l0.length ≠ e.l1.length then .next (s.layoutTrap 2)
          else s.layoutReads [(r.arm0, e.l0), (r.arm1, e.l1)] <|
          if r.kind = .ifr then
            .next (({ s with ctx := (w.layoutArms (r.arm0 ||| r.arm1) r e.l0 e.l1).closeRegion r (w.sp.pc + 8) }).settle)
          else
            match w.twin r.rid with
            | some (q, a, b) => .next (({ s with ctx := w.mergeTwins q e.l0 e.l1 a b }).settle)
            | none => .next ((s.hold (.rejoin e.l0 e.l1)).pollGang w.ref)

/-! ### Loops -/

/-- LOOP (R83); an empty split goes to the ENDLOOP (R82). -/
def execLoop (n : BitVec 7) (disp : BitVec 24) (x : BitVec 16) (s : State) : Out :=
  s.enter none 0 fun s =>
    let w := s.ctx
    let r : Region :=
      { rid := s.fresh, kind := .loop, phase := false, resume := s.target disp, rejoin := 0, arm0 := 0, arm1 := 0,
        marks := w.heads.map (· - BitVec.ofNat 5 n.toNat), depths := List.replicate 64 n.toNat, origin := false,
        scalar := w.sp.swake, n := n.toNat, x := x.toNat % 256 }
    let w' := { w with sp := { w.sp with recs := r :: w.sp.recs } }
    s.spillOr (({ s.tick with ctx := w' }.setPc (w.sp.pc + 8)).mapCtx Watch.redirect) 0

/-- The watch after an ENDLOOP whose entry has been accepted (R84). -/
def Watch.endIteration (w : Watch) (r : Region) (k : BitVec 3) (e : RejoinEntry) (back : DWord) : Watch :=
  let c := w.gov k
  let x := w.k0 &&& ~~~c
  let w := ((w.layout c r e.l0).layout x r e.l1).addNest x 1
  let w := w.subNest r.arm1
  let broken := r.arm0 ||| x
  let rs := w.sp.recs.drop 1
  if c ||| r.arm1 ≠ 0 then
    let top := (w.sp.recs.head?.getD r)
    { w with sp := { w.sp with recs := { top with arm0 := broken, arm1 := 0 } :: rs, pc := back, wait := .none } }
  else
    let w := w.subNest broken
    { w with sp := { w.sp with recs := rs, pc := r.resume, wait := .none } }

/-- ENDLOOP (R84). -/
def execEndloop (k : BitVec 3) (disp : BitVec 24) (entry : BitVec 16) (s : State) : Out :=
  s.enter none 0 fun s =>
    match s.ctx.sp.recs with
    | [] => .next (s.layoutTrap 3)
    | r :: _ =>
      if r.kind ≠ .loop then .next (s.layoutTrap 3)
      else
        (s.rejoinEntry entry).andThen fun e =>
          let w := s.ctx
          if e.l0.length ≠ r.n then .next (s.layoutTrap 4)
          else if e.l1.length ≠ r.x then .next (s.layoutTrap 5)
          else s.layoutReads [(w.gov k, e.l0), (w.k0 &&& ~~~(w.gov k), e.l1)] <|
          .next (({ s with ctx := w.endIteration r k e (s.target disp) }).settle)

/-- The innermost LOOP record with the records above it (R85). -/
def splitAtLoop : List Region → Option (List Region × Region × List Region)
  | [] => none
  | r :: rs =>
    if r.kind = .loop then some ([], r, rs)
    else
      match splitAtLoop rs with
      | some (a, l, b) => some (r :: a, l, b)
      | none => none

/-- BRK and CONT: the departing lanes leave the innermost loop, or its iteration (R85). -/
def State.depart (s : State) (k : BitVec 3) (entry : BitVec 16) (brk : Bool) : Out :=
  match splitAtLoop s.ctx.sp.recs with
  | none => .next (s.layoutTrap 6)
  | some (above, r, _) =>
    (s.rejoinEntry entry).andThen fun e =>
      let w := s.ctx
      let d := w.gov k
      let ages := if brk then e.l1 else e.l0
      if ages.length ≠ (if brk then r.x else r.n) then .next (s.layoutTrap (if brk then 5 else 4))
      else s.layoutReads [(d, ages)] <|
        let w := (w.layout d r ages).addNest d 1
        let recs := mapFrom (fun i (q : Region) =>
          if i < above.length then { q with arm0 := q.arm0 &&& ~~~d, arm1 := q.arm1 &&& ~~~d }
          else if i = above.length then (if brk then { q with arm0 := q.arm0 ||| d } else { q with arm1 := q.arm1 ||| d })
          else q) 0 w.sp.recs
        .next ((({ s with ctx := { w with sp := { w.sp with recs := recs } } }).advance 8).settle)

/-- BRK (R85). -/
def execBrk (k : BitVec 3) (entry : BitVec 16) (s : State) : Out := s.enter none 0 fun s => s.depart k entry true
/-- CONT (R85). -/
def execCont (k : BitVec 3) (entry : BitVec 16) (s : State) : Out := s.enter none 0 fun s => s.depart k entry false

/-! ### EXIT -/

/-- Take lanes out of a record's masks. -/
def Region.without (d : Mask) (r : Region) : Region := { r with arm0 := r.arm0 &&& ~~~d, arm1 := r.arm1 &&& ~~~d }

/-- End the lanes of a mask (R86). -/
def Watch.exitLanes (w : Watch) (d : Mask) : Watch :=
  { w.mapLanes (fun i l => if has d i then { l with exited := true, resv := none } else l) with
    sp := { w.sp with recs := w.sp.recs.map (Region.without d),
                      frames := w.sp.frames.map (fun f => { f with recs := f.recs.map (Region.without d) }) } }

/-- EXIT (R86). -/
def execExit (k : BitVec 3) (s : State) : Out :=
  s.enter none 0 fun s => .next (((s.mapCtx (fun w => w.exitLanes (w.gov k))).advance 8).settle)

/-! ### Calls -/

/-- The frame a call leaves, and the callee's fresh state; `fid` numbers the callee's caddy frame (R87). -/
def Watch.call (w : Watch) (fid pool : Nat) (blks : List Nat) (n m b : Nat) (target : DWord) : Watch :=
  let f : Frame :=
    { kind := .call, retPc := w.sp.pc + 8, retNext := w.sp.pc + 8, swake := w.sp.swake, caddy := w.sp.caddy, recs := w.sp.recs,
      ks := [], bank := none, desc := none }
  let live := w.k0
  let w := w.mapLanes (fun i l =>
    if l.split = w.sp.id then { l with saved := l.wake :: l.saved, wake := if l.exited then l.wake else l.wake.keep (if has live i then n else 0) } else l)
  { w with
    caddies := { id := fid, pool := pool, blks := blks, slots := zeroBlocks b } :: w.caddies,
    sp := { w.sp with pc := target, swake := w.sp.swake.keep m, recs := [], frames := f :: w.sp.frames, caddy := fid,
                      depth := w.sp.depth + 1, wait := .none } }

/-- Whether the top n vector entries of the active lanes, or the top m of the scalar wake, hold a value in flight: what a call
hands over and a return brings back (R60, R150). -/
def Watch.topPends (w : Watch) (n m : Nat) : Bool :=
  (w.k0 &&& maskWhere (fun l => l.wake.someAt Entry.isPend 0 n) w.lanes != 0) ||
  (List.range m).any (fun a => (w.sp.swake.get a).isPend)

/-- Whether one of them is an entry whose parity fails (R383, R384). -/
def Watch.topBad (w : Watch) (n m : Nat) : Bool :=
  (w.k0 &&& maskWhere (fun l => l.wake.someAt Entry.isBad 0 n) w.lanes != 0) ||
  (List.range m).any (fun a => (w.sp.swake.get a).isBad)

/-- What a call hands over and a return brings back is read: an entry whose parity fails ends the gang, and one in flight holds the
split (R60, R150, R384). -/
def State.topReads (s : State) (n m : Nat) (k : Out) : Out :=
  if s.ctx.topBad n m then .next s.parityKill else if s.ctx.topPends n m then .next (s.hold .operand) else k

/-- Whether a request for b blocks is granted at once: the blocks are free and no earlier request of the queue waits (R118). -/
def State.grantNow (s : State) (core pool b : Nat) : Bool :=
  decide (b ≤ s.poolFree core pool) && !(s.caddyQ.any (fun r => r.core == core && r.pool == pool))

/-- Join the queue of a pool and wait (R118). -/
def State.joinCaddyQ (s : State) (b : Nat) (use : CaddyUse) : State :=
  let w := s.ctx
  let r : CaddyReq := { core := w.core, pool := w.pool, watch := w.ref, split := w.sp.id, blocks := b, use := use }
  State.hold { s with caddyQ := s.caddyQ ++ [r] } (.caddy b)

/-- CALL and CALLI from the check of the blocks on (R87); the arguments are read as final values (R60, R150). -/
def State.callTo (s : State) (target : DWord) (n m b : Nat) : Out :=
  let w := s.ctx
  if s.poolSize w.core w.pool < w.blocksHeld w.pool + b then .next (s.takeTrap causeCaddy w.k0 4)
  else
    let w' := w.call s.fresh w.pool ((s.freeBlocks w.core w.pool).take b) n m b target
    if ¬ w'.spillFits then .next (s.takeTrap causeSpillfull w.k0 1)
    else s.topReads n m <|
    if b = 0 ∨ s.grantNow w.core w.pool b then .next ({ s.tick with ctx := w' } : State)
    else .next (s.joinCaddyQ b (.call n m target))

/-- CALL (R87). -/
def execCall (n : BitVec 7) (disp : BitVec 24) (m b : BitVec 8) (s : State) : Out :=
  s.enter none 0 fun s =>
    if s.ctx.sp.depth = 255 then .next (s.takeTrapFree causeCalldepth s.ctx.k0)
    else s.callTo (s.target disp) n.toNat m.toNat b.toNat

/-- CALLI (R87). -/
def execCalli (n : BitVec 7) (age : BitVec 4) (m b : BitVec 8) (s : State) : Out :=
  s.enter none 0 fun s =>
    if s.ctx.sp.depth = 255 then .next (s.takeTrapFree causeCalldepth s.ctx.k0)
    else
      match s.ctx.sp.swake.get age.toNat with
      | .void => .next (s.takeTrapFree causeVoidread s.ctx.k0)
      | .bad => .next s.parityKill
      | .pend _ _ => .next (s.hold .operand)
      | .val t =>
        if t.toNat % 8 ≠ 0 then .next (s.takeTrapFree causeAlign s.ctx.k0) else s.callTo t n.toNat m.toNat b.toNat

/-- Leave the top frame with n vector and m scalar results, void ones as void (R88, R338). -/
def Watch.returnWith (w : Watch) (f : Frame) (below : List Frame) (n m : Nat) : Watch :=
  let live := w.k0
  let vs := fun (i l : Nat) => (w.lane l).wake.get (n - 1 - i)
  let ss := (List.range m).map (fun i => w.sp.swake.get (m - 1 - i))
  let w' := w.leave 0 f below f.retNext
  let w' := w'.pushEach live ((List.range n).map vs)
  let w' := ss.foldl Watch.spush w'
  { w' with sp := { w'.sp with depth := w'.sp.depth - 1 } }

/-- RET (R88). -/
def execRet (n : BitVec 7) (m : BitVec 8) (s : State) : Out :=
  s.enter none 0 fun s =>
    match s.ctx.sp.frames with
    | [] => .next (s.layoutTrap 8)
    | f :: below =>
      if f.kind ≠ .call then .next (s.layoutTrap 8)
      else if ¬ s.ctx.sp.recs.isEmpty then .next (s.layoutTrap 7)
      else s.topReads n.toNat m.toNat <|
      .next ((s.mapCtx (fun w => w.returnWith f below n.toNat m.toNat)).settle)

/-- A word of no assigned major; a literal word has [63:48] = 0xFFFF (R51, R54). Log 102 (DEDUCED). -/
def execIllegalMajor (word : DWord) (s : State) : Out :=
  s.enter none 0 fun s => .next (s.takeTrap causeIllop s.ctx.k0 (if word.extractLsb' 48 16 = 0xFFFF then 2 else 0))

/-- The fetch of the word or rejoin entry at an address fails (R396). -/
def execInstructionFetchFault (addr : DWord) (kind : FetchFault) (s : State) : Out :=
  s.enter none 0 fun s => .next (s.fetchFault addr kind)

end Sys2Proof.Machine
end

