-- ==== Sys2Proof/Machine/Flags.lean ====
section
/-!
DEFINITION. Flag computations: the sticky saturation flag SATF and the numeric events that go with it (R95, R151, R166),
conditions of the compares (R98, R131), and the write of a mask register by a compare (R110).
-/
namespace Sys2Proof.Machine

/-- Whether an integer condition holds for two n-bit values (R98). -/
def condHolds (c : Cond) (n a b : Nat) : Bool :=
  match c with
  | .eq => a == b
  | .ne => a != b
  | .lt => decide (signed n a < signed n b)
  | .le => decide (signed n a ≤ signed n b)
  | .gt => decide (signed n b < signed n a)
  | .ge => decide (signed n b ≤ signed n a)
  | .ltu => decide (a < b)
  | .leu => decide (a ≤ b)
  | .gtu => decide (b < a)
  | .geu => decide (b ≤ a)

/-- Whether a float condition holds (R131). -/
def fcondHolds (c : FCond) (a b : FVal) : Bool :=
  match c with
  | .eq => a.eqv b
  | .ne => !(a.eqv b)
  | .lt => a.lt b
  | .le => a.lt b || a.eqv b
  | .gt => b.lt a
  | .ge => b.lt a || a.eqv b
  | .un => a.isNan || b.isNan
  | .ord => !(a.isNan || b.isNan)

/-- Write mask register d in the lanes of m only: the other bits keep their values (R110, R136). -/
def Watch.compare (w : Watch) (d : Nat) (m : Mask) (p : Nat → Bool) : Watch :=
  w.setK d ((w.kreg d &&& ~~~m) ||| (m &&& maskOf p))

/-- The lanes of a mask for which a predicate holds. -/
def lanesWith (m : Mask) (p : Nat → Bool) : Mask := m &&& maskOf p

/-- Count numeric events of the watch in focus under its NTID (R151, R152): 0 saturation, 1 flush, 2 NaN produced. -/
def State.numeric (s : State) (kind n : Nat) : State :=
  s.countNumeric s.ctx.ref s.ctx.ntid.toNat kind n

/-- How many lanes a mask holds. -/
def laneCount (m : Mask) : Nat := popCount 64 m.toNat

/-- Set SATF in the lanes of a mask and count one saturation for each (R95, R151). -/
def State.saturate (s : State) (m : Mask) : State := (s.mapCtx (·.setSatf m)).numeric 0 (laneCount m)

/-- SATF as SRD reads it and R166 gives it: the flags of the watch's lanes. -/
def Watch.satfMask (w : Watch) : Mask := maskWhere (·.satf) w.lanes

end Sys2Proof.Machine
end

