-- ==== Sys2Proof/Machine/System.lean ====
section
/-!
DEFINITION. The system class (R324 to R351): software traps and returns, special registers, counters, features, gates, yields,
SLEEP and NOP; and the caddy pool's CGROW and CSHRINK with the grant of a request (R118 to R121).
-/
namespace Sys2Proof.Machine

/-- TRAP (R324). -/
def execTrap (k : BitVec 3) (code : BitVec 16) (s : State) : Out :=
  s.enter none 0 fun s =>
    if s.ctx.gov k = 0 then .next (s.advance 8)
    else .next (s.takeTrap causeSwtrap (s.ctx.gov k) (code.zeroExtend 64))

/-- TRET and TRET.NEXT (R325). -/
def State.returnFromTrap (s : State) (next : Bool) : Out :=
  match s.ctx.sp.frames with
  | [] => .next (s.takeTrap causeIllop s.ctx.k0 3)
  | f :: below =>
    if f.kind ≠ .handler then .next (s.takeTrap causeIllop s.ctx.k0 3)
    else if ¬ s.ctx.sp.recs.isEmpty then .next (s.layoutTrap 7)
    else .next ((s.mapCtx (fun w => w.exitHandler f below (if next then f.retNext else f.retPc))).settle)

/-- TRET (R325). -/
def execTret (s : State) : Out := s.enter none 0 fun s => s.returnFromTrap false
/-- TRET.NEXT (R325). -/
def execTretNext (s : State) : Out := s.enter none 0 fun s => s.returnFromTrap true

/-! ### Special registers -/

/-- Outstanding engine commands of a watch (R62). -/
def State.engineCount (s : State) (r : WatchRef) : Nat :=
  (s.cmds.filter (fun c => decide (c.watch = r))).length + (s.mats.filter (fun c => decide (c.watch = r))).length

/-- Whether the executing domain owns event counter n of its core (R327). -/
def State.ownsCounter (s : State) (n : Nat) : Bool := s.regField (.ctrown s.ctx.core) (5 * n) 5 == s.ctx.dom

/-- The value of a special register (R326). -/
def State.special (s : State) (r : Nat) : Nat :=
  let w := s.ctx
  match r with
  | 0x000 => w.ewidth * 2 ^ 8 + Config.lanes
  | 0x001 => 0x0100
  | 0x002 => w.sp.id * 2 ^ 8 + w.splits.length
  | 0x003 => w.sp.depth.toNat
  | 0x004 => w.caddy.blocks
  | 0x008 => w.satfMask.toNat % 2 ^ w.ewidth
  | 0x009 => w.bovf.toNat
  | 0x00A => w.ntid.toNat
  | 0x00B => s.regField (.dpol w.dom) 1 1 * 2 + s.regField (.dstat w.dom) 0 1
  | 0x00C => s.regField (.dstat w.dom) 32 32
  | 0x00D => s.regField (.debt w.core w.dom) 0 32
  | 0x010 => w.slot * 2 ^ 10 + placeBits w.core
  | 0x011 => w.ref.gang
  | 0x012 => w.ref.watch * 4 + w.ref.block
  | 0x013 => w.dom
  | 0x014 => w.cls
  | 0x015 => s.engineCount w.ref * 2 ^ 8 + w.loadCount
  | r =>
    if 0x20 ≤ r ∧ r < 0x40 then
      (if r % 2 = 0 then (w.segs.getD ((r - 0x20) / 2) 0).toNat % 2 ^ 64 else (w.segs.getD ((r - 0x20) / 2) 0).toNat / 2 ^ 64)
    else if 0x60 ≤ r ∧ r < 0x68 ∧ s.ownsCounter (r - 0x60) then (s.reg (.ctrcfg w.core (r - 0x60))).toNat
    else 0

/-- SRD (R326); a read of SATF waits until every earlier instruction of the watch has completed (R166). -/
def execSrd (reg : BitVec 12) (s : State) : Out :=
  s.enter none 0 fun s =>
    if reg = 8 ∧ (¬ s.ctx.flights.isEmpty ∨ s.ctx.sibs.any (fun p => p.record.done != 0)) then .next (s.hold .operand)
    else .next ((s.mapCtx (·.pushUni (BitVec.ofNat 64 (s.special reg.toNat)))).advance 8)

/-- A write of CTRCFG n by its owner (R327). -/
def State.writeCtrcfg (s : State) (core n : Nat) (v : DWord) : State :=
  let r := Reg.ctrcfg core n
  let s := if v.getLsbD 16 then s.setReg (.ctrcount core n) 0 else s
  let s := if v.getLsbD 14 then s.setRegField r 14 1 0 else s
  ((s.setRegField r 15 1 (field v 15 1)).setRegField r 13 1 (field v 13 1)).setRegField r 0 8 (field v 0 8)

/-- SWR (R326). -/
def execSwr (reg : BitVec 12) (a : Opnd) (s : State) : Out :=
  s.enter none 0 fun s =>
    orElse (s.uniFront [⟨0, a, 1⟩]) <|
      let v := s.ctx.uni a
      let s' :=
        if reg = 9 then s.mapCtx (fun w => { w with bovf := w.bovf && !v.getLsbD 0 })
        else if reg = 0x0A then s.mapCtx (fun w => { w with ntid := v.extractLsb' 0 12 })
        else if s.ownsCounter (reg.toNat - 0x60) then s.writeCtrcfg s.ctx.core (reg.toNat - 0x60) v
        else s
      .next (s'.advance 8)

/-- CTRRD (R328). -/
def execCtrrd (n : BitVec 4) (s : State) : Out :=
  s.enter (some 10) 0x07 fun s =>
    let v :=
      if n = 15 then s.time % 2 ^ 48
      else if s.ownsCounter n.toNat then s.regField (.ctrcount s.ctx.core n.toNat) 0 48 else 0
    .next ((s.mapCtx (·.pushUni (BitVec.ofNat 64 v))).advance 8)

/-- FEATQ (R335). -/
def execFeatq (implemented : Bool) (s : State) : Out :=
  s.enter none 0 fun s =>
    .next ((s.mapCtx (fun w => w.pushUni (if implemented then 0x1FFF else w.feat &&& 0x1FFF))).advance 8)

/-! ### SLEEP, NOP and the yields -/

/-- NOP (R351). -/
def execNop (s : State) : Out := s.enter none 0 fun s => .next (s.advance 8)

/-- SLEEP (R351). Log 37 (DEDUCED). -/
def execSleep (a : Opnd) (s : State) : Out :=
  s.enter none 0 fun s =>
    orElse (s.uniFront [⟨0, a, 1⟩]) <|
      let n := min (s.ctx.uni a).toNat (2 ^ 20)
      .next (if n = 0 then s.advance 8 else (s.advance 8).hold (.sleep (s.time + n)))

/-- SLEEP_END: the split's count has expired (R351). -/
def execSleepEnd (w : WatchRef) (split : Nat) (s : State) : Out :=
  .next (s.modSplit w split (fun p =>
    match p.wait with
    | .sleep t => if t ≤ s.time then { p with wait := .none, since := s.time } else p
    | _ => p))

/-- YIELDB (R343, R345). -/
def execYieldb (s : State) : Out :=
  s.enter none 0 fun s =>
    let w := s.ctx
    if w.cls = 2 then .next (s.advance 8)
    else
      match s.gangOf w.ref.launch w.ref.gang with
      | none => .next (s.advance 8)
      | some g =>
        if s.requested g w.home then .next (((s.advance 8).hold .yieldb).pollGang w.ref) else .next (s.advance 8)

/-- YIELD (R344, R345). -/
def execYield (s : State) : Out :=
  s.enter none 0 fun s =>
    if s.ctx.cls = 2 then .next (s.advance 8)
    else .next ((s.mapCtx (fun w => { w with sp := { w.sp with since := s.time, held := 0, defer := false } })).advance 8)

/-! ### Caddy blocks -/

/-- Enlarge the issuing split's current frame by n blocks of zeros, the blocks `blks` of its core (R118). -/
def Watch.growCaddy (w : Watch) (blks : List Nat) (n : Nat) : Watch :=
  { w with caddies := w.caddies.map (fun f =>
      if f.id = w.sp.caddy then { f with blks := f.blks ++ blks, slots := f.slots ++ zeroBlocks n } else f) }

/-- CGROW.WAIT (R119). -/
def execCgrowWait (a : Opnd) (s : State) : Out :=
  s.enter none 0 fun s =>
    orElse (s.uniFront [⟨0, a, 1⟩]) <|
      let w := s.ctx
      let n := (w.uni a).toNat
      if 8 - w.caddy.blocks < n then .next (s.takeTrap causeCaddy w.k0 3)
      else if s.poolSize w.core w.pool < w.blocksHeld w.pool + n then .next (s.takeTrap causeCaddy w.k0 4)
      else if n = 0 then .next (s.advance 8)
      else if s.grantNow w.core w.pool n then
        .next ((s.mapCtx (·.growCaddy ((s.freeBlocks w.core w.pool).take n) n)).advance 8)
      else .next (s.joinCaddyQ n .grow)

/-- CGROW.TRY (R119). -/
def execCgrowTry (a : Opnd) (s : State) : Out :=
  s.enter none 0 fun s =>
    orElse (s.uniFront [⟨0, a, 1⟩]) <|
      let w := s.ctx
      let n := (w.uni a).toNat
      let yes := decide (n ≤ 8 - w.caddy.blocks) && decide (w.blocksHeld w.pool + n ≤ s.poolSize w.core w.pool) &&
        (n == 0 || s.grantNow w.core w.pool n)
      .next ((s.mapCtx (fun w => ((if yes then w.growCaddy ((s.freeBlocks w.core w.pool).take n) n else w).pushUni (if yes then 1 else 0)))).advance 8)

/-- A frame without its last blocks: their slots and their parity errors go with them (R120). -/
def CaddyFrame.shrink (f : CaddyFrame) (n : Nat) : CaddyFrame :=
  let k := f.blocks - n
  { f with blks := f.blks.take k, slots := f.slots.take (8 * k), bad := f.bad.filter (fun b => decide (b.1 < 8 * k)) }

/-- CSHRINK (R120). -/
def execCshrink (a : Opnd) (s : State) : Out :=
  s.enter none 0 fun s =>
    orElse (s.uniFront [⟨0, a, 1⟩]) <|
      let w := s.ctx
      let n := (w.uni a).toNat
      if w.caddy.blocks < n then .next (s.takeTrap causeCaddy w.k0 5)
      else
        .next ((s.mapCtx (fun w => { w with caddies := w.caddies.map (fun f =>
          if f.id = w.sp.caddy then f.shrink n else f) })).advance 8)

/-- Whether a request still waits: its split is on the core, not halted, and waits for the blocks (R118, R119).
Log 97 (DESIGN CHOICE). -/
def State.reqLive (s : State) (r : CaddyReq) : Bool :=
  s.watches.any (fun w => decide (w.ref = r.watch) && w.core == r.core && !s.halted w &&
    w.splits.any (fun p => p.id == r.split && decide (p.wait = .caddy r.blocks)))

/-- Withdraw the requests of splits that are halted, or that wait no longer: the instruction runs again from its first check
(R87, R118, R119). Log 97 (DESIGN CHOICE). -/
def State.withdrawReqs (s : State) : State :=
  let s := s.mapWatches (fun w => if s.halted w then w.mapSplits (fun p => match p.wait with
    | .caddy _ => { p with wait := .none }
    | _ => p) else w)
  { s with caddyQ := s.caddyQ.filter s.reqLive }

/-- CADDY_GRANT: the request at the head of a pool's queue receives its blocks, if they are free, and its instruction completes
(R118). A request that its instruction's checks would refuse now is withdrawn, and the instruction runs again from its first
check. Log 97 (DESIGN CHOICE). -/
def execCaddyGrant (core pool : Nat) (s : State) : Out :=
  let s := s.withdrawReqs
  match s.caddyQ.find? (fun r => r.core == core && r.pool == pool) with
  | none => .next s
  | some r =>
    if s.poolFree core pool < r.blocks then .next s
    else
      let s := { s with caddyQ := s.caddyQ.erase r }
      let s := s.focus r.watch r.split
      let blks := (s.freeBlocks core pool).take r.blocks
      if ¬ (s.ctx.resident ∧ s.ctx.ref = r.watch ∧ s.ctx.sp.id = r.split) then .next s
      else
        let again := s.hold .none
        match r.use with
        | .grow =>
          if 8 - s.ctx.caddy.blocks < r.blocks then .next again
          else .next ((s.mapCtx (·.growCaddy blks r.blocks)).advance 8)
        | .call n m target =>
          let w' := s.ctx.call s.fresh pool blks n m r.blocks target
          if ¬ w'.spillFits then .next again else .next ({ s.tick with ctx := w' } : State)

/-! ### Gates -/

/-- The descriptor in 64 bytes (R336). Log 31 (DEDUCED). -/
def parseGate (i : Nat) (bs : List Byte) : GateDesc :=
  let f := fieldOf bs
  { index := i, save := BitVec.ofNat 64 (f 40 8), segs := BitVec.ofNat 64 (f 32 8), code := BitVec.ofNat 64 (f 24 8),
    traph := BitVec.ofNat 64 (f 16 8), allow := BitVec.ofNat 32 (f 12 4), valid := f 11 1 / 128 % 2 == 1, tdom := f 11 1 % 32,
    nv := f 10 1, ns := f 9 1, caddy := f 8 1, rv := f 7 1, rs := f 6 1, nopre := f 5 1 % 2 == 1 }

/-- A descriptor with VALID set, reserved bits zero and counts in range (R336, R337). -/
def gateSound (d : GateDesc) (bs : List Byte) : Bool :=
  d.valid && fieldOf bs 11 1 / 32 % 4 == 0 && decide (fieldOf bs 5 1 < 2) && fieldOf bs 0 5 == 0 && fieldOf bs 48 16 == 0 &&
  decide (d.nv ≤ 32) && decide (d.ns ≤ 16) && decide (d.caddy ≤ 8) && decide (d.rv ≤ 32) && decide (d.rs ≤ 16)

/-- The GATE trap with a detail (R339). -/
def State.gateTrap (s : State) (d : Nat) : State := s.takeTrap causeGate s.ctx.k0 (BitVec.ofNat 64 d)

/-- Whether a domain may run on a core: QCTL.EN, and CLASS not 3 (R329). -/
def State.mayRun (s : State) (core dom : Nat) : Bool :=
  s.regField (.quotaCtl core dom) 2 1 == 1 && s.regField (.quotaCtl core dom) 0 2 != 3

/-- The bank that GATE sets aside (R337). -/
def Watch.bank (w : Watch) : GateBank :=
  { bears := w.bears, shapes := w.shapes, segs := w.segs, satf := w.lanes.map (·.satf), bovf := w.bovf, ntid := w.ntid,
    dom := w.dom, feat := w.feat }

/-- The watch inside the gate (R337): a fresh frame and a fresh bank in the target domain. -/
def Watch.enterGate (w : Watch) (fid : Nat) (blks : List Nat) (d : GateDesc) (segs : List Seg) (feat : DWord) : Watch :=
  let pc := w.sp.pc
  let v := (w.call fid d.tdom blks d.nv d.ns d.caddy (d.code &&& ~~~7#64)).stop
  let frames := match v.sp.frames with
    | f :: fs => { f with kind := .gate, retPc := pc, ks := w.ks, bank := some w.bank, desc := some d } :: fs
    | [] => []
  { v.mapLanes (fun _ l => { l with satf := false }) with
    sp := { v.sp with frames := frames }, ks := List.replicate 7 0, bears := List.replicate 8 Bearing.zero,
    shapes := List.replicate 16 0, segs := segs, bovf := false, ntid := 0, dom := d.tdom, feat := feat }

/-- A segment binding without its reserved bits, which read as zero (R202). -/
def bindSeg (n : Nat) : Seg := BitVec.ofNat 128 (bitsAt n 0 55 + bitsAt n 64 58 * 2 ^ 64)

/-- Read the segment bindings of a gate in its target domain (R337); a fault is met as one of the target's own accesses. -/
def State.gateSegs (s : State) (d : GateDesc) : Got (List Seg) :=
  match s.vbad s.ctx.core d.tdom d.segs.toNat 256 with
  | some (_, true) => .stop (s.consumePoison s.ctx.home s.ctx.core s.ctx.ref 1 0)
  | some (k, false) => .stop (s.unmappedPage s.ctx.ref k)
  | none =>
  match s.vread s.ctx.core d.tdom d.segs.toNat 256 with
  | .ok bs => .ok ((chunks 16 16 bs).map (fun b => bindSeg (leNat b)))
  | .hold p => .stop (if s.ctx.sp.wait = .declined d.tdom p then s.takeTrap causePagefault s.ctx.k0 d.segs else s.holdPage d.tdom p false)
  | .refused perm => .stop (s.takeTrap (if perm then causeProtect else causePagefault) s.ctx.k0 d.segs)

/-- GATE (R337); it reads its arguments, the bearings and SATF as final values (R60, R166).
Log 28 (DEDUCED), 31 (DEDUCED). -/
def execGate (index : BitVec 16) (s : State) : Out :=
  s.enter (some 11) 0x05 fun s =>
    let w := s.ctx
    if w.cls = 2 then .next (s.takeTrap causeLeeway w.k0 5)
    else if s.regField .gtcount 0 16 ≤ index.toNat then .next (s.gateTrap 1)
    else
      let k := devKey 0 (s.regField .gtbase 6 46 * 64 + 64 * index.toNat)
      if ¬ s.mediaOk k then .next (s.unmappedPage w.ref k)
      else if s.poisoned k 64 then .next (s.consumePoison w.home w.core w.ref 1 0)
      else
        let bs := s.bytes k 64
        let d := parseGate index.toNat bs
        if ¬ gateSound d bs then .next (s.gateTrap 3)
        else if ¬ d.allow.getLsbD w.dom then .next (s.gateTrap 2)
        else if ¬ s.mayRun w.core d.tdom ∨ s.poolFree w.core d.tdom < d.caddy then .next (s.gateTrap 4)
        else if w.sp.depth = 255 then .next (s.takeTrapFree causeCalldepth w.k0)
        else
          (s.gateSegs d).andThen fun segs =>
            s.topReads d.nv d.ns <|
            if w.flights.any Flight.inUnit then .next (s.hold .operand)
            else
              let blks := (s.freeBlocks w.core d.tdom).take d.caddy
              s.spillOr { s.tick with ctx := w.enterGate s.fresh blks d segs (s.reg (.featmask d.tdom)) } 1

/-- GRET (R338). -/
def execGret (n : BitVec 7) (m : BitVec 8) (s : State) : Out :=
  s.enter none 0 fun s =>
    match s.ctx.sp.frames with
    | [] => .next (s.takeTrap causeIllop s.ctx.k0 3)
    | f :: below =>
      if f.kind ≠ .gate then .next (s.takeTrap causeIllop s.ctx.k0 3)
      else if ¬ s.ctx.sp.recs.isEmpty then .next (s.layoutTrap 7)
      else
        match f.desc, f.bank with
        | some d, some b =>
          if d.rv < n.toNat ∨ d.rs < m.toNat then .next (s.gateTrap 5)
          else s.topReads n.toNat m.toNat <|
            .next ((s.mapCtx (fun w => ((w.returnWith f below n.toNat m.toNat).restoreBank f.ks b).unstop)).settle)
        | _, _ => .next (s.gateTrap 5)

end Sys2Proof.Machine
end

