-- ==== Sys2Proof/Machine/Issue.lean ====
section
/-!
DEFINITION. Issue (R59, R65, R66): which splits are eligible, what an issue port grants, the fairness switch, and what an issue
does around its instruction: the event counters (R327), and the masks of two issues in one cycle (R115).
-/
namespace Sys2Proof.Machine

/-- The issue port of a major (R59, R114, R214, R244): 0 vector, 1 scalar and control, 2 engine (log entry 12).
Log 12 (DEDUCED). -/
def portOf (maj : Nat) : Nat :=
  if maj = 0x84 ∨ maj = 0x85 then 1
  else if (0x30 ≤ maj ∧ maj ≤ 0x3B) ∨ (0x50 ≤ maj ∧ maj ≤ 0x5C) ∨ (0x68 ≤ maj ∧ maj ≤ 0x95) then 0
  else if 0xA0 ≤ maj ∧ maj ≤ 0xB8 then 2
  else 1

/-- Whether a split waits for nothing (R65). -/
def Split.free (p : Split) : Bool :=
  match p.wait with
  | .none => true
  | .declined _ _ => true
  | _ => false

/-- Whether a split may issue as far as the others are concerned: no handler or gate stops it, and its watch does not halt; but one part
of the way through a BST goes on to its end, which is the next instruction boundary (R19, R21, R320). Its caddy frame must have been
filled again if it had spilled (R91). -/
def State.runs (s : State) (w : Watch) (p : Split) : Bool := p.midStore || (p.stops == 0 && !s.halted w && (w.frameOf p.caddy).filled)

/-- Waits that stand for a condition: the instruction has not issued, and issues once the condition holds (R60 to R62). -/
def Wait.retries (x : Wait) : Bool :=
  match x with
  | .operand | .waitb _ _ | .waitc _ _ | .fencex _ | .record => true
  | _ => false

/-- The port that a split's next instruction needs; a word that cannot be fetched is met on the control port. -/
def State.portAt (s : State) (w : Watch) (p : Split) : Nat :=
  match ({ s with ctx := { w with sp := p } } : State).word8 p.pc with
  | .ok v => portOf (majOf v).toNat
  | _ => 1

/-- The eligible splits of a core for a port (R65). -/
def State.eligible (s : State) (core port : Nat) : List (Watch × Split) :=
  ((s.watches.filter (fun w => w.core == core)).map (fun w =>
    (w.splits.filter (fun p => p.free && s.runs w p && s.portAt w p == port)).map (fun p => (w, p)))).flatten

/-- Critical before normal before leeway, then the split that has been ready longest (R65). Log 33 (DEDUCED). -/
def goesFirst (a b : Watch × Split) : Bool :=
  decide (a.1.cls < b.1.cls) || (a.1.cls == b.1.cls && decide (a.2.since < b.2.since))

def firstOf (before : α → α → Bool) : List α → Option α
  | [] => none
  | a :: as =>
    match firstOf before as with
    | none => some a
    | some b => if before b a then some b else some a

/-- What a port of a core grants: a turn that a fairness switch has given, or the first in order (R65, R66). -/
def State.grant (s : State) (core port : Nat) : Option (WatchRef × Nat) :=
  let es := s.eligible core port
  match s.turns.find? (fun t => t.1 == core && t.2.1 == port &&
      es.any (fun e => decide (e.1.ref = t.2.2.1) && e.2.id == t.2.2.2)) with
  | some t => some t.2.2
  | none => (firstOf goesFirst es).map (fun e => (e.1.ref, e.2.id))

/-- Whether a lane of a split holds a load reservation (R66). -/
def Watch.holdsResv (w : Watch) (id : Nat) : Bool := w.lanes.any (fun l => l.split == id && l.resv.isSome)

/-- The critical and normal splits, other than the one named, that are eligible for a port (R66). -/
def State.rivals (s : State) (core port : Nat) (r : WatchRef) (id : Nat) : List (Watch × Split) :=
  (s.eligible core port).filter (fun e => e.1.cls != 2 && !(decide (e.1.ref = r) && e.2.id == id))

/-- The fairness switch (R66): the holder's run ends and the longest-waiting critical or normal split has the port next. -/
def State.switchPort (s : State) (w : Watch) (p : Split) : State :=
  let others := s.rivals w.core p.port w.ref p.id
  let s := s.countEvent w.core w.dom 9 1
  let s := s.modSplit w.ref p.id (fun p => { p with held := 0, defer := false })
  match firstOf (fun a b => decide (a.2.since < b.2.since)) others with
  | some e => { s with turns := (w.core, p.port, e.1.ref, e.2.id) :: s.turns }
  | none => s

/-- A split of a resident watch. -/
def State.findSplit (s : State) (r : WatchRef) (id : Nat) : Option (Watch × Split) :=
  (s.watches.find? (fun w => decide (w.ref = r))).bind (fun w => (w.splits.find? (fun p => p.id == id)).map (fun p => (w, p)))

/-- FAIRNESS_SWITCH (R66): after 512 cycles against waiting splits, unless a reservation defers it. -/
def execFairnessSwitch (w : WatchRef) (split : Nat) (s : State) : Out :=
  match s.findSplit w split with
  | some (v, p) =>
    if p.held < 512 then .next s
    else if v.holdsResv p.id ∧ p.held < 768 then .next (s.modSplit w split (fun p => { p with defer := true }))
    else .next (s.switchPort v p)
  | none => .next s

/-- RESERVATION_DEFER_END (R66): the deferred switch takes place when no lane holds a reservation, or after 256 cycles. -/
def execReservationDeferEnd (w : WatchRef) (split : Nat) (s : State) : Out :=
  match s.findSplit w split with
  | some (v, p) =>
    if p.defer ∧ (¬ v.holdsResv p.id ∨ 768 ≤ p.held) then .next (s.switchPort v p) else .next s
  | none => .next s

/-- The split whose run on a port has lasted 512 cycles against waiting ones (R66). -/
def State.longHolder (s : State) (core port : Nat) : Option (Watch × Split) :=
  (s.watches.filter (fun w => w.core == core)).findSome? (fun w =>
    (w.splits.find? (fun p => p.port == port && decide (512 ≤ p.held))).map (fun p => (w, p)))

/-- The fairness rule, applied before a port is granted, whichever split the order of classes would pick (R66). -/
def State.fairness (s : State) (core port : Nat) : State :=
  match s.longHolder core port with
  | none => s
  | some (w, p) =>
    if ¬ w.holdsResv p.id ∨ 768 ≤ p.held then s.switchPort w p
    else s.modSplit w.ref p.id (fun p => { p with defer := true })

/-- The split in focus is granted a port of its core: its run there grows by this cycle if a critical or normal split waits for the
port meanwhile, or a switch is deferred, and the run of any other split on that port is over (R66). -/
def State.countHeld (s : State) (core port : Nat) : State :=
  let r := s.ctx.ref
  let id := s.ctx.sp.id
  let waited := !(s.rivals core port r id).isEmpty
  let s := { s with turns := s.turns.filter (fun t => !(t.1 == core && t.2.1 == port)) }
  s.mapWatches (fun w =>
    if w.resident ∧ w.core = core then
      w.mapSplits (fun p =>
        if w.ref = r ∧ p.id = id then
          let run := if p.port = port then p.held else 0
          { p with port := port, held := if waited || (p.defer && p.port == port) then run + 1 else 0, defer := p.defer && decide (p.port = port) }
        else if p.port = port then { p with held := 0, defer := false } else p)
    else w)

/-- Bring into focus the split that a port grants. Log 33 (DEDUCED). -/
def State.take (s : State) (core port : Nat) : Option State :=
  let s := s.fairness core port
  (s.grant core port).map (fun g => (s.focus g.1 g.2).countHeld core port)

/-- Bring a split into focus for a port, if it can still issue there. -/
def State.takeSplit (s : State) (core port : Nat) (g : WatchRef × Nat) : Option State :=
  if (s.eligible core port).any (fun e => decide (e.1.ref = g.1) && e.2.id == g.2) then
    some ((s.focus g.1 g.2).countHeld core port)
  else none

/-- The split that issues when nothing has been chosen: on the core in focus if some split there can, else on the first core
where one can. -/
def State.takeAny (s : State) : Option State :=
  let cores := (s.watches.map (·.core)).eraseDups
  let ports := [s.portAt s.ctx s.ctx.sp, 0, 1, 2]
  cores.findSome? (fun c => ports.findSome? (fun p => s.take c p))

/-! ### Around an instruction -/

/-- Whether the split that was in focus has not issued: it stands at its instruction and waits for a condition, or for a page
(R60 to R62). Log 98 (DEDUCED). -/
def State.stalled (s : State) (r : WatchRef) (id : Nat) : Bool :=
  s.ctx.resident && decide (s.ctx.ref = r) && s.ctx.sp.id == id &&
  (s.ctx.sp.wait.retries || (match s.ctx.sp.wait with
    | .page _ _ => true
    | _ => false))

/-- Count an issue on a port, of a split of the watch `w` (R327, events 2 to 6 and 8). Log 98 (DEDUCED). -/
def State.countIssue (s : State) (w : Watch) (port : Nat) : State :=
  if s.stalled w.ref w.sp.id then s
  else
    let s := s.countEvent w.core w.dom (2 + port) 1
    let s := if w.cls = 2 then s.countEvent w.core w.dom 8 1 else s
    (s.countEvent w.core w.dom 5 (Config.l1Misses s.fresh)).countEvent w.core w.dom 6 (Config.llcMisses s.fresh)

/-- Apply to the state an outcome holds. -/
def mapOut (f : State → State) (o : Out) : Out :=
  match o with
  | .next s => .next (f s)
  | .fault x => .fault x
  | .refused x => .refused x

/-- A word with a field that its class does not accept (R55, checks 2 and 3); the detail is free (log entry 2).
Log 2 (DESIGN CHOICE). -/
def State.illField (s : State) (maj len : Nat) : Out :=
  s.enter (featGroup maj) maj fun s =>
    .next (s.takeTrapLen causeIllfield s.ctx.k0 (Config.freeDetail (causeIllfield :: s.ctx.made)) len)

/-- The mask that an instruction of the scalar and control port writes (R114). -/
def maskResult (i : Instr) : Option (BitVec 3) :=
  match i with
  | .kand d _ _ => some d
  | .kor d _ _ => some d
  | .kxor d _ _ => some d
  | .kandn d _ _ => some d
  | .knot d _ => some d
  | .kmov d _ => some d
  | .kset d _ => some d
  | _ => none

/-- Let the watch in focus read masks as they stood before the cycle (R115). -/
def State.masksBefore (s : State) (old : List Mask) : State := s.mapCtx (fun w => { w with ks := old })

/-- Masks `left`, and over them the mask `d` as it stands (R115). -/
def Watch.masksOver (w : Watch) (left : List Mask) (d : Option (BitVec 3)) : Watch :=
  match d with
  | some d => ({ w with ks := left } : Watch).setK d.toNat (w.kreg d.toNat)
  | none => { w with ks := left }

/-- The masks of a watch after a second issue of a cycle, which found `depth` frames: those that the first one's instruction left, and over
them the mask `d` that a mask instruction wrote; a trap or GATE has set them aside in its frame, and the abort of a gate has brought
back those of its caller, but RET changes none (R115). -/
def Watch.masksAfter (w : Watch) (left : List Mask) (d : Option (BitVec 3)) (depth : Nat) (ret : Bool) : Watch :=
  if w.sp.frames.length < depth then (if ret then w.masksOver left d else w)
  else
    match w.sp.frames with
    | f :: fs =>
      if depth < w.sp.frames.length ∧ f.kind ≠ .call then { w with sp := { w.sp with frames := { f with ks := left } :: fs } }
      else w.masksOver left d
    | [] => w.masksOver left d

/-- The same on the state, if the watch is still there. -/
def State.masksAfter (s : State) (r : WatchRef) (left : List Mask) (d : Option (BitVec 3)) (depth : Nat) (ret : Bool) : State :=
  if s.ctx.resident ∧ s.ctx.ref = r then s.mapCtx (·.masksAfter left d depth ret) else s

/-- Whether a row of the table is a step of the device, the host or the environment, which no word carries. -/
def isEvent (i : Instr) : Bool :=
  match i with
  | .instructionFetchFault _ _ => false
  | _ => (encode i).isEmpty

end Sys2Proof.Machine
end

