-- ==== Sys2Proof/Machine/Task.lean ====
section
/-!
DEFINITION. The instructions of the task class (R312, R313, R316, R317): inserting nodes, changing their counters, forking and
joining, arming tags, and queueing a launch.
-/
namespace Sys2Proof.Machine

/-- NODEFAULT, with a code, a refusal reason and a node index (R312). -/
def State.nodeTrap (s : State) (code reason idx : Nat) : State :=
  s.takeTrap causeNodefault s.ctx.k0 (BitVec.ofNat 64 (code + reason * 2 ^ 8 + idx % 2 ^ 24 * 2 ^ 16))

/-- The front of the class: nothing happens under an empty mask, except where R313 says so; then the operand. -/
def State.taskFront (s : State) (group : Option Nat) (maj : Nat) (a : Opnd) (k : Nat → State → Out) : Out :=
  s.enter group maj fun s =>
    if s.ctx.k0 = 0 then .next (s.advance 8) else orElse (s.uniFront [⟨0, a, 1⟩]) (k (s.ctx.uni a).toNat s)

/-- Go on, unless what the instruction reads holds poison, which its gang consumes, or lies on a page that the indirection table does not map
(R357, R384). -/
def State.readsWell (s : State) (va n : Nat) (k : Out) : Out :=
  let w := s.ctx
  match s.vbad w.core w.dom va n with
  | some (_, true) => .next (s.consumePoison w.home w.core w.ref 1 (if w.abroad then 0 else va))
  | some (key, false) => .next (s.unmappedPage w.ref key)
  | none => k

/-- The same for a launch record and the header of the code object that it names (R302, R396). -/
def State.launchWell (s : State) (va : Nat) (k : Out) : Out :=
  if va % 64 ≠ 0 then k
  else
    s.readsWell va 512 <|
      match s.vread s.ctx.core s.ctx.dom va 512 with
      | .ok bs =>
        let code := (parseLaunch va bs).code.toNat
        s.readsWell code 64 <|
          match s.vread s.ctx.core s.ctx.dom code 64 with
          | .ok h => s.readsWell (code + 64) (16 * min 16 (fieldOf h 6 1)) k
          | _ => k
      | _ => k

/-- The same for a node's record and its launch record (R305). -/
def State.nodeWell (s : State) (idx : Nat) (k : Out) : Out :=
  if s.regField (.ntcount s.ctx.dom) 0 24 ≤ idx then k
  else
    s.readsWell (s.nodeVa s.ctx.dom idx) 128 <|
      match s.vread s.ctx.core s.ctx.dom (s.nodeVa s.ctx.dom idx) 128 with
      | .ok bs => s.launchWell (fieldOf bs 0 8) k
      | _ => k

/-- A node's check by the issuing split (R302, R305, R312): a page whose request was declined cannot be read (R364). -/
def State.checkNodeHere (s : State) (idx : Nat) : NodeCheck :=
  match s.checkNode s.ctx.core s.ctx.dom idx with
  | .hold p =>
    if s.ctx.sp.wait = .declined s.ctx.dom p then
      (if p = s.nodeVa s.ctx.dom idx / 2 ^ 16 then .bad 7 0 else .bad 4 11)
    else .hold p
  | r => r

/-- NODE (R306, R313). -/
def execNode (a : Opnd) (s : State) : Out :=
  s.taskFront (some 9) 0xC0 a fun idx s => s.nodeWell idx <|
    match s.checkNodeHere idx with
    | .hold p => .next (s.holdPage s.ctx.dom p false)
    | .bad code reason => .next (s.nodeTrap code reason idx)
    | .ok n => .next ((s.insertNode n).advance 8)

/-- The counter of a node that is WAITING (R306, R307). -/
def State.counterOf (s : State) (dom idx : Nat) : Option Nat :=
  (s.nodes.find? (fun n => n.dom == dom && n.idx == idx)).map (·.counter)

/-- NDEP (R308, R313). Log 122 (DEDUCED). -/
def execNdep (a : Opnd) (n : BitVec 16) (s : State) : Out :=
  s.taskFront none 0xC1 a fun idx s =>
    let dom := s.ctx.dom
    if s.regField (.ntcount dom) 0 24 ≤ idx then .next (s.nodeTrap 1 0 idx)
    else
      match s.nodes.find? (fun n => n.dom == dom && n.idx == idx) with
      | none => .next (s.nodeTrap 2 0 idx)
      | some c =>
        if 65535 < c.counter + n.toNat then .next (s.nodeTrap 3 0 idx)
        else
          .next ((s.putNode { c with counter := c.counter + n.toNat }).advance 8)

/-- NREL (R308, R313). A node that another change of the same cycle has brought to zero counts as one with a counter of 0 (R319).
Log 122 (DEDUCED). -/
def execNrel (a : Opnd) (n : BitVec 16) (s : State) : Out :=
  s.taskFront none 0xC2 a fun idx s =>
    let dom := s.ctx.dom
    if s.regField (.ntcount dom) 0 24 ≤ idx then .next (s.nodeTrap 1 0 idx)
    else
      match s.counterOf dom idx with
      | none =>
        .next (if (dom, idx) ∈ s.fired then s.takeTrap causeDepunder s.ctx.k0 (BitVec.ofNat 64 idx) else s.nodeTrap 2 0 idx)
      | some c =>
        if c < n.toNat then .next (s.takeTrap causeDepunder s.ctx.k0 (BitVec.ofNat 64 idx))
        else .next ((s.decNode dom idx n.toNat).advance 8)

/-- The checks of a fork's children, in ascending index (R316): the first that fails, or what is inserted. -/
def State.checkNodes (s : State) (idx : Nat) : Nat → List Node ⊕ (Nat × NodeCheck)
  | 0 => .inl []
  | k + 1 =>
    match s.checkNodeHere idx with
    | .ok n =>
      match s.checkNodes (idx + 1) k with
      | .inl ns => .inl (n :: ns)
      | e => e
    | e => .inr (idx, e)

/-- FORK (R316): LEEWAY at check 4 of R55, then as NODE for every child, and the join count last. Log 134 (DEDUCED). -/
def execFork (a : Opnd) (k : BitVec 8) (s : State) : Out :=
  s.enter (some 7) 0xC3 fun s =>
    if s.ctx.cls = 2 then .next (s.takeTrap causeLeeway s.ctx.k0 0xC3)
    else
      s.taskFront none 0xC3 a fun idx s => (List.range (k.toNat + 1)).foldr (fun i o => s.nodeWell (idx + i) o) <|
        match s.checkNodes idx (k.toNat + 1) with
        | .inr (_, .hold p) => .next (s.holdPage s.ctx.dom p false)
        | .inr (i, .bad code reason) => .next (s.nodeTrap code reason i)
        | .inr (i, .ok _) => .next (s.nodeTrap 2 0 i)
        | .inl ns =>
          let r := s.ctx.ref
          let join := ((s.gangOf r.launch r.gang).map (·.join)).getD 0
          if 65535 < join + ns.length then .next (s.nodeTrap 3 0 idx)
          else
            let s := s.modGang r.launch r.gang (fun g => { g with join := g.join + ns.length })
            .next ((ns.foldl (fun s (n : Node) => s.insertNode { n with parent := some (r.launch, r.gang) }) s).advance 8)

/-- JOIN (R316): an arrival of the whole gang, also under an empty mask. -/
def execJoin (s : State) : Out :=
  s.enter (some 7) 0xC4 fun s =>
    if s.ctx.cls = 2 then .next (s.takeTrap causeLeeway s.ctx.k0 0xC4)
    else .next (((s.advance 8).hold .join).pollGang s.ctx.ref)

/-- ARM (R302, R317): the node's launch record is checked again, as R302 says of ARM. Reserved bits of the operand are judged first (log
entry 17). Log 17 (DEDUCED), 122 (DEDUCED). -/
def execArm (a : Opnd) (s : State) : Out :=
  s.taskFront (some 8) 0xC5 a fun v s =>
    let dom := s.ctx.dom
    let tag := v % 2 ^ 32
    let idx := v / 2 ^ 32 % 2 ^ 24
    if v / 2 ^ 56 ≠ 0 then .next (s.nodeTrap 5 0 idx)
    else if s.regField (.ntcount dom) 0 24 ≤ idx then .next (s.nodeTrap 1 0 idx)
    else
      match s.nodes.find? (fun n => n.dom == dom && n.idx == idx) with
      | none => .next (s.nodeTrap 2 0 idx)
      | some n =>
        if n.counter = 0 then .next (s.nodeTrap 2 0 idx)
        else
          s.launchWell n.recd.va.toNat <|
            match s.acceptLaunch s.ctx.core dom n.recd.va.toNat with
            | .hold p _ =>
              if s.ctx.sp.wait = .declined dom p then .next (s.nodeTrap 4 11 idx) else .next (s.holdPage dom p false)
            | .refused reason _ => .next (s.nodeTrap 4 reason idx)
            | .ok _ =>
              if s.armed.any (fun x => x.dom == dom && x.tag == tag) ∨ 1024 ≤ (s.armed.filter (fun x => x.dom == dom)).length then
                .next (s.nodeTrap 5 0 idx)
              else .next (State.advance { s with armed := s.armed ++ [{ dom := dom, tag := tag, node := idx }] } 8)

/-- DISARM (R317): it acts even under an empty mask. -/
def execDisarm (a : Opnd) (s : State) : Out :=
  s.enter (some 8) 0xC6 fun s =>
    orElse (s.uniFront [⟨0, a, 1⟩]) <|
      let v := (s.ctx.uni a).toNat
      let hit := fun (x : Armed) => x.dom == s.ctx.dom && x.tag == v
      if v / 2 ^ 32 ≠ 0 then .next (s.nodeTrap 5 0 0)
      else
        let found := s.armed.any hit
        .next ((({ s with armed := s.armed.filter (fun x => !hit x) } : State).mapCtx
          (·.pushUni (if found then 1 else 0))).advance 8)

/-- The anonymous nodes of a die (R313). -/
def State.anonymous (s : State) (die : Nat) : Nat :=
  (s.launches.filter (fun l => l.node.isNone && l.home == die && (l.phase == .ready || l.phase == .running))).length

/-- LAUNCHQ (R313): an anonymous node without successors on the issuing die. -/
def execLaunchq (a : Opnd) (s : State) : Out :=
  s.taskFront (some 9) 0xC7 a fun va s =>
    let die := s.ctx.core / 160
    let dom := s.ctx.dom
    s.launchWell va <|
    match s.acceptLaunch s.ctx.core dom va with
    | .hold p _ =>
      if s.ctx.sp.wait = .declined dom p then .next (s.nodeTrap 4 11 0) else .next (s.holdPage dom p false)
    | .refused reason _ => .next (s.nodeTrap 4 reason 0)
    | .ok r =>
      if 4096 ≤ s.anonymous die then .next (s.hold .operand)
      else .next ((s.enterPool dom none [] die r.prio r none none).advance 8)

end Sys2Proof.Machine
end

