-- ==== Sys2Proof/Machine/Scalar.lean ====
section
/-!
DEFINITION. The scalar instructions, majors 0x20 to 0x29 (R99 to R103): once for each split, whatever its mask.
-/
namespace Sys2Proof.Machine

/-- The width in which a scalar instruction computes (R94). -/
def scalarWidth (t : Ty) : Nat := if t = .i64 then 64 else 32

/-- A 64-bit scalar entry from a result of a type (R94): sign-extended for .I32, zero-extended for .N32. -/
def scalarExt (t : Ty) (x : Nat) : DWord :=
  match t with
  | .i32 => (BitVec.ofNat 32 x).signExtend 64
  | .i64 => BitVec.ofNat 64 x
  | _ => (BitVec.ofNat 32 x).zeroExtend 64

/-- Push a scalar value and go on. -/
def State.pushScalar (s : State) (v : DWord) : State := (s.mapCtx (·.pushUni v)).advance 8

/-- A scalar instruction on A and B: `g n a b` forms the result in n bits (R99). -/
def State.scalarOp (s : State) (f : FmtA) (g : Nat → Nat → Nat → Nat) : Out :=
  s.enter none 0 fun s =>
    orElse (s.uniFront [⟨0, f.a, 1⟩, ⟨1, f.b, 1⟩]) <|
      let n := scalarWidth f.ty
      let x := g n ((s.ctx.uni f.a).toNat % 2 ^ n) ((s.ctx.uni f.b).toNat % 2 ^ n)
      .next (s.pushScalar (scalarExt f.ty x))

/-- The count of a scalar shift: six bits for .I64, five otherwise (R99). -/
def scalarCount (n b : Nat) : Nat := b % n

/-- High half of the product, signed for .I64 and .I32 (R99). -/
def scalarMulh (sgn : Bool) (n a b : Nat) : Nat :=
  if sgn then wrap n ((signed n a * signed n b) / ((2 ^ n : Nat) : Int)) else a * b / 2 ^ n

/-- Arithmetic shift right of n bits by c (R99, R107). -/
def sarBits (n a c : Nat) : Nat := wrap n (signed n a / ((2 ^ c : Nat) : Int))

/-- SADD (R99). -/
def execSadd (f : FmtA) (s : State) : Out := s.scalarOp f (fun n a b => (a + b) % 2 ^ n)
/-- SSUB (R99). -/
def execSsub (f : FmtA) (s : State) : Out := s.scalarOp f (fun n a b => wrap n ((a : Int) - b))
/-- SMUL (R99). -/
def execSmul (f : FmtA) (s : State) : Out := s.scalarOp f (fun n a b => a * b % 2 ^ n)
/-- SMULH (R99). -/
def execSmulh (f : FmtA) (s : State) : Out := s.scalarOp f (scalarMulh f.ty.isSigned)
/-- SAND (R99). -/
def execSand (f : FmtA) (s : State) : Out := s.scalarOp f (fun _ a b => a &&& b)
/-- SOR (R99). -/
def execSor (f : FmtA) (s : State) : Out := s.scalarOp f (fun _ a b => a ||| b)
/-- SXOR (R99). -/
def execSxor (f : FmtA) (s : State) : Out := s.scalarOp f (fun _ a b => a ^^^ b)
/-- SNOT (R99). -/
def execSnot (f : FmtA) (s : State) : Out :=
  s.enter none 0 fun s =>
    orElse (s.uniFront [⟨0, f.a, 1⟩]) (.next (s.pushScalar (~~~(s.ctx.uni f.a))))
/-- SSHL (R99). -/
def execSshl (f : FmtA) (s : State) : Out := s.scalarOp f (fun n a b => a * 2 ^ scalarCount n b % 2 ^ n)
/-- SSHR (R99). -/
def execSshr (f : FmtA) (s : State) : Out := s.scalarOp f (fun n a b => a / 2 ^ scalarCount n b)
/-- SSAR (R99). -/
def execSsar (f : FmtA) (s : State) : Out := s.scalarOp f (fun n a b => sarBits n a (scalarCount n b))
/-- SMIN (R99). -/
def execSmin (f : FmtA) (s : State) : Out := s.scalarOp f (fun n a b => if signed n a ≤ signed n b then a else b)
/-- SMAX (R99). -/
def execSmax (f : FmtA) (s : State) : Out := s.scalarOp f (fun n a b => if signed n a ≤ signed n b then b else a)
/-- SNMIN (R99). -/
def execSnmin (f : FmtA) (s : State) : Out := s.scalarOp f (fun _ a b => min a b)
/-- SNMAX (R99). -/
def execSnmax (f : FmtA) (s : State) : Out := s.scalarOp f (fun _ a b => max a b)

/-- SCMP (R98, R100): the result is 1 or 0 whatever the type. -/
def execScmp (cond : Cond) (f : FmtA) (s : State) : Out :=
  s.scalarOp f (fun n a b => (condHolds cond n a b).toNat)

/-- SSEL (R100). -/
def execSsel (f : FmtA) (s : State) : Out :=
  s.enter none 0 fun s =>
    orElse (s.uniFront [⟨0, f.a, 1⟩, ⟨1, f.b, 1⟩, ⟨2, f.c, 1⟩])
      (.next (s.pushScalar (if s.ctx.uni f.c ≠ 0 then s.ctx.uni f.a else s.ctx.uni f.b)))

/-- SLDI (R101). -/
def execSldi (v : BitVec 16) (s : State) : Out := s.enter none 0 fun s => .next (s.pushScalar (v.signExtend 64))

/-- SLDI.HI (R101). -/
def execSldiHi (a : Opnd) (v : BitVec 16) (s : State) : Out :=
  s.enter none 0 fun s =>
    orElse (s.uniFront [⟨0, a, 1⟩]) (.next (s.pushScalar (v ++ (s.ctx.uni a).extractLsb' 0 48)))

/-- LDIL (R51, R101). -/
def execLdil (lit : BitVec 48) (s : State) : Out :=
  s.enter none 0 fun s => .next ((s.mapCtx (·.pushUni (lit.signExtend 64))).advance 16)

/-! ### From a lane to the scalar wake -/

/-- Whether an open record with its origin bit set, of the frame or of a caller's, excludes a lane, in a handler too (R71, R102, R170). -/
def Watch.originExcludes (w : Watch) (l : Nat) : Bool :=
  (w.sp.recs ++ (w.sp.frames.map (·.recs)).flatten).any (fun r =>
    r.origin && (if r.phase then has r.arm0 l else has r.arm1 l))

/-- Whether SLANE pushes lane j's entry (R102): of a lane of the split that has not exited and is active, or is parked but not by a fallback
record. -/
def Watch.readable (w : Watch) (j : Nat) : Bool :=
  let lane := w.lane j
  decide (j < w.ewidth) && lane.split == w.sp.id && !lane.exited && (lane.wake.nest == 0 || !w.originExcludes j)

/-- The fill operand of SLANE and SPICK as a source, where there is one (R102). -/
def fillSrc (o : Opnd) : List Src := if o.si then [⟨2, o, 1⟩] else []

/-- The fill value (R102). -/
def Watch.fillOf (w : Watch) (o : Opnd) : Nat := if o.si then (w.uni o).toNat else 0

/-- A lane's entry of a type at a vector age: none when it is void (R33). -/
def Watch.laneValue (w : Watch) (t : Ty) (o : Opnd) (l : Nat) : Option Nat :=
  let x := Src.of 0 t o
  if has (x.voidIn w (lane1 l)) l then none else some (w.opnd t o l)

/-- Push a lane's entry or the fill, waiting for an entry in flight (R60, R102, R103); a lane's entry whose parity fails is consumed
(R384). -/
def State.pushFromLane (s : State) (f : FmtA) (l : Option Nat) : State :=
  let w := s.ctx
  let fill := w.fillOf f.c
  match l with
  | none => s.pushScalar (scalarExt f.ty fill)
  | some l =>
    if (Src.of 0 f.ty f.a).badIn w (lane1 l) ≠ 0 then s.parityKill
    else if (Src.of 0 f.ty f.a).pendIn w (lane1 l) ≠ 0 then s.hold .operand
    else s.pushScalar (scalarExt f.ty ((w.laneValue f.ty f.a l).getD fill))

/-- SLANE (R102). -/
def execSlane (f : FmtA) (s : State) : Out :=
  s.enter none 0 fun s =>
    orElse (s.uniFront (⟨1, f.b, 1⟩ :: fillSrc f.c)) <|
      let w := s.ctx
      let j := (w.uni f.b).toNat
      .next (s.pushFromLane f (if w.readable j then some j else none))

/-- SPICK (R103). -/
def execSpick (f : FmtA) (s : State) : Out :=
  s.enter none 0 fun s =>
    orElse (s.uniFront (fillSrc f.c)) <|
      .next (s.pushFromLane f (lanesIn (s.ctx.gov (f.ext.extractLsb' 0 3))).head?)

end Sys2Proof.Machine
end

