-- ==== Sys2Proof/Machine/Integer.lean ====
section
/-!
DEFINITION. The vector integer, mask and caddy instructions, majors 0x30 to 0x3E (R104 to R116).
-/
namespace Sys2Proof.Machine

/-! ### Shared shapes -/

/-- The sources A, B and C of a type. -/
def srcA (f : FmtA) : List Src := [Src.of 0 f.ty f.a]
def srcAB (f : FmtA) : List Src := [Src.of 0 f.ty f.a, Src.of 1 f.ty f.b]
def srcABC (f : FmtA) : List Src := [Src.of 0 f.ty f.a, Src.of 1 f.ty f.b, Src.of 2 f.ty f.c]

/-- A vector instruction: the checks on its sources, then `k` on the governing mask (R44, R55). -/
def State.vector (s : State) (f : FmtA) (srcs : List Src) (k : Mask → State → Out) : Out :=
  s.enter none 0 fun s => orElse (s.vecFront (s.ctx.gov f.k) srcs) (k (s.ctx.gov f.k) s)

/-- Push a value of a type in each enabled lane and go on. -/
def State.pushLanes (s : State) (m : Mask) (t : Ty) (v : Nat → Nat) : State := (s.mapCtx (·.pushVal m t v)).advance 8

/-- A vector instruction that pushes one value of its own type, computed from A, B and C in each lane. -/
def State.vectorOp (s : State) (f : FmtA) (srcs : List Src) (g : Nat → Nat → Nat → Nat) : Out :=
  s.vector f srcs fun m s =>
    let w := s.ctx
    .next (s.pushLanes m f.ty (fun l => g (w.opnd f.ty f.a l) (w.opnd f.ty f.b l) (w.opnd f.ty f.c l)))

/-- An element as an integer. -/
def elemInt (sgn : Bool) (n v : Nat) : Int := if sgn then signed n v else ((v % 2 ^ n : Nat) : Int)

/-- Clamp to the range of an n-bit type (R95). -/
def clampTo (sgn : Bool) (n : Nat) (x : Int) : Int :=
  let lo : Int := if sgn then -((2 ^ (n - 1) : Nat) : Int) else 0
  let hi : Int := if sgn then ((2 ^ (n - 1) : Nat) : Int) - 1 else ((2 ^ n : Nat) : Int) - 1
  max lo (min hi x)

/-- Element-wise arithmetic: `x` gives the exact result on the elements, read signed as `sgn` says (R104). -/
def State.elementwise (s : State) (f : FmtA) (srcs : List Src) (sgn : Bool) (x : Int → Int → Int → Int) : Out :=
  s.vector f srcs fun m s =>
    let w := s.ctx
    let n := f.ty.width
    let exact := fun (l : Nat) =>
      (List.range f.ty.count).map (fun e =>
        let el := fun (o : Opnd) => elemInt sgn n (bitsAt (w.opnd f.ty o l) (n * e) n)
        x (el f.a) (el f.b) (el f.c))
    let value := fun (l : Nat) => ofElems n ((exact l).map (fun v => wrap n (if f.sat then clampTo f.ty.isSigned n v else v)))
    let clamped := if f.sat then lanesWith m (fun l => (exact l).any (fun v => clampTo f.ty.isSigned n v != v)) else 0
    let s := if clamped = 0 then s else s.saturate clamped
    .next (s.pushLanes m f.ty value)

/-- Element-wise operation on patterns. -/
def elemMap2 (t : Ty) (g : Nat → Nat → Nat) (a b : Nat) : Nat :=
  ofElems t.width ((List.range t.count).map (fun e => g (bitsAt a (t.width * e) t.width) (bitsAt b (t.width * e) t.width)))

/-! ### Arithmetic -/

/-- IADD (R104). -/
def execIadd (f : FmtA) (s : State) : Out := s.elementwise f (srcAB f) f.ty.isSigned (fun a b _ => a + b)
/-- ISUB (R104). -/
def execIsub (f : FmtA) (s : State) : Out := s.elementwise f (srcAB f) f.ty.isSigned (fun a b _ => a - b)
/-- IMUL (R104). -/
def execImul (f : FmtA) (s : State) : Out := s.elementwise f (srcAB f) f.ty.isSigned (fun a b _ => a * b)
/-- IMAD (R104). -/
def execImad (f : FmtA) (s : State) : Out := s.elementwise f (srcABC f) f.ty.isSigned (fun a b c => a * b + c)
/-- INEG (R104). -/
def execIneg (f : FmtA) (s : State) : Out := s.elementwise f (srcA f) true (fun a _ _ => -a)
/-- IABS (R104). -/
def execIabs (f : FmtA) (s : State) : Out := s.elementwise f (srcA f) true (fun a _ _ => ((a.natAbs : Nat) : Int))
/-- IMIN (R104). -/
def execImin (f : FmtA) (s : State) : Out := s.elementwise f (srcAB f) true (fun a b _ => min a b)
/-- IMAX (R104). -/
def execImax (f : FmtA) (s : State) : Out := s.elementwise f (srcAB f) true (fun a b _ => max a b)
/-- NMIN (R104). -/
def execNmin (f : FmtA) (s : State) : Out := s.elementwise f (srcAB f) false (fun a b _ => min a b)
/-- NMAX (R104). -/
def execNmax (f : FmtA) (s : State) : Out := s.elementwise f (srcAB f) false (fun a b _ => max a b)

/-- Push two words in each enabled lane, the second ending at age 0 (R105). -/
def State.pushPair (s : State) (m : Mask) (u v : Nat → Nat) : State :=
  (s.mapCtx (fun w => (w.push m (fun l => .val (BitVec.ofNat 32 (u l)))).push m (fun l => .val (BitVec.ofNat 32 (v l))))).advance 8

/-- IADC (R105). -/
def execIadc (f : FmtA) (s : State) : Out :=
  s.vector f (srcABC f) fun m s =>
    let w := s.ctx
    let t := fun l => w.word f.ty f.a l + w.word f.ty f.b l + w.word f.ty f.c l % 2
    .next (s.pushPair m (fun l => if 2 ^ 32 ≤ t l then 1 else 0) (fun l => t l % 2 ^ 32))

/-- ISBB (R105). -/
def execIsbb (f : FmtA) (s : State) : Out :=
  s.vector f (srcABC f) fun m s =>
    let w := s.ctx
    let t := fun l => (w.word f.ty f.a l : Int) - w.word f.ty f.b l - ((w.word f.ty f.c l % 2 : Nat) : Int)
    .next (s.pushPair m (fun l => if t l < 0 then 1 else 0) (fun l => wrap 32 (t l)))

/-- IMULH (R106). -/
def execImulh (f : FmtA) (s : State) : Out :=
  s.vectorOp f (srcAB f) (fun a b _ => wrap 32 (elemInt f.ty.isSigned 32 a * elemInt f.ty.isSigned 32 b / ((2 ^ 32 : Nat) : Int)))

/-! ### Logic, shifts and fields -/

/-- AND (R96). -/
def execAndv (f : FmtA) (s : State) : Out := s.vectorOp f (srcAB f) (fun a b _ => a &&& b)
/-- OR (R96). -/
def execOrv (f : FmtA) (s : State) : Out := s.vectorOp f (srcAB f) (fun a b _ => a ||| b)
/-- XOR (R96). -/
def execXorv (f : FmtA) (s : State) : Out := s.vectorOp f (srcAB f) (fun a b _ => a ^^^ b)
/-- NOT (R96). -/
def execNotv (f : FmtA) (s : State) : Out := s.vectorOp f (srcA f) (fun a _ _ => 2 ^ f.ty.width - 1 - a)
/-- ANDN: A AND NOT B (R96). -/
def execAndnv (f : FmtA) (s : State) : Out := s.vectorOp f (srcAB f) (fun a b _ => a &&& (2 ^ f.ty.width - 1 - b))

/-- A shift of each element by the count in the matching element of B, modulo the width (R107). -/
def State.shift (s : State) (f : FmtA) (g : Nat → Nat → Nat → Nat) : Out :=
  s.vectorOp f (srcAB f) (fun a b _ => elemMap2 f.ty (fun x y => g f.ty.width x (y % f.ty.width)) a b)

/-- SHL (R107). -/
def execShl (f : FmtA) (s : State) : Out := s.shift f (fun n x c => x * 2 ^ c % 2 ^ n)
/-- SHR (R107). -/
def execShr (f : FmtA) (s : State) : Out := s.shift f (fun _ x c => x / 2 ^ c)
/-- SAR (R107). -/
def execSar (f : FmtA) (s : State) : Out := s.shift f sarBits
/-- ROT (R107). -/
def execRot (f : FmtA) (s : State) : Out := s.shift f (fun n x c => x * 2 ^ c % 2 ^ n + x / 2 ^ (n - c))

/-- BFX (R108). -/
def execBfx (f : FmtA) (s : State) : Out :=
  let p := f.ext.toNat % 32
  let n := f.ext.toNat / 256
  s.vectorOp f (srcA f) (fun a _ _ =>
    if n = 0 then 0 else if f.ty = .i32 then wrap 32 (signed n (bitsAt a p n)) else bitsAt a p n)

/-- BFI (R108). -/
def execBfi (f : FmtA) (s : State) : Out :=
  let p := f.ext.toNat % 32
  let n := f.ext.toNat / 256
  s.vectorOp f (srcAB f) (fun a b _ => b - bitsAt b p n * 2 ^ p + a % 2 ^ n * 2 ^ p)

/-- POPC (R109): one N32 entry for either type. -/
def execPopc (f : FmtA) (s : State) : Out :=
  s.vector f (srcA f) fun m s => .next (s.pushLanes m .n32 (fun l => popCount f.ty.width (s.ctx.opnd f.ty f.a l)))
/-- CLZ (R109): one N32 entry for either type. -/
def execClz (f : FmtA) (s : State) : Out :=
  s.vector f (srcA f) fun m s => .next (s.pushLanes m .n32 (fun l => leadZeros f.ty.width (s.ctx.opnd f.ty f.a l)))
/-- BREV (R109). -/
def execBrev (f : FmtA) (s : State) : Out := s.vectorOp f (srcA f) (fun a _ _ => revBits f.ty.width a)

/-! ### Compare, select, copy and constants -/

/-- ICMP (R110). -/
def execIcmp (cond : Cond) (f : FmtA) (s : State) : Out :=
  s.vector f (srcAB f) fun m s =>
    let p := fun l => condHolds cond f.ty.width (s.ctx.opnd f.ty f.a l) (s.ctx.opnd f.ty f.b l)
    .next ((s.mapCtx (fun w => w.compare f.ext.toNat m p)).advance 8)

/-- SEL (R111). -/
def execSel (f : FmtA) (s : State) : Out :=
  s.vector f (srcAB f) fun m s =>
    let w := s.ctx
    .next (s.pushLanes m f.ty (fun l => if has (w.kreg f.ext.toNat) l then w.opnd f.ty f.a l else w.opnd f.ty f.b l))

/-- PICK (R112). -/
def execPick (f : FmtA) (s : State) : Out := s.vectorOp f (srcA f) (fun a _ _ => a)

/-- LDI (R112). -/
def execLdi (f : FmtA) (s : State) : Out := s.vectorOp f [] (fun _ _ _ => wrap f.ty.width f.ext.toInt)

/-- LDI.HI (R112). -/
def execLdiHi (f : FmtA) (s : State) : Out := s.vectorOp f (srcA f) (fun a _ _ => f.ext.toNat * 2 ^ 16 + a % 2 ^ 16)

/-! ### The caddy -/

/-- STASH (R116, R121): a source slot beyond the frame is met before a destination beyond it. -/
def execStash (f : FmtA) (s : State) : Out :=
  s.enter none 0 fun s =>
    let w := s.ctx
    let m := w.gov f.k
    let slot := f.ext.toNat
    let span := if f.ty = .i64 then 2 else 1
    if m ≠ 0 ∧ ¬ (Src.of 0 f.ty f.a).beyond w ∧ w.caddy.slots.length < slot + span then .next (s.takeTrap causeCaddy m 2)
    else
      orElse (s.vecFront m (srcA f)) <|
        let put := fun (w' : Watch) =>
          if f.ty = .i64 then
            (w'.stash slot m (fun l => BitVec.ofNat 32 (w.dword f.a l / 2 ^ 32))).stash (slot + 1) m
              (fun l => BitVec.ofNat 32 (w.dword f.a l))
          else w'.stash slot m (fun l => BitVec.ofNat 32 (w.word f.ty f.a l))
        .next ((s.mapCtx put).advance 8)

/-- UNSTASH (R116). -/
def execUnstash (f : FmtA) (s : State) : Out := s.vectorOp f (srcA f) (fun a _ _ => a)

/-! ### Masks -/

/-- Write a mask register from the masks before it (R114, R115). -/
def State.maskOp (s : State) (d : BitVec 3) (v : Watch → Mask) : Out :=
  s.enter none 0 fun s => .next ((s.mapCtx (fun w => w.setK d.toNat (v w))).advance 8)

/-- KAND (R114). -/
def execKand (d a b : BitVec 3) (s : State) : Out := s.maskOp d (fun w => w.kreg a.toNat &&& w.kreg b.toNat)
/-- KOR (R114). -/
def execKor (d a b : BitVec 3) (s : State) : Out := s.maskOp d (fun w => w.kreg a.toNat ||| w.kreg b.toNat)
/-- KXOR (R114). -/
def execKxor (d a b : BitVec 3) (s : State) : Out := s.maskOp d (fun w => w.kreg a.toNat ^^^ w.kreg b.toNat)
/-- KANDN (R114). -/
def execKandn (d a b : BitVec 3) (s : State) : Out := s.maskOp d (fun w => w.kreg a.toNat &&& ~~~(w.kreg b.toNat))
/-- KNOT (R114). -/
def execKnot (d a : BitVec 3) (s : State) : Out := s.maskOp d (fun w => ~~~(w.kreg a.toNat))
/-- KMOV (R114). -/
def execKmov (d a : BitVec 3) (s : State) : Out := s.maskOp d (fun w => w.kreg a.toNat)

/-- KSET (R114). -/
def execKset (d : BitVec 3) (a : Opnd) (s : State) : Out :=
  s.enter none 0 fun s =>
    orElse (s.uniFront [⟨0, a, 1⟩]) (.next ((s.mapCtx (fun w => w.setK d.toNat (w.uni a))).advance 8))

/-- KPOP (R114). -/
def execKpop (a : BitVec 3) (s : State) : Out :=
  s.enter none 0 fun s => .next (s.pushScalar (BitVec.ofNat 64 (laneCount (s.ctx.kreg a.toNat))))

/-- KFIRST (R114). -/
def execKfirst (a : BitVec 3) (s : State) : Out :=
  s.enter none 0 fun s => .next (s.pushScalar (BitVec.ofNat 64 (lowBit 64 (s.ctx.kreg a.toNat).toNat)))

end Sys2Proof.Machine
end

