-- ==== Sys2Proof/Machine/Special.lean ====
section
/-!
DEFINITION. The special functions (R139, R140): each the exact value of the function rounded once to F32 to nearest. The
transcendental ones are computed in fixed point with 320 fraction bits, far beyond what decides a rounding of an F32 input.
-/
namespace Sys2Proof.Machine

/-- Fraction bits of the fixed-point values. -/
def fxBits : Nat := 320
def fxOne : Nat := 2 ^ fxBits
def fxMul (a b : Nat) : Nat := a * b / fxOne

/-- ln 2 with 320 fraction bits, and pi / 2 with 480, rounded down. -/
def ln2Fx : Nat :=
  0xb17217f7d1cf79abc9e3b39803f2f6af40f343267298b62d8a0d175b8baafa2be7b876206debac98
def halfPi480 : Nat :=
  0x1921fb54442d18469898cc51701b839a252049c1114cf98e804177d4c76273644a29410f31c6809bbdf2a33679a748636605614dbe4be286e9fc26ada

/-- e^x as 1 + x/k (1 + x/(k+1) (1 + …)), n terms from k on. -/
def expFrom (x : Nat) : Nat → Nat → Nat
  | 0, _ => fxOne
  | n + 1, k => fxOne + fxMul x (expFrom x n (k + 1)) / k

/-- e^x for 0 ≤ x < 1. -/
def expFx (x : Nat) : Nat := expFrom x 80 1

/-- 1/(2k+1) + y2 (1/(2k+3) + …), n terms. -/
def atanhFrom (y2 : Nat) : Nat → Nat → Nat
  | 0, _ => 0
  | n + 1, k => fxOne / (2 * k + 1) + fxMul y2 (atanhFrom y2 n (k + 1))

/-- The natural logarithm of r for 1 ≤ r < 2: 2 atanh((r - 1) / (r + 1)). -/
def lnFx (r : Nat) : Nat :=
  let y := (r - fxOne) * fxOne / (r + fxOne)
  2 * fxMul y (atanhFrom (fxMul y y) 105 0)

/-- 1 - r2/(k (k+1)) (1 - r2/((k+2)(k+3)) (…)), n terms. -/
def altFrom (r2 : Nat) : Nat → Nat → Nat
  | 0, _ => fxOne
  | n + 1, k => fxOne - fxMul r2 (altFrom r2 n (k + 2)) / (k * (k + 1))

/-- sin r and cos r for 0 ≤ r ≤ pi / 2. -/
def sinFx (r : Nat) : Nat := fxMul r (altFrom (fxMul r r) 45 2)
def cosFx (r : Nat) : Nat := altFrom (fxMul r r) 45 1

/-- m * 2^e in fixed point with b fraction bits. -/
def toFx (b m : Nat) (e : Int) : Nat := if 0 ≤ e + b then m * 2 ^ (e + b).toNat else m / 2 ^ (-(e + b)).toNat

/-- A fixed-point magnitude times 2^n as a value. -/
def ofFx (neg : Bool) (v : Nat) (n : Int) : FVal := .num neg v (n - fxBits)

/-- Exponent of the highest bit of m * 2^e, for m not 0. -/
def topExp (m : Nat) (e : Int) : Int := (Nat.log2 m : Nat) + e

/-- 1 / a (R139, R140). -/
def fRcp (a : FVal) : FVal := FVal.div (.num false 1 0) a

/-- 1 / sqrt a (R139, R140). -/
def fRsq (a : FVal) : FVal :=
  match a with
  | .nan => .nan
  | .inf n => if n then .nan else .num false 0 0
  | .num n m e =>
    if m = 0 then .inf n
    else if n then .nan
    else
      let m' := if e % 2 = 0 then m else 2 * m
      let e' := if e % 2 = 0 then e else e - 1
      let r := isqrt (2 ^ 160 / m') 81 0
      .num false (2 * r + (if r * r * m' = 2 ^ 160 then 0 else 1)) (-81 - e' / 2)

/-- 2^a (R139, R140). Log 87 (PRESUMED). -/
def fExp2 (a : FVal) : FVal :=
  match a with
  | .nan => .nan
  | .inf n => if n then .num false 0 0 else .inf false
  | .num n m e =>
    if m = 0 then .num false 1 0
    else if 8 < topExp m e then (if n then .num false 0 0 else .inf false)
    else
      let x := toFx fxBits m e
      let i : Int := if n then -((x + fxOne - 1) / fxOne : Nat) else (x / fxOne : Nat)
      let f := if n then (fxOne - x % fxOne) % fxOne else x % fxOne
      if f = 0 then .num false 1 i else ofFx false (expFx (fxMul f ln2Fx)) i

/-- log2 a (R139, R140). Log 87 (PRESUMED). -/
def fLog2 (a : FVal) : FVal :=
  match a with
  | .nan => .nan
  | .inf n => if n then .nan else .inf false
  | .num n m e =>
    if m = 0 then .inf true
    else if n then .nan
    else
      let i := topExp m e
      let r := toFx fxBits m (e - i)
      let l := lnFx r * fxOne / ln2Fx
      let t : Int := i * (fxOne : Nat) + (l : Nat)
      .num (decide (t < 0)) t.natAbs (-(fxBits : Int))

/-- The quadrant and the rest of |a| by pi / 2, reduced exactly (R139). -/
def reduceArg (m : Nat) (e : Int) : Nat × Nat :=
  let x := toFx 480 m e
  (x / halfPi480 % 4, x % halfPi480 / 2 ^ 160)

/-- sin a (R139, R140). Log 87 (PRESUMED). -/
def fSin (a : FVal) : FVal :=
  match a with
  | .nan => .nan
  | .inf _ => .nan
  | .num n m e =>
    if m = 0 then .num n 0 e
    else
      let (q, r) := reduceArg m e
      ofFx (n != decide (2 ≤ q)) (if q % 2 = 0 then sinFx r else cosFx r) 0

/-- cos a (R139, R140). Log 87 (PRESUMED). -/
def fCos (a : FVal) : FVal :=
  match a with
  | .nan => .nan
  | .inf _ => .nan
  | .num _ m e =>
    let (q, r) := reduceArg m e
    ofFx (q == 1 || q == 2) (if q % 2 = 0 then cosFx r else sinFx r) 0

/-- tanh a (R139, R140): (E - 1) / (E + 1) with E = e^(2|a|). Log 87 (PRESUMED). -/
def fTanh (a : FVal) : FVal :=
  match a with
  | .nan => .nan
  | .inf n => .num n 1 0
  | .num n m e =>
    if m = 0 then .num n 0 e
    else if 4 ≤ topExp m e ∨ 9 * fxOne ≤ toFx fxBits m e then .num n 1 0
    else
      let y := 2 * toFx fxBits m e
      let i := y / ln2Fx
      let ex := expFx (y % ln2Fx) * 2 ^ i
      ofFx n ((ex - fxOne) * fxOne / (ex + fxOne)) 0

end Sys2Proof.Machine
end

