-- ==== Sys2Proof/Machine/Float.lean ====
section
/-!
DEFINITION. The float class, majors 0x50 to 0x5D (R122 to R155): arithmetic, compares, special functions, packed pairs,
conversions and scalar float; and the queues of the special-function and conversion units (R147 to R150).
-/
namespace Sys2Proof.Machine

/-! ### Sources -/

/-- The source modifiers on one operand: magnitude, then negation (R130). -/
def modified (abs neg : Bool) (v : FVal) : FVal :=
  let v := if abs then v.abs else v
  if neg then v.neg else v

/-- Element e of an operand, as its type's value. -/
def Watch.felem (w : Watch) (t : Ty) (o : Opnd) (l e : Nat) : FVal :=
  t.ffmt.decode (bitsAt (w.word t o l) (t.width * e) t.width)

/-- Element e of A, B and C under the modifiers of EXT16[15:12] (R130). -/
def Watch.fA (w : Watch) (f : FmtA) (l e : Nat) : FVal :=
  modified (f.ext.getLsbD 15) (f.ext.getLsbD 12) (w.felem f.ty f.a l e)
def Watch.fB (w : Watch) (f : FmtA) (l e : Nat) : FVal :=
  modified (f.ext.getLsbD 15) (f.ext.getLsbD 13) (w.felem f.ty f.b l e)
def Watch.fC (w : Watch) (f : FmtA) (l e : Nat) : FVal := modified false (f.ext.getLsbD 14) (w.felem f.ty f.c l e)

/-! ### Arithmetic -/

/-- One element of a result, and whether it is a NaN made from sources that hold none (R151). -/
structure FResult where
  code : Nat
  made : Bool
  deriving DecidableEq, Repr

/-- Round an exact result to a type; `srcs` are the elements it was computed from. -/
def fresult (t : Ty) (r : Rnd) (srcs : List FVal) (x : FVal) : FResult :=
  { code := (t.ffmt.round r x).1, made := x.isNan && !(srcs.any FVal.isNan) }

/-- A function of the operands of a float instruction in one lane and element: its sources and its exact result. -/
abbrev FFun := Watch → FmtA → Nat → Nat → List FVal × FVal

/-- The elements of a float instruction's result in one lane. -/
def FFun.lane (g : FFun) (w : Watch) (f : FmtA) (l : Nat) : List FResult :=
  (List.range f.ty.count).map (fun e => let p := g w f l e; fresult f.ty f.rnd p.1 p.2)

/-- The entry that a list of results forms. -/
def packResults (t : Ty) (rs : List FResult) : Nat := ofElems t.width (rs.map (·.code))

/-- Count the lanes of a mask in which a NaN was made (R151). -/
def State.countNans (s : State) (m : Mask) (made : Nat → Bool) : State := s.numeric 2 (laneCount (lanesWith m made))

/-- Functions of A, of A and B, and of A, B and C. -/
def fun1 (g : Rnd → FVal → FVal) : FFun := fun w f l e => let a := w.fA f l e; ([a], g f.rnd a)
def fun2 (g : Rnd → FVal → FVal → FVal) : FFun := fun w f l e =>
  let a := w.fA f l e
  let b := w.fB f l e
  ([a, b], g f.rnd a b)
def fun3 (g : Rnd → FVal → FVal → FVal → FVal) : FFun := fun w f l e =>
  let a := w.fA f l e
  let b := w.fB f l e
  let c := w.fC f l e
  ([a, b, c], g f.rnd a b c)

/-- A float instruction of the fused multiply-add datapath, element by element (R133, R141). -/
def State.floatOp (s : State) (f : FmtA) (srcs : List Src) (g : FFun) : Out :=
  s.vector f srcs fun m s =>
    let w := s.ctx
    let s := s.countNans m (fun l => (g.lane w f l).any (·.made))
    .next (s.pushLanes m f.ty (fun l => packResults f.ty (g.lane w f l)))

/-- FADD (R133). -/
def execFadd (f : FmtA) (s : State) : Out := s.floatOp f (srcAB f) (fun2 FVal.add)
/-- FSUB (R133). -/
def execFsub (f : FmtA) (s : State) : Out := s.floatOp f (srcAB f) (fun2 (fun r a b => a.add r b.neg))
/-- FMUL (R133). -/
def execFmul (f : FmtA) (s : State) : Out := s.floatOp f (srcAB f) (fun2 (fun _ a b => a.mul b))
/-- FFMA (R133). -/
def execFfma (f : FmtA) (s : State) : Out := s.floatOp f (srcABC f) (fun3 FVal.fma)
/-- FFMS (R133). -/
def execFfms (f : FmtA) (s : State) : Out := s.floatOp f (srcABC f) (fun3 (fun r a b c => a.fma r b c.neg))
/-- HADD2 (R141). -/
def execHadd2 (f : FmtA) (s : State) : Out := s.floatOp f (srcAB f) (fun2 FVal.add)
/-- HMUL2 (R141). -/
def execHmul2 (f : FmtA) (s : State) : Out := s.floatOp f (srcAB f) (fun2 (fun _ a b => a.mul b))
/-- HFMA2 (R141). -/
def execHfma2 (f : FmtA) (s : State) : Out := s.floatOp f (srcABC f) (fun3 FVal.fma)

/-- minimumNumber and maximumNumber (R135). -/
def fminimum (a b : FVal) : FVal :=
  if a.isNan then b else if b.isNan then a else if a.lt b then a else if b.lt a then b else if a.isNeg then a else b
def fmaximum (a b : FVal) : FVal :=
  if a.isNan then b else if b.isNan then a else if b.lt a then a else if a.lt b then b else if a.isNeg then b else a

/-- FMIN (R135). -/
def execFmin (f : FmtA) (s : State) : Out := s.floatOp f (srcAB f) (fun2 (fun _ a b => fminimum a b))
/-- FMAX (R135). -/
def execFmax (f : FmtA) (s : State) : Out := s.floatOp f (srcAB f) (fun2 (fun _ a b => fmaximum a b))

/-- Rounding to an integral value, with the sign kept (R138). -/
def integral (r : Rnd) (a : FVal) : FVal :=
  match a with
  | .num n m e => .num n (FVal.toIntMag r n m e) 0
  | v => v

/-- FRND (R138). -/
def execFrnd (f : FmtA) (s : State) : Out := s.floatOp f (srcA f) (fun1 integral)

/-- FCMP (R136). -/
def execFcmp (cond : FCond) (f : FmtA) (s : State) : Out :=
  s.vector f (srcAB f) fun m s =>
    let w := s.ctx
    .next ((s.mapCtx (fun v => v.compare (f.ext.toNat % 8) m (fun l => fcondHolds cond (w.fA f l 0) (w.fB f l 0)))).advance 8)

/-- The class bit of an F32 pattern (R137). -/
def fclassOf (v : Nat) : Nat :=
  let neg := decide (2 ^ 31 ≤ v)
  let mag := v % 2 ^ 31
  if 0x7FC00000 ≤ mag then 9
  else if 0x7F800000 < mag then 8
  else if mag = 0x7F800000 then (if neg then 0 else 7)
  else if 0x00800000 ≤ mag then (if neg then 1 else 6)
  else if 0 < mag then (if neg then 2 else 5)
  else if neg then 3 else 4

/-- FCLASS (R137). -/
def execFclass (f : FmtA) (s : State) : Out :=
  s.vector f (srcA f) fun m s => .next (s.pushLanes m .n32 (fun l => 2 ^ fclassOf (s.ctx.word f.ty f.a l)))

/-! ### The SFU and conversion queues -/

/-- Operations of a unit that a watch holds. -/
def Watch.unitCount (w : Watch) (u : UnitKind) : Nat := (w.flights.filter (fun x => x.unit == u)).length

/-- Whether the queue of a unit has no free entry for the issuing watch: 16 entries for the critical and normal watches of a
core, 2 for each leeway slot (R147). -/
def State.unitFull (s : State) (u : UnitKind) : Bool :=
  let w := s.ctx
  if w.cls = 2 then decide (2 ≤ w.unitCount u)
  else decide (16 ≤ (((s.watches.filter (fun v => v.core == w.core && v.cls != 2)).map (Watch.unitCount · u)).foldl (· + ·) 0))

/-- Take an entry of a unit's queue and push the pending results, in each lane of a mask; SATF of `sat` follows at completion
(R34, R147, R166). Log 39 (DEDUCED). -/
def State.startUnit (s : State) (u : UnitKind) (m : Mask) (t : Ty) (v : Nat → Nat) (sat : Mask) : State :=
  let id := s.fresh
  let fl : Flight := { id := id, unit := u, path := .local, bear := none, satf := sat }
  let pend := fun (k : Nat) (l : Nat) => (.pend (BitVec.ofNat 32 (v l / 2 ^ k)) id : Entry Word)
  let s := s.tick.mapCtx (fun w =>
    let w := w.push m (pend 0)
    let w := if t = .i64 then w.push m (pend 32) else w
    { w with flights := w.flights ++ [fl] })
  (s.countEvent s.ctx.core s.ctx.dom 12 1).advance 8

/-- A special-function instruction (R134, R139, R147). -/
def State.sfuOp (s : State) (f : FmtA) (srcs : List Src) (g : FFun) : Out :=
  let m := s.ctx.gov f.k
  orElse (s.vecFront m srcs) <|
    if m = 0 then .next (s.advance 8)
    else if s.unitFull .sfu then .next (s.hold .operand)
    else
      let w := s.ctx
      .next ((s.countNans m (fun l => (g.lane w f l).any (·.made))).startUnit .sfu m f.ty
        (fun l => packResults f.ty (g.lane w f l)) 0)

/-- FDIV (R134). -/
def execFdiv (f : FmtA) (s : State) : Out := s.enter none 0 fun s => s.sfuOp f (srcAB f) (fun2 (fun _ a b => a.div b))
/-- FSQRT (R134). -/
def execFsqrt (f : FmtA) (s : State) : Out := s.enter none 0 fun s => s.sfuOp f (srcA f) (fun1 (fun _ a => a.sqrt))
/-- FRCP (R139, R140). -/
def execFrcp (f : FmtA) (s : State) : Out := s.enter none 0 fun s => s.sfuOp f (srcA f) (fun1 (fun _ a => fRcp a))
/-- FRSQ (R139, R140). -/
def execFrsq (f : FmtA) (s : State) : Out := s.enter none 0 fun s => s.sfuOp f (srcA f) (fun1 (fun _ a => fRsq a))
/-- FEXP2 (R139, R140). -/
def execFexp2 (f : FmtA) (s : State) : Out := s.enter (some 12) 0x58 fun s => s.sfuOp f (srcA f) (fun1 (fun _ a => fExp2 a))
/-- FLOG2 (R139, R140). -/
def execFlog2 (f : FmtA) (s : State) : Out := s.enter (some 12) 0x58 fun s => s.sfuOp f (srcA f) (fun1 (fun _ a => fLog2 a))
/-- FSIN (R139, R140). -/
def execFsin (f : FmtA) (s : State) : Out := s.enter (some 12) 0x59 fun s => s.sfuOp f (srcA f) (fun1 (fun _ a => fSin a))
/-- FCOS (R139, R140). -/
def execFcos (f : FmtA) (s : State) : Out := s.enter (some 12) 0x59 fun s => s.sfuOp f (srcA f) (fun1 (fun _ a => fCos a))
/-- FTANH (R139, R140). -/
def execFtanh (f : FmtA) (s : State) : Out := s.enter (some 12) 0x59 fun s => s.sfuOp f (srcA f) (fun1 (fun _ a => fTanh a))

/-! ### Conversions -/

/-- A converted element, with whether it sets SATF and whether it is a flush (R151). -/
structure Converted where
  bits  : Nat
  sat   : Bool
  flush : Bool
  deriving DecidableEq, Repr

/-- A value converted to a float type (R128, R143, R144). Log 103 (DEDUCED). -/
def toFloat (t : Ty) (r : Rnd) (v : FVal) : Converted :=
  let c := t.ffmt.round r v
  { bits := c.1, sat := c.2,
    flush := match v with
      | .num _ m _ => m != 0 && c.1 % 2 ^ (t.width - 1) == 0
      | _ => false }

/-- A value converted to an integer type (R145). -/
def toInteger (t : Ty) (r : Rnd) (v : FVal) : Converted :=
  let clampedTo := fun (x : Int) =>
    let y := clampTo t.isSigned t.width x
    ({ bits := wrap t.width y, sat := y != x, flush := false } : Converted)
  match v with
  | .nan => { bits := 0, sat := true, flush := false }
  | .inf n => clampedTo (if n then -(2 ^ 80) else 2 ^ 80)
  | .num n m e =>
    let k : Int := (FVal.toIntMag r n m e : Nat)
    clampedTo (if n then -k else k)

/-- The source format of a conversion (R142). -/
def cvtFrom (f : FmtA) : Ty := Ty.ofCode (f.ext.extractLsb' 0 4)

/-- The sources of a conversion: A in its format, and B where the destination holds several elements (R142). -/
def cvtSrcs (f : FmtA) : List Src :=
  Src.of 0 (cvtFrom f) f.a :: (if f.ty.count = 1 then [] else [Src.of 1 f.ty f.b])

/-- Put element i into an entry. -/
def putElem (t : Ty) (r i x : Nat) : Nat := r - bitsAt r (t.width * i) t.width * 2 ^ (t.width * i) + x % 2 ^ t.width * 2 ^ (t.width * i)

/-- A conversion: `g` converts the source element's bits (R142, R147); it saturates when it completes (R166).
Log 51 (DEDUCED). -/
def State.convert (s : State) (f : FmtA) (g : Nat → Converted) : Out :=
  s.enter none 0 fun s =>
    let m := s.ctx.gov f.k
    orElse (s.vecFront m (cvtSrcs f)) <|
      if m = 0 then .next (s.advance 8)
      else if s.unitFull .conv then .next (s.hold .operand)
      else
        let w := s.ctx
        let sf := cvtFrom f
        let si := (f.ext.extractLsb' 4 4).toNat
        let di := (f.ext.extractLsb' 8 4).toNat
        let y := fun (l : Nat) => g (bitsAt (w.opnd sf f.a l) (sf.width * si) sf.width)
        let value := fun (l : Nat) => if f.ty.count = 1 then (y l).bits else putElem f.ty (w.word f.ty f.b l) di (y l).bits
        let sat := lanesWith m (fun l => (y l).sat)
        let s := s.numeric 0 (laneCount sat)
        let s := s.numeric 1 (laneCount (lanesWith m (fun l => (y l).flush)))
        .next (s.startUnit .conv m f.ty value sat)

/-- FCVT (R143). -/
def execFcvt (f : FmtA) (s : State) : Out := s.convert f (fun x => toFloat f.ty f.rnd ((cvtFrom f).ffmt.decode x))
/-- ICVT (R144). -/
def execIcvt (f : FmtA) (s : State) : Out :=
  s.convert f (fun x => toFloat f.ty f.rnd (.ofInt (elemInt (cvtFrom f).isSigned (cvtFrom f).width x)))
/-- FICVT (R145). -/
def execFicvt (f : FmtA) (s : State) : Out := s.convert f (fun x => toInteger f.ty f.rnd ((cvtFrom f).ffmt.decode x))

/-- Whether an operation is the one that its unit of a core has next: the oldest of the ordinary queue, and with that empty the
oldest of the leeway queue; while leeway contexts are revoked, the leeway queue first (R147, R149, R197).
Log 100 (DEDUCED). -/
def State.unitNext (s : State) (v : Watch) (f : Flight) : Bool :=
  let queue := fun (leeway : Bool) => (s.watches.filter (fun x => x.core == v.core && (x.cls == 2) == leeway)).flatMap (fun x =>
    (x.flights.filter (fun g => g.unit == f.unit)).map (·.id))
  let first := s.recalls.any (fun r => r.1 == v.core)
  (queue (v.cls == 2)).all (fun i => decide (f.id ≤ i)) && ((v.cls == 2) == first || (queue (v.cls != 2)).isEmpty)

/-- An operation of a unit of a watch completes, if it is the unit's next. -/
def State.unitComplete (s : State) (w : WatchRef) (id : Nat) : State :=
  s.modWatch w (fun v => if v.flights.any (fun x => x.id == id && x.inUnit && s.unitNext v x) then v.complete id else v)

/-- UNIT_OPERATION_COMPLETE: an operation of the SFU, conversion or bearing unit writes its results (R34, R147, R197). -/
def execUnitOperationComplete (w : WatchRef) (id : Nat) (s : State) : Out := .next (s.unitComplete w id)

/-! ### Scalar float -/

/-- A scalar float instruction: the F32 of bits [31:0] of each source, once for each split (R146). -/
def State.scalarFloat (s : State) (f : FmtA) (srcs : List Src) (g : FFun) : Out :=
  s.enter none 0 fun s =>
    orElse (s.uniFront srcs) <|
      let p := g s.ctx f 0 0
      let r := fresult .f32 f.rnd p.1 p.2
      .next ((s.numeric 2 r.made.toNat).pushScalar (BitVec.ofNat 64 r.code))

/-- SFADD (R146). -/
def execSfadd (f : FmtA) (s : State) : Out := s.scalarFloat f (srcAB f) (fun2 FVal.add)
/-- SFMUL (R146). -/
def execSfmul (f : FmtA) (s : State) : Out := s.scalarFloat f (srcAB f) (fun2 (fun _ a b => a.mul b))
/-- SFFMA (R146). -/
def execSffma (f : FmtA) (s : State) : Out := s.scalarFloat f (srcABC f) (fun3 FVal.fma)

/-- SFCMP (R131, R146): the condition stands in EXT16[2:0]. -/
def execSfcmp (f : FmtA) (s : State) : Out :=
  s.enter none 0 fun s =>
    orElse (s.uniFront (srcAB f)) <|
      let holds := ((FCond.ofCode ((f.ext.extractLsb' 0 3).zeroExtend 6)).map
        (fun c => fcondHolds c (s.ctx.fA f 0 0) (s.ctx.fB f 0 0))).getD false
      .next (s.pushScalar (if holds then 1 else 0))

end Sys2Proof.Machine
end

