-- ==== Sys2Proof/Machine/Packed.lean ====
section
/-!
DEFINITION. The packed narrow class, majors 0x68 to 0x6E (R156 to R167).
-/
namespace Sys2Proof.Machine

/-- A lane's result with whether it sets SATF and whether it is a flush (R151, R167). -/
abbrev Narrowed := Converted

/-- A packed instruction: `g` gives each lane's entry. -/
def State.packedOp (s : State) (f : FmtA) (srcs : List Src) (g : Watch → Nat → Narrowed) : Out :=
  s.vector f srcs fun m s =>
    let w := s.ctx
    let sat := lanesWith m (fun l => (g w l).sat)
    let s := if sat = 0 then s else s.saturate sat
    let s := s.numeric 1 (laneCount (lanesWith m (fun l => (g w l).flush)))
    .next (s.pushLanes m .b32 (fun l => (g w l).bits))

/-- Clamp to a type and say whether it changed anything; or wrap (R158, R161, R163). -/
def narrowTo (sgn : Bool) (n : Nat) (sat : Bool) (x : Int) : Nat × Bool :=
  if sat then (wrap n (clampTo sgn n x), clampTo sgn n x != x) else (wrap n x, false)

/-- The sum of the products of the elements of two entries. -/
def dotInt (sa sb : Bool) (n count a b : Nat) : Int :=
  ((List.range count).map (fun e => elemInt sa n (bitsAt a (n * e) n) * elemInt sb n (bitsAt b (n * e) n))).foldl (· + ·) 0

/-- DOT4 and DOT8 (R158). -/
def State.dot (s : State) (f : FmtA) : Out :=
  s.packedOp f (srcABC f) fun w l =>
    let sa := f.ty.isSigned
    let c := signed 32 (w.word .i32 f.c l)
    let t := c + dotInt sa (sa != f.ext.getLsbD 0) f.ty.width f.ty.count (w.word f.ty f.a l) (w.word f.ty f.b l)
    let r := narrowTo true 32 f.sat t
    { bits := r.1, sat := r.2, flush := false }

/-- DOT4 (R158). -/
def execDot4 (f : FmtA) (s : State) : Out := s.dot f
/-- DOT8 (R158). -/
def execDot8 (f : FmtA) (s : State) : Out := s.dot f

/-- The exact sum of the products of float elements, without negative zero (R159). -/
def dotFloat (w : Watch) (f : FmtA) (l : Nat) : FVal :=
  ((List.range f.ty.count).map (fun e => (w.felem f.ty f.a l e).mul (w.felem f.ty f.b l e))).foldl (FVal.add .ne)
    (.num false 0 0)

/-- Negate, leaving zero as +0 (R159). -/
def FVal.negReal (v : FVal) : FVal := if v.isZero then v else v.neg

/-- FDOT4 and FDOT8 (R159). -/
def State.fdot (s : State) (f : FmtA) : Out :=
  s.packedOp f (srcABC f) fun w l =>
    let c := modified false (f.ext.getLsbD 14) (w.felem .f32 f.c l 0)
    let nan := c.isNan || (List.range f.ty.count).any (fun e => (w.felem f.ty f.a l e).isNan || (w.felem f.ty f.b l e).isNan)
    let p := dotFloat w f l
    let p := if f.ext.getLsbD 12 then p.negReal else p
    let x := if nan then .nan else p.add f.rnd c
    { bits := (Ty.f32.ffmt.round f.rnd x).1, sat := false, flush := false }

/-- FDOT4 (R159). -/
def execFdot4 (f : FmtA) (s : State) : Out := s.fdot f
/-- FDOT8 (R159). -/
def execFdot8 (f : FmtA) (s : State) : Out := s.fdot f

/-- MAC2 (R160). -/
def execMac2 (f : FmtA) (s : State) : Out :=
  s.packedOp f (srcABC f) fun w l =>
    let t := signed 32 (w.word .i32 f.c l) + dotInt true true 16 2 (w.word f.ty f.a l) (w.word f.ty f.b l)
    let r := narrowTo true 32 true t
    { bits := r.1, sat := r.2, flush := false }

/-- The source type of PACK: signed, one step wider (R161). -/
def packFrom (t : Ty) : Ty := if t.width = 16 then .i32 else if t.width = 8 then .i16 else .i8

/-- PACK (R161). -/
def execPack (f : FmtA) (s : State) : Out :=
  let st := packFrom f.ty
  s.packedOp f [Src.of 0 st f.a, Src.of 1 st f.b] fun w l =>
    let el := fun (o : Opnd) =>
      (List.range st.count).map (fun e => narrowTo f.ty.isSigned f.ty.width f.sat (signed st.width (bitsAt (w.word st o l) (st.width * e) st.width)))
    let rs := el f.a ++ el f.b
    { bits := ofElems f.ty.width (rs.map (·.1)), sat := rs.any (·.2), flush := false }

/-- UNPK (R162). -/
def execUnpk (f : FmtA) (s : State) : Out :=
  s.packedOp f (srcA f) fun w l =>
    let n := f.ty.width
    let half := f.ty.count / 2
    let els := (List.range half).map (fun e =>
      wrap (2 * n) (elemInt f.ty.isSigned n (bitsAt (w.word f.ty f.a l) (n * (half * f.ext.toNat + e)) n)))
    { bits := ofElems (2 * n) els, sat := false, flush := false }

/-- x / 2^n rounded: ties toward +infinity, or to even (R163). -/
def shiftRound (even : Bool) (n : Nat) (x : Int) : Int :=
  let u : Int := (2 ^ n : Nat)
  if n = 0 then x
  else if !even then (x + (2 ^ (n - 1) : Nat)) / u
  else
    let q := x / u
    let r := x % u
    if 2 * r > u then q + 1 else if 2 * r = u then (if q % 2 = 0 then q else q + 1) else q

/-- SHRR (R163, R167). -/
def execShrr (f : FmtA) (s : State) : Out :=
  s.packedOp f (Src.of 0 .i32 f.a :: (if f.ty = .i32 then [] else [Src.of 1 f.ty f.b])) fun w l =>
    let x := signed 32 (w.word .i32 f.a l)
    let r := narrowTo f.ty.isSigned f.ty.width f.sat (shiftRound (f.ext.getLsbD 5) (f.ext.toNat % 32) x)
    { bits := if f.ty = .i32 then r.1 else putElem f.ty (w.word f.ty f.b l) (f.ext.toNat / 256) r.1, sat := r.2,
      flush := x != 0 && r.1 == 0 }

/-- One element of FSCL (R164). -/
def scaleElem (t : Ty) (r : Rnd) (code : Nat) (v : FVal) : Converted :=
  if code = 0 then { bits := 0, sat := false, flush := false }
  else
    let c := toFloat t r (v.mul (s8Value code))
    { c with flush := c.flush && code != 255 }

/-- FSCL (R164, R167). An immediate B is its value as a 32-bit pattern (log entry 13). Log 13 (DEDUCED). -/
def execFscl (f : FmtA) (s : State) : Out :=
  s.packedOp f [Src.of 0 f.ty f.a, Src.of 1 .b32 f.b] fun w l =>
    let code := bitsAt (w.word .b32 f.b l) (8 * f.ext.toNat) 8
    let els := (List.range f.ty.count).map (fun e => scaleElem f.ty f.rnd code (w.felem f.ty f.a l e))
    { bits := ofElems f.ty.width (els.map (·.bits)), sat := false, flush := els.any (·.flush) }

/-- SATCLR (R165): it waits while an operation of the watch that may set SATF is in flight. -/
def execSatclr (k : BitVec 3) (s : State) : Out :=
  s.enter none 0 fun s =>
    if s.ctx.flights.any (fun x => x.unit == .conv) then .next (s.hold .operand)
    else
      let m := s.ctx.gov k
      .next ((s.mapCtx (fun w => w.mapLanes (fun i l => if has m i then { l with satf := false } else l))).advance 8)

end Sys2Proof.Machine
end

