-- ==== Sys2Proof/Machine/Lanes.lean ====
section
/-!
DEFINITION. The cross-lane class, majors 0x70 to 0x75 (R168 to R177): exchanges, slides, reductions, scans and the ballot.
-/
namespace Sys2Proof.Machine

/-! ### Source lanes -/

/-- Whether some entry a vector age names in lane j satisfies `p`. -/
def Watch.entryIs (w : Watch) (p : Entry Word → Bool) (t : Ty) (o : Opnd) (j : Nat) : Bool :=
  match o with
  | .w a => (w.lane j).wake.someAt p a.toNat (if t = .i64 then 2 else 1)
  | _ => false

/-- Whether an exchange in the issuing split obtains lane j's entry (R170): of a lane of the split that has not exited and that no fallback
record excludes, be it active in a handler. -/
def Watch.obtainable (w : Watch) (j : Nat) : Bool :=
  let lane := w.lane j
  decide (j < w.ewidth) && lane.split == w.sp.id && !lane.exited && !w.originExcludes j

/-- What an exchange obtains from lane j (R170). -/
def Watch.obtain (w : Watch) (t : Ty) (o : Opnd) (fill j : Nat) : Nat :=
  if w.obtainable j && !w.entryIs Entry.isVoid t o j then w.opnd t o j else fill

/-- Whether an exchange must wait for lane j (R171). -/
def Watch.obtainPends (w : Watch) (t : Ty) (o : Opnd) (j : Nat) : Bool := w.obtainable j && w.entryIs Entry.isPend t o j

/-- Whether the parity of an entry that an exchange reads in lane j fails (R383). -/
def Watch.obtainBad (w : Watch) (t : Ty) (o : Opnd) (j : Nat) : Bool := w.obtainable j && w.entryIs Entry.isBad t o j

/-- The fill value, as one element of a type (R169). -/
def Watch.fillBits (w : Watch) (t : Ty) (o : Opnd) : Nat :=
  match o with
  | .s a => (w.sp.swake.get a.toNat).bits % 2 ^ t.width
  | .imm v => immElem t v
  | _ => 0

/-! ### Exchanges -/

/-- An exchange whose reading lane l reads lane `j w l` (R171, R172). -/
def State.exchange (s : State) (f : FmtA) (idx : List Src) (j : Watch → Nat → Nat) : Out :=
  s.enter none 0 fun s =>
    let m := s.ctx.gov f.k
    orElse (s.vecFront m (idx ++ fillSrc f.c)) <|
      let w := s.ctx
      if (lanesIn m).any (fun l => w.obtainBad f.ty f.a (j w l)) then .next s.parityKill
      else if (lanesIn m).any (fun l => w.obtainPends f.ty f.a (j w l)) then .next (s.hold .operand)
      else .next (s.pushLanes m f.ty (fun l => w.obtain f.ty f.a (w.fillBits f.ty f.c) (j w l)))

/-- SHFL (R172). -/
def execShfl (f : FmtA) (s : State) : Out := s.exchange f [⟨1, f.b, 1⟩] (fun w l => w.word .b32 f.b l)
/-- SHFLX (R172). -/
def execShflx (f : FmtA) (s : State) : Out :=
  s.exchange f [⟨1, f.b, 1⟩] (fun w l => (l ^^^ w.word .b32 f.b l) % w.ewidth)
/-- BCASTL (R172). -/
def execBcastl (f : FmtA) (s : State) : Out := s.exchange f [⟨1, f.b, 1⟩] (fun w l => w.word .b32 f.b l)

/-- Where SLIDE takes the element at position q of L: a source operand and a position in its sequence (R173). -/
def slideFrom (f : FmtA) (size q n : Int) : Option (Opnd × Nat) :=
  if 0 ≤ q ∧ q < size then some (f.a, q.toNat)
  else if f.ext.getLsbD 8 ∧ 0 ≤ n ∧ size ≤ q ∧ q < 2 * size then some (f.b, (q - size).toNat)
  else if f.ext.getLsbD 8 ∧ n < 0 ∧ -size ≤ q ∧ q < 0 then some (f.b, (q + size).toNat)
  else none

/-- SLIDE (R173). -/
def execSlide (f : FmtA) (s : State) : Out :=
  s.enter none 0 fun s =>
    let m := s.ctx.gov f.k
    orElse (s.vecFront m (fillSrc f.c)) <|
      let w := s.ctx
      let c := f.ty.count
      let n := (f.ext.extractLsb' 0 8).toInt
      let from_ := fun (l e : Nat) => slideFrom f ((w.ewidth * c : Nat) : Int) ((l * c + e : Nat) + n) n
      let fill := w.fillBits f.ty f.c
      if (lanesIn m).any (fun l => (List.range c).any (fun e =>
          ((from_ l e).map (fun p => w.obtainBad f.ty p.1 (p.2 / c))).getD false)) then .next s.parityKill
      else if (lanesIn m).any (fun l => (List.range c).any (fun e =>
          ((from_ l e).map (fun p => w.obtainPends f.ty p.1 (p.2 / c))).getD false)) then .next (s.hold .operand)
      else
        let elem := fun (l e : Nat) =>
          match from_ l e with
          | none => fill
          | some (o, p) =>
            if w.obtainable (p / c) && !w.entryIs Entry.isVoid f.ty o (p / c) then
              bitsAt (w.word f.ty o (p / c)) (f.ty.width * (p % c)) f.ty.width
            else fill
        .next (s.pushLanes m f.ty (fun l => ofElems f.ty.width ((List.range c).map (elem l))))

/-! ### Reductions and scans -/

/-- Combine two positions, of which either may be EMPTY (R175). -/
def combine {α : Type} (g : α → α → α) (x y : Option α) : Option α :=
  match x, y with
  | none, y => y
  | x, none => x
  | some a, some b => some (g a b)

/-- One level of RED's tree: neighbours are combined (R175). -/
def pairUp {α : Type} (g : α → α → α) : List (Option α) → List (Option α)
  | a :: b :: r => combine g a b :: pairUp g r
  | l => l

/-- RED's result: `n` levels over 2^n positions (R175). -/
def reduceTree {α : Type} (g : α → α → α) : Nat → List (Option α) → Option α
  | 0, l => (l.head?).getD none
  | n + 1, l => reduceTree g n (pairUp g l)

/-- SCAN's positions after n steps, the first at distance d (R175). -/
def scanSteps {α : Type} (g : α → α → α) : Nat → Nat → List (Option α) → List (Option α)
  | 0, _, l => l
  | n + 1, d, l => scanSteps g n (2 * d) (List.zipWith (combine g) (List.replicate d none ++ l) l)

/-- log2 of EWIDTH. -/
def Watch.levels (w : Watch) : Nat := Nat.log2 w.ewidth

/-- A combined value as it is pushed. -/
structure Combined where
  bits : Nat
  sat  : Bool
  made : Bool
  deriving DecidableEq, Repr

/-- How an operation combines: contributions, the combining function, and what is pushed (R174). -/
structure Combiner (α : Type) where
  get  : Nat → α
  op   : α → α → α
  put  : α → Combined

/-- Integer .ADD: the exact sum, wrapped or clamped once (R175). -/
def addCombiner (f : FmtA) : Combiner Int :=
  { get := elemInt f.ty.isSigned f.ty.width, op := (· + ·),
    put := fun x =>
      let r := narrowTo f.ty.isSigned f.ty.width f.sat x
      { bits := r.1, sat := r.2, made := false } }

/-- Operations on patterns. -/
def bitsCombiner (g : Nat → Nat → Nat) : Combiner Nat :=
  { get := id, op := g, put := fun x => { bits := x, sat := false, made := false } }

/-- Signed minimum and maximum of n-bit patterns. -/
def signedMin (n a b : Nat) : Nat := if signed n a ≤ signed n b then a else b
def signedMax (n a b : Nat) : Nat := if signed n a ≤ signed n b then b else a

/-- F32 operations on a pattern and whether a NaN contributed to it (R174, R175). -/
def floatCombiner (r : Rnd) (g : FVal → FVal → FVal) : Combiner (Nat × Bool) :=
  let val := fun (c : Nat) => Ty.f32.ffmt.decode c
  { get := fun v => (v, (val v).isNan),
    op := fun a b => ((Ty.f32.ffmt.round r (g (val a.1) (val b.1))).1, a.2 || b.2),
    put := fun x => { bits := x.1, sat := false, made := (val x.1).isNan && !x.2 } }

/-- The contributions of the enabled lanes, over the positions of the effective width (R175). -/
def contributions {α : Type} (c : Combiner α) (w : Watch) (f : FmtA) (m : Mask) : List (Option α) :=
  (List.range w.ewidth).map (fun l => if has m l then some (c.get (w.opnd f.ty f.a l)) else none)

/-- Push combined values with their flags and counts (R151, R175). -/
def State.pushCombined (s : State) (f : FmtA) (m : Mask) (v : Nat → Combined) : State :=
  let sat := lanesWith m (fun l => (v l).sat)
  let s := if sat = 0 then s else s.saturate sat
  (s.countNans m (fun l => (v l).made)).pushLanes m f.ty (fun l => (v l).bits)

/-- RED with a combiner (R175). -/
def State.redWith {α : Type} (s : State) (f : FmtA) (c : Combiner α) : Out :=
  s.vector f (srcA f) fun m s =>
    let w := s.ctx
    match reduceTree c.op w.levels (contributions c w f m) with
    | none => .next (s.advance 8)
    | some x => .next (s.pushCombined f m (fun _ => c.put x))

/-- SCAN with a combiner (R175). -/
def State.scanWith {α : Type} (s : State) (f : FmtA) (c : Combiner α) : Out :=
  s.vector f (srcA f ++ fillSrc f.c) fun m s =>
    let w := s.ctx
    let vs := scanSteps c.op w.levels 1 (contributions c w f m)
    let fill : Combined := { bits := w.fillBits f.ty f.c, sat := false, made := false }
    let at_ := fun (i : Nat) => ((vs.getD i none).map c.put).getD fill
    .next (s.pushCombined f m (fun l => if f.ext.getLsbD 0 then (if l = 0 then fill else at_ (l - 1)) else at_ l))

/-- RED (R174, R175). -/
def execRed (op : RedOp) (f : FmtA) (s : State) : Out :=
  match op with
  | .add => s.redWith f (addCombiner f)
  | .min => s.redWith f (bitsCombiner (signedMin f.ty.width))
  | .max => s.redWith f (bitsCombiner (signedMax f.ty.width))
  | .nmin => s.redWith f (bitsCombiner min)
  | .nmax => s.redWith f (bitsCombiner max)
  | .and => s.redWith f (bitsCombiner (· &&& ·))
  | .or => s.redWith f (bitsCombiner (· ||| ·))
  | .xor => s.redWith f (bitsCombiner (· ^^^ ·))
  | .fadd => s.redWith f (floatCombiner f.rnd (FVal.add f.rnd))
  | .fmin => s.redWith f (floatCombiner .ne fminimum)
  | .fmax => s.redWith f (floatCombiner .ne fmaximum)

/-- SCAN (R174, R175). -/
def execScan (op : RedOp) (f : FmtA) (s : State) : Out :=
  match op with
  | .add => s.scanWith f (addCombiner f)
  | .min => s.scanWith f (bitsCombiner (signedMin f.ty.width))
  | .max => s.scanWith f (bitsCombiner (signedMax f.ty.width))
  | .nmin => s.scanWith f (bitsCombiner min)
  | .nmax => s.scanWith f (bitsCombiner max)
  | .and => s.scanWith f (bitsCombiner (· &&& ·))
  | .or => s.scanWith f (bitsCombiner (· ||| ·))
  | .xor => s.scanWith f (bitsCombiner (· ^^^ ·))
  | .fadd => s.scanWith f (floatCombiner f.rnd (FVal.add f.rnd))
  | .fmin => s.scanWith f (floatCombiner .ne fminimum)
  | .fmax => s.scanWith f (floatCombiner .ne fmaximum)

/-- KBAL (R176). -/
def execKbal (f : FmtA) (s : State) : Out :=
  s.vector f (srcA f) fun m s =>
    let w := s.ctx
    let t := lanesWith m (fun l => w.word f.ty f.a l != 0)
    .next ((s.mapCtx (fun v => v.compare f.ext.toNat m (has t))).pushLanes m .n32
      (fun l => popCount 64 (t &&& lanesUpTo l).toNat))

end Sys2Proof.Machine
end

