-- ==== Sys2Proof/Machine/Bearings.lean ====
section
/-!
DEFINITION. The bearing class, majors 0x78 to 0x7E (R178 to R200): norms, normalisation, and the bearing unit's queue. BLD and
BST stand with the memory accesses.
-/
namespace Sys2Proof.Machine

/-! ### Norms -/

/-- The NaN bearing (R179). -/
def Bearing.nanCode : Bearing := { comps := List.replicate 256 0, norm := 0x7FFF }

def Bearing.isZero (b : Bearing) : Bool := b.norm == 0x8000
def Bearing.isNan (b : Bearing) : Bool := b.norm == 0x7FFF
def Bearing.finite (b : Bearing) : Bool := !b.isZero && !b.isNan

/-- Sum of integers. -/
def intSum (l : List Int) : Int := l.foldl (· + ·) 0

/-- R180: the squared length of a direction differs from 1 by at most 2^-11. -/
def unitDirection (d : List (BitVec 16)) : Bool :=
  decide ((intSum (d.map (fun (x : BitVec 16) => x.toInt * x.toInt)) - 2 ^ 30).natAbs ≤ 2 ^ 19)

/-- The largest t below 2^n + r with t^256 at most x, by bits from n - 1 down. -/
def root256 (x : Nat) : Nat → Nat → Nat
  | 0, r => r
  | n + 1, r => root256 x n (if (r + 2 ^ n) ^ 256 ≤ x then r + 2 ^ n else r)

/-- T(f) as a 48-bit significand: 2^(f/256) * 2^47, rounded to nearest (R182). -/
def normT (f : Nat) : Nat :=
  let t := root256 (2 ^ (47 * 256 + f)) 48 0
  if (2 * t + 1) ^ 256 ≤ 2 ^ (48 * 256 + f) then t + 1 else t

/-- G(v) as significand and exponent (R182). -/
def normG (v : Int) : Nat × Int := (normT (v % 256).toNat, v / 256 - 47)

/-- a / b rounded to nearest, ties to even. -/
def divNearest (a b : Nat) : Nat := a / b + (if roundsUp .ne false (a / b) (a % b) b then 1 else 0)

/-- The outcome of a normalisation: the bearing, whether it overflowed, and whether it underflowed (R183). -/
structure Normed where
  b     : Bearing
  above : Bool
  below : Bool
  deriving DecidableEq, Repr

/-- N(u, m) for the vector of components us * 2^e (R183). The norm code is m + 256 log2 r rounded to an integer: with h the
floor of 512 log2 r, that is m + (h + 1) / 2. -/
def normalise (us : List Int) (e m : Int) : Normed :=
  let q := (us.map (fun u => u.natAbs * u.natAbs)).foldl (· + ·) 0
  if q = 0 then { b := Bearing.zero, above := false, below := false }
  else
    let bits : Int := (Nat.log2 q + 1 : Nat)
    let half : Int := (96 - bits) / 2
    let n := if 0 ≤ half then q * 4 ^ half.toNat else q / 4 ^ (-half).toNat
    let r := isqrt n 48 0
    let re := e - half
    let sh : Int := 15 + half
    let comp := fun (u : Int) =>
      let d := if 0 ≤ sh then divNearest (u.natAbs * 2 ^ sh.toNat) r else divNearest u.natAbs (r * 2 ^ (-sh).toNat)
      BitVec.ofInt 16 (if u < 0 then -(d : Int) else min (d : Int) 32767)
    let h : Int := (Nat.log2 (r ^ 512) : Nat) + 512 * re
    let c := m + (h + 1) / 2
    let ds := us.map comp
    if c < -32767 then { b := Bearing.zero, above := false, below := true }
    else if 32766 < c then { b := { comps := ds, norm := 0x7FFE }, above := true, below := false }
    else { b := { comps := ds, norm := BitVec.ofInt 16 c }, above := false, below := false }

/-- Exact values as integers on a common power of two. -/
def commonScale (vs : List (Bool × Nat × Int)) : List Int × Int :=
  let e := (vs.filter (fun v => v.2.1 != 0)).foldl (fun a v => min a v.2.2) 1000
  (vs.map (fun v => if v.2.1 = 0 then 0 else scaled v.1 v.2.1 v.2.2 e), e)

/-! ### The bearing unit -/

def Watch.bear (w : Watch) (r : BitVec 3) : Bearing := w.bears.getD r.toNat Bearing.zero
def Watch.setBear (w : Watch) (r : BitVec 3) (b : Bearing) : Watch := { w with bears := setAt w.bears r.toNat b }

/-- Whether a bearing register's result is still in flight (R60, R197). -/
def Watch.bearPends (w : Watch) (r : BitVec 3) : Bool := w.flights.any (fun f => f.bear == some r)

/-- Whether the bearing unit's queue has no free entry for the issuing watch: 8 ordinary entries for a core, 2 for each leeway
slot (R197). -/
def State.bearFull (s : State) : Bool :=
  let w := s.ctx
  if w.cls = 2 then decide (2 ≤ w.unitCount .bear)
  else decide (8 ≤ (((s.watches.filter (fun v => v.core == w.core && v.cls != 2)).map (Watch.unitCount · .bear)).foldl (· + ·) 0))

/-- Take an entry of the bearing unit's queue and issue (R197): `f id` writes what the operation of number `id` writes, and
`bd` is the bearing register among it. -/
def State.startBear (s : State) (bd : Option (BitVec 3)) (f : Nat → Watch → Watch) : State :=
  let id := s.fresh
  let fl : Flight := { id := id, unit := .bear, path := .local, bear := bd }
  (s.tick.mapCtx (fun w => let w := f id w; { w with flights := w.flights ++ [fl] })).advance 8

/-- The fields bd, ba and bb of EXT16 (R185). -/
def bearD (f : FmtA) : BitVec 3 := f.ext.extractLsb' 8 3
def bearA (f : FmtA) : BitVec 3 := f.ext.extractLsb' 4 3
def bearB (f : FmtA) : BitVec 3 := f.ext.extractLsb' 0 3

/-- A bearing instruction: the feature check, its scalar sources, and the registers it reads (R60, R185, R186). `unit` when it
takes a queue entry. -/
def State.bearing (s : State) (maj : Nat) (srcs : List Src) (regs : List (BitVec 3)) (unit : Bool) (k : State → Out) : Out :=
  s.enter (some 2) maj fun s =>
    orElse (s.uniFront srcs) <|
      if regs.any s.ctx.bearPends || (unit && s.bearFull) then .next (s.hold .operand) else k s

/-- Set BOVF, and count one saturation (R184, R200). -/
def State.overflowBear (s : State) (b : Bool) : State :=
  if b then (s.mapCtx (fun w => { w with bovf := true })).numeric 0 1 else s

/-- Write a normalised result to bd through the unit (R183, R200). -/
def State.writeNormed (s : State) (bd : BitVec 3) (n : Normed) : State :=
  ((s.overflowBear n.above).numeric 1 n.below.toNat).startBear (some bd) (fun _ w => w.setBear bd n.b)

/-- Write the NaN code to bd through the unit; `made` from an infinity (R200). -/
def State.writeNan (s : State) (bd : BitVec 3) (made : Bool) : State :=
  (s.numeric 2 made.toNat).startBear (some bd) (fun _ w => w.setBear bd Bearing.nanCode)

/-! ### Layout -/

/-- Positions of a lane (R181). -/
def Watch.positions (w : Watch) : Nat := 256 / w.ewidth

/-- Entries of a lane for a form (R181). -/
def Watch.bearEntries (w : Watch) (t : Ty) : Nat := w.positions / t.count

/-- Component j's bits at ages A … A + k - 1 of its lane (R181). -/
def Watch.compBits (w : Watch) (t : Ty) (age j : Nat) : Nat :=
  let p := j / w.ewidth
  bitsAt ((w.lane (j % w.ewidth)).wake.get (age + w.bearEntries t - 1 - p / t.count)).bits (t.width * (p % t.count)) t.width

/-- Push the k entries of a form in the lanes of a mask, the element at position p of lane l being the code of component
p * E + l (R181, R188). -/
def Watch.pushComps (w : Watch) (m : Mask) (t : Ty) (id : Nat) (code : Nat → Nat) : Watch :=
  w.pushEach m ((List.range (w.bearEntries t)).map (fun i l =>
    .pend (BitVec.ofNat 32 (ofElems t.width ((List.range t.count).map (fun e => code ((t.count * i + e) * w.ewidth + l))))) id))

/-- BSET (R187): an age whose entries would pass w31 breaks R185 (detail: log entry 2). -/
def execBset (f : FmtA) (s : State) : Out :=
  s.enter (some 2) 0x78 fun s =>
    let w := s.ctx
    let m := w.gov f.k
    let age := match f.a with
      | .w a => a.toNat
      | _ => 0
    let n := w.bearEntries f.ty
    if 32 < age + n then .next (s.takeTrapFree causeIllfield w.k0)
    else
      orElse (s.vecFront m [⟨0, f.a, n⟩]) <|
        if s.bearFull then .next (s.hold .operand)
        else
          let us := (List.range 256).map (fun j => if has m (j % w.ewidth) then f.ty.ffmt.decode (w.compBits f.ty age j) else .num false 0 0)
          let nan := us.any FVal.isNan
          let inf := us.any (fun u => match u with
            | .inf _ => true
            | _ => false)
          if nan || inf then .next (s.writeNan (bearD f) (!nan))
          else
            let p := commonScale (us.map (fun u => match u with
              | .num g k e => (g, k, e)
              | _ => (false, 0, 0)))
            .next (s.writeNormed (bearD f) (normalise p.1 p.2 0))

/-- BZERO (R187). -/
def execBzero (f : FmtA) (s : State) : Out :=
  s.bearing 0x78 [] [bearD f] false fun s => .next ((s.mapCtx (fun w => w.setBear (bearD f) Bearing.zero)).advance 8)

/-- The code of component j of a bearing in a float type (R188). -/
def bearValue (t : Ty) (b : Bearing) : Nat → Nat :=
  let g := normG b.norm.toInt
  fun j =>
    if b.isNan then t.ffmt.nanCode
    else if b.isZero then 0
    else
      let d := (b.comps.getD j 0).toInt
      (t.ffmt.round .ne (.num (decide (d < 0)) (d.natAbs * g.1) (g.2 - 15))).1

/-- BGET (R188). -/
def execBget (f : FmtA) (s : State) : Out :=
  s.bearing 0x79 [] [bearA f] true fun s =>
    let code := bearValue f.ty (s.ctx.bear (bearA f))
    .next (s.startBear none (fun id w => w.pushComps (w.gov f.k) f.ty id code))

/-- BDIR (R188). -/
def execBdir (f : FmtA) (s : State) : Out :=
  s.bearing 0x79 [] [bearA f] true fun s =>
    let b := s.ctx.bear (bearA f)
    .next (s.startBear none (fun id w => w.pushComps (w.gov f.k) f.ty id (fun j => (b.comps.getD j 0).toNat)))

/-- BNORM (R189). -/
def execBnorm (f : FmtA) (s : State) : Out :=
  s.bearing 0x7A [] [bearA f] false fun s => .next (s.pushScalar ((s.ctx.bear (bearA f)).norm.zeroExtend 64))

/-- BTEST (R189). -/
def execBtest (f : FmtA) (s : State) : Out :=
  s.bearing 0x7A [] [bearA f] false fun s =>
    let b := s.ctx.bear (bearA f)
    .next (s.pushScalar (if b.isZero then 0 else if b.isNan then 2 else 1))

/-- BSCL (R190). -/
def execBscl (f : FmtA) (s : State) : Out :=
  s.bearing 0x7B [⟨0, f.a, 1⟩] [bearA f, bearD f] false fun s =>
    let b := s.ctx.bear (bearA f)
    let c := b.norm.toInt + ((s.ctx.uni f.a).extractLsb' 0 16).toInt
    let put := fun (s : State) (x : Bearing) => (s.mapCtx (fun w => w.setBear (bearD f) x)).advance 8
    if !b.finite then .next (put s b)
    else if c < -32767 then .next (put (s.numeric 1 1) Bearing.zero)
    else if 32766 < c then .next (put (s.overflowBear true) { b with norm := 0x7FFE })
    else .next (put s { b with norm := BitVec.ofInt 16 c })

/-- BNEG (R190). -/
def execBneg (f : FmtA) (s : State) : Out :=
  s.bearing 0x7B [] [bearA f, bearD f] false fun s =>
    let b := s.ctx.bear (bearA f)
    let n := { b with comps := b.comps.map (fun d => if d = 0x8000 then 0x7FFF else -d) }
    .next ((s.mapCtx (fun w => w.setBear (bearD f) n)).advance 8)

/-- BMOV (R190). -/
def execBmov (f : FmtA) (s : State) : Out :=
  s.bearing 0x7B [] [bearA f, bearD f] false fun s =>
    .next ((s.mapCtx (fun w => w.setBear (bearD f) (w.bear (bearA f)))).advance 8)

/-- The cosine of two bearings as an F32 pattern (R191). -/
def cosineOf (a b : Bearing) : Nat :=
  if a.isNan || b.isNan then 0x7FC00000
  else if a.isZero || b.isZero then 0
  else
    let x := intSum (List.zipWith (fun (p q : BitVec 16) => p.toInt * q.toInt) a.comps b.comps)
    if 2 ^ 30 ≤ x then 0x3F800000
    else if x ≤ -(2 ^ 30) then 0xBF800000
    else if x = 0 then 0
    else (Ty.f32.ffmt.round .ne (.num (decide (x < 0)) x.natAbs (-30))).1

/-- Push pending values of an operation to the scalar wake, the last one ending at age 0. -/
def Watch.spushPend (w : Watch) (id : Nat) (vs : List DWord) : Watch := vs.foldl (fun w v => w.spush (.pend v id)) w

/-- BDOT (R191). -/
def execBdot (f : FmtA) (s : State) : Out :=
  s.bearing 0x7C [] [bearA f, bearB f] true fun s =>
    let c := cosineOf (s.ctx.bear (bearA f)) (s.ctx.bear (bearB f))
    .next (s.startBear none (fun id w => w.spushPend id [BitVec.ofNat 64 c]))

/-- BMATCH (R193). Log 120 (DEDUCED). -/
def execBmatch (f : FmtA) (s : State) : Out :=
  s.bearing 0x7E [⟨0, f.a, 1⟩, ⟨1, f.b, 1⟩, ⟨2, f.c, 1⟩] [bearA f, bearB f] true fun s =>
    let w := s.ctx
    let c := cosineOf (w.bear (bearA f)) (w.bear (bearB f))
    let cv := Ty.f32.ffmt.decode c
    let best := Ty.f32.ffmt.decode ((w.uni f.a).toNat % 2 ^ 32)
    let better := !cv.isNan && (best.isNan || best.lt cv)
    let vs := if better then [w.uni f.c, BitVec.ofNat 64 c] else [w.uni f.b, w.uni f.a]
    .next (s.startBear none (fun id w => w.spushPend id vs))

/-- The terms that a mix adds up: finite operands with weights that are not zero (R192). -/
def mixTerms (ws : List (FVal × Bearing)) : List (Bool × Nat × Int × Bearing) :=
  ws.filterMap (fun p =>
    match p.1 with
    | .num g k e => if k ≠ 0 ∧ p.2.finite then some (g, k, e, p.2) else none
    | _ => none)

/-- α ba + β bb from finite weights (R192). -/
def mixOf (ws : List (FVal × Bearing)) : Normed :=
  let ts := mixTerms ws
  let m := (ts.map (fun t => t.2.2.2.norm.toInt)).foldl max (-32768)
  let coef := ts.map (fun t =>
    let g := normG (t.2.2.2.norm.toInt - m)
    (t.1, t.2.1 * g.1, t.2.2.1 + g.2 - 15))
  let cs := commonScale coef
  let us := (List.range 256).map (fun j =>
    intSum (List.zipWith (fun (c : Int) (t : Bool × Nat × Int × Bearing) => c * (t.2.2.2.comps.getD j 0).toInt) cs.1 ts))
  if ts.isEmpty then { b := Bearing.zero, above := false, below := false } else normalise us cs.2 m

/-- BADD and BMIX on weights (R192, R200). -/
def State.mix (s : State) (f : FmtA) (a b : FVal) : Out :=
  let x := s.ctx.bear (bearA f)
  let y := s.ctx.bear (bearB f)
  let isInf := fun (v : FVal) => match v with
    | .inf _ => true
    | _ => false
  let nan := x.isNan || y.isNan || a.isNan || b.isNan
  if nan || isInf a || isInf b then .next (s.writeNan (bearD f) (!nan))
  else .next (s.writeNormed (bearD f) (mixOf [(a, x), (b, y)]))

/-- BADD (R192). -/
def execBadd (f : FmtA) (s : State) : Out :=
  s.bearing 0x7D [] [bearA f, bearB f] true fun s => s.mix f (.num false 1 0) (.num false 1 0)

/-- BMIX (R192). Log 120 (DEDUCED). -/
def execBmix (f : FmtA) (s : State) : Out :=
  s.bearing 0x7D [⟨0, f.a, 1⟩, ⟨1, f.b, 1⟩] [bearA f, bearB f] true fun s =>
    s.mix f (s.ctx.felem .f32 f.a 0 0) (s.ctx.felem .f32 f.b 0 0)

end Sys2Proof.Machine
end

