-- ==== Sys2Proof/Machine/Access.lean ====
section
/-!
DEFINITION. The accesses of the core path P0 (R201 to R222, R379): offsets, the checks of R210, reading and writing where an
access leads, scope clamping (R229), and majors 0x7F to 0x8A.
-/
namespace Sys2Proof.Machine

/-! ### Offsets and checks -/

/-- What the checks of R210 ask of an access. -/
structure Access where
  size    : Nat
  /-- Permission to load, and to store, of the segment and of the page; `either` for CWB and CINV. -/
  rd      : Bool
  wr      : Bool
  either  : Bool := false
  aligned : Bool := true
  /-- Whether it is allowed on a page of host memory (R234) and in a fabric window (R379). -/
  host    : Bool := true
  peer    : Bool := true
  deriving DecidableEq, Repr

/-- Where an access leads: storage on the page or, where a segment's base puts it across a boundary, the two pages it touches;
an offset in a fabric window; or, across a window's edge, its first n bytes and the rest. -/
inductive Target
  | store (parts : List Part)
  | peer (win off : Nat)
  | cross (a : Target) (n : Nat) (b : Target)
  deriving DecidableEq, Repr

/-- The outcome of the checks on one access: passed; held at a recoverable fault; or the check of R210 that fails. -/
inductive Verdict
  | ok (t : Target)
  | hold (vpage : Nat)
  | fail (order : Nat)
  deriving DecidableEq, Repr

/-- Whether permission bits suffice. -/
def Access.allowed (a : Access) (r w : Bool) : Bool := if a.either then r || w else (!a.rd || r) && (!a.wr || w)

/-- The key of a scratchpad offset of a block of the watch's gang (R204). -/
def State.rankKey (s : State) (w : Watch) (rank : Nat) : Nat :=
  ((s.gangOf w.ref.launch w.ref.gang).map (fun g => g.spadAt rank)).getD (spadKey w.core 0)

/-- The checks on a scratchpad address (R20, R204, R209, R210). Log 42 (DEDUCED). -/
def State.judgeSpad (s : State) (a : Access) (addr : Nat) : Verdict :=
  let w := s.ctx
  let rank := addr / 2 ^ 30
  let off := addr % 2 ^ 19
  if a.aligned ∧ addr % a.size ≠ 0 then .fail 1
  else if addr / 2 ^ 19 % 2 ^ 11 ≠ 0 ∨ (rank < w.blocks ∧ 128 * w.spadRows < off + a.size) then .fail 2
  else if w.blocks ≤ rank ∨ w.dom ≠ w.home then .fail 4
  else .ok (.store [⟨s.rankKey w rank + off, a.size, false, false⟩])

/-- The translation and page checks on n bytes of one page (R210, R234). -/
def State.judgePart (s : State) (a : Access) (va n : Nat) : Verdict :=
  let w := s.ctx
  if w.sp.wait = .declined w.dom (va / 2 ^ 16) then .fail 6
  else
    match s.translate w.core w.dom (va / 2 ^ 16) with
    | .recoverable => .hold (va / 2 ^ 16)
    | .bad => .fail 6
    | .ok m =>
      if !a.allowed m.r m.w || (m.host && !a.host) then .fail 7
      else .ok (.store [⟨s.keyAt w.dom m (va % 2 ^ 16), n, m.host, m.hc⟩])

/-- The place of a verdict in R210's order; 8 when every check has passed. -/
def Verdict.order (v : Verdict) : Nat :=
  match v with
  | .ok _ => 8
  | .hold _ => 5
  | .fail n => n

/-- Whether a split's last page request was declined (R364). -/
def Wait.isDeclined (x : Wait) : Bool :=
  match x with
  | .declined _ _ => true
  | _ => false

/-- The verdicts on the two pages of one access, n bytes on the first: what fails earlier in R210's order decides; but where the request
for a page was declined, its PAGEFAULT does (R364). -/
def Verdict.both (declined : Bool) (v : Verdict) (n : Nat) (u : Verdict) : Verdict :=
  match v, u with
  | .ok (.store p), .ok (.store q) => .ok (.store (p ++ q))
  | .ok a, .ok b => .ok (.cross a n b)
  | .hold p, .fail 6 => if declined then .fail 6 else .hold p
  | .fail 6, .hold p => if declined then .fail 6 else .hold p
  | _, _ => if u.order < v.order then u else v

/-- The checks on n bytes of one page: in a fabric window, or by the local tables (R210, R378, R379). -/
def State.judgeRun (s : State) (a : Access) (va n : Nat) : Verdict :=
  match s.window s.ctx.dom va with
  | some k => if a.peer then .ok (.peer k (va - s.regField (.fwbase s.ctx.dom k) 16 39 * 2 ^ 16)) else .fail 7
  | none => s.judgePart a va n

/-- The checks on a virtual address from the translation on (R210, R379); an access that lies in one window is one access there.
Log 44 (DEDUCED). -/
def State.judgePage (s : State) (a : Access) (va : Nat) : Verdict :=
  let n := 2 ^ 16 - va % 2 ^ 16
  let k := s.window s.ctx.dom va
  if a.size ≤ n ∨ (k.isSome ∧ s.window s.ctx.dom (va + n) = k) then s.judgeRun a va a.size
  else Verdict.both s.ctx.sp.wait.isDeclined (s.judgeRun a va n) n (s.judgeRun a (va + n) (a.size - n))

/-- The bindings of a segment register: RD and WR (R202). -/
def segRd (g : Seg) : Bool := g.getLsbD 120
def segWr (g : Seg) : Bool := g.getLsbD 121
def Watch.seg (w : Watch) (n : BitVec 4) : Seg := w.segs.getD n.toNat 0

/-- Whether s bytes at an offset lie inside a segment (R203). -/
def inSegment (g : Seg) (o n : Nat) : Bool := decide (o + n ≤ segLimit g)

/-- The checks on a segment offset (R203, R209, R210). -/
def State.judgeSeg (s : State) (a : Access) (n : BitVec 4) (o : Nat) : Verdict :=
  let g := s.ctx.seg n
  if a.aligned ∧ o % a.size ≠ 0 then .fail 1
  else if !inSegment g o a.size then .fail 2
  else if !a.allowed (segRd g) (segWr g) then .fail 3
  else s.judgePage a (segBase g + o)

/-- The checks on an offset in either space. -/
def State.judge (s : State) (a : Access) (spad : Bool) (n : BitVec 4) (o : Nat) : Verdict :=
  if spad then s.judgeSpad a o else s.judgeSeg a n o

/-- One lane's access: lane, offset, outcome. -/
structure LaneAccess where
  lane : Nat
  off  : Nat
  v    : Verdict
  deriving DecidableEq, Repr

/-- The trap of a failed check (R210). -/
def State.accessTrap (s : State) (order : Nat) (m : Mask) (off : Nat) : State :=
  let d := BitVec.ofNat 64 off
  match order with
  | 1 => s.takeTrap causeAlign m d
  | 2 => s.takeTrap causeSeglimit m d
  | 4 => s.domainTrap m d
  | 6 => s.takeTrap causePagefault m d
  | _ => s.takeTrap causeProtect m d

/-- The checks of R210 over the accesses of an instruction: the first that any fails ends it; a recoverable fault holds the
split, unless a lane meets the page whose request was declined: that lane's PAGEFAULT is raised (R364). `uni` is the mask of an access made once for a split. -/
def State.checkAll (s : State) (write : Bool) (uni : Option Mask) (as : List LaneAccess) : Got (List (Nat × Target)) :=
  let first := (as.map (fun a => a.v.order)).foldl min 8
  let worst := if first = 5 ∧ s.ctx.sp.wait.isDeclined ∧ as.any (fun a => a.v.order == 6) then 6 else first
  match as.find? (fun a => a.v.order == worst) with
  | none => .ok []
  | some a =>
    match a.v with
    | .ok _ => .ok (as.filterMap (fun b => match b.v with
        | .ok t => some (b.lane, t)
        | _ => none))
    | .hold p => .stop (s.holdPage s.ctx.dom p write)
    | .fail n =>
      let m := uni.getD (BitVec.ofNat 64 (((as.filter (fun b => b.v.order == worst)).map (fun b => 2 ^ b.lane)).foldl (· + ·) 0))
      .stop (s.accessTrap n m a.off)

/-- The stored parts of a target. -/
def Target.parts : Target → List Part
  | .store ps => ps
  | .peer _ _ => []
  | .cross a _ b => a.parts ++ b.parts

/-- The first offset in a window that a target has, with the window. -/
def Target.inPeer : Target → Option (Nat × Nat)
  | .store _ => none
  | .peer win off => some (win, off)
  | .cross a _ b => a.inPeer <|> b.inPeer

/-- A page that the indirection table does not map ends the gang (R357). -/
def State.checkMedia (s : State) (ts : List (Nat × Target)) : Got Unit :=
  match (ts.flatMap (fun t => t.2.parts)).find? (fun p => !s.mediaOk p.key) with
  | some p => .stop (s.unmappedPage s.ctx.ref p.key)
  | none => .ok ()

/-- The offset of a lane: base, index and displacement (R207). -/
def Watch.offset (w : Watch) (spad : Bool) (m : FmtM) (disp : Int) (index : Bool) (l : Nat) : Nat :=
  let x : Nat := if index then w.word .n32 m.b l else 0
  if spad then wrap 32 ((w.word .n32 m.a l + x : Nat) + disp)
  else wrap 64 ((w.dword m.a l + x : Nat) + disp)

/-- The sources of an address (R207). -/
def addrSrcs (spad : Bool) (m : FmtM) (index : Bool) : List Src :=
  ⟨0, m.a, if spad then 1 else 2⟩ :: (if index then [⟨1, m.b, 1⟩] else [])

/-! ### Scope clamping -/

/-- Whether an access or fence of a scope is clamped in the executing domain (R229). -/
def State.clamps (s : State) (scope : BitVec 3) : Bool := scope == 7 && s.regField (.dpol s.ctx.dom) 0 1 == 1

/-- Raise SCOPE instead, where the domain asks for it (R229). Log 40 (DEDUCED). -/
def State.scopeTrap (s : State) (clamped : Bool) (detail : DWord) : Option State :=
  if clamped && s.regField (.dpol s.ctx.dom) 1 1 == 1 then some (s.takeTrap causeScope s.ctx.k0 detail) else none

/-- Count a clamp (R229). Log 41 (DEDUCED). -/
def State.noteClamp (s : State) (clamped : Bool) : State :=
  if clamped then
    let r := Reg.dstat s.ctx.dom
    (s.setRegField r 0 1 1).setRegField r 32 32 (s.regField r 32 32 + 1)
  else s

/-- An access of a non-plain order (R229): the clamp or the trap, and `k` with whether it was clamped. Log 40 (DEDUCED). -/
def State.ordered (s : State) (m : FmtM) (k : Bool → Out) : Out :=
  let c := m.ord != 0 && s.clamps m.scope
  orElse (s.scopeTrap c 1) (k c)

/-- The same of an instruction with an access per lane: under an empty mask there is none (R210). -/
def State.orderedLanes (s : State) (m : FmtM) (k : Bool → Out) : Out := if s.ctx.k0 = 0 then k false else s.ordered m k

/-- The scope at which a clamped or unclamped instruction executes (R229). -/
def scopeAs (clamped : Bool) (scope : BitVec 3) : Nat := if clamped then 6 else scope.toNat

/-- The outside paths that a scope orders with the core path: P6 from 6 on, and P5 at 7 (R228). -/
def outsidePaths (scope : Nat) : List Nat := if scope = 7 then [5, 6] else if scope = 6 then [6] else []

/-- Loads of the issuing split meet late writes of the outside paths whose successors they find, and with acquire ordering bring them into
T before them (R228). -/
def State.meetLate (s : State) (acq : Bool) (scope : Nat) (ps : List Part) : State :=
  if s.late.isEmpty then s
  else
    let hit := fun (e : LateWrite) => ps.any (fun p => e.passed.any (fun j => decide (p.key ≤ j) && decide (j < p.key + p.n)))
    let s := { s with late := s.late.map (fun (e : LateWrite) =>
      if 5 ≤ e.trail.path ∧ hit e then { e with met := (s.ctx.ref, s.ctx.sp.id) :: e.met } else e) }
    if acq then s.enterSome (fun _ e => (outsidePaths scope).contains e.trail.path && hit e) else s

/-- Writes of the issuing split make visible what a fence has released, and with release ordering every earlier write to those outside
readers who find theirs (R228, R231). -/
def State.release (s : State) (rel : Bool) (scope : Nat) (ps : List Part) : State :=
  if s.behind.isEmpty then s
  else
    let s := { s with behind := s.behind.filter (fun e => !(e.fenced.contains (s.ctx.ref, s.ctx.sp.id))) }
    if rel then
      { s with behind := s.behind.map (fun (e : Stale) =>
          if (outsidePaths scope).contains e.reader ∧ ¬ e.writes.isEmpty then
            { e with guard := ps.flatMap (fun p => (List.range p.n).map (p.key + ·)) ++ e.guard }
          else e) }
    else s

/-! ### Reading and writing a target -/

/-- The peer of a fabric window (R378). -/
def State.peerNode (s : State) (win : Nat) : Nat := s.regField (.fwtgt s.ctx.dom win) 0 16
def State.peerDom (s : State) (win : Nat) : Nat := s.regField (.fwtgt s.ctx.dom win) 16 5
def State.peerAddr (s : State) (win off : Nat) : Nat := s.regField (.fwrbase s.ctx.dom win) 0 55 + off

/-- The record of a remote access that was refused or faulted (R379, R385); of an access in gate code it names no gang (R386). -/
def State.peerRecord (s : State) (win off ans : Nat) : State :=
  if ans = 0 then s
  else
    s.record { kind := 0x0A, sub := ans, dom := s.ctx.dom, detail := s.peerNode win + s.peerDom win * 2 ^ 16,
               gang := if s.ctx.abroad then 0xFFFFFFFF else s.ctx.ref.gang,
               addr := s.regField (.fwbase s.ctx.dom win) 16 39 * 2 ^ 16 + off }

/-- How the peer answers, as a number of R385's SUB: 0 performed. A message window takes no accesses (log entry 14).
Log 14 (DEDUCED). -/
def State.answer (s : State) (win salt : Nat) : Nat :=
  if s.regField (.fwtgt s.ctx.dom win) 21 2 = 1 then 1 else Config.peerAnswer (s.fresh + salt) % 3

/-- The bytes a load finds at a target (R223, R354, R379). Log 38 (DESIGN CHOICE). -/
def State.readTarget (s : State) : Target → Nat → Nat → List Byte
  | .store ps, _, _ => ps.flatMap (fun p => (List.range p.n).map (fun i => s.cachedByte s.ctx.core p.hc (p.key + i)))
  | .peer win _, n, salt =>
    if s.answer win salt = 0 then leBytes n (Config.freeWord (s.fresh + salt)).toNat else List.replicate n 0
  | .cross a k b, n, salt => s.readTarget a k salt ++ s.readTarget b (n - k) salt

/-- What a load of n bytes does beside: it leaves copies of cacheable host bytes, or goes out to the peer, with the record of a
remote error (R218, R354, R378, R379). -/
def State.afterRead (s : State) : Target → Nat → BitVec 3 → Nat → State
  | .store ps, _, evict, _ => ps.foldl (fun u p => u.keepCopy s.ctx.core (fillPlaces s.ctx.core evict) p.hc p.key p.n) s
  | .peer win off, n, _, salt =>
    (s.send (.load (s.peerNode win) (s.peerDom win) (s.peerAddr win off) n)).peerRecord win off (s.answer win salt)
  | .cross a k b, n, evict, salt => (s.afterRead a k evict salt).afterRead b (n - k) evict salt

/-- Write bytes to the parts of a target in turn. Log 44 (DEDUCED). -/
def State.writeParts (s : State) : List Part → List Byte → State
  | [], _ => s
  | p :: ps, bs => (s.writeThrough p.key (bs.take p.n)).writeParts ps (bs.drop p.n)

/-- A store to a target (R211, R354, R379). Log 38 (DESIGN CHOICE). -/
def State.writeTarget (s : State) : Target → Nat → List Byte → State
  | .store ps, _, bs => s.writeParts ps bs
  | .peer win off, salt, bs =>
    (s.send (.store (s.peerNode win) (s.peerDom win) (s.peerAddr win off) bs)).peerRecord win off (s.answer win salt)
  | .cross a k b, salt, bs => (s.writeTarget a salt (bs.take k)).writeTarget b salt (bs.drop k)

/-- The path whose response timeout applies (R342). -/
def Target.path (t : Target) : LoadPath :=
  if t.inPeer.isSome then .fabric else if t.parts.any (·.host) then .host else .local

/-- The slowest path of several targets. -/
def pathOf (ts : List (Nat × Target)) : LoadPath :=
  if ts.any (fun t => t.2.path == .fabric) then .fabric else if ts.any (fun t => t.2.path == .host) then .host else .local

/-- The peer that a fabric access among several targets goes to (R385, KIND 0x0A). -/
def State.peerOf (s : State) (ts : List (Nat × Target)) : Nat :=
  (ts.findSome? (fun t => t.2.inPeer.map (fun x => s.peerNode x.1 + s.peerDom x.1 * 2 ^ 16))).getD 0

/-- What the accesses of an instruction order beside what they read and write (R228, R229). -/
def State.coreAccess (s : State) (m : FmtM) (clamped rd wr : Bool) (ts : List (Nat × Target)) : State :=
  if s.late.isEmpty && s.behind.isEmpty then s
  else
    let ps := ts.flatMap (fun t => t.2.parts)
    let s := if rd then s.meetLate (m.ord.getLsbD 0) (scopeAs clamped m.scope) ps else s
    if wr then s.release (m.ord.getLsbD 1) (scopeAs clamped m.scope) ps else s

/-- The first part whose bytes are poisoned: the number of its target, and its key (R384). -/
def State.poisonIn (s : State) (ts : List (Nat × Target)) : Option (Nat × Nat) :=
  ((ts.flatMap (fun t => t.2.parts.map (fun p => (t.1, p)))).find? (fun x => s.poisoned x.2.key x.2.n)).map (fun x => (x.1, x.2.key))

/-- A load of poison ends the gang (R211, R384, R385). The record's address is that of the access; a scratchpad has none.
Log 43 (DEDUCED), 55 (DEDUCED). -/
def State.loadPoison (s : State) (key addr : Nat) : State :=
  s.consumePoison s.ctx.home s.ctx.core s.ctx.ref (if 2 ^ 60 ≤ key then 4 else 1) (if 2 ^ 60 ≤ key ∨ s.ctx.abroad then 0 else addr)

/-- The virtual address of a lane's access (R203, R207). -/
def Watch.laneVa (w : Watch) (m : FmtM) (index : Bool) (l : Nat) : Nat :=
  segBase (w.seg m.seg) + w.offset false m m.disp.toInt index l

/-- The k-th eligible fill of a range with share S is retained (R220). -/
def retains (k s16 : Nat) : Bool := decide (k * s16 / 16 < (k + 1) * s16 / 16)

/-- A retained line enters its set: the domain's oldest retained line of the set goes where the reservation is full (R220). -/
def State.retain (s : State) (r : Retained) (ways : Nat) : State :=
  let same := fun (x : Retained) => x.slice == r.slice && x.dom == r.dom && Config.lineSet x.line == Config.lineSet r.line
  let mine := (s.retained.filter same).filter (· != r)
  let others := s.retained.filter (fun x => !same x)
  if ways = 0 then s else { s with retained := r :: mine.take (ways - 1) ++ others }

/-- The residency range that applies to a page on a die (R220): the lowest that is in effect and holds it. -/
def State.rangeOf (s : State) (die dom page : Nat) : Option Nat :=
  (List.range 8).find? (fun n =>
    s.regField (.rsvctl die dom n) 15 1 == 1 && s.regField (.rsvctl die dom n) 14 1 == 0 &&
      decide (s.regField (.rsvbase die dom n) 16 36 ≤ page) && decide (page ≤ s.regField (.rsvlimit die dom n) 16 36))

/-- A domain's reservation on a die (R220): the largest WAYS among its ranges in effect. -/
def State.waysOf (s : State) (die dom : Nat) : Nat :=
  ((List.range 8).map (fun i =>
    let x := s.reg (.rsvctl die dom i)
    if field x 15 1 = 1 ∧ field x 14 1 = 0 then field x 8 4 else 0)).foldl max 0

/-- The slice that homes a key: one that is in service (R11, R407). Log 81 (DESIGN CHOICE), 86 (DESIGN CHOICE). -/
def State.sliceAt (s : State) (k : Nat) : Nat :=
  let h := Config.homeSlice k
  if s.fenced.any (fun p => decide (p = .slice h.val)) then
    (((List.range 128).map (h.val + · + 1)).map (· % 128)).find? (fun n => !s.fenced.any (fun p => decide (p = .slice n))) |>.getD h.val
  else h.val

/-- Count an eligible fill of a residency range at a key, and retain its line if SAMPLE selects it (R220). -/
def State.sampleOne (s : State) (salt k : Nat) : State :=
  let slice := s.sliceAt k
  let die := slice / 32
  let dom := s.ctx.dom
  match s.rangeOf die dom (pageOf k) with
  | some n =>
    if Config.fillsLine salt then
      let key := fun (c : Nat × Nat × Nat × Nat × Nat) => c.1 == die && c.2.1 == dom && c.2.2.1 == n && c.2.2.2.1 == slice
      let old := ((s.samples.find? key).map (fun c => c.2.2.2.2)).getD 0
      let u := { s with samples := (die, dom, n, slice, (old + 1) % 16) :: s.samples.filter (fun c => !key c) }
      if retains old (s.regField (.rsvctl die dom n) 0 5) then
        u.retain { die := die, dom := dom, range := n, slice := slice, line := k / 512 } (s.waysOf die dom)
      else u
    else s
  | none => s

/-- Count the eligible fills of an access, a sector each, and retain those that SAMPLE selects (R218, R220): only EVICT 4 is eligible. -/
def State.sampleFill (s : State) (evict : BitVec 3) (salt : Nat) (t : Target) : State :=
  if evict ≠ 4 then s
  else
    let sectors := (t.parts.filter (fun p => decide (p.key < 2 ^ 58))).flatMap (fun p =>
      (List.range ((p.key + p.n - 1) / 128 - p.key / 128 + 1)).map (fun i => if i = 0 then p.key else 128 * (p.key / 128 + i)))
    (mapFrom (fun i k => (i, k)) 0 sectors).foldl (fun (u : State) x => u.sampleOne (64 * (s.fresh + salt) + x.1) x.2) s

/-! ### Loads -/

/-- A loaded value widened to an entry of n bits (R208). -/
def widen (t : Ty) (n : Nat) (bs : List Byte) : Nat := if t.isSigned then wrap n (signed t.width (leNat bs)) else leNat bs

/-- Whether one more load would bring the watch's count to 64 (R62). -/
def Watch.loadsFull (w : Watch) : Bool := decide (63 ≤ w.loadCount)

/-- The entries a loaded value is pushed as, the last one ending at age 0 (R33, R208, R213). -/
def loadEntries (t : Ty) (bs : List Byte) : List Nat :=
  if bs.length = 16 then (List.range 4).map (fun i => leNat ((bs.drop (4 * i)).take 4))
  else if t = .i64 then [leNat (bs.take 4), leNat (bs.drop 4)]
  else [widen t 32 bs]

/-- Perform the loads of the lanes of a mask and push their pending values (R34, R211, R212). `va` gives each lane's address. -/
def State.pushLoads (s : State) (m : Mask) (unit : UnitKind) (va : Nat → Nat) (ts : List (Nat × Target))
    (vals : List (Nat × List Nat)) : State :=
  let id := s.fresh
  let n := ((vals.head?).map (fun v => v.2.length)).getD 0
  let val := fun (i l : Nat) => (.pend (BitVec.ofNat 32 ((getKey l [] vals).getD i 0)) id : Entry Word)
  let addr := ((ts.find? (fun t => t.2.path != .local)).map (fun t => va t.1)).getD 0
  let remote := maskOf (fun l => ts.any (fun t => t.1 == l && t.2.path != .local))
  let fl : Flight := { id := id, unit := unit, path := pathOf ts, bear := none, peer := s.peerOf ts, addr := addr, remote := remote }
  let s := s.mapCtx (fun w => let w := w.pushEach m ((List.range n).map val); { w with flights := w.flights ++ [fl] })
  { s with fresh := s.fresh + 65 }

/-- The loads of an instruction, its checks passed. -/
def State.doLoads (s : State) (m : Mask) (t : Ty) (n : Nat) (evict : BitVec 3) (va : Nat → Nat) (ts : List (Nat × Target)) : State :=
  let vals := ts.map (fun x => (x.1, loadEntries t (s.readTarget x.2 n (1 + x.1))))
  let s' := ts.foldl (fun (u : State) x => (u.afterRead x.2 n evict (1 + x.1)).sampleFill evict (1 + x.1) x.2) s
  s'.pushLoads m .load va ts vals

/-- The lanes' accesses of a vector instruction. -/
def State.laneAccesses (s : State) (a : Access) (spad : Bool) (m : FmtM) (disp : Int) (index : Bool) : List LaneAccess :=
  (lanesIn s.ctx.k0).map (fun l =>
    let o := s.ctx.offset spad m disp index l
    { lane := l, off := o, v := s.judge a spad m.seg o })

/-- A load per lane of n bytes (R212, R213). -/
def State.loadLanes (s : State) (m : FmtM) (spad : Bool) (n : Nat) (after : List (Nat × Target) → State → State) : Out :=
  s.enter none 0 fun s =>
    s.orderedLanes m fun clamped =>
      orElse (s.vecFront s.ctx.k0 (addrSrcs spad m true)) <|
        if s.ctx.k0 = 0 then .next (s.advance 8)
        else if s.ctx.loadsFull then .next (s.hold .operand)
        else
          let a : Access := { size := n, rd := true, wr := false, peer := decide (n ≤ 8) }
          (s.checkAll false none (s.laneAccesses a spad m m.disp.toInt true)).andThen fun ts =>
            (s.checkMedia ts).andThen fun _ =>
              match s.poisonIn ts with
              | some (l, k) => .next (s.loadPoison k (s.ctx.laneVa m true l))
              | none => .next ((after ts (((s.noteClamp clamped).coreAccess m clamped true false ts).doLoads s.ctx.k0 m.ty n m.evict (s.ctx.laneVa m true) ts)).advance 8)

/-- LD (R212). -/
def execLd (m : FmtM) (s : State) : Out := s.loadLanes m false m.ty.bytes (fun _ s => s)
/-- LDS (R212). -/
def execLds (m : FmtM) (s : State) : Out := s.loadLanes m true m.ty.bytes (fun _ s => s)
/-- LDW (R213). -/
def execLdw (m : FmtM) (s : State) : Out := s.loadLanes m false 16 (fun _ s => s)

/-! ### Stores -/

/-- A lane loses its reservation by its own store, atomic or SCND (R239). -/
def State.dropLaneResv (s : State) (l : Nat) : State :=
  s.mapCtx (fun w => { w with lanes := modAt (fun x => { x with resv := none }) w.lanes l })

/-- The data of a store in a lane: the low n bytes of the operand, or the four entries of STW (R208, R213). -/
def Watch.storeData (w : Watch) (t : Ty) (n : Nat) (o : Opnd) (l : Nat) : List Byte :=
  if n = 16 then
    (List.range 4).flatMap (fun i =>
      leBytes 4 (match o with
        | .w a => ((w.lane l).wake.get (a.toNat + 3 - i)).bits
        | .c c => w.slotAt (c.toNat + i) l
        | _ => 0))
  else leBytes n (w.opnd t o l)

/-- Perform the stores of the lanes in ascending order (R211). -/
def State.doStores (s : State) (evict : BitVec 3) (ts : List (Nat × Target)) (data : Nat → List Byte) : State :=
  let s' := ts.foldl (fun (u : State) x =>
    ((u.writeTarget x.2 (1 + x.1) (data x.1)).dropLaneResv x.1).sampleFill evict (1 + x.1) x.2) s
  { s' with fresh := s'.fresh + 65 }

/-- A store per lane (R212, R213). -/
def State.storeLanes (s : State) (m : FmtM) (spad : Bool) (n : Nat) : Out :=
  s.enter none 0 fun s =>
    s.orderedLanes m fun clamped =>
      let span := if n = 16 then 4 else if n = 8 then 2 else 1
      orElse (s.vecFront s.ctx.k0 (addrSrcs spad m true ++ [⟨2, m.c, span⟩])) <|
        if s.ctx.k0 = 0 then .next (s.advance 8)
        else
          let a : Access := { size := n, rd := false, wr := true, peer := decide (n ≤ 8) }
          (s.checkAll true none (s.laneAccesses a spad m m.disp.toInt true)).andThen fun ts =>
            (s.checkMedia ts).andThen fun _ =>
              let w := s.ctx
              .next ((((s.noteClamp clamped).coreAccess m clamped false true ts).doStores m.evict ts (w.storeData m.ty n m.c)).advance 8)

/-- ST (R212). -/
def execSt (m : FmtM) (s : State) : Out := s.storeLanes m false m.ty.bytes
/-- STS (R212). -/
def execSts (m : FmtM) (s : State) : Out := s.storeLanes m true m.ty.bytes
/-- STW (R213). -/
def execStw (m : FmtM) (s : State) : Out := s.storeLanes m false 16

/-! ### Uniform accesses -/

/-- The one access of a uniform instruction at an offset (R214, R195). -/
def State.uniAccess (s : State) (a : Access) (seg : BitVec 4) (o : Nat) : LaneAccess :=
  { lane := 0, off := o, v := s.judge a false seg o }

/-- LDU (R214). -/
def execLdu (m : FmtM) (s : State) : Out :=
  s.enter none 0 fun s =>
    s.ordered m fun clamped =>
      orElse (s.uniFront [⟨0, m.a, 1⟩, ⟨1, m.b, 1⟩]) <|
        if s.ctx.loadsFull then .next (s.hold .operand)
        else
          let n := m.ty.bytes
          let a : Access := { size := n, rd := true, wr := false }
          (s.checkAll false (some s.ctx.k0) [s.uniAccess a m.seg (s.ctx.offset false m m.disp.toInt true 0)]).andThen fun ts =>
            (s.checkMedia ts).andThen fun _ =>
              match s.poisonIn ts, ts with
              | some (_, k), _ => .next (s.loadPoison k (s.ctx.laneVa m true 0))
              | none, (_, t) :: _ =>
                let s := (s.noteClamp clamped).coreAccess m clamped true false ts
                let v := BitVec.ofNat 64 (widen m.ty 64 (s.readTarget t n 1))
                let id := s.fresh
                let addr := if t.path = .local then 0 else s.ctx.laneVa m true 0
                let fl : Flight := { id := id, unit := .load, path := t.path, bear := none, peer := s.peerOf [(0, t)], addr := addr, remote := if t.path = .local then 0 else 1 }
                let s := (s.afterRead t n m.evict 1).sampleFill m.evict 1 t
                let s := s.mapCtx (fun w => let w := w.spush (.pend v id); { w with flights := w.flights ++ [fl] })
                .next (({ s with fresh := s.fresh + 2 } : State).advance 8)
              | none, [] => .next (s.advance 8)

/-- STU (R214): a store by no lane (R239). -/
def execStu (m : FmtM) (s : State) : Out :=
  s.enter none 0 fun s =>
    s.ordered m fun clamped =>
      orElse (s.uniFront [⟨0, m.a, 1⟩, ⟨1, m.b, 1⟩, ⟨2, m.c, 1⟩]) <|
        let n := m.ty.bytes
        let a : Access := { size := n, rd := false, wr := true }
        (s.checkAll true (some s.ctx.k0) [s.uniAccess a m.seg (s.ctx.offset false m m.disp.toInt true 0)]).andThen fun ts =>
          (s.checkMedia ts).andThen fun _ =>
            let bs := leBytes n (s.ctx.opnd m.ty m.c 0)
            let s := ts.foldl (fun (u : State) x => (u.writeTarget x.2 1 bs).sampleFill m.evict 1 x.2) ((s.noteClamp clamped).coreAccess m clamped false true ts)
            .next (({ s with fresh := s.fresh + 2 } : State).advance 8)

/-! ### LEA, prefetch and cache operations -/

/-- LEA (R215): only the segment's limit is checked. -/
def execLea (m : FmtM) (s : State) : Out :=
  s.enter none 0 fun s =>
    orElse (s.vecFront s.ctx.k0 (addrSrcs false m true)) <|
      let w := s.ctx
      let g := w.seg m.seg
      let as := (lanesIn w.k0).map (fun l =>
        let o := w.offset false m m.disp.toInt true l
        ({ lane := l, off := o, v := if inSegment g o m.ty.bytes then .ok (.store []) else .fail 2 } : LaneAccess))
      (s.checkAll false none as).andThen fun _ =>
        .next (s.pushLanes w.k0 .i64 (fun l => segBase g + w.offset false m m.disp.toInt true l))

/-- PREF (R216): it brings sectors into the LLC, and into the core's L1 unless EVICT is 3, so that a cacheable host page may leave a
copy (R354) and a residency range counts its fills (R220); it never traps and checks no alignment (R209). -/
def execPref (m : FmtM) (s : State) : Out :=
  s.enter none 0 fun s =>
    let w := s.ctx
    let srcs := addrSrcs false m true
    let readable := fun (l : Nat) => srcs.all (fun x => !x.beyond w && x.voidIn w (lane1 l) == 0)
    let a : Access := { size := m.ty.bytes, rd := true, wr := false, aligned := false }
    let places := if m.evict = 3 then [640] else [w.core, 640]
    let fill := fun (u : State) (l : Nat) =>
      if readable l then
        match s.judgeSeg a m.seg (w.offset false m m.disp.toInt true l) with
        | .ok (.store (⟨k, n, host, hc⟩ :: ps)) =>
          if s.mediaOk k then
            (u.keepCopy w.core places (host && hc) k 1).sampleFill m.evict (1 + l) (.store (⟨k, n, host, hc⟩ :: ps))
          else u
        | _ => u
      else u
    let t := (lanesIn w.k0).foldl fill s
    .next (({ t with fresh := t.fresh + 65 } : State).advance 8)

/-- CWB and CINV (R217): `k` acts on each lane's sector. A page request of theirs reports a read. Log 130 (DESIGN CHOICE). -/
def State.cacheOp (s : State) (m : FmtM) (k : State → Nat → State) : Out :=
  s.enter none 0 fun s =>
    orElse (s.vecFront s.ctx.k0 (addrSrcs false m true)) <|
      let a : Access := { size := 1, rd := true, wr := true, either := true }
      (s.checkAll false none (s.laneAccesses a false m m.disp.toInt true)).andThen fun ts =>
        (s.checkMedia ts).andThen fun _ =>
          .next ((ts.foldl (fun u t => match t.2.parts with
            | p :: _ => k u (p.key / 128 * 128)
            | [] => u) s).advance 8)

/-- CWB (R217): residency only. -/
def execCwb (m : FmtM) (s : State) : Out := s.cacheOp m (fun s _ => s)
/-- CINV (R217): the sector's copies of a cacheable host page go (R354). -/
def execCinv (m : FmtM) (s : State) : Out := s.cacheOp m (fun s k => s.dropCopies s.ctx.core k 128)

/-! ### Bearing records -/

/-- The bytes of a bearing record (R194, R195). -/
def Bearing.bytes (b : Bearing) : List Byte :=
  leBytes 2 b.norm.toNat ++ List.replicate 14 0 ++
    b.comps.flatMap (fun d => leBytes 2 (if b.finite then d.toNat else 0))

/-- The bearing in 528 bytes, or the detail of BEARING (R196). -/
def parseBearing (bs : List Byte) : Bearing ⊕ Nat :=
  let norm := BitVec.ofNat 16 (fieldOf bs 0 2)
  let ds := (List.range 256).map (fun j => BitVec.ofNat 16 (fieldOf bs (16 + 2 * j) 2))
  let b : Bearing := { comps := ds, norm := norm }
  if !((bs.drop 2).take 14).all (· == 0) then .inr 1
  else if b.finite && !unitDirection ds then .inr 2
  else if b.isZero && ds.any (· != 0) then .inr 3
  else if b.isNan then .inl Bearing.nanCode
  else .inl b

/-- The sources and the offset of a bearing record's address: an absent operand counts 0 (R195). -/
def bearSrcs (m : FmtM) : List Src := (if m.a.si then [⟨0, m.a, 1⟩] else []) ++ (if m.b.si then [⟨1, m.b, 1⟩] else [])
def Watch.bearOffset (w : Watch) (m : FmtM) : Nat :=
  wrap 64 (((if m.a.si then (w.uni m.a).toNat else 0) + (if m.b.si then (w.uni m.b).toNat else 0) : Nat) + m.disp.toInt)

/-- The checks on a record of 528 B: alignment, limit and permission, then the pages of its 33 parts (R195). -/
def State.bearAccess (s : State) (a : Access) (seg : BitVec 4) (o : Nat) : List LaneAccess :=
  let g := s.ctx.seg seg
  if o % 16 ≠ 0 then [⟨0, o, .fail 1⟩]
  else if !inSegment g o 528 then [⟨0, o, .fail 2⟩]
  else if !a.allowed (segRd g) (segWr g) then [⟨0, o, .fail 3⟩]
  else (List.range 33).map (fun i => ⟨i, o, s.judgePage a (segBase g + o + 16 * i)⟩)

/-- Which of a record's 33 events the present issue performs: from, and up to (R195, R223). They take place in ascending order, which R195
does not specify. Log 119 (DESIGN CHOICE). -/
def RecordPart.span (r : RecordPart) : Nat × Nat := (min r.done 33, if r.goal = 0 then 33 else min 33 (r.done + r.goal))

/-- Those events, by number, with where each leads. -/
def RecordPart.due (r : RecordPart) : List (Nat × Target) :=
  ((mapFrom (fun i ps => (i, Target.store ps)) 0 r.parts).drop r.span.1).take (r.span.2 - r.span.1)

/-- BLD's events of the present issue; the record is checked and written once all have been read (R195, R196, R223).
Log 119 (DESIGN CHOICE). -/
def State.loadRecord (s : State) (r : BitVec 3) (m : FmtM) (x : RecordPart) : Out :=
  match s.poisonIn x.due with
  | some (i, k) => .next ((s.setRecord {}).loadPoison k (segBase (s.ctx.seg m.seg) + s.ctx.bearOffset m + 16 * i))
  | none =>
    let bytes := x.bytes ++ x.due.flatMap (fun t => s.readTarget t.2 16 0)
    let u := x.due.foldl (fun (u : State) t => (u.afterRead t.2 16 m.evict 0).sampleFill m.evict t.1 t.2) s
    if x.span.2 < 33 then .next ((u.setRecord { x with done := x.span.2, bytes := bytes, goal := 0 }).hold .record)
    else
      match parseBearing bytes with
      | .inr d => .next ((s.setRecord {}).takeTrap causeBearing s.ctx.k0 (BitVec.ofNat 64 d))
      | .inl b => .next (((u.setRecord {}).tick.mapCtx (fun w => w.setBear r b)).advance 8)

/-- BST's events of the present issue (R195, R223). Log 119 (DESIGN CHOICE). -/
def State.storeRecord (s : State) (m : FmtM) (x : RecordPart) : Out :=
  let u := x.due.foldl (fun (u : State) t =>
    (u.writeTarget t.2 0 ((x.bytes.drop (16 * t.1)).take 16)).sampleFill m.evict t.1 t.2) s
  if x.span.2 < 33 then .next ((u.setRecord { x with done := x.span.2, goal := 0 }).hold .record)
  else .next ((u.setRecord {}).advance 8)

/-- The first issue of BLD or BST: its checks, which are made once; a later one goes on with the events that remain (R55, R195). -/
def State.bearRecord (s : State) (r : BitVec 3) (m : FmtM) (write : Bool) (k : RecordPart → State → Out) : Out :=
  s.enter (some 2) 0x7F fun s =>
    let x := s.ctx.sp.record
    if x.done ≠ 0 then k x s
    else
      s.ordered m fun clamped =>
        orElse (s.uniFront (bearSrcs m)) <|
          if s.ctx.bearPends r || (!write && s.ctx.loadsFull) then .next (s.hold .operand)
          else
            let a : Access := { size := 16, rd := !write, wr := write, peer := false }
            (s.checkAll write (some s.ctx.k0) (s.bearAccess a m.seg (s.ctx.bearOffset m))).andThen fun ts =>
              (s.checkMedia ts).andThen fun _ =>
                k { x with parts := ts.map (fun t => t.2.parts), bytes := if write then (s.ctx.bear r).bytes else [], write := write }
                  ((s.noteClamp clamped).coreAccess m clamped (!write) write ts)

/-- BLD (R195, R196). Log 119 (DESIGN CHOICE). -/
def execBld (r : BitVec 3) (m : FmtM) (s : State) : Out := s.bearRecord r m false fun x s => s.loadRecord r m x
/-- BST (R195). Log 119 (DESIGN CHOICE). -/
def execBst (r : BitVec 3) (m : FmtM) (s : State) : Out := s.bearRecord r m true fun x s => s.storeRecord m x

/-! ### Arrival -/

/-- The value of a load or atomic arrives, in the running watch or in its image (R34, R342). -/
def State.arrive (s : State) (w : WatchRef) (id : Nat) : State :=
  s.intoImage w (fun v => if v.flights.any (fun x => x.id == id && !x.inUnit) then v.complete id else v)

/-- PENDING_VALUE_ARRIVAL (R34, R342). -/
def execPendingValueArrival (w : WatchRef) (id : Nat) (s : State) : Out := .next (s.arrive w id)

end Sys2Proof.Machine
end

