-- ==== Sys2Proof/Machine/Atomics.lean ====
section
/-!
DEFINITION. Atomics and load reservations, majors 0x90 to 0x95 (R234 to R239).
-/
namespace Sys2Proof.Machine

/-- Whether the space selector names scratchpad (R234). -/
def inSpad (m : FmtM) : Bool := m.evict == 1

/-! ### One event of T -/

/-- The atomic read-modify-write of one lane (R223, R235); across a window's edge the peer is sent a load, and a store of what is written
(R379, log entry 44): `g` gives the value written from the old one, if it writes. `op` and
`out` are what a fabric peer is sent (R379). The answer is the old value's bytes. Log 44 (DEDUCED). -/
def State.atomicAt (s : State) (l n : Nat) (t : Target) (op : BitVec 4) (out : List Byte) (g : Nat → Option Nat) :
    State × List Byte :=
  let s := s.dropLaneResv l
  match t with
  | .store ps =>
    let old := ps.flatMap (fun p => s.bytes p.key p.n)
    match g (leNat old) with
    | some v => (s.writeParts ps (leBytes n v), old)
    | none => (s, old)
  | .peer win off =>
    let old := s.readTarget t n (1 + l)
    ((s.send (.atomic (s.peerNode win) (s.peerDom win) (s.peerAddr win off) op out)).peerRecord win off (s.answer win (1 + l)), old)
  | .cross _ _ _ =>
    let old := s.readTarget t n (1 + l)
    let s := s.afterRead t n 3 (1 + l)
    match g (leNat old) with
    | some v => (s.writeTarget t (1 + l) (leBytes n v), old)
    | none => (s, old)

/-- The events of an instruction's lanes, in ascending order. Log 45 (DEDUCED). -/
def State.atomicAll (s : State) (n : Nat) (op : BitVec 4) (out : Nat → List Byte) (g : Nat → Nat → Option Nat) :
    List (Nat × Target) → State × List (Nat × List Byte)
  | [] => (s, [])
  | (l, t) :: ts =>
    let r := s.atomicAt l n t op (out l) (g l)
    let rest := r.1.atomicAll n op out g ts
    (rest.1, (l, r.2) :: rest.2)

/-- What an atomic asks of an instruction's addresses. -/
structure AtomicShape where
  /-- The feature group and its major (R334). -/
  group  : Option Nat
  major  : Nat
  size   : Nat
  host   : Bool
  peer   : Bool
  index  : Bool
  rdOnly : Bool
  pushes : Bool
  srcs   : List Src
  /-- Whether it loads what it addresses (R384): all but SCND do. -/
  reads  : Bool

/-- The front of every atomic: clamping, sources, the load count, the checks of R210 with permission to read and write; `k`
goes on with the lanes' targets. -/
def State.atomic (s : State) (m : FmtM) (x : AtomicShape) (k : List (Nat × Target) → State → Out) : Out :=
  s.enter x.group x.major fun s =>
    s.orderedLanes m fun clamped =>
      let spad := inSpad m
      orElse (s.vecFront s.ctx.k0 (addrSrcs spad m x.index ++ x.srcs)) <|
        if s.ctx.k0 = 0 then .next (s.advance 8)
        else if x.pushes && s.ctx.loadsFull then .next (s.hold .operand)
        else
          let a : Access := { size := x.size, rd := true, wr := !x.rdOnly, host := x.host, peer := x.peer }
          (s.checkAll (!x.rdOnly) none (s.laneAccesses a spad m m.disp.toInt x.index)).andThen fun ts =>
            (s.checkMedia ts).andThen fun _ =>
              match (if x.reads then s.poisonIn ts else none) with
              | some (l, p) => .next (s.loadPoison p (s.ctx.laneVa m x.index l))
              | none => k ts ((s.noteClamp clamped).coreAccess m clamped x.reads (!x.rdOnly) ts)

/-- Push the old values, widened as loads widen them, and go on (R235, R208, R213). -/
def State.pushOlds (s : State) (t : Ty) (va : Nat → Nat) (ts : List (Nat × Target)) (olds : List (Nat × List Byte)) : State :=
  (s.pushLoads s.ctx.k0 .atomic va ts (olds.map (fun x => (x.1, loadEntries t x.2)))).advance 8

/-- ATOM on w-bit values: `g n old v` is written (R235). -/
def State.atom (s : State) (m : FmtM) (op : BitVec 4) (host : Bool) (g : Nat → Nat → Nat → Nat) : Out :=
  let n := m.ty.bytes
  s.atomic m ⟨none, 0, n, host, true, true, false, true, [Src.of 2 m.ty m.c], true⟩ fun ts s =>
    let w := s.ctx
    let v := fun (l : Nat) => w.opnd m.ty m.c l
    let r := s.atomicAll n op (fun l => leBytes n (v l)) (fun l old => some (g (8 * n) old (v l))) ts
    .next (r.1.pushOlds m.ty (w.laneVa m true) ts r.2)

/-- ATOM.ADD (R234, R235). -/
def execAtomAdd (m : FmtM) (s : State) : Out := s.atom m 0 true (fun n a b => (a + b) % 2 ^ n)
/-- ATOM.AND (R234, R235). -/
def execAtomAnd (m : FmtM) (s : State) : Out := s.atom m 1 false (fun _ a b => a &&& b)
/-- ATOM.OR (R234, R235). -/
def execAtomOr (m : FmtM) (s : State) : Out := s.atom m 2 false (fun _ a b => a ||| b)
/-- ATOM.XOR (R234, R235). -/
def execAtomXor (m : FmtM) (s : State) : Out := s.atom m 3 false (fun _ a b => a ^^^ b)
/-- ATOM.MIN (R234, R235). -/
def execAtomMin (m : FmtM) (s : State) : Out := s.atom m 4 false (fun n a b => if signed n a ≤ signed n b then a else b)
/-- ATOM.MAX (R234, R235). -/
def execAtomMax (m : FmtM) (s : State) : Out := s.atom m 5 false (fun n a b => if signed n a ≤ signed n b then b else a)
/-- ATOM.NMIN (R234, R235). -/
def execAtomNmin (m : FmtM) (s : State) : Out := s.atom m 6 false (fun _ a b => min a b)
/-- ATOM.NMAX (R234, R235). -/
def execAtomNmax (m : FmtM) (s : State) : Out := s.atom m 7 false (fun _ a b => max a b)
/-- ATOM.XCHG (R234, R235). -/
def execAtomXchg (m : FmtM) (s : State) : Out := s.atom m 8 true (fun _ _ b => b)

/-- ACAS (R234, R235): the operand B is the value compared, and the offset has no index. -/
def execAcas (m : FmtM) (s : State) : Out :=
  let n := m.ty.bytes
  s.atomic m ⟨none, 0, n, true, true, false, false, true, [Src.of 1 m.ty m.b, Src.of 2 m.ty m.c], true⟩ fun ts s =>
    let w := s.ctx
    let new := fun (l : Nat) => w.opnd m.ty m.c l
    let cmp := fun (l : Nat) => w.opnd m.ty m.b l % 2 ^ (8 * n)
    let r := s.atomicAll n 9 (fun l => leBytes n (cmp l) ++ leBytes n (new l))
      (fun l old => if old = cmp l then some (new l) else none) ts
    .next (r.1.pushOlds m.ty (w.laneVa m false) ts r.2)

/-- AFADD (R235): the sum rounded to nearest even, NaN canonical (R123). -/
def execAfadd (m : FmtM) (s : State) : Out :=
  s.atomic m ⟨some 5, 0x92, 4, false, false, true, false, true, [⟨2, m.c, 1⟩], true⟩ fun ts s =>
    let w := s.ctx
    let f := Ty.f32.ffmt
    let r := s.atomicAll 4 0 (fun _ => [])
      (fun l old => some (f.round .ne (FVal.add .ne (f.decode old) (f.decode (w.word .f32 m.c l)))).1) ts
    .next (r.1.pushOlds .f32 (w.laneVa m true) ts r.2)

/-! ### Anchored cells -/

/-- SPECIAL of a sum of special values (R237): 0 finite, 1 +infinity, 2 -infinity, 3 NaN. -/
def joinSpecial (a b : Nat) : Nat := if a = 0 then b else if b = 0 then a else if a = b then a else 3

/-- The rounded value of m * 2^e with its sign (R237). -/
def roundedInt (neg : Bool) (m : Nat) (e : Int) : Int :=
  let r : Int := (roundAt .ne neg m e 0 : Nat)
  if neg then -r else r

/-- A cell to which an F32 value has been added (R236, R237). -/
def addToCell (cell : Nat) (x : FVal) : Nat :=
  let int := bitsAt cell 0 94
  let special := bitsAt cell 94 2
  let anchor := signed 10 (bitsAt cell 96 10)
  let flags := bitsAt cell 106 3
  let pack := fun (i sp fl : Nat) => i + sp * 2 ^ 94 + bitsAt cell 96 10 * 2 ^ 96 + fl * 2 ^ 106
  match x with
  | .nan => pack int (joinSpecial special 3) (flags ||| 2)
  | .inf n => pack int (joinSpecial special (if n then 2 else 1)) (flags ||| 4)
  | .num n m e =>
    let big := !(FVal.lt (.num false m e) (.num false 1 (anchor + 1)))
    pack (wrap 94 (int + roundedInt n m (e + 62 - anchor))) special (if big then flags ||| 1 else flags)

/-- AXADD (R236, R237): .B32 pushes the old 16 bytes as LDW does, .F32 pushes nothing. -/
def execAxadd (m : FmtM) (s : State) : Out :=
  let pushes := m.ty = .b32
  s.atomic m ⟨some 6, 0x93, 16, false, false, true, false, pushes, [⟨2, m.c, 1⟩], true⟩ fun ts s =>
    let w := s.ctx
    let r := s.atomicAll 16 0 (fun _ => [])
      (fun l old => some (addToCell old (Ty.f32.ffmt.decode (w.word .f32 m.c l)))) ts
    .next (if pushes then r.1.pushOlds .b32 (w.laneVa m true) ts r.2 else (r.1.tick).advance 8)

/-! ### Load reservations -/

/-- The sector, or scratchpad row, of a target (R238). -/
def Target.sector (t : Target) : Nat := ((t.parts.head?).map (fun p => p.key / 128)).getD 0

/-- LRES (R238). -/
def execLres (m : FmtM) (s : State) : Out :=
  let n := m.ty.bytes
  s.atomic m ⟨none, 0, n, false, false, true, true, true, [], true⟩ fun ts s =>
    let olds := ts.map (fun x => (x.1, s.readTarget x.2 n (1 + x.1)))
    let s := s.mapCtx (fun w => w.mapLanes (fun i l =>
      match ts.find? (fun t => t.1 == i) with
      | some t => { l with resv := some t.2.sector }
      | none => l))
    .next (s.pushOlds m.ty (s.ctx.laneVa m true) ts olds)

/-- SCND in the lanes of an instruction, in ascending order (R238): 1 where it stored. One whose reservation stands always succeeds, which
R240 leaves open outside constrained sequences. Log 131 (DESIGN CHOICE). -/
def State.scndAll (s : State) (n : Nat) (v : Nat → Nat) : List (Nat × Target) → State × List (Nat × List Byte)
  | [] => (s, [])
  | (l, t) :: ts =>
    let held := decide ((s.ctx.lane l).resv = some t.sector)
    let s := s.dropLaneResv l
    let s := if held then s.writeTarget t (1 + l) (leBytes n (v l)) else s
    let rest := s.scndAll n v ts
    (rest.1, (l, leBytes 4 held.toNat) :: rest.2)

/-- SCND (R238). -/
def execScnd (m : FmtM) (s : State) : Out :=
  let n := m.ty.bytes
  s.atomic m ⟨none, 0, n, false, false, true, false, true, [Src.of 2 m.ty m.c], false⟩ fun ts s =>
    let w := s.ctx
    let r := s.scndAll n (fun l => w.opnd m.ty m.c l) ts
    .next (r.1.pushOlds .n32 (w.laneVa m true) ts r.2)

end Sys2Proof.Machine
end

