-- ==== Sys2Proof/Machine/Barriers.lean ====
section
/-!
DEFINITION. Fences (R229 to R232), barrier objects (R241 to R248), and the block and gang barriers (R249), with the crossing points that they are (R227).
-/
namespace Sys2Proof.Machine

/-! ### Fences -/

/-- Scope clamping of a fence (R229). Log 40 (DEDUCED). -/
def State.fenceScope (s : State) (scope : BitVec 3) (detail : DWord) (k : Bool → Out) : Out :=
  orElse (s.scopeTrap (s.clamps scope) detail) (k (s.clamps scope))

/-- A FENCE at a scope, as it executes (R231): ACQ brings in the outside writes that precede one which a load of the split has met; REL
makes every earlier write visible outside before the split's next. -/
def State.fenceAt (s : State) (ord : BitVec 2) (scope : Nat) : State :=
  let me := (s.ctx.ref, s.ctx.sp.id)
  let ps := outsidePaths scope
  let s := if ord.getLsbD 0 then s.enterSome (fun _ e => ps.contains e.trail.path && e.met.contains me) else s
  if ord.getLsbD 1 then
    { s with behind := s.behind.map (fun (e : Stale) => if ps.contains e.reader ∧ ¬ e.writes.isEmpty then { e with fenced := me :: e.fenced } else e) }
  else s

/-- FENCE (R230, R231). Log 15 (DESIGN CHOICE). -/
def execFence (ord : BitVec 2) (scope : BitVec 3) (s : State) : Out :=
  s.enter none 0 fun s => s.fenceScope scope 2 fun clamped =>
    .next (((s.fenceAt ord (scopeAs clamped scope)).noteClamp clamped).advance 8)

/-- Whether commands of a path that the issuing split issued have still to complete (R232): P1 copy, P2 gather, P3 matrix,
P4 collective. -/
def State.pathBusy (s : State) (path : Nat) : Bool :=
  let w := s.ctx
  if path = 3 then s.mats.any (fun c => decide (c.watch = w.ref) && c.split == w.sp.id)
  else s.cmds.any (fun c => decide (c.watch = w.ref) && c.split == w.sp.id && c.path == path)

/-- FENCEX (R229, R230, R232): clamped, one that names P5 executes as FENCE.AR at scope 6. Log 15 (DESIGN CHOICE). -/
def execFencex (scope : BitVec 3) (x y : BitVec 4) (s : State) : Out :=
  s.enter none 0 fun s =>
    s.fenceScope scope 3 fun clamped =>
      if clamped && (x == 5 || y == 5) then .next (((s.fenceAt 3 6).noteClamp true).advance 8)
      else if 1 ≤ x ∧ x ≤ 4 ∧ s.pathBusy x.toNat then .next (s.hold (.fencex x.toNat))
      else
        let me := s.ctx
        .next (((s.crossPaths me.ref me.sp.id (·.before me.ref me.sp.id x.toNat) y.toNat).noteClamp clamped).advance 8)

/-! ### Barrier objects -/

/-- The four fields of a barrier object (R241). -/
structure BarObj where
  expected : Nat
  phase    : Bool
  pending  : Nat
  deriving DecidableEq, Repr

def BarObj.ofNat (v : Nat) : BarObj := { expected := bitsAt v 64 48, phase := bitsAt v 48 1 == 1, pending := bitsAt v 0 48 }

/-- PENDING with bit 47 set marks the fault state (R241). -/
def BarObj.faulted (b : BarObj) : Bool := decide (2 ^ 47 ≤ b.pending)
def barFault : Nat := 2 ^ 48 - 1

/-- Subtract n (R243). -/
def BarObj.sub (b : BarObj) (n : Nat) : BarObj :=
  if b.faulted then b
  else if b.pending < n then { b with pending := barFault }
  else if 0 < n ∧ b.pending = n then { b with phase := !b.phase, pending := b.expected }
  else { b with pending := b.pending - n }

/-- Add n (R243). -/
def BarObj.add (b : BarObj) (n : Nat) : BarObj :=
  if b.faulted then b else if 2 ^ 47 ≤ b.pending + n then { b with pending := barFault } else { b with pending := b.pending + n }

/-- Initialise (R243). -/
def BarObj.init (v : Nat) : BarObj :=
  { expected := v % 2 ^ 48, phase := false, pending := if 2 ^ 47 ≤ v then barFault else v }

/-- The bits of an object; `old` supplies the reserved ones (R241). -/
def BarObj.toNat (b : BarObj) (old : Nat) : Nat :=
  b.pending + b.phase.toNat * 2 ^ 48 + bitsAt old 49 15 * 2 ^ 49 + b.expected * 2 ^ 64 + bitsAt old 112 16 * 2 ^ 112

/-- An update of the object at a key; the bits that no field holds stay as they are. -/
def State.updateBar (s : State) (k : Nat) (f : BarObj → BarObj) : State :=
  let old := s.load k 16
  let t := s.store k 16 ((f (BarObj.ofNat old)).toNat old)
  if (f (BarObj.ofNat old)).phase = (BarObj.ofNat old).phase then t else t.flipTrails k false

/-- The issuing split has updated the object at a key (R242), which is a write of it (R231). -/
def State.noteUse (s : State) (k : Nat) : State :=
  let s := s.release false 0 []
  if s.objUses.any (fun u => u.key == k && decide (u.watch = s.ctx.ref) && u.split == s.ctx.sp.id) then s
  else { s with objUses := s.objUses ++ [{ key := k, watch := s.ctx.ref, split := s.ctx.sp.id, num := s.fresh }] }

/-- The issuing split initialises the object at a key: what others did to it before counts no more (R242, R243). -/
def State.noteInit (s : State) (k : Nat) : State :=
  ({ s with objUses := s.objUses.filter (fun u => u.key != k) }.noteUse k).flipTrails k true

/-- Whether a command's subtraction may take its place in O before the BINIT of the object at a key: its split had not updated the object
since, when it issued the command (R242, R429). -/
def State.beforeInit (s : State) (t : Trail) (k : Nat) : Bool :=
  s.objUses.any (fun u => u.key == k) &&
    !(s.objUses.any (fun u => u.key == k && decide (u.watch = t.watch) && u.split == t.split && t.cmd.any (fun c => decide (u.num ≤ c))))

/-- A command's engine subtracts delivered bytes from the object at a key (R242, R243); in a place before BINIT that leaves it in the
fault state (R429). Log 123 (DEDUCED). -/
def State.countBar (s : State) (t : Trail) (k n : Nat) : State :=
  if n = 0 then s
  else if s.manner = .early ∧ s.beforeInit t k then s.updateBar k (fun b => { b with pending := barFault })
  else s.updateBar k (·.sub n)

/-- The front of an instruction on an object: its operands, then the checks of a 16 B access (R244). -/
def State.barFront (s : State) (e : FmtE) (write reads : Bool) (k : Nat → DWord → State → Out) : Out :=
  s.enter none 0 fun s =>
    orElse (s.uniFront [⟨0, e.a, 1⟩, ⟨1, e.b, 1⟩]) <|
      let addr := (s.ctx.uni e.b).toNat % 2 ^ 32
      let a : Access := { size := 16, rd := true, wr := false }
      (s.checkAll write (some s.ctx.k0) [{ lane := 0, off := addr, v := s.judgeSpad a addr }]).andThen fun ts =>
        match ts with
        | (_, .store (⟨key, _, _, _⟩ :: _)) :: _ =>
          if reads && s.poisoned key 16 then .next (s.loadPoison key 0) else k key (s.ctx.uni e.a) s
        | _ => .next (s.advance 8)

/-- BINIT (R243, R245). -/
def execBinit (e : FmtE) (s : State) : Out :=
  s.barFront e true false fun k v s => .next (((s.store k 16 ((BarObj.init v.toNat).toNat 0)).noteInit k).advance 8)
/-- BARM (R243, R245). Log 88 (DEDUCED). -/
def execBarm (e : FmtE) (s : State) : Out :=
  s.barFront e true true fun k v s => .next (((s.updateBar k (·.add v.toNat)).noteUse k).advance 8)
/-- BARRIVE (R243, R245). -/
def execBarrive (e : FmtE) (s : State) : Out :=
  s.barFront e true true fun k v s => .next (((s.updateBar k (·.sub v.toNat)).noteUse k).advance 8)

/-- BARFAULT, with the object's address (R247). -/
def State.barTrap (s : State) (e : FmtE) : State :=
  s.takeTrap causeBarfault s.ctx.k0 (BitVec.ofNat 64 ((s.ctx.uni e.b).toNat % 2 ^ 32))

/-- The issuing split sees the last phase of the object at a key complete; with acquire ordering that is a crossing point (R227, R232,
R246). -/
def State.phaseSeen (s : State) (acq : Bool) (k : Nat) : State :=
  let s := s.seePhase k s.ctx.ref s.ctx.sp.id
  if acq then s.crossPhase k else s

/-- WAITB (R246, R247). Log 88 (DEDUCED). -/
def execWaitb (e : FmtE) (s : State) : Out :=
  s.barFront e false true fun k v s =>
    let b := BarObj.ofNat (s.load k 16)
    if b.faulted then .next (s.barTrap e)
    else if b.phase = v.getLsbD 0 then .next (s.hold (.waitb k (v.getLsbD 0)))
    else .next ((s.phaseSeen (e.flags.getLsbD 0) k).advance 8)

/-- TESTB (R246, R247). -/
def execTestb (e : FmtE) (s : State) : Out :=
  s.barFront e false true fun k v s =>
    let b := BarObj.ofNat (s.load k 16)
    if b.faulted then .next (s.barTrap e)
    else if b.phase = v.getLsbD 0 then .next ((s.mapCtx (·.pushUni 0)).advance 8)
    else .next (((s.phaseSeen (e.flags.getLsbD 0) k).mapCtx (·.pushUni 1)).advance 8)

/-- WAITC.LD (R248). -/
def execWaitcLd (limit : BitVec 6) (s : State) : Out :=
  s.enter none 0 fun s =>
    if limit.toNat < s.ctx.loadCount then .next (s.hold (.waitc false limit.toNat)) else .next (s.advance 8)

/-- The writes of the watch's engine commands that have completed enter T (R227). -/
def State.crossDone (s : State) : State :=
  s.crossSome (fun t => decide (t.watch = s.ctx.ref) && t.cmd.any (fun id =>
    !(s.cmds.any (fun c => c.id == id) || s.mats.any (fun c => c.id == id))))

/-- WAITC.ENG (R227, R248). -/
def execWaitcEng (acq : Bool) (limit : BitVec 6) (s : State) : Out :=
  s.enter none 0 fun s =>
    if limit.toNat < s.engineCount s.ctx.ref then .next (s.hold (.waitc true limit.toNat))
    else .next ((if acq then s.crossDone else s).advance 8)

/-! ### Block and gang barriers -/

/-- BARRIER.BLOCK (R249). -/
def execBarrierBlock (s : State) : Out :=
  s.enter none 0 fun s => .next (((s.advance 8).hold (.barrier false)).pollGang s.ctx.ref)
/-- BARRIER.GANG (R249). -/
def execBarrierGang (s : State) : Out :=
  s.enter none 0 fun s => .next (((s.advance 8).hold (.barrier true)).pollGang s.ctx.ref)

end Sys2Proof.Machine
end

