-- ==== Sys2Proof/Machine/Shapes.lean ====
section
/-!
DEFINITION. Shape records (R251 to R256): fields, positions, addresses, block scales, elements, the conditions of R259 that
concern one shape, and SHLD, SHST and SHSET.
-/
namespace Sys2Proof.Machine

/-! ### Fields (R251) -/

def shField (h : Shape) (lo n : Nat) : Nat := bitsAt h.toNat lo n
def shSpad (h : Shape) : Bool := shField h 508 1 == 1
def shOob (h : Shape) : Nat := shField h 506 2
def shTid (h : Shape) : Nat := shField h 494 12
def shFill (h : Shape) : Nat := shField h 462 32
def shScoff (h : Shape) : Int := signed 40 (shField h 422 40)
def shBlk (h : Shape) : Nat := shField h 420 2
def shLayout (h : Shape) : Nat := shField h 417 3
def shFmt (h : Shape) : Nat := shField h 412 5
def shOrg (h : Shape) (k : Nat) : Int := signed 24 (shField h (316 + 24 * k) 24)
def shBox (h : Shape) (k : Nat) : Nat := shField h (268 + 12 * k) 12
/-- The byte stride of a dimension above 0; dimension 0 is contiguous. -/
def shStep (h : Shape) (k : Nat) : Nat := if k = 0 then 0 else shField h (160 + 36 * (k - 1)) 36
def shExt (h : Shape) (k : Nat) : Nat := shField h (64 + 24 * k) 24
def shBase (h : Shape) : Nat := shField h 0 64

/-- Element width in bits (R252). -/
def fmtBits (f : Nat) : Nat :=
  if f ≤ 13 then (Ty.ofCode (BitVec.ofNat 4 f)).width
  else if f ≤ 16 then 1024
  else if f = 17 then 96
  else if f = 18 then 4224
  else 8

def shBits (h : Shape) : Nat := fmtBits (shFmt h)

/-- The scale block length (R251): 0 for none. -/
def shLen (h : Shape) : Nat := if shBlk h = 0 then 0 else 8 * 2 ^ shBlk h

/-! ### Positions -/

/-- A position of a piece's coordinate space, by dimension. -/
abbrev Pos := Nat → Int

/-- The dimensions satisfy `p`. -/
def allDims (p : Nat → Bool) : Bool := (List.range 4).all p

/-- Positions of a tile (R251). -/
def shCount (h : Shape) : Nat := shBox h 0 * shBox h 1 * shBox h 2 * shBox h 3

/-- Tile position number n in tile order, t0 fastest (R251). -/
def tileAt (h : Shape) (n : Nat) : Pos := fun k =>
  match k with
  | 0 => (n % shBox h 0 : Nat)
  | 1 => (n / shBox h 0 % shBox h 1 : Nat)
  | 2 => (n / (shBox h 0 * shBox h 1) % shBox h 2 : Nat)
  | _ => (n / (shBox h 0 * shBox h 1 * shBox h 2) : Nat)

/-- The piece element that tile position t names (R251). -/
def elemAt (h : Shape) (t : Pos) : Pos := fun k => shOrg h k + t k

/-- Log 47 (DEDUCED). -/
def inBounds (h : Shape) (i : Pos) : Bool := allDims (fun k => decide (0 ≤ i k) && decide (i k < shExt h k))

/-- The position clamped to the edges (R255). Log 47 (DEDUCED). -/
def clamped (h : Shape) (i : Pos) : Pos := fun k => max 0 (min (i k) ((shExt h k : Int) - 1))

/-- Byte offset of the rows of dimensions 1 to 3. -/
def rowOffset (h : Shape) (i : Pos) : Nat := (i 1).toNat * shStep h 1 + (i 2).toNat * shStep h 2 + (i 3).toNat * shStep h 3

/-- The byte offset of element i within its row, swizzled under LAYOUT 1 (R253). -/
def inRow (h : Shape) (i : Pos) : Nat :=
  let r := (i 0).toNat * shBits h / 8
  if shLayout h = 1 then r ^^^ ((i 1).toNat % 8 * 16) else r

/-- The byte address of an in-bounds element, and its bit within the byte (R253). Log 46 (DEDUCED). -/
def elemByte (h : Shape) (i : Pos) : Nat := shBase h + rowOffset h i + inRow h i
def elemBit (h : Shape) (i : Pos) : Nat := (i 0).toNat * shBits h % 8

/-- Bytes an element touches. -/
def elemBytes (h : Shape) : Nat := (shBits h + 7) / 8

/-- The address of the scale of a position's block, when that block holds an in-bounds element (R254). -/
def scaleByte (h : Shape) (i : Pos) : Option Int :=
  let l : Int := shLen h
  if shBlk h = 0 then none
  else
    let start := i 0 / l * l
    if start + l ≤ 0 ∨ (shExt h 0 : Int) ≤ start ∨
        ¬ [1, 2, 3].all (fun k => decide (0 ≤ i k) && decide (i k < shExt h k)) then none
    else
      let unit : Int := l * shBits h
      let row := fun (k : Nat) => i k * shStep h k * 8 / unit
      some (shBase h + shScoff h + i 0 / l + row 1 + row 2 + row 3)

/-! ### The conditions that concern one shape (R259) -/

/-- First and last coordinates of the elements a tile reaches, by dimension, or none when it reaches none. -/
def reached (h : Shape) : Option (Pos × Pos) :=
  let lo := fun (k : Nat) => max 0 (min (shOrg h k) ((shExt h k : Int) - 1))
  let hi := fun (k : Nat) => max 0 (min (shOrg h k + shBox h k - 1) ((shExt h k : Int) - 1))
  if allDims (fun k => shExt h k != 0 &&
      (shOob h == 2 || (decide (0 < shOrg h k + shBox h k) && decide (shOrg h k < shExt h k)))) then some (lo, hi)
  else none

/-- The lowest and the highest byte of a run of elements: the rows of the first eight and the last eight values of dimension 1
hold them, whatever the swizzle. -/
def byteSpan (h : Shape) (lo hi : Pos) : Nat × Nat :=
  let cols := (List.range ((hi 0 - lo 0).toNat + 1)).map (fun (n : Nat) => lo 0 + (n : Int))
  let steps := List.range (min 8 ((hi 1 - lo 1).toNat + 1))
  let at_ := fun (c r : Int) (edge : Pos) => fun (k : Nat) => if k = 0 then c else if k = 1 then r else edge k
  let firsts := cols.flatMap (fun c => steps.map (fun (j : Nat) => elemByte h (at_ c (lo 1 + (j : Int)) lo)))
  let lasts := cols.flatMap (fun c => steps.map (fun (j : Nat) => elemByte h (at_ c (hi 1 - (j : Int)) hi)))
  ((firsts.foldl (fun m x => if m = 0 ∨ x + 1 < m then x + 1 else m) 0) - 1,
   lasts.foldl max 0 + elemBytes h - 1)

/-- Whether an address lies below 2^55. -/
def lowAddr (a : Int) : Bool := decide (0 ≤ a) && decide (a < 2 ^ 55)

/-- Whether BLK breaks R254. -/
def blkBroken (h : Shape) : Bool :=
  shBlk h != 0 &&
  (!([3, 4, 5, 10, 12].contains (shFmt h)) || shOrg h 0 % shLen h != 0 || shBox h 0 % shLen h != 0 ||
   [1, 2, 3].any (fun k => shStep h k * 8 % (shLen h * shBits h) != 0))

/-- Whether the tile lies wholly in bounds. -/
def tileInside (h : Shape) : Bool :=
  allDims (fun k => decide (0 ≤ shOrg h k) && decide (shOrg h k + shBox h k ≤ shExt h k))

/-- Condition 0x08 for an operand of a gang whose blocks have `rows` scratchpad rows. -/
def spadBad (h : Shape) (rows : Nat) : Bool :=
  decide (2 ^ 32 ≤ shBase h) || shBlk h != 0 ||
  (match reached h with
   | some (lo, hi) =>
     let b := byteSpan h lo hi
     b.1 / 2 ^ 30 != shBase h / 2 ^ 30 || b.2 / 2 ^ 30 != shBase h / 2 ^ 30 || decide (128 * rows ≤ b.2 % 2 ^ 30)
   | none => false)

/-- Condition 0x09. -/
def addrBad (h : Shape) : Bool :=
  match reached h with
  | some (lo, hi) =>
    decide (2 ^ 55 ≤ (byteSpan h lo hi).2) ||
    (shBlk h != 0 && !(((scaleByte h lo).map lowAddr).getD true && ((scaleByte h hi).map lowAddr).getD true))
  | none => false

/-- The first condition that a shape breaks, 0 for none. `mustSpad`: a CPYP destination (R264). -/
def shapeBad (h : Shape) (rows : Nat) (mustSpad : Bool) : Nat :=
  if !allDims (fun k => shBox h k != 0) then 0x01
  else if 1 < shLayout h ∨ (shLayout h = 1 ∧ (shBase h % 128 ≠ 0 ∨ shStep h 1 % 128 ≠ 0)) then 0x03
  else if shOob h = 3 then 0x04
  else if shOob h = 1 ∧ ¬ tileInside h then 0x05
  else if blkBroken h then 0x06
  else if shBits h = 4 ∧ (shOrg h 0 % 2 ≠ 0 ∨ shBox h 0 % 2 ≠ 0) then 0x07
  else if (shSpad h && spadBad h rows) || (mustSpad && !shSpad h) then 0x08
  else if ¬ shSpad h ∧ addrBad h then 0x09
  else if 14 ≤ shFmt h ∧ shFmt h ≤ 18 ∧ ¬ tileInside h then 0x0B
  else 0

/-- The byte size of a tile with its scale bytes (R267). -/
def tileBytes (h : Shape) : Nat :=
  shCount h * shBits h / 8 + (if shBlk h = 0 then 0 else shCount h / shLen h)

/-! ### SHLD, SHST, SHSET -/

/-- The offset of SHLD and SHST (R256). -/
def Watch.shapeOffset (w : Watch) (e : FmtE) : Nat :=
  wrap 64 ((w.uni e.a).toNat + (e.ext.extractLsb' 0 12).toInt * 64)

/-- The checks on a record of 64 B: one access of four parts (R256). -/
def State.shapeAccess (s : State) (a : Access) (e : FmtE) : List LaneAccess :=
  let o := s.ctx.shapeOffset e
  let g := s.ctx.seg (e.ext.extractLsb' 12 4)
  if o % 64 ≠ 0 then [⟨0, o, .fail 1⟩]
  else if !inSegment g o 64 then [⟨0, o, .fail 2⟩]
  else if !a.allowed (segRd g) (segWr g) then [⟨0, o, .fail 3⟩]
  else (List.range 4).map (fun i => ⟨i, o, s.judgePage a (segBase g + o + 16 * i)⟩)

def Watch.shape (w : Watch) (r : BitVec 4) : Shape := w.shapes.getD r.toNat 0
def Watch.setShape (w : Watch) (r : BitVec 4) (h : Shape) : Watch := { w with shapes := setAt w.shapes r.toNat h }

/-- ILLFIELD for a reserved FMT (R256). -/
def State.badFmt (s : State) : State := s.takeTrap causeIllfield s.ctx.k0 0x0110

/-- SHLD (R256): bits [511:509] of a record are reserved. Its four parts and SHST's, whose order R256 does not specify, take place in
ascending order in one step. Log 119 (DESIGN CHOICE). -/
def execShld (e : FmtE) (s : State) : Out :=
  s.enter none 0 fun s =>
    orElse (s.uniFront [⟨0, e.a, 1⟩]) <|
      let a : Access := { size := 16, rd := true, wr := false, peer := false }
      (s.checkAll false (some s.ctx.k0) (s.shapeAccess a e)).andThen fun ts =>
        (s.checkMedia ts).andThen fun _ =>
          match s.poisonIn ts with
          | some (i, k) => .next (s.loadPoison k (segBase (s.ctx.seg (e.ext.extractLsb' 12 4)) + s.ctx.shapeOffset e + 16 * i))
          | none =>
            let v := leNat (ts.flatMap (fun t => s.readTarget t.2 16 0)) % 2 ^ 509
            let h : Shape := BitVec.ofNat 512 v
            if 20 ≤ shFmt h then .next s.badFmt
            else
              let s := ts.foldl (fun (u : State) t => u.afterRead t.2 16 0 0) (s.meetLate false 0 (ts.flatMap (fun t => t.2.parts)))
              .next ((s.tick.mapCtx (fun w => w.setShape e.sha h)).advance 8)

/-- SHST (R256). Log 119 (DESIGN CHOICE). -/
def execShst (e : FmtE) (s : State) : Out :=
  s.enter none 0 fun s =>
    orElse (s.uniFront [⟨0, e.a, 1⟩]) <|
      let a : Access := { size := 16, rd := false, wr := true, peer := false }
      (s.checkAll true (some s.ctx.k0) (s.shapeAccess a e)).andThen fun ts =>
        (s.checkMedia ts).andThen fun _ =>
          let bs := leBytes 64 ((s.ctx.shape e.sha).toNat % 2 ^ 509)
          .next ((ts.foldl (fun (u : State) t => u.writeTarget t.2 0 ((bs.drop (16 * t.1)).take 16)) (s.release false 0 [])).advance 8)

/-- The place of the field that SHSET names: low bit and width (R256). -/
def shsetField (sel : Nat) : Nat × Nat :=
  match sel with
  | 0 => (0, 64)
  | 1 => (64, 24) | 2 => (88, 24) | 3 => (112, 24) | 4 => (136, 24)
  | 5 => (160, 36) | 6 => (196, 36) | 7 => (232, 36)
  | 8 => (268, 12) | 9 => (280, 12) | 10 => (292, 12) | 11 => (304, 12)
  | 12 => (316, 24) | 13 => (340, 24) | 14 => (364, 24) | 15 => (388, 24)
  | 16 => (412, 5) | 17 => (417, 3) | 18 => (420, 2) | 19 => (422, 40)
  | 20 => (462, 32) | 21 => (494, 12) | 22 => (506, 2) | _ => (508, 1)

/-- A shape with one field replaced. -/
def putShape (h : Shape) (lo n v : Nat) : Shape :=
  BitVec.ofNat 512 (h.toNat - bitsAt h.toNat lo n * 2 ^ lo + v % 2 ^ n * 2 ^ lo)

/-- SHSET (R256). -/
def execShset (e : FmtE) (s : State) : Out :=
  s.enter none 0 fun s =>
    orElse (s.uniFront [⟨0, e.a, 1⟩]) <|
      let v := (s.ctx.uni e.a).toNat
      let f := shsetField (e.ext.extractLsb' 0 5).toNat
      if e.ext.extractLsb' 0 5 = 16 ∧ 20 ≤ v % 32 then .next s.badFmt
      else .next ((s.mapCtx (fun w => w.setShape e.sha (putShape (w.shape e.sha) f.1 f.2 v))).advance 8)

end Sys2Proof.Machine
end

