-- ==== Sys2Proof/Machine/Copy.lean ====
section
/-!
DEFINITION. The copy, gather and collective engines, majors 0xA2 to 0xA7 (R257 to R271): what an engine reads and writes, the
checks at issue, the queues, delivery and completion.
-/
namespace Sys2Proof.Machine

/-! ### What an agent reads and writes -/

/-- A unit that works for a watch in a domain: its translation unit, the watch whose gang's scratchpad it reaches, the domain, and
whose accesses they are: path, engine, and the command it carries out. -/
structure Agent where
  tu    : Nat
  watch : WatchRef
  dom   : Nat
  trail : Trail := {}
  deriving DecidableEq, Repr

/-- The outcome of an agent's access: done, held at a recoverable fault, an engine fault with SUB and ADDR of its record, or an
uncorrectable error (R270, R384, R357). -/
inductive Work (α : Type)
  | ok (a : α)
  | hold (vpage : Nat) (write : Bool)
  | fault (sub addr : Nat)
  | poison (key addr : Nat)
  | unmapped (key : Nat)

def Work.bind {α β : Type} (x : Work α) (f : α → Work β) : Work β :=
  match x with
  | .ok a => f a
  | .hold p w => .hold p w
  | .fault s a => .fault s a
  | .poison k a => .poison k a
  | .unmapped k => .unmapped k

/-- The key of an address on one page, or in scratchpad rows of the gang (R204, R270). -/
def State.agentKey (s : State) (g : Agent) (spad write : Bool) (addr : Nat) : Work Nat :=
  if spad then
    match s.gangOf g.watch.launch g.watch.gang with
    | some x =>
      let rows := ((s.launchOf g.watch.launch).map (·.recd.sprows)).getD 0
      if addr / 2 ^ 30 < x.places.length ∧ addr % 2 ^ 30 < 128 * rows then .ok (x.spadAt (addr / 2 ^ 30) + addr % 2 ^ 30)
      else .fault 1 addr
    | none => .ok (s.rankKey s.ctx 0 + addr % 2 ^ 30)
  else
    match s.reachAt g.tu g.dom addr write with
    | .ok k => if s.mediaOk k then .ok k else .unmapped k
    | .hold p => .hold p write
    | .refused perm => .fault (if perm then 2 else 1) addr

/-- The keys of n bytes at an address: one run, or two across a page boundary. -/
def State.agentRuns (s : State) (g : Agent) (spad write : Bool) (addr n : Nat) : Work (List (Nat × Nat)) :=
  let m := 2 ^ 16 - addr % 2 ^ 16
  if spad || decide (n ≤ m) then (s.agentKey g spad write addr).bind fun k => .ok [(k, n)]
  else
    (s.agentKey g spad write addr).bind fun k =>
      (s.agentKey g spad write (addr + m)).bind fun k' => .ok [(k, m), (k', n - m)]

/-- Read n bytes (R226, R270, R384). -/
def State.agentRead (s : State) (g : Agent) (spad : Bool) (addr n : Nat) : Work (List Byte) :=
  (s.agentRuns g spad false addr n).bind fun rs =>
    match rs.find? (fun r => s.poisoned r.1 r.2) with
    | some r => .poison r.1 addr
    | none => .ok (rs.flatMap (fun r => s.pathBytes g.trail r.1 r.2))

/-- Half bytes that commands which arrived later at an agent's engine have written (R269). -/
def State.laterHalves (s : State) (g : Agent) : List Nat :=
  ((g.trail.cmd.bind (fun id => s.cmds.find? (fun c => c.id == id))).map (·.overlaid)).getD []

/-- The commands that arrived before an agent's at its engine will leave the half bytes that it writes as they are (R269). -/
def State.claimHalves (s : State) (g : Agent) (hs : List Nat) : State :=
  match g.trail.cmd.bind (fun id => s.cmds.find? (fun c => c.id == id)) with
  | none => s
  | some c =>
    { s with cmds := s.cmds.map (fun (e : EngCmd) =>
        if e.place = c.place ∧ e.path = c.path ∧ e.id < c.id then { e with overlaid := hs ++ e.overlaid } else e) }

/-- The halves of n bytes at a key. -/
def halvesOf (k n : Nat) : List Nat := (List.range (2 * n)).map (2 * k + ·)

/-- Half a byte of an agent, unless a later command has written it (R269). -/
def State.agentHalf (s : State) (g : Agent) (k : Nat) (high : Bool) (v : Nat) : State :=
  let h := 2 * k + high.toNat
  let later := s.laterHalves g
  let s := s.claimHalves g [h]
  if later.contains h then s else s.halfPut g.trail k high v

/-- A write of an agent: what a later command has written stays (R269). -/
def State.agentPut (s : State) (g : Agent) (k : Nat) (bs : List Byte) : State :=
  let later := s.laterHalves g
  let s := s.claimHalves g (halvesOf k bs.length)
  if !(halvesOf k bs.length).any later.contains then ({ s with fresh := s.fresh + 1 } : State).pathPut g.trail s.fresh (k, bs.length) k bs
  else
    (mapFrom (fun i b => (k + i, b)) 0 bs).foldl (fun s x =>
      if later.contains (2 * x.1) then (if later.contains (2 * x.1 + 1) then s else s.halfPut g.trail x.1 true (x.2.toNat / 16))
      else if later.contains (2 * x.1 + 1) then s.halfPut g.trail x.1 false (x.2.toNat % 16)
      else s.pathPut g.trail s.fresh (x.1, 1) x.1 [x.2]) s

/-- Write bytes along runs of keys. -/
def State.writeRuns (s : State) (g : Agent) : List (Nat × Nat) → List Byte → State
  | [], _ => s
  | r :: rs, bs => (s.agentPut g r.1 (bs.take r.2)).writeRuns g rs (bs.drop r.2)

/-- Write bytes (R270). -/
def State.agentWrite (s : State) (g : Agent) (spad : Bool) (addr : Nat) (bs : List Byte) : Work State :=
  (s.agentRuns g spad true addr bs.length).bind fun rs => .ok (s.writeRuns g rs bs)

/-- The element at tile position t: its code and its scale (R254, R255). -/
def State.readElem (s : State) (g : Agent) (h : Shape) (i : Pos) : Work (Nat × Nat) :=
  let there := inBounds h i
  let j := if !there && shOob h == 2 && allDims (fun k => shExt h k != 0) then clamped h i else i
  let code := if inBounds h j then
      (s.agentRead g (shSpad h) (elemByte h j) (elemBytes h)).bind fun bs =>
        .ok (leNat bs / 2 ^ elemBit h j % 2 ^ shBits h)
    else .ok (shFill h % 2 ^ shBits h)
  code.bind fun c =>
    match scaleByte h j with
    | none => .ok (c, 0x80)
    | some a => (s.agentRead g false a.toNat 1).bind fun bs => .ok (c, leNat bs)

/-- Write the element at a position; out of bounds it is dropped (R255). -/
def State.writeElem (s : State) (g : Agent) (h : Shape) (i : Pos) (code : Nat) : Work State :=
  if !inBounds h i then .ok s
  else if shBits h = 4 then
    (s.agentKey g (shSpad h) true (elemByte h i)).bind fun k => .ok (s.agentHalf g k (elemBit h i == 4) (code % 16))
  else s.agentWrite g (shSpad h) (elemByte h i) (leBytes (elemBytes h) code)

/-- Write the scale of a position's block, where it holds an in-bounds element (R261). -/
def State.writeScale (s : State) (g : Agent) (h : Shape) (i : Pos) (code : Nat) : Work State :=
  match scaleByte h i with
  | none => .ok s
  | some a => s.agentWrite g false a.toNat (leBytes 1 code)

/-! ### Values and conversions -/

/-- The type of an element format 0 to 13. -/
def fmtTy (f : Nat) : Ty := Ty.ofCode (BitVec.ofNat 4 f)

/-- An element times its scale, exactly (R127, R254). -/
def scaledValue (f code scale : Nat) : FVal :=
  let t := fmtTy f
  if scale = 0 then .num false 0 0
  else if scale = 255 then .nan
  else
    (if t.isFloat then t.ffmt.decode code else .ofInt (if t.isSigned then signed t.width code else (code : Int))).mul
      (s8Value scale)

/-- Conversion to an element format 0 to 13 (R261). -/
def convertTo (f : Nat) (v : FVal) : Converted :=
  let t := fmtTy f
  if t.isFloat then toFloat t .ne v
  else
    let c := toInteger t .ne v
    { c with flush := match v with
        | .num _ m _ => m != 0 && c.bits == 0
        | _ => false }

/-- Which conversion a pair of shapes asks for (R261): none when the pair is not accepted, `true` for a copy of patterns. -/
def pairKind (a b : Shape) : Option Bool :=
  if shFmt a = shFmt b ∧ shBlk a = shBlk b then some true
  else if shFmt a ≤ 13 ∧ shFmt b ≤ 13 ∧ shBlk b = 0 then some false
  else none

/-- Count the events of a converted element that is written (R152, R261). -/
def State.countConverted (s : State) (w : WatchRef) (tid : Nat) (c : Converted) : State :=
  let s := if c.sat then s.countNumeric w tid 0 1 else s
  if c.flush then s.countNumeric w tid 1 1 else s

/-- Copy one element between positions of two pieces (R261). -/
def State.moveElem (s : State) (g : Agent) (a b : Shape) (i j : Pos) : Work State :=
  (s.readElem g a i).bind fun x =>
    if (pairKind a b).getD true then
      (s.writeElem g b j x.1).bind fun s => if shBlk b = 0 then .ok s else s.writeScale g b j x.2
    else
      let c := convertTo (shFmt b) (scaledValue (shFmt a) x.1 x.2)
      (s.writeElem g b j c.bits).bind fun s => .ok (if inBounds b j then s.countConverted g.watch (shTid b) c else s)

/-! ### Units of work -/

/-- Log 85 (DEDUCED). -/
def EngCmd.agent (c : EngCmd) : Agent :=
  { tu := if c.place < 160 then 640 + c.place else ioUnit, watch := c.watch, dom := c.dom,
    trail := { path := c.path, src := 8 * c.place + c.path, cmd := some c.id, watch := c.watch, split := c.split } }

/-- The ranks of a mask, ascending. -/
def ranksOf (m : Nat) : List Nat := (List.range 4).filter (fun r => m / 2 ^ r % 2 == 1)

/-- An address with its rank replaced (R264). -/
def withRank (addr r : Nat) : Nat := addr % 2 ^ 30 + r % 4 * 2 ^ 30 + addr / 2 ^ 32 * 2 ^ 32

/-- The barrier objects a command counts into (R264). -/
def EngCmd.objs (c : EngCmd) : List Nat :=
  match c.kind with
  | .cpyp m => (ranksOf m).map (withRank c.obj)
  | _ => [c.obj]

/-- Bytes before and up to part j of a CPYS to address `dst` (R262). -/
def cpysAt (dst n j : Nat) : Nat := min n (16 * j - dst % 16)

/-- The parts of a CPYS. -/
def cpysParts (dst n : Nat) : Nat := if n = 0 then 0 else (dst % 16 + n + 15) / 16

/-- The dimension-0 run of one row of a table at dimension-1 index x: element t0 (R265). -/
def rowAt (h : Shape) (x : Int) (t0 : Nat) : Pos := fun k => if k = 0 then shOrg h 0 + t0 else if k = 1 then x else shOrg h k

/-- Element n of GTHR or SCAT, row by row (R265). -/
def State.moveRow (s : State) (c : EngCmd) (gather : Bool) (n : Nat) : Work State :=
  let g := c.agent
  let table := if gather then c.a else c.b
  let k := n / shBox table 0
  let e := n % shBox table 0
  (s.readElem g c.c (elemAt c.c (tileAt c.c k))).bind fun x =>
    let x : Int := if shFmt c.c = 6 then signed 32 x.1 else x.1
    if shOob table = 1 ∧ ¬ (0 ≤ x ∧ x < shExt table 1) then .fault 3 0
    else
      let other := if gather then c.b else c.a
      let far := elemAt other (fun d => if d = 0 then e else if d = 1 then k else 0)
      let near := rowAt table x e
      if gather then s.moveElem g c.a c.b near far else s.moveElem g c.a c.b far near

/-- The message window that holds an address (R378, R380). -/
def State.messageWindow (s : State) (dom va : Nat) : Option Nat :=
  match s.window dom va with
  | some n => if s.regField (.fwtgt dom n) 21 2 = 1 then some n else none
  | none => none

/-- The peer that the message of a CPYS goes to, as the window stands at issue: node, domain, and the window's first address
(R380, R382). Log 108 (DESIGN CHOICE). -/
def State.messageTo (s : State) (dom : Nat) (b : Shape) : Option (Nat × Nat × Nat) :=
  (if shSpad b then none else s.messageWindow dom (shBase b)).map fun win =>
    (s.regField (.fwtgt dom win) 0 16, s.regField (.fwtgt dom win) 16 5, s.regField (.fwbase dom win) 16 39 * 2 ^ 16)

/-- Whether the length or the offset of a tagged message breaks R380. -/
def EngCmd.badMessage (c : EngCmd) (base : Nat) : Bool :=
  decide (c.bytes < 1) || decide (4032 < c.bytes) || (shBase c.b - base) % 2 ^ 16 != 0

/-- The tagged message of a CPYS, read in full (R380). -/
def EngCmd.messageOf (c : EngCmd) (node dom base : Nat) : Outgoing :=
  .message node dom ((shBase c.b - base) / 2 ^ 16 % 2 ^ 32) (c.read.map (BitVec.ofNat 8))

/-- Part j of a CPYS (R262, R263). -/
def State.copyPart (s : State) (c : EngCmd) (j : Nat) : Work State :=
  let p := cpysAt (shBase c.b) c.bytes j
  let n := cpysAt (shBase c.b) c.bytes (j + 1) - p
  (s.agentRead c.agent (shSpad c.a) (shBase c.a + p) n).bind fun bs =>
    s.agentWrite c.agent (shSpad c.b) (shBase c.b + p) bs

/-! ### Collectives (R266 to R268) -/

/-- The sum of two accumulator cells as a collective forms it (R267). -/
def addCells (a b : Nat) : Nat :=
  (bitsAt a 0 94 + bitsAt b 0 94) % 2 ^ 94 + joinSpecial (bitsAt a 94 2) (bitsAt b 94 2) * 2 ^ 94

/-- One step of a reduction on codes of a format (R267): 0 ADD, 1 MIN, 2 MAX. -/
def collOp (f op a b : Nat) : Nat :=
  if f = 17 then addCells a b
  else if f = 0 then
    let x := Ty.f32.ffmt.decode a
    let y := Ty.f32.ffmt.decode b
    (Ty.f32.ffmt.round .ne (if op = 0 then x.add .ne y else if op = 1 then fminimum x y else fmaximum x y)).1
  else if op = 0 then (a + b) % 2 ^ 32
  else if f = 6 then (if op = 1 then signedMin 32 a b else signedMax 32 a b)
  else (if op = 1 then min a b else max a b)

/-- Packed bytes of a piece (R267). -/
def packPiece (bits : Nat) (cs : List Nat) : List Byte := leBytes ((cs.length * bits + 7) / 8) (ofElems bits cs)

/-- Code n of a packed piece. -/
def pieceCode (bits : Nat) (bs : List Byte) (n : Nat) : Nat := bitsAt (leNat bs) (bits * n) bits

/-- The ranks a member sends its piece to: all others, or the root, or none. -/
def collTargets (kind : BitVec 2) (root rank m : Nat) : List Nat :=
  let others := (List.range m).filter (· != rank)
  if kind = 0 then (if rank = root then [] else [root])
  else if kind = 1 then (if rank = root then others else [])
  else others

/-- The local piece, read in full, to the members that need it. Log 49 (DEDUCED). -/
def EngCmd.pieces (c : EngCmd) (g : Group) (kind : BitVec 2) (root : Nat) : List Outgoing :=
  (collTargets kind root g.rank g.members.length).map (fun r =>
    let m := (g.members.getD r 0).toNat
    Outgoing.piece (m % 2 ^ 16) (m / 2 ^ 16) g.seq (packPiece (shBits c.a) c.read))

/-- Whether a member's piece has come, in its full size, from a peer whose writes the domain accepts (R267, R378).
Log 111 (DEDUCED). -/
def State.pieceHere (s : State) (c : EngCmd) (g : Group) (pieces : List (List Byte)) (r : Nat) : Bool :=
  let m := (g.members.getD r 0).toNat
  (pieces.getD r []).length == (shCount c.a * shBits c.a + 7) / 8 && s.accepts c.dom (m % 2 ^ 16) (m / 2 ^ 16) 25

/-- Whether the pieces that unit of work needs have arrived: every member's, or the root's for BCAST, but the local one.
Log 49 (DEDUCED). -/
def State.collReady (s : State) (c : EngCmd) (g : Group) (kind : BitVec 2) (root : Nat) (pieces : List (List Byte)) : Bool :=
  let sound := fun (r : Nat) => r == g.rank || s.pieceHere c g pieces r
  if kind = 0 ∧ g.rank ≠ root then true
  else if kind = 1 then sound root
  else (List.range g.members.length).all sound

/-- Unit n of a collective (R267). Log 49 (DEDUCED). -/
def State.collUnit (s : State) (c : EngCmd) (g : Group) (kind op : BitVec 2) (root : Nat) (pieces : List (List Byte)) (n : Nat) :
    Work State :=
  let cnt := shCount c.a
  let src := if kind = 2 then n % cnt else n
  let dst := elemAt c.b (tileAt c.b n)
  if kind = 0 ∧ g.rank ≠ root then .ok s
  else
    (if kind = 1 ∧ g.rank ≠ root then .ok 0
     else (s.readElem c.agent c.a (elemAt c.a (tileAt c.a src))).bind fun x => .ok x.1).bind fun mine =>
      let code := fun (r : Nat) => if r = g.rank then mine else pieceCode (shBits c.a) (pieces.getD r []) src
      let v :=
        if kind = 1 then code root
        else if kind = 2 then code (n / cnt)
        else
          let m := g.members.length
          (reduceTree (collOp (shFmt c.a) op.toNat) (Nat.log2 m + 1) ((List.range m).map (fun r => some (code r)))).getD 0
      s.writeElem c.agent c.b dst v

/-! ### Power tokens (R366) -/

/-- Balance and share of a domain, in picojoules. Log 52 (DESIGN CHOICE). -/
def State.tokens (s : State) (dom : Nat) : Nat × Nat := ((s.shares.find? (fun x => x.1 == dom)).map (·.2)).getD (0, 0)

/-- A domain that has spent both its balance and its share is throttled. -/
def State.throttled (s : State) (dom : Nat) : Bool :=
  s.regField (.ptcfg dom) 31 1 == 1 && (s.tokens dom).1 == 0 && (s.tokens dom).2 == 0

/-- Spend from the balance first, then from the share. Log 52 (DESIGN CHOICE). -/
def State.charge (s : State) (dom pj : Nat) : State :=
  let t := s.tokens dom
  { s with shares := (dom, t.1 - pj, t.2 - (pj - t.1)) :: s.shares.filter (fun x => x.1 != dom) }

/-- The domain that pays for a watch's work: the launch's (R337, R366). -/
def State.payer (s : State) (w : WatchRef) (dom : Nat) : Nat := ((s.launchOf w.launch).map (·.dom)).getD dom

/-! ### Delivery -/

/-- Unit n of a command. -/
def State.engUnit (s : State) (c : EngCmd) (pieces : List (List Byte)) (n : Nat) : Work State :=
  match c.kind with
  | .cpy => s.moveElem c.agent c.a c.b (elemAt c.a (tileAt c.a n)) (elemAt c.b (tileAt c.b n))
  | .cpys => if c.message.isSome then .ok s else s.copyPart c n
  | .cpyp m =>
    let cnt := shCount c.a
    let t := tileAt c.a (n % cnt)
    let b := putShape c.b 30 2 ((ranksOf m).getD (n / cnt) 0)
    s.moveElem c.agent c.a b (elemAt c.a t) (elemAt b t)
  | .gthr => s.moveRow c true n
  | .scat => s.moveRow c false n
  | .coll kind op root =>
    match c.group with
    | none => .ok s
    | some g => s.collUnit c g kind op root pieces n

/-- How many codes or bytes a command reads of what it sends to other modules before its units: the local piece of a collective that some
member needs, or a tagged message, whose one unit is then the peer's acknowledgement that the slot is written (R267, R380). -/
def EngCmd.sends (c : EngCmd) : Nat :=
  match c.kind, c.group, c.message with
  | .coll kind _ root, some g, _ => if collTargets kind root g.rank g.members.length = [] then 0 else shCount c.a
  | _, _, some _ => c.bytes
  | _, _, none => 0

/-- The next of them (R267, R380). -/
def State.readNext (s : State) (c : EngCmd) : Work Nat :=
  let n := c.read.length
  match c.kind with
  | .coll _ _ _ => (s.readElem c.agent c.a (elemAt c.a (tileAt c.a n))).bind fun x => .ok x.1
  | _ => (s.agentRead c.agent (shSpad c.a) (shBase c.a + n) 1).bind fun bs => .ok (leNat bs)

/-- What is sent when all of it has been read. -/
def EngCmd.parcels (c : EngCmd) : List Outgoing :=
  match c.kind, c.group, c.message with
  | .coll kind _ root, some g, _ => c.pieces g kind root
  | _, _, some (node, dom, base) => [c.messageOf node dom base]
  | _, _, none => []

/-- Whether a unit can be worked on with the pieces that have arrived. -/
def State.unitsReady (s : State) (c : EngCmd) (pieces : List (List Byte)) : Bool :=
  match c.kind, c.group with
  | .coll kind _ root, some g => s.collReady c g kind root pieces
  | _, _ => true

/-- Picojoules per byte of an engine (R366). -/
def engCost (path : Nat) : Nat := if path = 4 then 40 else 20

/-- Bytes that the first `n` units count into object number j (R242, R260, R267). -/
def EngCmd.bytesAt (c : EngCmd) (j n : Nat) : Nat :=
  let per := c.total / c.objs.length
  let d := min per (n - j * per)
  if per = 0 then 0
  else
    match c.kind with
    | .cpys => if d = per then c.bytes else cpysAt (shBase c.b) c.bytes d
    | _ => c.bytes * d / per

/-- Bytes that the first `n` units count into all the command's objects. -/
def EngCmd.bytesTo (c : EngCmd) (n : Nat) : Nat := ((List.range c.objs.length).map (fun j => c.bytesAt j n)).foldl (· + ·) 0

/-- Whether unit n begins a 128-byte line of what the command delivers, at which it can pause (R271). Log 109 (DEDUCED). -/
def EngCmd.atLine (c : EngCmd) (n : Nat) : Bool :=
  let start := match c.kind with
    | .cpys => shBase c.b % 128
    | _ => 0
  n == 0 || (start + c.bytesTo n) / 128 != (start + c.bytesTo (n - 1)) / 128

/-- Whether a command goes on with unit n: it has one, its domain is not throttled (R366), and it is not at a place where it
pauses (R271). -/
def State.movesOn (s : State) (c : EngCmd) (n : Nat) : Bool :=
  decide (n < c.total) && !s.throttled (s.payer c.watch c.dom) && !(c.paused && c.atLine n)

/-- The object that counts a command's unit n (R264). -/
def EngCmd.objAt (c : EngCmd) (n : Nat) : Nat := c.objs.getD (n / max 1 (c.total / c.objs.length)) c.obj

/-- The key of a barrier object in a gang's scratchpad. -/
def State.objKey (s : State) (g : Agent) (obj : Nat) : Option Nat :=
  match s.agentKey g true true obj with
  | .ok k => some k
  | _ => none

/-- Whether a command's units move bytes here: those of one that only sends were paid for as they were read. -/
def EngCmd.delivers (c : EngCmd) : Bool :=
  match c.kind, c.group, c.message with
  | .coll kind _ root, some g, _ => kind != 0 || g.rank == root
  | _, _, m => m.isNone

/-- Picojoules that unit n of a command costs. -/
def EngCmd.unitCost (c : EngCmd) (n : Nat) : Nat :=
  if c.delivers then engCost c.path * (c.bytesTo (n + 1) - c.bytesTo n) else 0

/-- Work on up to `count` units, each paid for in power tokens: what has been done, how many, and why it stopped early (R366). -/
def State.engUnits (s : State) (c : EngCmd) (pieces : List (List Byte)) : Nat → Nat → State × Nat × Work Unit
  | n, 0 => (s, n, .ok ())
  | n, count + 1 =>
    if ¬ s.movesOn c n then (s, n, .ok ())
    else
      match s.engUnit c pieces n with
      | .ok t =>
        ((t.tagTrails c.id (t.objKey c.agent (c.objAt n))).charge (t.payer c.watch c.dom)
          (c.unitCost n)).engUnits c pieces (n + 1) count
      | .hold p w => (s, n, .hold p w)
      | .fault u a => (s, n, .fault u a)
      | .poison k a => (s, n, .poison k a)
      | .unmapped k => (s, n, .unmapped k)

/-- Count what units n to n' deliver into the command's objects. -/
def State.countUnits (s : State) (c : EngCmd) (n n' : Nat) : State :=
  (mapFrom (fun j obj => (j, obj)) 0 c.objs).foldl (fun s o =>
    match s.objKey c.agent o.2 with
    | some k => s.countBar c.agent.trail k (c.bytesAt o.1 n' - c.bytesAt o.1 n)
    | none => s) s

def State.modCmd (s : State) (id : Nat) (f : EngCmd → EngCmd) : State :=
  { s with cmds := s.cmds.map (fun c => if c.id = id then f c else c) }

/-- A command is no longer outstanding; its gang may end or go on (R248, R314, R316). -/
def State.dropCmd (s : State) (c : EngCmd) : State :=
  (({ s with cmds := s.cmds.filter (fun x => x.id != c.id) }).settleGang c.watch.launch c.watch.gang).pollGang c.watch

/-- The major of a command (R257). -/
def EngCmd.major (c : EngCmd) : Nat :=
  match c.kind with
  | .cpy => 0xA2 | .cpys => 0xA3 | .cpyp _ => 0xA4 | .gthr => 0xA5 | .scat => 0xA6 | .coll _ _ _ => 0xA7

/-- An engine fault: the objects enter the fault state, a record is written, the command ends (R270). -/
def State.engFault (s : State) (c : EngCmd) (sub addr : Nat) : State :=
  let s := c.objs.foldl (fun s o =>
    match s.objKey c.agent o with
    | some k => s.updateBar k (·.sub (2 ^ 48))
    | none => s) s
  (s.record { kind := 3, sub := sub, dom := c.dom, gang := c.watch.gang, detail := c.major, addr := addr }).dropCmd c

/-- What follows work that stopped early (R270, R384, R357). -/
def State.engStop {α : Type} (s : State) (c : EngCmd) (x : Work α) : State :=
  match x with
  | .ok _ => s
  | .hold p w => (s.pageReq c.dom p w true (.cmd c.id)).modCmd c.id (fun c => { c with stall := some p })
  | .fault u a => s.engFault c u a
  | .poison k a => s.consumePoison c.dom c.core c.watch (if 2 ^ 60 ≤ k then 4 else 2) a
  | .unmapped k => s.unmappedPage c.watch k

/-- The command an engine works on: critical and normal before leeway, then by arrival; stalled and paused ones wait (R269). -/
def State.engTurn (s : State) (place path : Nat) : Option EngCmd :=
  let q := s.cmds.filter (fun c => c.place == place && c.path == path && c.stall.isNone && (c.ended.isSome || s.movesOn c c.done))
  match q.find? (fun c => c.cls != 2) with
  | some c => some c
  | none => q.head?

/-- Write STATUS of a collective's group entry (R266). -/
def State.putStatus (s : State) (c : EngCmd) (v : Nat) : Work State :=
  match c.group with
  | some g => s.agentWrite c.agent false (g.va.toNat + 24) (leBytes 8 v)
  | none => .ok s

/-- The command has done its first n units, and their bytes are counted (R260). -/
def State.noteDone (s : State) (c : EngCmd) (n : Nat) : State := (s.modCmd c.id (fun c => { c with done := n })).countUnits c c.done n

/-- A collective ends early: STATUS, then what remains of the count (R268). -/
def State.endColl (s : State) (c : EngCmd) (v : Nat) : State :=
  match s.putStatus c v with
  | .ok t => ((t.tagTrails c.id (t.objKey c.agent c.obj)).countUnits c c.done c.total).dropCmd c
  | x => (s.modCmd c.id (fun c => { c with ended := some v })).engStop c x

/-- Units of a command: STATUS is written before the last bytes are counted, as R268's use of it after WAITB needs (R260, R266). -/
def State.deliverUnits (s : State) (c : EngCmd) (count : Nat) (pieces : List (List Byte)) : State :=
  let r := s.engUnits c pieces c.done count
  match (if c.total ≤ r.2.1 then r.1.putStatus c 0 else .ok r.1) with
  | .ok t => ((t.tagTrails c.id (t.objKey c.agent c.obj)).noteDone c r.2.1).engStop c r.2.2
  | x => (r.1.noteDone c (r.2.1 - 1)).engStop c x

/-- Write SEQ incremented (R266, R270). -/
def State.putSeq (s : State) (c : EngCmd) : Work State :=
  match c.group with
  | some g => s.agentWrite c.agent false (g.va.toNat + 16) (leBytes 8 ((g.seq.toNat + 1) % 2 ^ 64))
  | none => .ok s

/-- The increment of SEQ: done, held at a page until that is served, or the end of the command as an engine fault (R266, R270). -/
def State.stepSeq (s : State) (c : EngCmd) : State :=
  match s.putSeq c with
  | .ok t => t.modCmd c.id (fun c => { c with seqDue := false })
  | x => s.engStop c x

/-- Read up to `count` of what a command sends first, each byte paid for in power tokens (R366). -/
def State.readFirst (s : State) (c : EngCmd) : Nat → State × List Nat × Work Unit
  | 0 => (s, c.read, .ok ())
  | count + 1 =>
    if c.sends ≤ c.read.length ∨ s.throttled (s.payer c.watch c.dom) then (s, c.read, .ok ())
    else
      match s.readNext c with
      | .ok v =>
        let bytes := fun (n : Nat) => match c.kind with
          | .coll _ _ _ => n * shBits c.a / 8
          | _ => n
        State.readFirst (s.charge (s.payer c.watch c.dom) (engCost c.path * (bytes (c.read.length + 1) - bytes c.read.length)))
          { c with read := c.read ++ [v] } count
      | .hold p w => (s, c.read, .hold p w)
      | .fault u a => (s, c.read, .fault u a)
      | .poison k a => (s, c.read, .poison k a)
      | .unmapped k => (s, c.read, .unmapped k)

/-- A command reads on in what it sends first, and sends it when all of it has been read (R267, R380). -/
def State.sendFirst (s : State) (c : EngCmd) (count : Nat) : State :=
  if c.message.any (fun m => c.badMessage m.2.2) then s.engFault c 1 (shBase c.b)
  else
    let r := s.readFirst c count
    let d := { c with read := r.2.1 }
    let t := r.1.modCmd c.id (fun e => { e with read := d.read })
    match r.2.2 with
    | .ok _ => if c.sends ≤ d.read.length then (t.sendAll d.parcels).modCmd c.id (fun e => { e with sent := true }) else t
    | x => t.engStop c x

/-- An engine works on its command: the increment of SEQ that is due, what the command sends first, or units of it, whose bytes it counts
(R260). Log 15 (DESIGN CHOICE). -/
def State.deliver (s : State) (id count : Nat) (pieces : List (List Byte)) : State :=
  match s.cmds.find? (fun c => c.id == id) with
  | none => s
  | some c =>
    if (s.engTurn c.place c.path).map (·.id) ≠ some id then s
    else if c.seqDue then s.stepSeq c
    else
      match c.ended with
      | some v => s.endColl c v
      | none =>
        if c.sent then (if s.unitsReady c pieces then s.deliverUnits c count pieces else s)
        else s.sendFirst c (max 1 count)

/-- A command that has delivered everything completes (R248). -/
def State.completeCmd (s : State) (id : Nat) : State :=
  match s.cmds.find? (fun c => c.id == id) with
  | none => s
  | some c => if c.done < c.total then s else s.dropCmd c

/-- The destination tile holds free values (R268). -/
def State.freeTile (s : State) (c : EngCmd) : Nat → State
  | 0 => s
  | n + 1 =>
    let s := s.freeTile c n
    let code := leNat ((List.range (elemBytes c.b)).map (fun i => Config.freeByte (s.fresh + i)))
    match ({ s with fresh := s.fresh + elemBytes c.b } : State).writeElem c.agent c.b (elemAt c.b (tileAt c.b n)) code with
    | .ok t => t
    | _ => s

/-- COLL_ABORT (R268): a peer has been reset, or the members differ. Log 50 (DESIGN CHOICE). -/
def execCollAbort (id : Nat) (mismatch : Bool) (s : State) : Out :=
  .next (match s.cmds.find? (fun c => c.id == id) with
    | none => s
    | some c =>
      match c.kind with
      | .coll _ _ _ =>
        if c.total ≤ c.done ∨ c.ended.isSome then s
        else (s.freeTile c (shCount c.b)).endColl c (if mismatch then 2 else 1)
      | _ => s)

/-! ### Issue -/

/-- SHAPE with its detail (R259): the condition, and the register concerned if one is. -/
def State.shapeTrap (s : State) (code : Nat) (reg : Option (BitVec 4)) : State :=
  s.takeTrap causeShape s.ctx.k0 (BitVec.ofNat 64 (code + (match reg with
    | some r => r.toNat * 256 + 4096
    | none => 0)))

/-- The checks on one shape: its rank, then the conditions that concern it alone (R259). Log 92 (DEDUCED). -/
def State.shapeFault (s : State) (r : BitVec 4) (h : Shape) (mustSpad : Bool) : Option State :=
  let w := s.ctx
  if shSpad h ∧ (w.blocks ≤ shBase h % 2 ^ 32 / 2 ^ 30 ∨ w.dom ≠ w.home) then
    some (s.domainTrap w.k0 (BitVec.ofNat 64 (shBase h % 2 ^ 32)))
  else if shapeBad h w.spadRows mustSpad ≠ 0 then some (s.shapeTrap (shapeBad h w.spadRows mustSpad) (some r))
  else none

/-- The first of several checks that fails. -/
def firstFault : List (Option State) → Option State
  | [] => none
  | some s :: _ => some s
  | none :: r => firstFault r

/-- The checks on the barrier object, one for each rank that it is used in (R259, R264). -/
def State.objFault (s : State) (objs : List Nat) : Option State :=
  let a : Access := { size := 16, rd := true, wr := false }
  firstFault (objs.map (fun o =>
    match s.checkAll true (some s.ctx.k0) [{ lane := 0, off := o, v := s.judgeSpad a o }] with
    | .ok _ => none
    | .stop t => some t))

/-- The object operand's address. -/
def Watch.objOf (w : Watch) (e : FmtE) : Nat := (w.uni e.b).toNat % 2 ^ 32

/-- The front of an engine command: an empty mask makes it a no-op (R258); then its uniform operands. -/
def State.engFront (s : State) (group : Option Nat) (maj : Nat) (srcs : List Src) (k : State → Out) : Out :=
  s.enter group maj fun s =>
    if s.ctx.k0 = 0 then .next (s.advance 8) else orElse (s.uniFront srcs) (k s)

/-- How many entries an engine's queue holds (R269). -/
def queueSize (path : Nat) : Nat := if path = 1 then 32 else if path = 2 then 16 else 64

/-- Queue a checked command, or wait for room (R62, R258, R269). -/
def State.queueCmd (s : State) (e : FmtE) (kind : EngKind) (place path obj bytes total : Nat) (group : Option Group)
    (message : Option (Nat × Nat × Nat)) (onQueue : EngCmd → State → State) : Out :=
  let w := s.ctx
  if 63 ≤ s.engineCount w.ref ∨
      queueSize path ≤ (s.cmds.filter (fun c => c.place == place && c.path == path)).length then .next (s.hold .operand)
  else
    let c : EngCmd :=
      { id := s.fresh, kind := kind, place := place, watch := w.ref, split := w.sp.id, core := w.core, dom := w.dom, cls := w.cls,
        path := path, a := w.shape e.sha, b := w.shape e.shb, c := w.shape e.shc, obj := obj, bytes := bytes, group := group,
        total := total, done := 0, wclass := e.flags.extractLsb' 1 2, stall := none, paused := false, message := message,
        sent := group.isNone && message.isNone, seqDue := group.isSome }
    let s := if e.flags.getLsbD 0 then s.crossPaths w.ref w.sp.id (·.before w.ref w.sp.id 0) path else s
    .next ((onQueue c { s with cmds := s.cmds ++ [c], fresh := s.fresh + 1 }).advance 8)

/-- The whole-command conditions of a copy between tiles (R259, R261): formats, then equal boxes when asked. -/
def State.pairFault (s : State) (e : FmtE) (a b : Shape) (boxesDiffer : Bool) : Option State :=
  if (pairKind a b).isNone then some (s.shapeTrap 0x02 (some e.shb))
  else if boxesDiffer then some (s.shapeTrap 0x0A (some e.shb))
  else none

def boxesDiffer (a b : Shape) : Bool := !allDims (fun k => shBox a k == shBox b k)

/-- CPY (R261). -/
def execCpy (e : FmtE) (s : State) : Out :=
  s.engFront none 0 [⟨1, e.b, 1⟩] fun s =>
    let w := s.ctx
    let a := w.shape e.sha
    let b := w.shape e.shb
    orElse (firstFault [s.objFault [w.objOf e], s.shapeFault e.sha a false, s.shapeFault e.shb b false,
        s.pairFault e a b (boxesDiffer a b)]) <|
      s.queueCmd e .cpy (w.core / 4) 1 (w.objOf e) (tileBytes b) (shCount a) none none (fun _ s => s)

/-- Whether n bytes from two bases overlap (R263). -/
def rangesMeet (a b n : Nat) : Bool := decide (a < b + n) && decide (b < a + n) && n != 0

/-- The checks of CPYS on one shape (R263): only BASE and SPACE. -/
def State.cpysFault (s : State) (r : BitVec 4) (h : Shape) (n : Nat) : Option State :=
  let w := s.ctx
  if shSpad h ∧ (w.blocks ≤ shBase h % 2 ^ 32 / 2 ^ 30 ∨ w.dom ≠ w.home) then
    some (s.domainTrap w.k0 (BitVec.ofNat 64 (shBase h % 2 ^ 32)))
  else if shSpad h ∧ (2 ^ 32 ≤ shBase h ∨ (n ≠ 0 ∧ 128 * w.spadRows < shBase h % 2 ^ 30 + n)) then some (s.shapeTrap 0x08 (some r))
  else if ¬ shSpad h ∧ n ≠ 0 ∧ 2 ^ 55 < shBase h + n then some (s.shapeTrap 0x09 (some r))
  else none

/-- CPYS (R263, R380). -/
def execCpys (e : FmtE) (s : State) : Out :=
  s.engFront none 0 [⟨0, e.a, 1⟩, ⟨1, e.b, 1⟩] fun s =>
    let w := s.ctx
    let a := w.shape e.sha
    let b := w.shape e.shb
    let n := (w.uni e.a).toNat
    let whole :=
      if 2 ^ 40 < n then some (s.shapeTrap 0x0C none)
      else if ¬ shSpad a ∧ ¬ shSpad b ∧ rangesMeet (shBase a) (shBase b) n then some (s.shapeTrap 0x0C (some e.shb))
      else none
    orElse (firstFault [s.objFault [w.objOf e], s.cpysFault e.sha a n, s.cpysFault e.shb b n, whole]) <|
      let message := s.messageTo w.dom b
      s.queueCmd e .cpys (w.core / 4) 1 (w.objOf e) n (if message.isSome then 1 else cpysParts (shBase b) n) none message (fun _ s => s)

/-- CPYP (R264). -/
def execCpyp (e : FmtE) (s : State) : Out :=
  s.engFront none 0 [⟨1, e.b, 1⟩] fun s =>
    let w := s.ctx
    let a := w.shape e.sha
    let b := w.shape e.shb
    let ranks := ranksOf (e.ext.toNat % 16)
    let b0 := putShape b 30 2 (ranks.headD 0)
    orElse (firstFault [s.objFault (ranks.map (withRank (w.objOf e))), s.shapeFault e.sha a false,
        s.shapeFault e.shb (if shSpad b then b0 else b) true, s.pairFault e a b (boxesDiffer a b)]) <|
      s.queueCmd e (.cpyp (e.ext.toNat % 16)) (w.core / 4) 1 (w.objOf e) (tileBytes b) (ranks.length * shCount a) none none (fun _ s => s)

/-- Whether an index list breaks R265. -/
def listBad (h : Shape) : Bool :=
  !((shFmt h == 6 || shFmt h == 7) && shBox h 1 == 1 && shBox h 2 == 1 && shBox h 3 == 1 && shBlk h == 0 && tileInside h)

/-- GTHR and SCAT (R265): boxes that do not fit each other are condition 0x0A (R259), and the bytes counted are the n-row shape's tile with
its scale blocks (R267). Log 124 (DEDUCED), 125 (DEDUCED). -/
def State.rowsCmd (s : State) (e : FmtE) (gather : Bool) (maj : Nat) : Out :=
  s.engFront (some 4) maj [⟨1, e.b, 1⟩] fun s =>
    let w := s.ctx
    let a := w.shape e.sha
    let b := w.shape e.shb
    let c := w.shape e.shc
    let table := if gather then a else b
    let other := if gather then b else a
    let differ := !(shBox table 2 == 1 && shBox table 3 == 1 && shBox other 0 == shBox table 0 && shBox other 1 == shBox c 0 &&
      shBox other 2 == 1 && shBox other 3 == 1)
    orElse (firstFault [s.objFault [w.objOf e], s.shapeFault e.sha a false, s.shapeFault e.shb b false,
        s.shapeFault e.shc c false, if listBad c then some (s.shapeTrap 0x0D (some e.shc)) else none,
        s.pairFault e a b differ]) <|
      s.queueCmd e (if gather then .gthr else .scat) (w.core / 4) 2 (w.objOf e) (tileBytes other) (shBox c 0 * shBox table 0) none none (fun _ s => s)

/-- GTHR (R265). -/
def execGthr (e : FmtE) (s : State) : Out := s.rowsCmd e true 0xA5
/-- SCAT (R265). -/
def execScat (e : FmtE) (s : State) : Out := s.rowsCmd e false 0xA6

/-- The outcome of reading a group entry (R266): the group, or the number of members where that is all the entry has right. -/
inductive GroupRead
  | ok (g : Group)
  | hold (vpage : Nat)
  | bad (members : Option Nat)
  | err (key : Nat) (poison : Bool) (addr : Nat)
  deriving DecidableEq, Repr

/-- Bytes that a COLL reads at issue for its engine (R266): those of a page that was declined are not readable (R364). -/
def State.groupBytes (s : State) (va n : Nat) : Work (List Byte) :=
  match s.vread s.ctx.core s.ctx.dom va n with
  | .hold p => if s.ctx.sp.wait = .declined s.ctx.dom p then .fault 1 va else .hold p false
  | .refused _ => .fault 1 va
  | .ok bs =>
    match s.vbad s.ctx.core s.ctx.dom va n with
    | some (k, true) => .poison k va
    | some (k, false) => .unmapped k
    | none => .ok bs

/-- What work on a group entry that was not completed comes to. A LIST that cannot be read counts as an entry that cannot
(R266). Log 126 (DEDUCED). -/
def GroupRead.ofWork {α : Type} (m : Option Nat) : Work α → GroupRead
  | .hold p _ => .hold p
  | .poison k a => .err k true a
  | .unmapped k => .err k false 0
  | _ => .bad m

/-- Read a group entry, and where `go m` allows it for its number of members, its member words, and check it (R266). -/
def State.readGroup (s : State) (va root : Nat) (go : Nat → Bool) : GroupRead :=
  if va % 64 ≠ 0 then .bad none
  else
    match s.groupBytes va 64 with
    | .ok bs =>
      let m := fieldOf bs 0 4
      let rank := fieldOf bs 4 4
      if m == 0 || decide (1024 < m) then .bad none
      else if (bs.drop 32).any (· != 0) || decide (m ≤ rank) || decide (m ≤ root) || !go m then .bad (some m)
      else
        match s.groupBytes (fieldOf bs 8 8) (8 * m) with
        | .ok ws =>
          let words := (chunks 8 m ws).map leNat
          if words.any (fun x => decide (2 ^ 21 ≤ x)) then .bad (some m)
          else .ok { va := BitVec.ofNat 64 va, seq := BitVec.ofNat 64 (fieldOf bs 16 8), members := words.map (BitVec.ofNat 21), rank := rank }
        | x => .ofWork (some m) x
    | x => .ofWork none x

/-- Whether a collective accepts a format (R266). -/
def collFormat (kind : BitVec 2) (op f : Nat) : Bool :=
  if kind = 1 ∨ kind = 2 then true else f == 0 || f == 6 || f == 7 || (f == 17 && op == 0)

/-- The conditions of a COLL as a whole (R259, R266): formats and scale blocks, then the element counts, which for GATH depend on
how many members the group has. -/
def State.collFault (s : State) (e : FmtE) (kind : BitVec 2) (op : Nat) : Option State :=
  let a := s.ctx.shape e.sha
  let b := s.ctx.shape e.shb
  if shFmt a ≠ shFmt b ∨ ¬ collFormat kind op (shFmt a) then some (s.shapeTrap 0x02 (some e.shb))
  else if shBlk a ≠ 0 then some (s.shapeTrap 0x06 (some e.sha))
  else if shBlk b ≠ 0 then some (s.shapeTrap 0x06 (some e.shb))
  else none
def State.collCount (s : State) (e : FmtE) (m : Nat) : Option State :=
  if shCount (s.ctx.shape e.shb) ≠ m * shCount (s.ctx.shape e.sha) then some (s.shapeTrap 0x0A (some e.shb)) else none

/-- COLL (R266, R267): its SEQ is taken and incremented at issue. -/
def State.collCmd (s : State) (e : FmtE) (kind : BitVec 2) : Out :=
  s.engFront (some 3) 0xA7 [⟨0, e.a, 1⟩, ⟨1, e.b, 1⟩] fun s =>
    let w := s.ctx
    let a := w.shape e.sha
    let b := w.shape e.shb
    let op := e.ext.toNat % 4
    let root := e.ext.toNat / 16
    orElse (firstFault [s.objFault [w.objOf e], s.shapeFault e.sha a false, s.shapeFault e.shb b false, s.collFault e kind op,
        if kind = 2 then none else s.collCount e 1]) <|
      let va := (w.uni e.a).toNat
      let counted := fun (m : Nat) => kind != 2 || (s.collCount e m).isNone
      if s.cmds.any (fun c => c.seqDue && c.group.any (fun g => g.va.toNat == va)) then .next (s.hold .operand)
      else
      match s.readGroup va (if kind = 0 ∨ kind = 1 then root else 0) counted with
      | .hold p => .next (s.holdPage w.dom p false)
      | .err k poison a =>
        .next (if poison then s.consumePoison w.dom w.core w.ref (if 2 ^ 60 ≤ k then 4 else 2) a else s.unmappedPage w.ref k)
      | .bad m => .next (((m.filter (fun _ => kind == 2)).bind (s.collCount e)).getD (s.shapeTrap 0x0E none))
      | .ok g =>
        let m := g.members.length
        let units := if kind = 0 ∧ g.rank ≠ root then 1 else if kind = 2 then m * shCount a else shCount a
        let bytes := (if kind = 2 then m else 1) * tileBytes a
        let place := 160 + (if w.core / 160 < 2 then 0 else 2) + va / 64 % 2
        s.queueCmd e (.coll kind (BitVec.ofNat 2 op) root) place 4 (w.objOf e) bytes units (some g) none (fun c s => s.stepSeq c)

/-- COLL.RED (R267). -/
def execCollRed (e : FmtE) (s : State) : Out := s.collCmd e 0
/-- COLL.BCAST (R267). -/
def execCollBcast (e : FmtE) (s : State) : Out := s.collCmd e 1
/-- COLL.GATH (R267). -/
def execCollGath (e : FmtE) (s : State) : Out := s.collCmd e 2
/-- COLL.ALLRED (R267). -/
def execCollAllred (e : FmtE) (s : State) : Out := s.collCmd e 3

end Sys2Proof.Machine
end

