-- ==== Sys2Proof/Machine/Matrix.lean ====
section
/-!
DEFINITION. The matrix class, majors 0xB0 to 0xB8 (R272 to R300): accumulator cells, sparse sectors, the reservation table, the
grants and ends of passes, the accumulator port, and the checks at issue.
-/
namespace Sys2Proof.Machine

/-! ### Accumulator rows (R272, R273) -/

/-- A cell with its row's anchor and flags, in the layout of an anchored memory cell (R236, R272). -/
def State.anchored (s : State) (k col : Nat) : Nat :=
  let r := s.accRow k
  s.accCell k col + r.anchor.toNat * 2 ^ 96 + r.aexc.toNat * 2 ^ 106 + r.nan.toNat * 2 ^ 107 + r.inf.toNat * 2 ^ 108

/-- Put a cell back with the flags of its row. -/
def State.setAnchored (s : State) (k col v : Nat) : State :=
  (s.setCell k col (v % 2 ^ 96)).setRow k
    { s.accRow k with aexc := bitsAt v 106 1 == 1, nan := bitsAt v 107 1 == 1, inf := bitsAt v 108 1 == 1 }

/-- Add terms to a cell (R274). -/
def State.addTerms (s : State) (k col : Nat) (ps : List FVal) : State :=
  if ps.isEmpty then s else s.setAnchored k col (ps.foldl addToCell (s.anchored k col))

/-- The key of row n of a block of a watch's gang (R273). -/
def State.accKey (s : State) (w : WatchRef) (rank n : Nat) : Nat :=
  ((s.gangOf w.launch w.gang).map (fun g => g.accAt rank)).getD 0 + n

/-- Accumulator rows of each block of the watch in focus: none of the executing domain inside another domain's gate (R20,
R273). -/
def State.ownRows (s : State) : Nat :=
  if s.ctx.dom ≠ s.ctx.home then 0 else ((s.launchOf s.ctx.ref.launch).map (·.recd.accrows)).getD 0

/-- The value of a cell (R272). -/
def State.cellValue (s : State) (k col : Nat) : FVal :=
  let c := s.accCell k col
  let i := signed 94 (bitsAt c 0 94)
  match bitsAt c 94 2 with
  | 0 => .num (decide (i < 0)) i.natAbs ((s.accRow k).anchor.toInt - 62)
  | 1 => .inf false
  | 2 => .inf true
  | _ => .nan

/-! ### Sparse sectors (R279, R280) -/

/-- Whether a shape format is a sparse sector, and the element format of its values. -/
def isSparse (f : Nat) : Bool := 14 ≤ f && f ≤ 16
def sectorFmt (f : Nat) : Nat := if f = 14 then 3 else if f = 15 then 4 else 10

/-- The mask of a group. -/
def groupMask (bs : List Byte) (g : Nat) : Nat := bitsAt (leNat bs) (64 + 12 * g) 12

/-- The condition of R281 that a header breaks, 0 for none. -/
def sectorBad (f : Nat) (bs : List Byte) : Nat :=
  let b := fun (i : Nat) => fieldOf bs i 1
  let n := b 0
  if n < 1 ∨ 6 < n then 1
  else if b 1 ≠ f - 14 then 2
  else if b 2 ≠ 1 then 3
  else if 1 < b 3 ∨ (b 3 = 0 ∧ fieldOf bs 4 4 ≠ 0) then 4
  else if (List.range 16).any (fun g => popCount 12 (groupMask bs g) != n) then 5
  else if (bs.drop (32 + 16 * n)).any (· != 0) then 6
  else 0

/-- The value at position p of the 192 that a sector covers; none where it is absent (R280). -/
def sectorValue (f : Nat) (bs : List Byte) (p : Nat) : Option FVal :=
  let g := p / 12
  let i := p % 12
  let m := groupMask bs g
  if m / 2 ^ i % 2 = 0 then none
  else
    let j := popCount 12 (m % 2 ^ i)
    let scale := if fieldOf bs 3 1 % 2 = 1 then fieldOf bs (4 + g / 4) 1 else 0x80
    some (scaledValue (sectorFmt f) (fieldOf bs (32 + fieldOf bs 0 1 * g + j) 1) scale)

/-- A sector at tile position (t0, t1) of a shape (R279). -/
def State.readSector (s : State) (g : Agent) (h : Shape) (t0 t1 : Nat) : Work (List Byte) :=
  s.agentRead g (shSpad h) (elemByte h (elemAt h (fun k => if k = 0 then t0 else if k = 1 then t1 else 0))) 128

/-! ### Products (R277, R289, R290) -/

/-- Granules of K: 32 positions, or one sector of 192 (R288). -/
def granule (h : Shape) : Nat := if isSparse (shFmt h) then 192 else 32
def kOf (h : Shape) : Nat := if isSparse (shFmt h) then 192 * shBox h 0 else shBox h 0
def granules (h : Shape) : Nat := kOf h / granule h

/-- Collect the results of work over 0 … n - 1. -/
def workMap {α : Type} (f : Nat → Work α) : Nat → Work (List α)
  | 0 => .ok []
  | n + 1 => (workMap f n).bind fun xs => (f n).bind fun x => .ok (xs ++ [x])

/-- The values of one row of an operand over some granules: present elements, in the order of K (R275, R280). -/
def State.rowValues (s : State) (g : Agent) (h : Shape) (row : Nat) (gs : List Nat) : Work (List (Option FVal)) :=
  if isSparse (shFmt h) then
    (workMap (fun i => (s.readSector g h (gs.getD i 0) row).bind fun bs =>
      if sectorBad (shFmt h) bs ≠ 0 then .fault 4 0
      else .ok ((List.range 192).map (sectorValue (shFmt h) bs))) gs.length).bind fun xs => .ok xs.flatten
  else
    let ks : List Nat := gs.flatMap (fun q => (List.range 32).map (· + 32 * q))
    workMap (fun i =>
      let k := ks.getD i 0
      (s.readElem g h (elemAt h (fun d => if d = 0 then (k : Int) else if d = 1 then (row : Int) else 0))).bind fun x =>
        .ok (some (scaledValue (shFmt h) x.1 x.2))) ks.length

/-- B's values at the positions of K that some granules of A cover. -/
def State.colValues (s : State) (g : Agent) (a b : Shape) (col : Nat) (gs : List Nat) : Work (List FVal) :=
  let ks : List Nat := gs.flatMap (fun q => (List.range (granule a)).map (· + granule a * q))
  workMap (fun i =>
    let k := ks.getD i 0
    (s.readElem g b (elemAt b (fun d => if d = 0 then (k : Int) else if d = 1 then (col : Int) else 0))).bind fun x =>
      .ok (scaledValue (shFmt b) x.1 x.2)) ks.length

/-- The terms of one cell (R275), and whether a NaN term comes from factors that are none. -/
def termsOf (xs : List (Option FVal)) (ys : List FVal) : List FVal × Bool :=
  (List.zip xs ys).foldl (fun r p =>
    match p.1 with
    | none => r
    | some x =>
      let t := x.mul p.2
      (r.1 ++ [t], r.2 || (t.isNan && !x.isNan && !p.2.isNan))) ([], false)

/-- The agent of a matrix command: the cluster's tile fetch unit (R282). -/
def MatCmd.agent (c : MatCmd) : Agent :=
  { tu := 640 + c.core / 4, watch := c.watch, dom := c.dom,
    trail := { path := 3, src := 4000 + c.core, cmd := some c.id, watch := c.watch, split := c.split } }

def MatCmd.paired (c : MatCmd) : Bool := c.op == .product true
def MatCmd.isProduct (c : MatCmd) : Bool :=
  match c.op with
  | .product _ => true
  | _ => false

def MatCmd.m (c : MatCmd) : Nat := shBox c.a 1
def MatCmd.n (c : MatCmd) : Nat := shBox c.b 1

/-- Column mode of a paired command (R290), and the columns of the leader. -/
def MatCmd.column (c : MatCmd) : Bool := c.paired && decide (256 < c.col + c.n)
def MatCmd.leaderCols (c : MatCmd) : Nat := if c.column then min c.n (256 - c.col) else c.n

/-- The granules of each array's share (R290). -/
def MatCmd.leftShare (c : MatCmd) : List Nat :=
  let gs := List.range (granules c.a)
  if c.column then (if c.leaderCols = 0 then [] else gs)
  else if c.paired then gs.filter (· % 2 == 0)
  else gs
def MatCmd.rightShare (c : MatCmd) : List Nat :=
  let gs := List.range (granules c.a)
  if c.column then gs else if c.paired then gs.filter (· % 2 == 1) else []

/-- Whether every granule has been done. -/
def MatCmd.finished (c : MatCmd) : Bool := decide (c.leftShare.length ≤ c.left) && decide (c.rightShare.length ≤ c.right)

/-- Pass time in 1/16,384 cycles for each granule, M rows and N' columns (R278). -/
def MatCmd.granuleCost (c : MatCmd) (cols : Nat) : Nat :=
  let f := shFmt c.a
  c.m * cols * granule c.a * (if f = 5 ∨ isSparse f then 1 else if f = 1 ∨ f = 2 then 4 else 2)

/-- Granules of one pass under the pass limit (R288). -/
def passGranules (limit cost : Nat) : Nat := if cost = 0 then 0 else max 1 (limit * 16384 / cost)

/-- Add the products of some granules to the columns from `first` on of a block's rows (R277, R289). -/
def State.addPass (s : State) (c : MatCmd) (rank : Nat) (gs : List Nat) (first cols toCol : Nat) : Work (State × Bool) :=
  (workMap (fun m => s.rowValues c.agent c.a m gs) (if cols = 0 ∨ gs.isEmpty then 0 else c.m)).bind fun xs =>
    (workMap (fun n => s.colValues c.agent c.a c.b (first + n) gs) (if gs.isEmpty then 0 else cols)).bind fun ys =>
      let rows := mapFrom (fun i x => (i, x)) 0 xs
      let columns := mapFrom (fun j y => (j, y)) 0 ys
      .ok (rows.foldl (fun r x =>
        columns.foldl (fun r y =>
          let t := termsOf x.2 y.2
          (r.1.addTerms (s.accKey c.watch rank (c.row + x.1)) (toCol + y.1) t.1, r.2 || t.2)) r) (s, false))

/-! ### Row order (R286) -/

/-- The rows a command touches: block, first row, count. -/
def MatCmd.touches (c : MatCmd) : List (Nat × Nat × Nat) :=
  let n := match c.op with
    | .product _ => c.m
    | .accinit _ => c.rows
    | .accstat => c.rows
    | _ => shBox c.a 1
  (c.watch.block, c.row, n) :: (match c.pair with
    | some r => [(r, c.row, n)]
    | none => [])

/-- Whether a row that a command reads is poisoned: any of its rows, but for ACCINIT (R383, R384). Log 90 (DEDUCED). -/
def State.readsBadRow (s : State) (c : MatCmd) : Bool :=
  !s.accPoison.isEmpty && (match c.op with
    | .accinit _ => false
    | _ => c.touches.any (fun x => (List.range x.2.2).any (fun i => s.accPoison.contains (s.accKey c.watch x.1 (x.2.1 + i)))))

/-- Whether two commands touch a common row. -/
def MatCmd.meets (c d : MatCmd) : Bool :=
  c.watch.launch == d.watch.launch && c.watch.gang == d.watch.gang &&
  c.touches.any (fun x => d.touches.any (fun y =>
    x.1 == y.1 && decide (x.2.1 < y.2.1 + y.2.2) && decide (y.2.1 < x.2.1 + x.2.2)))

/-- The commands that arrived before one. -/
def earlier (id : Nat) : List MatCmd → List MatCmd
  | [] => []
  | c :: cs => if c.id = id then [] else c :: earlier id cs

/-- Whether R286 lets a command take effect on its rows: among products only other kinds come first. -/
def State.inOrder (s : State) (c : MatCmd) : Bool :=
  (earlier c.id s.mats).all (fun d => d.saved || !c.meets d || (c.isProduct && d.isProduct))

/-- Whether the table of a core's cluster has room for a command of the core: 16 entries, of which a core holds at most 8 (R286). -/
def State.tableTakes (s : State) (core : Nat) : Bool :=
  let table := s.mats.filter (fun c => !c.saved && c.core / 4 == core / 4)
  decide (table.length < 16) && decide ((table.filter (fun c => c.core == core)).length < 8)

/-- Whether a command of a restored gang waits to enter the table again (R297). -/
def State.reenters (s : State) (c : MatCmd) : Bool :=
  c.saved && ((s.gangOf c.watch.launch c.watch.gang).map (fun g => g.phase == .placed)).getD false

/-- Commands of restored gangs enter their tables, in order, with new arrival orders, while there is room (R286, R297).
Log 110 (DEDUCED). -/
def State.readmitFuel : Nat → State → State
  | 0, s => s
  | n + 1, s =>
    match s.mats.find? (fun c => s.reenters c && s.tableTakes c.core &&
        !((earlier c.id s.mats).any (fun d => s.reenters d && d.core / 4 == c.core / 4))) with
    | some c => State.readmitFuel n { s with mats := s.mats.filter (fun d => d.id != c.id) ++ [{ c with saved := false }] }
    | none => s
def State.readmit (s : State) : State := State.readmitFuel s.mats.length s

/-! ### Completion -/

def State.modMat (s : State) (id : Nat) (f : MatCmd → MatCmd) : State :=
  { s with mats := s.mats.map (fun c => if c.id = id then f c else c) }

/-- A matrix command is no longer outstanding (R286, R248). -/
def State.dropMat (s : State) (c : MatCmd) : State :=
  (({ s with mats := s.mats.filter (fun x => x.id != c.id) }).settleGang c.watch.launch c.watch.gang).pollGang c.watch

/-- Count bytes into the command's object. -/
def State.countMat (s : State) (c : MatCmd) (n : Nat) : State :=
  match s.objKey c.agent c.obj with
  | some k => s.countBar c.agent.trail k n
  | none => s

/-- What follows work that stopped early (R270, R282). -/
def State.matStop (s : State) (c : MatCmd) (x : Work Unit) : State :=
  match x with
  | .ok _ => s
  | .hold p w => (s.pageReq c.dom p w true (.cmd c.id)).modMat c.id (fun c => { c with stall := some p })
  | .fault u a =>
    let s := match s.objKey c.agent c.obj with
      | some k => s.updateBar k (·.sub (2 ^ 48))
      | none => s
    (s.record { kind := 3, sub := u, dom := c.dom, gang := c.watch.gang, detail := c.major, addr := a }).dropMat c
  | .poison k a => s.consumePoison c.dom c.core c.watch (if 2 ^ 60 ≤ k then 4 else 2) a
  | .unmapped k => s.unmappedPage c.watch k

/-! ### Grants and passes (R287, R288) -/

/-- Whether a hard step or sight drain keeps a core's array from a domain's commands (R287, R297). -/
def State.arrayShut (s : State) (array dom : Nat) : Bool :=
  !s.inService array || s.sights.any (fun x => x.holds array) ||
  s.preempts.any (fun p => p.core == array && p.dom == dom && p.hard)

/-- Whether a gang's commands get no further pass: it halts as a whole, or is about to be saved at its YIELDBs (R297, R341,
R343). -/
def State.passesShut (s : State) (w : WatchRef) (dom : Nat) : Bool :=
  s.gangHalted w.launch w.gang dom || s.yielding w.launch w.gang dom

/-- Whether an array runs a pass. -/
def State.arrayBusy (s : State) (array : Nat) : Bool := s.mats.any (fun c => c.running.any (fun r => r.array == array))

/-- Whether a core's array runs a pass of a domain, from whichever core it was issued (R290, R340, R365). -/
def State.passOn (s : State) (array dom : Nat) : Bool :=
  s.mats.any (fun c => c.running.any (fun r => r.array == array) && s.payer c.watch c.dom == dom)

/-- The arrays that a product command needs: a K-split does without a fenced partner (R290). -/
def State.arraysOf (s : State) (c : MatCmd) : List Nat :=
  if c.paired ∧ (c.column ∨ s.inService (c.core ^^^ 1)) then [c.core, c.core ^^^ 1] else [c.core]

/-- Whether a request waits for arrays (R287). -/
def State.requests (s : State) (c : MatCmd) : Bool :=
  c.isProduct && !c.saved && c.stall.isNone && c.running.isEmpty && !c.finished && s.inOrder c &&
  !s.throttled (s.payer c.watch c.dom) && (s.arraysOf c).all (fun a => !s.arrayShut a (s.payer c.watch c.dom)) &&
  !s.passesShut c.watch (s.payer c.watch c.dom)

/-- The next granules of both shares, under the pass limit; a fenced partner's fall to the leader (R288, R290). -/
def State.nextGranules (s : State) (c : MatCmd) : List Nat × List Nat :=
  let right := c.rightShare.drop c.right
  let nl := passGranules s.passMax (c.granuleCost c.leaderCols)
  let l := (c.leftShare.drop c.left).take nl
  if (s.arraysOf c).length = 1 ∧ c.paired then (l, right.take (nl - l.length))
  else (l, right.take (passGranules s.passMax (c.granuleCost (if c.column then c.n - c.leaderCols else c.n))))

/-- A block has used an array, whose core must vouch for it too (R389). -/
def State.noteArrays (s : State) (c : MatCmd) (arrays : List Nat) : State :=
  let note := fun (p : BlockPlace) => { p with ran := p.ran ++ arrays.filter (fun a => !p.ran.contains a),
                                                    drained := p.drained.filter (fun a => !arrays.contains a) }
  s.modGang c.watch.launch c.watch.gang (fun g => { g with places := modAt note g.places c.watch.block })

/-- Grant a request its arrays for one pass: its products are added to the cells (R289, R290). Log 53 (DEDUCED). -/
def State.runPass (s : State) (c : MatCmd) : Work State :=
  if s.readsBadRow c then .poison (2 ^ 60) 0
  else
  let g := s.nextGranules c
  let arrays := s.arraysOf c
  let nl := c.leaderCols
  let leader := if c.column then s.addPass c c.watch.block g.1 0 nl c.col else s.addPass c c.watch.block (g.1 ++ g.2) 0 c.n c.col
  leader.bind fun u =>
    (if c.column then u.1.addPass c (c.pair.getD 0) g.2 nl (c.n - nl) (c.col + nl - 256) else .ok u).bind fun v =>
      let made := u.2 || v.2
      let cl := g.1.length * c.granuleCost nl / 16384
      let cr := g.2.length * c.granuleCost (if c.column then c.n - nl else c.n) / 16384
      let run := fun (a n : Nat) => ({ array := a, cycles := n, limit := s.passMax } : Run)
      let running := if arrays.length = 1 then [run c.core (cl + cr)] else [run c.core cl, run (c.core ^^^ 1) cr]
      let t := v.1.charge (v.1.payer c.watch c.dom) (1000 * (cl + cr))
      let t := t.noteArrays c arrays
      let t := if made ∧ ¬ c.made then t.countNumeric c.watch (shTid c.a) 2 1 else t
      .ok (t.modMat c.id (fun c =>
        { c with left := c.left + g.1.length, right := c.right + g.2.length, running := running, made := c.made || made,
                 waited := 0, holding := false }))

/-- The requests of a cluster begin to hold after 64 grants (R287). -/
def State.markHolds (s : State) (cluster : Nat) : State :=
  { s with mats := s.mats.map (fun c =>
      if c.core / 4 = cluster ∧ c.paired ∧ 64 ≤ c.waited then { c with holding := true } else c) }

/-- The request that an array's grant goes to (R287). -/
def State.chosen (s : State) (array : Nat) : Option MatCmd :=
  let reqs := s.mats.filter (fun c => s.requests c && (s.arraysOf c).contains array)
  let free := fun (c : MatCmd) => (s.arraysOf c).all (fun a => !s.arrayBusy a)
  match reqs.find? (·.holding) with
  | some c => if free c then some c else none
  | none => firstOf (fun a b => decide (b.prio < a.prio)) (reqs.filter free).reverse |>.bind fun best =>
      (reqs.filter free).find? (fun c => c.prio == best.prio)

/-- Grant an array; a request whose pages fault is passed over (R282). For the 64 grants of R287 a pair's grant counts as one, and only a
ready request counts it. Log 135 (DEDUCED). -/
def State.grantFuel : Nat → State → Nat → State
  | 0, s, _ => s
  | n + 1, s, array =>
    match s.chosen array with
    | none => s
    | some c =>
      match s.runPass c with
      | .ok t => { t with mats := t.mats.map (fun d =>
          if d.core / 4 = array / 4 ∧ d.paired ∧ d.id ≠ c.id ∧ t.requests d then { d with waited := d.waited + 1 } else d) }
      | .hold p w => State.grantFuel n (s.matStop c (.hold p w)) array
      | .fault u a => s.matStop c (.fault u a)
      | .poison k a => s.matStop c (.poison k a)
      | .unmapped k => s.matStop c (.unmapped k)

/-- The arbiter grants a free array (R287). -/
def State.passGrant (s : State) (array : Nat) : State :=
  let s := s.markHolds (array / 4)
  if s.arrayBusy array then s else State.grantFuel 17 s array

/-- PASS_GRANT (R287). Log 53 (DEDUCED). -/
def execPassGrant (array : Nat) (s : State) : Out := .next (s.passGrant array)

/-- PAIRED_HOLD (R287). -/
def execPairedHold (id : Nat) (s : State) : Out :=
  .next (s.modMat id (fun c => if c.paired ∧ 64 ≤ c.waited then { c with holding := true } else c))

/-- An array's pass ends: the command re-enters arbitration, or completes and counts (R288, R289). -/
def State.passEnd (s : State) (array : Nat) : State :=
  match s.mats.find? (fun c => c.running.any (fun r => r.array == array)) with
  | none => s
  | some c =>
    let cycles := ((c.running.find? (fun r => r.array == array)).map (·.cycles)).getD 0
    let c := { c with running := c.running.filter (fun r => r.array != array) }
    let s := (s.modMat c.id (fun _ => c)).countEvent array c.dom 7 cycles
    if ¬ c.running.isEmpty then s else if c.finished then (s.countMat c c.bytes).dropMat c else s.pollYieldb c.watch

/-- PASS_END (R288). -/
def execPassEnd (array : Nat) (s : State) : Out := .next (s.passEnd array)

/-! ### The accumulator port (R291 to R296) -/

/-- The block and column of the accumulator store that a command's column names (R293). -/
def MatCmd.place (c : MatCmd) (col : Nat) : Nat × Nat :=
  if 256 ≤ col then (c.pair.getD c.watch.block, col - 256) else (c.watch.block, col)

/-- The key of row i, on the block that holds a column, and the column there. -/
def State.cellAt (s : State) (c : MatCmd) (i col : Nat) : Nat × Nat :=
  let p := c.place col
  (s.accKey c.watch p.1 (c.row + i), p.2)

/-- A cell converted to an element format 0 to 13 (R293, R299): at most one event. -/
def readout (f : Nat) (v : FVal) : Converted :=
  let c := convertTo f v
  { c with flush := c.flush && !c.sat }

/-- ACCRD's unit n: one tile position (R293). -/
def State.accrdUnit (s : State) (c : MatCmd) (n : Nat) : Work State :=
  let t := tileAt c.a n
  let at_ := s.cellAt c (t 1).toNat (c.col + (t 0).toNat)
  let i := elemAt c.a t
  if shFmt c.a = 17 then s.writeElem c.agent c.a i (s.accCell at_.1 at_.2)
  else
    let y := readout (shFmt c.a) (s.cellValue at_.1 at_.2)
    (s.writeElem c.agent c.a i y.bits).bind fun s =>
      .ok (if inBounds c.a i then s.countConverted c.watch (shTid c.a) y else s)

/-- The largest finite magnitude of a scaled element format (R294). -/
def scaledMax (f : Nat) : FVal :=
  .num false (if f = 3 then 480 else if f = 4 then 114688 else if f = 5 then 6 else if f = 10 then 127 else 7) 0

/-- The scale of a block of cells and its converted elements (R294). -/
def scaleBlock (f : Nat) (vs : List FVal) : Nat × List Converted :=
  let plain := fun (bits : Nat) (sat : Bool) => ({ bits := bits, sat := sat, flush := false } : Converted)
  if vs.any FVal.isNan then
    (255, vs.map (fun _ => if (fmtTy f).isFloat then plain ((fmtTy f).ffmt.round .ne .nan).1 false else plain 0 true))
  else if vs.all FVal.isZero then (0, vs.map (fun _ => plain 0 false))
  else
    let finite := vs.filter (fun v => match v with
      | .num _ m _ => m != 0
      | _ => false)
    let mu := finite.foldl (fun m v => if m.lt v.abs then v.abs else m) (.num false 0 0)
    let mu := if mu.isZero then scaledMax f else mu
    let code := ((List.range 254).map (· + 1)).find? (fun c => !((s8Value c).mul (scaledMax f)).lt mu)
    let scale := code.getD 254
    (scale, vs.map (fun v => readout f (v.div (s8Value scale))))

/-- ACCRDW's unit n: one block of L elements (R294). -/
def State.accrdwUnit (s : State) (c : MatCmd) (n : Nat) : Work State :=
  let l := shLen c.a
  let per := shBox c.a 0 / l
  let row := n / per
  let first := n % per * l
  let pos := fun (j : Nat) => elemAt c.a (fun k => if k = 0 then ((first + j : Nat) : Int) else if k = 1 then row else 0)
  if (List.range l).any (fun j => inBounds c.a (pos j)) then
    let vs := (List.range l).map (fun j =>
      let p := s.cellAt c row (c.col + first + j)
      s.cellValue p.1 p.2)
    let y := scaleBlock (shFmt c.a) vs
    ((mapFrom (fun j x => (j, x)) 0 y.2).foldl (fun (r : Work State) x =>
      r.bind fun s => (s.writeElem c.agent c.a (pos x.1) x.2.bits).bind fun s =>
        .ok (if inBounds c.a (pos x.1) then s.countConverted c.watch (shTid c.a) x.2 else s)) (.ok s)).bind fun s =>
      s.writeScale c.agent c.a (pos 0) y.1
  else .ok s

/-- ACCADD's unit n: one source position (R295). -/
def State.accaddUnit (s : State) (c : MatCmd) (n : Nat) : Work State :=
  let t := tileAt c.a n
  let p := s.cellAt c (t 1).toNat (c.col + (t 0).toNat)
  (s.readElem c.agent c.a (elemAt c.a t)).bind fun x =>
    if shFmt c.a = 17 then
      let sp := bitsAt x.1 94 2
      let old := s.anchored p.1 p.2
      let flags := (if sp = 3 then 2 else if sp = 0 then 0 else 4) ||| bitsAt old 106 3
      .ok (s.setAnchored p.1 p.2 (addCells (old % 2 ^ 96) x.1 + bitsAt old 96 10 * 2 ^ 96 + flags * 2 ^ 106))
    else .ok (s.addTerms p.1 p.2 [Ty.f32.ffmt.decode x.1])

/-- The row that ACCSTAT's record n describes (R296). -/
def State.statRow (s : State) (c : MatCmd) (n : Nat) : Nat :=
  if n < c.rows then s.accKey c.watch c.watch.block (c.row + n) else s.accKey c.watch (c.pair.getD 0) (c.row + n - c.rows)

/-- ACCSTAT's unit n: one record (R296). -/
def State.accstatUnit (s : State) (c : MatCmd) (n : Nat) : Work State :=
  let k := s.statRow c n
  let r := s.accRow k
  let v := r.anchor.toNat + r.aexc.toNat * 2 ^ 10 + r.nan.toNat * 2 ^ 11 + r.inf.toNat * 2 ^ 12
  (s.agentWrite c.agent true ((c.addr + 8 * n) % 2 ^ 32) (leBytes 8 v)).bind fun s =>
    .ok (if c.clear then s.setRow k { r with aexc := false, nan := false, inf := false } else s)

/-- Initialise a row, which loses its poison (R291, R384). -/
def State.initRow (s : State) (k : Nat) (anchor : BitVec 10) : State :=
  { s with accRows := putKey k { AccRow.zero with anchor := anchor } s.accRows,
           accCells := s.accCells.filter (fun c => c.1 / 256 != k), accPoison := s.accPoison.filter (· != k) }

/-- A unit of the accumulator port's work. -/
def State.portUnit (s : State) (c : MatCmd) (n : Nat) : Work State :=
  if s.readsBadRow c then .poison (2 ^ 60) 0
  else
  match c.op with
  | .product _ => .ok s
  | .accinit a => .ok (s.initRow (s.statRow c n) a)
  | .accrd => s.accrdUnit c n
  | .accrdw => s.accrdwUnit c n
  | .accadd => s.accaddUnit c n
  | .accstat => s.accstatUnit c n

/-- Work on up to `count` units of a port command. -/
def State.portUnits (s : State) (c : MatCmd) : Nat → Nat → State × Nat × Work Unit
  | n, 0 => (s, n, .ok ())
  | n, count + 1 =>
    if c.total ≤ n then (s, n, .ok ())
    else
      match s.portUnit c n with
      | .ok t => (t.tagTrails c.id (t.objKey c.agent c.obj)).portUnits c (n + 1) count
      | .hold p w => (s, n, .hold p w)
      | .fault u a => (s, n, .fault u a)
      | .poison k a => (s, n, .poison k a)
      | .unmapped k => (s, n, .unmapped k)

/-- ZERO clears the cells read and the flags of the rows read (R293). -/
def State.zeroRead (s : State) (c : MatCmd) : State :=
  (List.range (shBox c.a 1)).foldl (fun s i =>
    (List.range (shBox c.a 0)).foldl (fun s j =>
      let p := s.cellAt c i (c.col + j)
      (s.setCell p.1 p.2 0).setRow p.1 { s.accRow p.1 with aexc := false, nan := false, inf := false }) s) s

/-- Whether a port command has nothing left to do. -/
def MatCmd.portDone (c : MatCmd) : Bool := !c.isProduct && decide (c.total ≤ c.done)

/-- The accumulator port works on a command and counts its bytes (R286, R293 to R296). -/
def State.portDeliver (s : State) (id count : Nat) : State :=
  match s.mats.find? (fun c => c.id == id) with
  | none => s
  | some c =>
    if c.isProduct ∨ c.saved ∨ c.stall.isSome ∨ ¬ s.inOrder c ∨ c.portDone then s
    else
      let r := s.portUnits c c.done count
      let u := r.1.modMat id (fun c => { c with done := r.2.1 })
      let u := if c.total ≤ r.2.1 ∧ c.clear ∧ (c.op = .accrd ∨ c.op = .accrdw) then u.zeroRead c else u
      (u.countMat c (c.bytes * r.2.1 / c.total - c.bytes * c.done / c.total)).matStop c r.2.2

/-- ENGINE_DELIVERY (R260): an engine, or the accumulator port, works on a command and counts its bytes. `pieces` are the
members' pieces of a collective, by rank, as they have arrived. Log 49 (DEDUCED). -/
def execEngineDelivery (id count : Nat) (pieces : List (List Byte)) (s : State) : Out :=
  .next ((s.deliver id count pieces).portDeliver id count)

/-- A port command that has done everything completes. -/
def State.completeMat (s : State) (id : Nat) : State :=
  match s.mats.find? (fun c => c.id == id) with
  | some c => if c.portDone then s.dropMat c else s
  | none => s

/-- ENGINE_COMMAND_COMPLETE (R248). -/
def execEngineCommandComplete (id : Nat) (s : State) : Out := .next ((s.completeCmd id).completeMat id)

/-! ### Issue (R284, R285) -/

/-- The front of a matrix command: LEEWAY (R298), then as an engine command. -/
def State.matFront (s : State) (group : Option Nat) (maj : Nat) (srcs : List Src) (k : State → Out) : Out :=
  s.enter group maj fun s =>
    if s.ctx.cls = 2 then .next (s.takeTrap causeLeeway s.ctx.k0 (BitVec.ofNat 64 maj))
    else if s.ctx.k0 = 0 then .next (s.advance 8)
    else orElse (s.uniFront srcs) (k s)

/-- The block of the gang on the partner core (R285, R290). -/
def State.partnerRank (s : State) : Option Nat :=
  match s.gangOf s.ctx.ref.launch s.ctx.ref.gang with
  | some g => (List.range g.places.length).find? (fun r => (g.places[r]?.map (·.core)) == some (s.ctx.core ^^^ 1))
  | none => none

/-- Conditions 0x10 and 0x11 (R285). Log 48 (DEDUCED). -/
def State.rowFault (s : State) (row n : Nat) (pair : Bool) : Option State :=
  if s.ownRows < row + n then some (s.shapeTrap 0x10 none)
  else if pair ∧ s.partnerRank.isNone then some (s.shapeTrap 0x11 none)
  else none

/-- Queue a checked matrix command, or wait for an entry (R286, R62). With ORD it reads what P0 or a crossing point has brought into T
(R282). -/
def State.queueMat (s : State) (e : FmtE) (op : MatOp) (maj row col rows addr obj bytes total : Nat) (pair clear : Bool) : Out :=
  let w := s.ctx
  if 63 ≤ s.engineCount w.ref ∨ ¬ s.tableTakes w.core ∨ s.mats.any (fun c => s.reenters c && c.core / 4 == w.core / 4) then
    .next (s.hold .operand)
  else
    let product := match op with
      | .product _ => true
      | _ => false
    let c : MatCmd :=
      { id := s.fresh, core := w.core, watch := w.ref, split := w.sp.id, dom := w.dom,
        prio := if product then min (e.flags.extractLsb' 1 2).toNat (s.regField (.quotaCtl w.core w.dom) 4 2) else 0,
        nopre := product && e.flags.getLsbD 3, op := op, major := maj, a := w.shape e.sha, b := w.shape e.shb, obj := obj, row := row,
        col := col, rows := rows, addr := addr, pair := if pair then s.partnerRank else none, clear := clear, bytes := bytes,
        total := total, done := 0, left := 0, right := 0, running := [], waited := 0, holding := false, made := false,
        stall := none, saved := false }
    let s := if e.flags.getLsbD 0 then s.barStale w.ref w.sp.id (fun t => t.path == 0 || t.crossed) 3 else s
    .next (({ s with mats := s.mats ++ [c], fresh := s.fresh + 1 } : State).advance 8)

/-- Whether a pair of formats multiplies (R278). -/
def productPair (sparse : Bool) (a b : Nat) : Bool :=
  if sparse then ((a == 14 || a == 15) && (b == 3 || b == 4)) || (a == 16 && (b == 10 || b == 11))
  else ((a == 3 || a == 4) && (b == 3 || b == 4)) || ((a == 10 || a == 11) && (b == 10 || b == 11)) ||
    (a == 5 && b == 5) || (a == 1 && b == 1) || (a == 2 && b == 2)

/-- Multiples of 32 from 32 to a limit. -/
def tileSide (x limit : Nat) : Bool := x % 32 == 0 && decide (32 ≤ x) && decide (x ≤ limit)

/-- The whole-command conditions of a product (R259, R285). -/
def State.productFault (s : State) (e : FmtE) (a b : Shape) (sparse paired : Bool) (row col : Nat) : Option State :=
  let limit := if paired then 512 else 256
  let bad := fun r => some (s.shapeTrap 0x0F r)
  if ¬ productPair sparse (shFmt a) (shFmt b) then some (s.shapeTrap 0x02 (some e.shb))
  else if shBox a 2 ≠ 1 ∨ shBox a 3 ≠ 1 then bad (some e.sha)
  else if shBox b 2 ≠ 1 ∨ shBox b 3 ≠ 1 then bad (some e.shb)
  else if ¬ tileSide (shBox a 1) 256 ∨ kOf a % granule a ≠ 0 ∨ kOf a = 0 ∨ 4064 < kOf a then bad (some e.sha)
  else if ¬ tileSide (shBox b 1) limit ∨ shBox b 0 ≠ kOf a then bad (some e.shb)
  else if col % 32 ≠ 0 ∨ limit < col + shBox b 1 then bad none
  else s.rowFault row (shBox a 1) (paired && decide (256 < col + shBox b 1))

/-- What the header check of one sector finds (R281): none when it passes. Log 54 (DEDUCED). -/
def State.sectorFault (s : State) (h : Shape) (t0 t1 : Nat) : Option State :=
  let w := s.ctx
  let addr := elemByte h (elemAt h (fun k => if k = 0 then t0 else if k = 1 then t1 else 0))
  let d := BitVec.ofNat 64 addr
  match s.readSector { tu := w.core, watch := w.ref, dom := w.dom } h t0 t1 with
  | .ok bs =>
    let c := sectorBad (shFmt h) bs
    if c = 0 then none else some (s.takeTrap causeSparsehdr w.k0 (BitVec.ofNat 64 (c + t1 * 2 ^ 8 + t0 * 2 ^ 16)))
  | .hold p _ =>
    some (if w.sp.wait = .declined w.dom p then s.takeTrap causePagefault w.k0 d else s.holdPage w.dom p false)
  | .fault sub _ => some (s.takeTrap (if sub = 2 then causeProtect else causePagefault) w.k0 d)
  | .poison k a => some (s.consumePoison w.home w.core w.ref (if 2 ^ 60 ≤ k then 4 else 2) a)
  | .unmapped k => some (s.unmappedPage w.ref k)

/-- The header check of a sparse operand, in tile order (R281). Log 54 (DEDUCED). -/
def State.headerFault (s : State) (h : Shape) : Option State :=
  (List.range (shBox h 0 * shBox h 1)).findSome? (fun n => s.sectorFault h (n % shBox h 0) (n / shBox h 0))

/-- MMA, MMAP, MMAS, MMASP (R289, R290). -/
def State.product (s : State) (e : FmtE) (group maj : Nat) (sparse paired : Bool) : Out :=
  s.matFront (some group) maj [⟨0, e.a, 1⟩, ⟨1, e.b, 1⟩] fun s =>
    let w := s.ctx
    let a := w.shape e.sha
    let b := w.shape e.shb
    let col := (w.uni e.a).toNat
    let row := e.ext.toNat % 256
    let whole := s.productFault e a b sparse paired row col
    orElse (firstFault [s.objFault [w.objOf e], s.shapeFault e.sha a false, s.shapeFault e.shb b false, whole,
        if sparse then s.headerFault a else none]) <|
      s.queueMat e (.product paired) maj row col 0 0 (w.objOf e) (shCount a * shBits a / 8 + shCount b * shBits b / 8) 0
        (paired && decide (256 < col + shBox b 1)) false

/-- MMA (R289). -/
def execMma (e : FmtE) (s : State) : Out := s.product e 0 0xB0 false false
/-- MMAP (R290). -/
def execMmap (e : FmtE) (s : State) : Out := s.product e 0 0xB1 false true
/-- MMAS (R289, R281). -/
def execMmas (e : FmtE) (s : State) : Out := s.product e 1 0xB2 true false
/-- MMASP (R290, R281). -/
def execMmasp (e : FmtE) (s : State) : Out := s.product e 1 0xB2 true true

/-- The flags of R284: ZERO or CLR, and PAIR. -/
def clearFlag (e : FmtE) : Bool := e.flags.getLsbD 3
def pairFlag (e : FmtE) : Bool := e.flags.getLsbD 4

/-- The number of rows of ACCINIT and ACCSTAT (R284). -/
def rowCount (e : FmtE) : Nat := e.ext.toNat / 256 + 1

/-- ACCINIT (R291): it counts nothing. -/
def execAccinit (e : FmtE) (s : State) : Out :=
  s.matFront none 0xB3 [⟨0, e.a, 1⟩] fun s =>
    let n := rowCount e
    orElse (s.rowFault (e.ext.toNat % 256) n (pairFlag e)) <|
      s.queueMat e (.accinit ((s.ctx.uni e.a).extractLsb' 0 10)) 0xB3 (e.ext.toNat % 256) 0 n 0 0 0
        (if pairFlag e then 2 * n else n) (pairFlag e) false

/-- The largest finite magnitude of an operand's element format (R292). -/
def operandMax (f : Nat) : FVal :=
  let f := if isSparse f then sectorFmt f else f
  match f with
  | 3 => .num false 480 0
  | 4 => .num false 114688 0
  | 5 => .num false 6 0
  | 10 => .num false 128 0
  | 11 => .num false 255 0
  | 1 => .num false 65504 0
  | _ => .num false 255 120

/-- The scale bound that counts for an operand (R292). -/
def operandScale (h : Shape) (bound : Nat) : FVal :=
  if shBlk h ≠ 0 ∨ isSparse (shFmt h) then s8Value bound else .num false 1 0

/-- floor(log2) of a positive value, clamped to an anchor (R292). -/
def anchorOf (v : FVal) : Int :=
  match v with
  | .num _ m e => max (-512) (min 511 ((Nat.log2 m : Nat) + e))
  | _ => 511

/-- ANCHOR (R292): it pushes even under an empty mask (R284). -/
def execAnchor (e : FmtE) (s : State) : Out :=
  s.enter none 0xB4 fun s =>
    let w := s.ctx
    if w.cls = 2 then .next (s.takeTrap causeLeeway w.k0 0xB4)
    else
      let a := w.shape e.sha
      let b := w.shape e.shb
      if ¬ (productPair false (shFmt a) (shFmt b) || productPair true (shFmt a) (shFmt b)) then
        .next (s.shapeTrap 0x02 (some e.shb))
      else
        let bound := e.ext.toNat % 256
        let p := ((operandMax (shFmt a)).mul (operandScale a bound)).mul ((operandMax (shFmt b)).mul (operandScale b bound))
        .next ((s.mapCtx (·.pushUni (BitVec.ofInt 64 (anchorOf p)))).advance 8)

/-- The conditions of R285 on a readout or add command. -/
def State.tileFault (s : State) (e : FmtE) (h : Shape) (col row : Nat) : Option State :=
  if shBox h 2 ≠ 1 ∨ shBox h 3 ≠ 1 ∨ (if pairFlag e then 512 else 256) < col + shBox h 0 then some (s.shapeTrap 0x0F (some e.sha))
  else s.rowFault row (shBox h 1) (pairFlag e)

/-- ACCRD, ACCRDW and ACCADD: `format` gives the condition that the format breaks (R293 to R295). -/
def State.tileCmd (s : State) (e : FmtE) (group : Option Nat) (maj : Nat) (op : MatOp) (clear : Bool) (format : Shape → Nat)
    (units : Shape → Nat) : Out :=
  s.matFront group maj [⟨0, e.a, 1⟩, ⟨1, e.b, 1⟩] fun s =>
    let w := s.ctx
    let h := w.shape e.sha
    let col := (w.uni e.a).toNat
    let row := e.ext.toNat % 256
    orElse (firstFault [s.objFault [w.objOf e], s.shapeFault e.sha h false,
        if format h = 0 then none else some (s.shapeTrap (format h) (some e.sha)), s.tileFault e h col row]) <|
      s.queueMat e op maj row col 0 0 (w.objOf e) (tileBytes h) (units h) (pairFlag e) clear

/-- ACCRD (R293). -/
def execAccrd (e : FmtE) (s : State) : Out :=
  s.tileCmd e none 0xB5 .accrd (clearFlag e)
    (fun h => if ¬ (shFmt h ≤ 13 ∨ shFmt h = 17) then 0x02 else if shBlk h ≠ 0 then 0x06 else 0) shCount
/-- ACCRDW (R294). -/
def execAccrdw (e : FmtE) (s : State) : Out :=
  s.tileCmd e none 0xB6 .accrdw (clearFlag e) (fun h => if shBlk h = 0 then 0x06 else 0) (fun h => shCount h / shLen h)
/-- ACCADD (R295). -/
def execAccadd (e : FmtE) (s : State) : Out :=
  s.tileCmd e (some 0) 0xB7 .accadd false
    (fun h => if ¬ (shFmt h = 0 ∨ shFmt h = 17) then 0x02 else if shBlk h ≠ 0 then 0x06 else 0) shCount

/-- ACCSTAT (R296): every record address is checked at issue. Log 54 (DEDUCED). -/
def execAccstat (e : FmtE) (s : State) : Out :=
  s.matFront none 0xB8 [⟨0, e.a, 1⟩, ⟨1, e.b, 1⟩] fun s =>
    let w := s.ctx
    let n := rowCount e
    let records := if pairFlag e then 2 * n else n
    let addr := (w.uni e.a).toNat % 2 ^ 32
    let a : Access := { size := 8, rd := false, wr := true }
    let addrs := (List.range records).map (fun i => (addr + 8 * i) % 2 ^ 32)
    let one := fun (o : Nat) =>
      match s.checkAll true (some w.k0) [{ lane := 0, off := o, v := s.judgeSpad a o }] with
      | .ok _ => none
      | .stop t => some t
    orElse (firstFault [s.objFault [w.objOf e], s.rowFault (e.ext.toNat % 256) n (pairFlag e), addrs.findSome? one]) <|
      s.queueMat e .accstat 0xB8 (e.ext.toNat % 256) 0 n addr (w.objOf e) (8 * records) records (pairFlag e) (clearFlag e)

end Sys2Proof.Machine
end

