-- ==== Sys2Proof/Machine/Gangs.lean ====
section
/-!
DEFINITION. The dispatch of gangs: the running order and its candidates (R310), batches of gang indices (R17, R318), the
resources of a core under its quotas (R310, R329, R349, R350), the placing of a fresh or saved gang (R18, R39, R303, R340), the
end of a gang (R314), and the loss of a die (R318).
-/
namespace Sys2Proof.Machine

/-! ### Free resources of a core -/

/-- The first of n consecutive numbers in lo … hi - 1 that no range in use touches. Log 57 (DESIGN CHOICE). -/
def firstGap (lo hi n : Nat) (used : List (Nat × Nat)) : Option Nat :=
  let free := fun (p : Nat) => decide (lo ≤ p) && decide (p + n ≤ hi) &&
    used.all (fun u => decide (u.1 + u.2 ≤ p) || decide (p + n ≤ u.1) || n == 0)
  firstOf (fun a b => decide (a < b)) ((lo :: used.map (fun u => u.1 + u.2)).filter free)

/-- The rows that blocks hold on a core: first, count; and whether they are a leeway block's (R205). -/
def State.rowsHeld (s : State) (core : Nat) (leeway : Bool) : List (Nat × Nat) :=
  s.gangs.flatMap (fun g =>
    if g.phase = .placed then
      (match s.launchOf g.launch with
      | some l => (g.places.filter (fun p => p.core == core && p.lent == leeway)).map (fun p => (p.row, l.recd.sprows + l.recd.spill))
      | none => [])
    else [])

/-- The accumulator rows that blocks hold on a core. -/
def State.accHeld (s : State) (core : Nat) : List (Nat × Nat) :=
  s.gangs.flatMap (fun g =>
    if g.phase = .placed then
      (match s.launchOf g.launch with
      | some l => (g.places.filter (fun p => p.core == core)).map (fun p => (p.acc, l.recd.accrows))
      | none => [])
    else [])

/-- Free watch slots of a core for a class: a domain's range, or the leeway slots assigned to it (R310). -/
def State.freeSlots (s : State) (core dom cls : Nat) : List Nat :=
  let mine := if cls = 2 then s.leewaySlots core dom
    else (List.range (s.regField (.qslot core dom) 8 5)).map (· + s.regField (.qslot core dom) 0 4)
  mine.filter (fun n => !(s.watches.any (fun w => w.core == core && w.slot == n)))

/-- A place for a block's scratchpad and spill rows. A leeway block has lendable rows only; the owner's blocks have lendable
rows, that no leeway block holds, when their other rows are exhausted (R349, R350). With `reclaim` the leeway blocks' rows count
as free. -/
def State.rowPlace (s : State) (core dom cls n : Nat) (reclaim : Bool) : Option Nat :=
  let lendLo := s.regField (.lendrng core) 0 12
  let lend := s.lendRows core
  let lo := s.regField (.qspad core dom) 0 12
  let hi := lo + s.regField (.qspad core dom) 16 13
  let used := s.rowsHeld core false ++ (if reclaim then [] else s.rowsHeld core true)
  if cls = 2 then firstGap lendLo (lendLo + lend) n used
  else
    match firstGap lo hi n ((lendLo, lend) :: used) with
    | some p => some p
    | none => firstGap lo hi n used

/-- What a core offers a block: slots, first scratchpad row, first accumulator row. -/
structure Offer where
  slots : List Nat
  row   : Nat
  acc   : Nat
  deriving DecidableEq, Repr

/-- Whether a core takes no new block: a standing request (R340), a sight drain or pass (R388), or another domain's slice. -/
def State.closedTo (s : State) (core dom : Nat) : Bool :=
  s.preempts.any (fun p => p.core == core && p.dom == dom) ||
  s.sights.any (fun x => x.holds core) || !s.hasTurn core dom

/-- What a core offers a block of a record, with this many watches and caddy blocks (R310). -/
def State.offer (s : State) (core dom : Nat) (r : LaunchRec) (watches caddy : Nat) (reclaim : Bool) : Option Offer :=
  if ¬ (s.inService core && s.classAllowed core dom r.cls && !s.closedTo core dom) ∨
      (r.cls = 2 ∧ (s.recalls.any (fun x => x.1 == core) ∨ s.reclaims.any (fun x => x.cores.contains core))) then none
  else if r.cls ≠ 2 ∧ s.poolFree core dom < caddy then none
  else
    let slots := s.freeSlots core dom r.cls
    if slots.length < watches then none
    else
      let accLo := s.regField (.qacc core dom) 0 8
      match s.rowPlace core dom r.cls (r.sprows + r.spill) reclaim,
          firstGap accLo (accLo + s.regField (.qacc core dom) 16 9) r.accrows (s.accHeld core) with
      | some row, some acc => some { slots := slots.take watches, row := row, acc := acc }
      | some row, none => if r.accrows = 0 then some { slots := slots.take watches, row := row, acc := 0 } else none
      | none, _ => none

/-! ### Save slots (R304, R310, R347, R348) -/

/-- The largest size of a gang's image (R347, R348). -/
def imageSize (r : LaunchRec) : Nat :=
  4096 + r.blocks * (256 + 2048 + r.watches * 306432 + 128 * (r.sprows + r.spill) + 3080 * r.accrows)

/-- 4 KiB units of a gang's save slot. Log 57 (DESIGN CHOICE). -/
def saveUnits (r : LaunchRec) : Nat := (imageSize r + 4095) / 4096

/-- The slots of a domain's save pool that its gangs hold: first unit and count. -/
def State.slotsHeld (s : State) (dom : Nat) : List (Nat × Nat) :=
  s.gangs.filterMap (fun g => (s.launchOf g.launch).bind (fun l => if l.dom = dom ∧ g.hasSlot then some (g.unit, saveUnits l.recd) else none))

/-- The first unit of a free slot in the save pool, for a gang that has none yet. Log 57 (DESIGN CHOICE). -/
def State.saveSlot (s : State) (l : Launch) : Option Nat :=
  firstGap 0 (s.regField (.gssize l.dom) 0 32) (saveUnits l.recd) (s.slotsHeld l.dom)

/-! ### Candidates (R310) -/

/-- What a dispatcher may place: a gang that returned to the pool or is relaunched, or the next index of a launch. -/
structure Cand where
  launch : Launch
  gang   : Option Gang
  idx    : Nat
  prio   : Nat
  time   : Nat
  seq    : Nat
  deriving DecidableEq, Repr

/-- The running order (R310). Log 58 (DEDUCED). -/
def Cand.before (a b : Cand) : Bool :=
  decide (b.prio < a.prio) || (a.prio == b.prio && (decide (a.time < b.time) || (a.time == b.time &&
    (decide (a.launch.home < b.launch.home) || (a.launch.home == b.launch.home && decide (a.seq < b.seq))))))

/-- Whether a launch has indices that are not placed. -/
def Launch.hasLeft (l : Launch) : Bool :=
  l.phase == .running && !l.faulted && (decide (l.handed < l.recd.gangs) || l.batches.any (fun b => decide (b.next < b.stop)))

/-- The next index from i on, below `stop`, that the counter does not pass over; `stop` if there is none (R318). -/
def Launch.nextFrom (l : Launch) (i stop : Nat) : Nat :=
  (((List.range (stop - i)).map (i + ·)).find? (fun n => !l.skip.contains n)).getD stop

/-- The next index of a launch on a die: of a batch that the die has, or the first of a new one (R17). -/
def Launch.nextIdx (l : Launch) (die : Nat) : Option Nat :=
  match l.batches.find? (fun b => b.die == die && decide (b.next < b.stop)) with
  | some b => some b.next
  | none => if l.handed < l.recd.gangs then some l.handed else none

/-- Log 58 (DEDUCED). -/
def Launch.cand (l : Launch) (g : Option Gang) (idx : Nat) : Cand :=
  match g with
  | some x =>
    if x.phase = .relaunch then { launch := l, gang := g, idx := idx, prio := l.prio, time := l.readyAt, seq := l.seq }
    else { launch := l, gang := g, idx := idx, prio := l.prio, time := x.back, seq := x.seq }
  | none => { launch := l, gang := g, idx := idx, prio := l.prio, time := l.readyAt, seq := l.seq }

/-- Gangs that may return: saved ones whose pending responses have all been written (R342), and those to be relaunched. -/
def State.returning (s : State) : List Cand :=
  s.gangs.filterMap (fun g =>
    if (g.phase == .saved && !(g.watches.any (fun w => w.flights.any (fun f => !f.inUnit)))) || g.phase == .relaunch then
      (s.launchOf g.launch).map (fun l => l.cand (some g) g.idx)
    else none)

/-- The next gangs of running launches on a die; the first launch of a domain that has gangs left holds back its later ones. -/
def State.fresh1 (s : State) (die : Nat) : List Cand :=
  let left := s.launches.filter Launch.hasLeft
  left.filterMap (fun l =>
    let earlier := left.any (fun k => k.dom == l.dom && k.id != l.id && (k.cand none 0).before (l.cand none 0))
    if earlier then none else (l.nextIdx die).map (fun i => l.cand none i))

/-- Watches and caddy blocks that block b of a candidate brings. -/
def Cand.needs (c : Cand) (b : Nat) : Nat × Nat :=
  match c.gang with
  | some g =>
    if g.phase = .relaunch then (c.launch.recd.watches, c.launch.recd.watches * c.launch.recd.caddy)
    else
      let ws := g.watches.filter (fun w => w.ref.block == b)
      (ws.length, (ws.map (fun w => ((w.framesOnChip.filter (fun f => f.pool == w.pool)).map CaddyFrame.blocks).foldl (· + ·) 0)).foldl (· + ·) 0)
  | none => (c.launch.recd.watches, c.launch.recd.watches * c.launch.recd.caddy)

/-- What the named cores offer a candidate's blocks, in order; leeway blocks on the cores `reclaim` count as gone. -/
def State.offers (s : State) (c : Cand) (reclaim : List Nat) : Nat → List Nat → Option (List (Nat × Offer))
  | _, [] => some []
  | b, core :: cores =>
    match s.offer core c.launch.dom c.launch.recd (c.needs b).1 (c.needs b).2 (reclaim.contains core), s.offers c reclaim (b + 1) cores with
    | some o, some os => some ((core, o) :: os)
    | _, _ => none

/-- Whether a list of cores is one cluster's, distinct, and as many as the blocks. -/
def clusterOf (cores : List Nat) (blocks : Nat) : Bool :=
  cores.length == blocks && decide cores.Nodup &&
  (match cores with
  | [] => false
  | c :: _ => cores.all (fun d => d / 4 == c / 4 && decide (d < Config.cores)))

/-- The lists of n of some cores, in order. -/
def choose : Nat → List Nat → List (List Nat)
  | 0, _ => [[]]
  | _ + 1, [] => []
  | n + 1, c :: cs => (choose n cs).map (c :: ·) ++ choose (n + 1) cs

/-- Cores of a cluster that can take a candidate, if any. -/
def State.clusterFor (s : State) (c : Cand) (reclaim : List Nat) (cluster : Nat) : Option (List Nat) :=
  (choose c.launch.recd.blocks ((List.range 4).map (· + 4 * cluster))).find? (fun cs => (s.offers c reclaim 0 cs).isSome)

/-- Whether the save pool has room for a candidate. -/
def State.poolRoom (s : State) (c : Cand) : Bool :=
  c.gang.any Gang.hasSlot || (s.saveSlot c.launch).isSome

/-- Whether a die can place a candidate somewhere. -/
def State.dieTakes (s : State) (die : Nat) (c : Cand) : Bool :=
  s.poolRoom c && (List.range Config.clustersPerDie).any (fun k => (s.clusterFor c [] (Config.clustersPerDie * die + k)).isSome)

/-- The candidates of a die in running order, best first. -/
def sortCands : List Cand → List Cand
  | [] => []
  | c :: cs =>
    let rest := sortCands cs
    rest.takeWhile (fun d => d.before c) ++ c :: rest.dropWhile (fun d => d.before c)

/-- What a die dispatcher places next: the first in running order that it can place (R310). -/
def State.nextCand (s : State) (die : Nat) : Option Cand :=
  if s.deadDies.contains die then none else (sortCands (s.returning ++ s.fresh1 die)).find? (fun c => s.dieTakes die c)

/-! ### Placing -/

/-- The argument words, as each watch reads them when its block starts; one that cannot be read is free (R303).
Log 59 (DESIGN CHOICE). -/
def State.argWords (s : State) (core dom : Nat) (r : LaunchRec) : List DWord :=
  let n := min 8 (r.argsize / 8)
  (List.range n).map (fun i =>
    match s.vread core dom (r.argptr.toNat + 8 * i) 8 with
    | .ok bs => BitVec.ofNat 64 (leNat bs)
    | _ => Config.freeArg r.va.toNat (r.argptr.toNat + 8 * i)) ++ List.replicate (8 - n) 0

/-- The first page of the argument block that is a recoverable fault. Log 59 (DESIGN CHOICE). -/
def State.argHold (s : State) (core dom : Nat) (r : LaunchRec) : Option Nat :=
  match s.vread core dom r.argptr.toNat (8 * min 8 (r.argsize / 8)) with
  | .hold p => some p
  | _ => none

/-- What a block reads at its start: its argument words, and the tensor-ID list of the launch's counter buffer (R153, R303). -/
def startReads (r : LaunchRec) : List (Nat × Nat) :=
  (List.range (min 8 (r.argsize / 8))).map (fun i => (r.argptr.toNat + 8 * i, 8)) ++ (if r.cntbuf = 0 then [] else [(r.cntbuf.toNat, 126)])

/-- The first of them that holds poison, which the gang consumes, or lies on a page that the indirection table does not map: its address and
key, and whether it is poisoned (R303, R357, R384). Log 32 (DEDUCED), 56 (DEDUCED). -/
def State.startBad (s : State) (core dom : Nat) (r : LaunchRec) : Option (Nat × Nat × Bool) :=
  (startReads r).findSome? (fun x => (s.vbad core dom x.1 x.2).map (fun b => (x.1, b.1, b.2)))

/-- The scalar wake at entry: word i at age i (R39). -/
def entryScalars (args : List DWord) : SWake := args.reverse.foldl (fun (v : SWake) a => v.push (.val a)) SWake.empty

/-- A watch when its block starts (R18, R39). Log 28 (DEDUCED). -/
def startWatch (l : Launch) (idx block watch core slot : Nat) (feat : DWord) (args : List DWord) (time fid : Nat)
    (blks : List Nat) : Watch :=
  let r := l.recd
  let flat := ((idx * r.blocks + block) * r.watches + watch) * r.ewidth
  let args := match l.payload with
    | some p => p :: args.drop 1
    | none => args
  { resident := true, ref := ⟨l.id, idx, block, watch⟩, core := core, slot := slot, home := l.dom, dom := l.dom, cls := r.cls,
    ewidth := r.ewidth, blocks := r.blocks, watches := r.watches, code := r.code, traph := r.traph, rejoinAt := r.rejoinAt,
    rejoinN := r.rejoinN, spadRows := r.sprows, spill := r.spill / r.watches, feat := feat, ks := List.replicate 7 0,
    bears := List.replicate 8 Bearing.zero, bovf := false, shapes := List.replicate 16 0, segs := r.segs, ntid := 0,
    caddies := [{ id := fid, pool := poolOf r.cls slot l.dom, blks := blks, slots := zeroBlocks r.caddy }],
    lanes := (List.range Config.lanes).map (fun i =>
      { Lane.empty with exited := decide (r.ewidth ≤ i), wake := VWake.empty.push (.val (BitVec.ofNat 32 (flat + i))) }),
    flights := [],
    sp := { Split.empty with pc := r.code + r.entry, swake := entryScalars args, caddy := fid, since := time },
    sibs := [] }

/-- FEATMASK as a context meets it at a dispatch (R333). Log 28 (DEDUCED). -/
def State.refeature (s : State) (w : Watch) : Watch :=
  { w.mapSplits (fun p => { p with frames := p.frames.map (fun f =>
      { f with bank := f.bank.map (fun b => { b with feat := s.reg (.featmask b.dom) }) }) }) with feat := s.reg (.featmask w.dom) }

/-- Add a resident watch. -/
def State.addWatch (s : State) (w : Watch) : State :=
  if s.ctx.resident then { s with others := s.others ++ [w] } else { s with ctx := w }

/-- Start the watches of a block on its core. -/
def State.startBlock (s : State) (l : Launch) (idx block core : Nat) (o : Offer) : State :=
  let args := s.argWords core l.dom l.recd
  (List.range l.recd.watches).foldl (fun s v =>
    let slot := o.slots.getD v 0
    let blks := (s.freeBlocks core (poolOf l.recd.cls slot l.dom)).take l.recd.caddy
    let w := startWatch l idx block v core slot (s.reg (.featmask l.dom)) args s.time s.fresh blks
    ({ s.addWatch w with fresh := s.fresh + 1 } : State)) { s with fresh := s.fresh + 8 }

/-- The blocks of a restored watch: each frame on chip takes free blocks of its pool on the new core, and a leeway watch's frames those of
its new slot (R91, R117, R349). Log 95 (DEDUCED). -/
def State.rehouse (s : State) (w : Watch) : Watch :=
  let frames := w.caddies.foldl (fun (done : List CaddyFrame) f =>
    let pool := if 32 ≤ f.pool then 32 + (w.slot - 16) else f.pool
    let taken := done.flatMap (·.blks)
    let free := if w.framesOnChip.any (fun g => g.id == f.id) then (s.freeBlocks w.core pool).filter (fun n => !taken.contains n) else []
    done ++ [{ f with pool := pool, blks := if f.blocks ≤ free.length then free.take f.blocks else [] }]) []
  { w with caddies := frames }

/-- The saved watches of a block take their core and slots; every split goes on where it stood (R340). -/
def State.restoreBlock (s : State) (ws : List Watch) (core : Nat) (o : Offer) : State :=
  (mapFrom (fun i w => (i, w)) 0 ws).foldl (fun s (x : Nat × Watch) =>
    s.addWatch (s.refeature (s.rehouse { x.2 with core := core, slot := o.slots.getD x.1 0 }))) s

/-- The tensor-ID list of a launch's counter buffer, as read at block start (R153, R154). Log 104 (DESIGN CHOICE). -/
def State.readTids (s : State) (core : Nat) (l : Launch) : List Nat :=
  if l.recd.cntbuf = 0 then []
  else
    match s.vread core l.dom l.recd.cntbuf.toNat 126 with
    | .ok bs => (chunks 2 63 bs).map leNat
    | _ => []

/-- The places of a gang's blocks. -/
def placesOf (c : Cand) (os : List (Nat × Offer)) : List BlockPlace :=
  mapFrom (fun b (x : Nat × Offer) =>
    let old := (c.gang.bind (fun g => if g.phase = .relaunch then none else g.places[b]?))
    { core := x.1, row := x.2.row, acc := x.2.acc, lent := c.launch.recd.cls == 2,
      ran := ((old.map (·.ran)).getD [] ++ [x.1]).eraseDups,
      drained := ((old.map (·.drained)).getD []).filter (· != x.1), ended := (old.map (·.ended)).getD false }) 0 os

/-- Accumulator rows start clear (R273), and so do scratchpad rows: a launch's results do not depend on what earlier work left
there (R26, R29, R349). Log 3 (DESIGN CHOICE). -/
def State.clearPlaces (s : State) (r : LaunchRec) (ps : List BlockPlace) : State :=
  ps.foldl (fun s (p : BlockPlace) =>
    (s.clearRows (p.core * 256 + p.acc) r.accrows).clearBytes (spadKey p.core (128 * p.row)) (128 * (r.sprows + r.spill))) s

/-- Start a gang's blocks: a fresh one, or one relaunched (R310, R315). -/
def State.startGang (s : State) (c : Cand) (os : List (Nat × Offer)) : State :=
  let l := c.launch
  let ps := placesOf c os
  let core := (os.head?.map (·.1)).getD 0
  let g : Gang :=
    { launch := l.id, idx := c.idx, phase := .placed, places := ps, join := 0, bgen := List.replicate l.recd.blocks 0, ggen := 0,
      jgen := 0, staging := [], tids := s.readTids core l, unit := ((c.gang.filter Gang.hasSlot).map (·.unit)).getD ((s.saveSlot l).getD 0), seq := 0, back := 0,
      watches := [] }
  let bad := s.startBad core l.dom l.recd
  let s := s.clearPlaces l.recd ps
  let s := { s with gangs := s.gangs.filter (fun (x : Gang) => !(x.launch == l.id && x.idx == c.idx)) ++ [g] }
  let u := (mapFrom (fun b x => (b, x)) 0 os).foldl (fun (s : State) (x : Nat × (Nat × Offer)) => s.startBlock l c.idx x.1 x.2.1 x.2.2) s
  match bad with
  | some (va, _, true) => u.consumePoison l.dom core ⟨l.id, c.idx, 0, 0⟩ 1 va
  | some (_, k, false) => u.unmappedPage ⟨l.id, c.idx, 0, 0⟩ k
  | none => u

/-- Restore a saved gang: its rows return to the stores, its matrix commands to the tables with new arrival orders, and its
paused engine commands go on; an image that a write has altered is recorded (R271, R297, R340, R347, R348).
Log 29 (DESIGN CHOICE), 63 (DEDUCED). -/
def State.resumeGang (s : State) (c : Cand) (g : Gang) (os : List (Nat × Offer)) : State :=
  let l := c.launch
  let ps := placesOf c os
  let x : Altered := { bytes := if g.altered.isEmpty then [] else s.imageNow g, hits := g.altered }
  let ws := if g.intact then g.watches else mapFrom (fun i (w : Watch) => g.returned l.recd x w (s.fresh + 2 ^ 20 * (i + 1))) 0 g.watches
  let h := if g.intact then g else g.alter l.recd x s.fresh
  let g' : Gang := { h with phase := .placed, places := ps, image := [], altered := [], saves := [], watches := [] }
  let s := if g.intact then s else
    ({ (s.physRecord { kind := 0x25, sub := 0, dom := l.dom, gang := g.idx, detail := g.idx } false).restoreRows l.recd g x with
      mats := mapFrom (fun i (c : MatCmd) => c.alter l.recd g x (s.fresh + 1024 + 4 * i)) 0 s.mats,
      fresh := s.fresh + 2 ^ 20 * (g.watches.length + 1) } : State)
  let s := s.clearPlaces l.recd ps
  let s := s.moveBlocks g.spadAt g'.spadAt g.accAt g'.accAt (128 * l.recd.sprows) l.recd.accrows l.recd.blocks
  let s := s.modGang l.id c.idx (fun _ => g')
  let mine := fun (r : WatchRef) => r.launch == l.id && r.gang == c.idx
  let s := { s with
    mats := s.mats.filter (fun m => !mine m.watch) ++ (s.mats.filter (fun m => mine m.watch)).map (fun (m : MatCmd) =>
      { m with core := ((ps[m.watch.block]?).map (·.core)).getD m.core }),
    cmds := s.cmds.map (fun (e : EngCmd) =>
      if mine e.watch then { e with paused := false, core := ((ps[e.watch.block]?).map (·.core)).getD e.core } else e) }
  ((mapFrom (fun b x => (b, x)) 0 os).foldl (fun (s : State) (x : Nat × (Nat × Offer)) =>
    s.restoreBlock (ws.filter (fun w => w.ref.block == x.1)) x.2.1 x.2.2) s).pollJoin ⟨l.id, c.idx, 0, 0⟩

/-- Take one index from the first batch of a die that has any left. -/
def Launch.takeBatch (l : Launch) (die : Nat) : List Batch → List Batch
  | [] => []
  | b :: bs =>
    if b.die = die ∧ b.next < b.stop then { b with next := l.nextFrom (b.next + 1) b.stop } :: bs else b :: l.takeBatch die bs

/-- Take the index that a fresh gang has from its die's batch, or from a new batch of up to 16 (R17, R318). -/
def Launch.takeIdx (l : Launch) (die : Nat) : Launch :=
  if l.batches.any (fun b => b.die == die && decide (b.next < b.stop)) then { l with batches := l.takeBatch die l.batches }
  else
    let stop := min (l.handed + 16) l.recd.gangs
    { l with handed := l.nextFrom stop l.recd.gangs,
             batches := l.batches ++ [{ die := die, start := l.handed, stop := stop, next := l.nextFrom (l.handed + 1) stop }] }

/-- Place a candidate on cores that offer it room. -/
def State.placeCand (s : State) (die : Nat) (c : Cand) (os : List (Nat × Offer)) : State :=
  match c.gang with
  | some g => if g.phase = .relaunch then s.startGang c os else s.resumeGang c g os
  | none => (s.modLaunch c.launch.id (fun l => l.takeIdx die)).startGang c os

/-- Place a candidate on cores that offer it room; while the argument block of a gang that starts meets a recoverable fault, the request
stands and the gang waits (R303, R363). -/
def State.placeOrHold (s : State) (core : Nat) (c : Cand) (os : List (Nat × Offer)) : State :=
  match s.argHold core c.launch.dom c.launch.recd with
  | some p =>
    if (c.gang.map (·.phase)).getD .relaunch = .relaunch then s.pageReq c.launch.dom p false false (.place core)
    else s.placeCand (core / 160) c os
  | none => s.placeCand (core / 160) c os

/-- A die dispatcher places the first candidate it can on the named cores (R310). -/
def State.gangPlace (s : State) (cores : List Nat) : State :=
  let core := cores.head?.getD 0
  match s.nextCand (core / 160) with
  | none => s
  | some c =>
    if ¬ clusterOf cores c.launch.recd.blocks then s
    else
      match s.offers c [] 0 cores with
      | none => s
      | some os => s.placeOrHold core c os

/-- GANG_PLACE (R310). -/
def execGangPlace (cores : List Nat) (s : State) : Out := .next (s.gangPlace cores)

/-- GANG_END (R314): a gang whose watches have ended and whose commands have completed. -/
def execGangEnd (launch gang : Nat) (s : State) : Out := .next (s.settleGang launch gang)

/-! ### The loss of a die (R318) -/

/-- The pilot die of a launch: the one its record names, if in service, else the lowest in service (R17). -/
def State.pilotDie (s : State) (r : LaunchRec) : Nat :=
  let live := (List.range Config.dies).filter (fun d => !s.deadDies.contains d)
  match r.pilot with
  | some d => if live.contains d then d else live.head?.getD 0
  | none => live.head?.getD 0

/-- The indices of a lost die's batches that had not ended: placed or saved ones, and those not yet placed.
Log 66 (DEDUCED). -/
def State.lostIdx (s : State) (l : Launch) (die : Nat) : List Nat × List Nat :=
  let bs := l.batches.filter (fun b => b.die == die)
  ((s.gangs.filter (fun g => g.launch == l.id && (bs.any (fun b => decide (b.start ≤ g.idx) && decide (g.idx < b.next)) ||
      (g.phase == .placed && g.places.any (fun p => p.core / 160 == die))))).map (·.idx),
   bs.flatMap (fun b => ((List.range (b.stop - b.next)).map (· + b.next)).filter (fun i => !l.skip.contains i)))

/-- A new pilot takes over from a lost one: the counter is the highest batch end in the surviving logs, and passes over the indices
beyond it whose gangs had ended or are relaunched (R318). Log 66 (DEDUCED). -/
def State.newPilot (s : State) (die : Nat) (unplaced : List Nat) (l : Launch) : Launch :=
  if l.pilot ≠ die then { l with batches := l.batches.map (fun b => if b.die = die then { b with next := b.stop } else b) }
  else
    let kept := l.batches.filter (fun b => b.die != die)
    let top := (kept.map (·.stop)).foldl max 0
    let l := { l with pilot := s.pilotDie { l.recd with pilot := none }, batches := kept,
                      skip := l.skip ++ ((List.range (l.handed - top)).map (top + ·)).filter (fun i => !unplaced.contains i) }
    { l with handed := l.nextFrom top l.recd.gangs }

/-- The lost die's gangs of a launch are killed, and relaunched where R315 allows; an index not yet placed is handed out by the new
pilot, or becomes a gang to be relaunched, or ends the launch (R318). -/
def State.loseGangs (s : State) (die : Nat) (l : Launch) : State :=
  let x := s.lostIdx l die
  let top := ((l.batches.filter (fun b => b.die != die)).map (·.stop)).foldl max 0
  let again := if l.pilot = die then x.2.filter (fun (i : Nat) => decide (top ≤ i)) else []
  let s := x.1.foldl (fun s i => s.killGang l.id i true) s
  let s := s.modLaunch l.id (s.newPilot die again)
  if x.2.isEmpty then s
  else if l.recd.replay && !s.launchFailed l.id then
    { s with gangs := s.gangs ++ (x.2.filter (fun i => !again.contains i)).map (fun i =>
        ({ launch := l.id, idx := i, phase := .relaunch, places := [], join := 0, bgen := List.replicate l.recd.blocks 0, ggen := 0,
           jgen := 0, staging := [], tids := [], seq := 0, back := 0, watches := [] } : Gang)) }
  else (s.failLaunch l.id).settleLaunch l.id false

/-- A die leaves service (R318): its nodes' counters are homed on the next die (R307). Log 66 (DEDUCED). -/
def State.dieLoss (s : State) (die : Nat) : State :=
  if s.deadDies.contains die ∨ Config.dies ≤ die then s
  else
    let s := { s with deadDies := die :: s.deadDies }
    let s := { s with nodes := s.nodes.map (fun (n : Node) => if n.home = die then { n with home := s.homeDie n.idx } else n) }
    let s := (s.file.filter (fun x => x.1 == die)).foldl (fun s x => s.touchCounter (s.homeDie x.2.2) x.2.1 x.2.2) s
    (s.launches.filter (fun l => l.phase == .running)).foldl (fun s l => s.loseGangs die l) s

/-- PILOT_DIE_LOSS (R318). -/
def execPilotDieLoss (die : Nat) (s : State) : Out := .next (s.dieLoss die)

end Sys2Proof.Machine
end

