-- ==== Sys2Proof/Machine/Preempt.lean ====
section
/-!
DEFINITION. Pre-emption (R340 to R343), slices and debt (R346, R365), leeway revocation (R349, R350), sight passes and vouching
(R388 to R390), and what the device carries on with at the start of every step: halts, drains, slices, vouching and the passing of
time.
-/
namespace Sys2Proof.Machine

/-! ### The ladder (R340) -/

/-- PSTAT: the domain of the last request, and its state (R340). -/
def State.setPstat (s : State) (core dom st : Nat) : State := s.setReg (.pstat core) (BitVec.ofNat 64 (dom + st * 2 ^ 8))

/-- The standing request of a domain on a core. -/
def State.preemptOf (s : State) (core dom : Nat) : Option Preempt := s.preempts.find? (fun p => p.core == core && p.dom == dom)

def State.dropPreempt (s : State) (core dom : Nat) : State :=
  { s with preempts := s.preempts.filter (fun p => !(p.core == core && p.dom == dom)) }

/-- Look again at the arrivals of the gangs on a core. -/
def State.pollCore (s : State) (core : Nat) : State :=
  (s.watches.filter (fun w => w.core == core)).foldl (fun s w => s.pollYieldb w.ref) s

/-- A request goes on to a state, which PSTAT shows while it names that domain (R340). Log 113 (DEDUCED). -/
def State.notePstat (s : State) (core dom st : Nat) : State :=
  if s.regField (.pstat core) 0 5 = dom then s.setPstat core dom st else s

/-- The state of PSTAT that a standing request is in (R340). -/
def Preempt.shown (p : Preempt) : Nat := if p.killed then 4 else if p.hard then 2 else 1

/-- A soft request (R340): no new gang is placed, and the grace timer starts. Log 113 (DEDUCED). -/
def State.softRequest (s : State) (core dom : Nat) : State :=
  match s.preemptOf core dom with
  | some p => s.setPstat core dom p.shown
  | none =>
    let s : State := { s with preempts := s.preempts ++ [{ core := core, dom := dom, hard := false, window := true, begun := s.time }] }
    (s.setPstat core dom 1).pollCore core

/-- The hard step (R340): the domain's gangs on the core halt, the kill timer and the response window start. -/
def State.hardStep (s : State) (core dom : Nat) : State :=
  match s.preemptOf core dom with
  | some p =>
    if p.hard then s
    else
      { s with preempts := s.preempts.map (fun (q : Preempt) =>
          if q.core = core ∧ q.dom = dom then { q with hard := true, window := true, begun := s.time } else q) }
  | none => { s with preempts := s.preempts ++ [{ core := core, dom := dom, hard := true, window := true, begun := s.time }] }

/-- A hard request (R340). Log 113 (DEDUCED). -/
def State.hardRequest (s : State) (core dom : Nat) : State :=
  let s := s.hardStep core dom
  s.setPstat core dom (((s.preemptOf core dom).map Preempt.shown).getD 2)

/-- Withdraw a soft request: placement resumes, and splits that wait at YIELDB complete (R340, R343). Log 113 (DEDUCED). -/
def State.withdraw (s : State) (core dom : Nat) : State :=
  match s.preemptOf core dom with
  | some p => if p.hard then s else ((s.dropPreempt core dom).notePstat core dom 0).pollCore core
  | none => s

/-- PREQ_WITHDRAW (R340). -/
def execPreqWithdraw (core dom : Nat) (s : State) : Out := s.byRegister (·.withdraw core dom)
/-- PREQ_SOFT (R340). -/
def execPreqSoft (core dom : Nat) (s : State) : Out := s.byRegister (·.softRequest core dom)
/-- PREQ_HARD (R340). -/
def execPreqHard (core dom : Nat) (s : State) : Out := s.byRegister (·.hardRequest core dom)

/-- When the timer of a request ends: GRACE or KILLT of its domain, in µs at the present clock (R340). -/
def State.dueAt (s : State) (p : Preempt) : Nat :=
  p.begun + (if p.hard then s.regField (.killt p.dom) 0 16 else s.regField (.grace p.dom) 0 14) * s.clock

/-- Of some requests, the one whose timer ends first; of equal ones, the oldest (R340). -/
def State.firstDue (s : State) : List Preempt → Option Preempt
  | [] => none
  | p :: ps =>
    match s.firstDue ps with
    | some q => if s.dueAt q < s.dueAt p then some q else some p
    | none => some p

/-- GRACE_EXPIRY (R340): the soft request on the core whose grace timer ends first goes to its hard step.
Log 37 (DEDUCED). -/
def execGraceExpiry (core : Nat) (s : State) : Out :=
  match s.firstDue (s.preempts.filter (fun p => p.core == core && !p.hard)) with
  | some p => .next ((s.hardStep core p.dom).notePstat core p.dom 2)
  | none => .next s

/-- Kill every gang of a domain on a core, with its record (R315, R340, R385). -/
def State.killOn (s : State) (core dom : Nat) : State :=
  (s.gangsOn core (fun _ l => l.dom == dom)).foldl (fun s g =>
    (s.record { kind := 0x0B, dom := dom, gang := g.idx, detail := placeBits core }).killGang g.launch g.idx false) s

/-- KILL_TIMER_EXPIRY (R340): where something of the domain of the hard request whose kill timer ends first is still on the core, its gangs
there are killed. Log 37 (DEDUCED), 60 (DEDUCED). -/
def execKillTimerExpiry (core : Nat) (s : State) : Out :=
  match s.firstDue (s.preempts.filter (fun p => p.core == core && p.hard && !p.killed)) with
  | some p =>
    if (s.gangsOn core (fun _ l => l.dom == p.dom)).isEmpty ∧ ¬ s.passOn core p.dom then .next s
    else
      let s := { s with preempts := s.preempts.map (fun (q : Preempt) =>
        if q.core = core ∧ q.dom = p.dom then { q with killed := true } else q) }
      .next ((s.notePstat core p.dom 4).killOn core p.dom)
  | none => .next s

/-- RESPONSE_WINDOW_EXPIRY (R342): loads and atomics that have not answered will be saved as pending. -/
def execResponseWindowExpiry (core dom : Nat) (s : State) : Out :=
  .next { s with
    preempts := s.preempts.map (fun (p : Preempt) => if p.core = core ∧ p.dom = dom then { p with window := false } else p),
    sights := s.sights.map (fun (x : Sight) => if x.next = some core then { x with window := false } else x),
    recalls := s.recalls.map (fun (x : Nat × Bool) => if x.1 = core then (core, false) else x) }

/-- RESPONSE_TIMEOUT (R342, R379): a load or atomic over PCIe or Exvor yields zero, with records. -/
def execResponseTimeout (w : WatchRef) (id : Nat) (s : State) : Out :=
  match (s.findWatch w).bind (fun v => (v.flights.find? (fun f => f.id == id)).map (fun f => (v, f))) with
  | some (v, f) =>
    if f.inUnit ∨ f.path = .local then .next s
    else
      .next ((s.intoImage w (fun x => x.completeZero id)).record
        { kind := 0x0A, sub := 1, dom := v.home, gang := w.gang, detail := f.peer,
          addr := if v.abroad then 0 else f.addr })
  | none => .next s

/-- Save the gangs of a core that have nothing to wait for any more (R340 to R342). -/
def State.saveOn (s : State) (core : Nat) (window : Bool) (p : Gang → Launch → Bool) : State :=
  (s.gangsOn core p).foldl (fun s g => if s.mustWait g.launch g.idx window then s else s.saveGang g.launch g.idx false) s

/-- A request goes on: a soft one looks again at the arrivals at YIELDB; when the domain of a hard one holds nothing on the core,
the request is done (R340, R342, R343). Log 60 (DEDUCED). -/
def State.pollHalt (s : State) (p : Preempt) : State :=
  if p.hard then
    let mine := fun (_ : Gang) (l : Launch) => l.dom == p.dom
    let s := s.saveOn p.core p.window mine
    if (s.gangsOn p.core mine).isEmpty ∧ ¬ s.passOn p.core p.dom then
      (s.dropPreempt p.core p.dom).notePstat p.core p.dom (if p.killed then 5 else 3)
    else s
  else s.pollCore p.core

/-! ### Slices and debt (R346, R365) -/

/-- Cycles of a slice (R365): its microseconds at the present clock. -/
def State.sliceCycles (s : State) (core : Nat) : Nat := s.regField (.wsctl core) 0 17 * s.clock

/-- The valid entry after index i of a rotation list, in list order and round. -/
def State.wsAfter (s : State) (core i : Nat) : Option (Nat × Nat) :=
  let es := s.wsListed core
  match es.find? (fun e => decide (i < e.1)) with
  | some e => some e
  | none => es.head?

/-- The next slice of a core starts: debt below one slice shortens it, more forfeits it (R346). Log 65 (DEDUCED). -/
def State.nextSlice : Nat → State → Nat → Nat → State
  | 0, s, core, i => s.setSlice { core := core, index := i, leaving := s.wsEntry core i, short := 0 }
  | fuel + 1, s, core, i =>
    match s.wsAfter core i with
    | none => s
    | some (j, d) =>
      let debt := s.regField (.debt core d) 0 32
      let len := s.sliceCycles core
      if debt < len then
        (s.setReg (.debt core d) 0).setSlice { core := core, index := j, leaving := none, short := debt }
      else State.nextSlice fuel (s.setReg (.debt core d) (BitVec.ofNat 64 (debt - len))) core j

/-- The incoming slice begins when the outgoing domain holds nothing on the core (R365). -/
def State.pollSlice (s : State) (x : Slice) : State :=
  match x.leaving with
  | some d => if (s.gangsOn x.core (fun _ l => l.dom == d)).isEmpty ∧ ¬ s.passOn x.core d then State.nextSlice 8 s x.core x.index else s
  | none => s

/-- Whether a matrix command flagged NOPRE, or a NOPRE gate call, of a domain runs on a core (R297, R346). -/
def State.nopreOn (s : State) (core dom : Nat) : Bool :=
  s.mats.any (fun c => (s.arraysOf c).contains core && c.nopre && !c.saved && c.isProduct && s.payer c.watch c.dom == dom) ||
  s.watches.any (fun w => w.core == core && w.home == dom &&
    w.splits.any (fun p => p.frames.any (fun f => (f.desc.map (·.nopre)).getD false)))

/-- Add to a domain's debt on a core, which saturates. Log 64 (DESIGN CHOICE). -/
def State.addDebt (s : State) (core dom n : Nat) : State :=
  s.setReg (.debt core dom) (BitVec.ofNat 64 (min (s.regField (.debt core dom) 0 32 + n) (2 ^ 32 - 1)))

/-- SLICE_END (R346, R365): once no NOPRE work of the outgoing domain is left, the cycles beyond the slice become debt, the engine commands
of its gangs that hold the core pause, whichever core of theirs they came from (R271), and it gets a hard request.
Log 37 (DEDUCED), 63 (DEDUCED). -/
def execSliceEnd (core overrun : Nat) (s : State) : Out :=
  let x := s.sliceOf core
  match s.wsEntry core x.index with
  | none => .next (if s.wsOn core then State.nextSlice 8 s core x.index else s)
  | some d =>
    if ¬ s.wsOn core ∨ x.leaving.isSome ∨ s.nopreOn core d then .next s
    else
      let s := (s.addDebt core d overrun).setSlice { x with leaving := some d }
      let out := s.gangsOn core (fun _ l => l.dom == d)
      let s := { s with cmds := s.cmds.map (fun (c : EngCmd) =>
        if out.any (fun g => g.launch == c.watch.launch && g.idx == c.watch.gang) then { c with paused := true } else c) }
      .next (s.hardRequest core d)

/-! ### Leeway revocation (R349, R350) -/

/-- The revocation of a core's leeway contexts goes on: those that wait for nothing any more are saved with their rows, which
become zero (R342, R350). -/
def State.pollRecall (s : State) (x : Nat × Bool) : State :=
  let lent := fun (_ : Gang) (l : Launch) => l.recd.cls == 2
  let s := s.saveOn x.1 x.2 lent
  if (s.gangsOn x.1 lent).isEmpty then { s with recalls := s.recalls.filter (fun y => y.1 != x.1) } else s

/-- Revoke the leeway contexts of a core: they halt, their response window opens, and they are saved (R342, R350).
Log 114 (DESIGN CHOICE). -/
def State.revokeLeeway (s : State) (core : Nat) : State :=
  if s.recalls.any (fun x => x.1 == core) then s
  else State.pollRecall { s with recalls := s.recalls ++ [(core, true)] } (core, true)

/-- The owner's request that needs lent rows of a core: the first candidate of its domain that finds room on cores of the cluster, the
core among them, only without the leeway blocks there; with those cores that lack room as they stand (R350). -/
def State.ownerCand (s : State) (core : Nat) : Option (Cand × List Nat × List Nat) :=
  (s.lendOwner core).bind fun d =>
    let lent := ((List.range 4).map (· + 4 * (core / 4))).filter (fun c => s.lendOwner c = some d)
    ((sortCands (s.returning ++ s.fresh1 (core / 160))).filter (fun c => c.launch.dom == d && c.launch.recd.cls != 2)).findSome? (fun c =>
      if s.dieTakes (core / 160) c ∨ ¬ s.poolRoom c then none
      else
        ((choose c.launch.recd.blocks ((List.range 4).map (· + 4 * (core / 4)))).find? (fun cs =>
          cs.contains core && (s.offers c lent 0 cs).isSome)).map (fun cs =>
            (c, cs, lent.filter (fun k => cs.contains k && (s.offers c (lent.filter (· != k)) 0 cs).isNone))))

/-- The owner's request completes: at once, or by the device itself when the last answer that the revocation awaits has come; until then
the cores lend no row (R350). Log 114 (DESIGN CHOICE). -/
def State.pollReclaim (s : State) (x : Reclaim) : State :=
  if s.recalls.any (fun y => x.cores.contains y.1) then s
  else
    let core := x.cores.head?.getD 0
    let t : State := { s with reclaims := s.reclaims.filter (· != x) }
    match (s.returning ++ s.fresh1 (core / 160)).find? (fun c => c.launch.id == x.launch && c.idx == x.gang) with
    | none => t
    | some c =>
      match (choose c.launch.recd.blocks ((List.range 4).map (· + 4 * (core / 4)))).findSome? (fun cs => t.offers c [] 0 cs) with
      | some os => if (s.argHold core c.launch.dom c.launch.recd).isSome then s.placeOrHold core c os else t.placeOrHold core c os
      | none => t

/-- LEND_RECLAIM (R350): the leeway contexts that hold the rows are revoked and saved with them, and the owner's request then completes.
Log 114 (DESIGN CHOICE). -/
def execLendReclaim (core : Nat) (s : State) : Out :=
  match s.ownerCand core with
  | none => .next s
  | some (c, _, lent) =>
    let x : Reclaim := { cores := lent, launch := c.launch.id, gang := c.idx }
    let s := lent.foldl (fun s k => s.revokeLeeway k) { s with reclaims := s.reclaims.filter (· != x) ++ [x] }
    .next (s.pollReclaim x)

/-- LENDRNG.ERR (R330): the range does not lie inside exactly one domain's range. -/
def State.lendErr (s : State) (core : Nat) : State :=
  s.setRegField (.lendrng core) 30 1 (if (s.lendOwner core).isSome then 0 else 1)

/-- A write of LSLOT or LENDRNG: a leeway context that uses a slot is revoked (R330, R350). Log 114 (DESIGN CHOICE). -/
def State.writeLend (s : State) (core : Nat) (slots : Bool) (v : DWord) : State :=
  let s := s.revokeLeeway core
  if slots then s.setReg (.lslot core) (v &&& 0x9F9F#64) else (s.setReg (.lendrng core) (v &&& 0x9FFF0FFF#64)).lendErr core

/-- LEND_CONFIG_WRITE (R350). -/
def execLendConfigWrite (core : Nat) (slots : Bool) (v : DWord) (s : State) : Out := s.byRegister (·.writeLend core slots v)

/-! ### Sight passes (R388, R389) -/

def State.modSight (s : State) (die : Nat) (f : Sight → Sight) : State := { s with sights := modAt f s.sights die }

/-- The core in service that a die's rotation visits next. -/
def State.rotation (s : State) (die pos : Nat) : Option Nat :=
  let live := ((List.range Config.coresPerDie).map (· + Config.coresPerDie * die)).filter s.inService
  match live.find? (fun c => decide (pos < c)) with
  | some c => some c
  | none => live.head?

/-- SIGHT_DRAIN (R388): the next core of the rotation takes no new block and its gangs are saved; its pass starts when it is
drained and no other runs. -/
def execSightDrain (die : Nat) (s : State) : Out :=
  match s.sights[die]? with
  | some x =>
    if x.next.isSome ∨ ¬ s.isUp then .next s
    else
      match s.rotation die x.pos with
      | some c => .next (if x.testing ∧ c = x.pos then s else s.modSight die (fun x => { x with next := some c, window := true }))
      | none => .next s
  | none => .next s

/-- The blocks on a core are drained by its sight controller (R389). -/
def State.noteDrain (s : State) (core : Nat) : State :=
  { s with gangs := s.gangs.map (fun (g : Gang) =>
      if g.phase = .placed then
        { g with places := g.places.map (fun p => if p.core = core then { p with drained := p.drained.filter (· != core) ++ [core] } else p) }
      else g) }

/-- A drain goes on, and a pass starts on a drained core (R388). -/
def State.pollSight (s : State) (die : Nat) : State :=
  match s.sights[die]? with
  | some x =>
    match x.next with
    | some c =>
      let s := (s.noteDrain c).saveOn c x.window (fun _ _ => true)
      if ¬ (s.gangsOn c (fun _ _ => true)).isEmpty ∨ s.arrayBusy c then s
      else
        let s := s.setRegField (.csight c) 0 1 1
        if x.testing then s
        else
          (s.setRegField (.csight c) 1 1 1).modSight die (fun y =>
            { y with pos := c, testing := true, next := none, window := false, retry := false, begun := s.time, suspects := [] })
    | none => s
  | none => s

/-- A core vouches for the blocks that ended before its pass began (R389). Log 62 (DEDUCED). -/
def Launch.vouchedBy (core begun : Nat) (l : Launch) : Launch :=
  { l with vouch := (l.vouch.map (fun v =>
      if v.endAt < begun ∧ ¬ v.suspect then { v with cores := v.cores.filter (· != core) } else v)).filter (fun v => !v.cores.isEmpty) }

/-- A launch that has completed, with every block vouched, has its VOUCHED word decremented (R376, R389). -/
def State.pollVouched (s : State) : State :=
  (s.launches.filter (fun l => l.phase == .doneUnvouched && l.vouch.isEmpty)).foldl (fun s l =>
    (s.modLaunch l.id (fun x => { x with phase := .closed })).signal l.id l.dom l.recd.signal.toNat (.dec true) false) s

/-- A failed pass (R389): the blocks that a core has not vouched for are suspect, but for those that its drain saved; their gangs that still run are killed, and
relaunched where the record is replayable, and so are those with a block not yet ended that ran on the core since its last drain; the pass
is repeated at once. Log 62 (DEDUCED). -/
def State.sightFail (s : State) (die core : Nat) : State :=
  let hit := fun (v : VouchBlock) => v.cores.contains core && !v.drained.contains core
  let bad := s.launches.filter (fun l => l.vouch.any hit)
  let s := s.modSight die (fun x => { x with retry := true, begun := s.time, suspects := bad.map (·.id) })
  let s : State := { s with launches := s.launches.map (fun (l : Launch) => { l with vouch := l.vouch.map (fun (v : VouchBlock) => if hit v then { v with suspect := true } else v) }) }
  let open1 := fun (g : Gang) => g.places.any (fun p => p.ran.contains core && !p.drained.contains core && !p.ended)
  (s.launches.filter (fun (l : Launch) => l.recd.replay && l.phase == .running)).foldl (fun (s : State) (l : Launch) =>
    ((l.vouch.filter hit).map (·.gang) ++ (s.gangs.filter (fun g => g.launch == l.id && open1 g)).map (·.idx)).eraseDups.foldl (fun s i =>
      if (s.gangOf l.id i).isSome then s.killGang l.id i true else s) s) s

/-- The error value and the record of a launch with a suspect block (R376, R389). -/
def State.noteSuspect (s : State) (core reason id : Nat) : State :=
  match s.launchOf id with
  | some l =>
    (s.signal id l.dom l.recd.signal.toNat (.err false true 6 reason) false).record
      { kind := 7, sub := reason, dom := l.dom, detail := placeBits core, addr := l.recd.signal.toNat, addr2 := l.recd.va.toNat }
  | none => s

/-- A pass or retry is over: the core returns to service, or is fenced (R388, R389). -/
def State.endTest (s : State) (die core : Nat) (fenced : Bool) : State :=
  let s := s.modSight die (fun x => { x with testing := false, retry := false, suspects := [] })
  let r := Reg.csight core
  ((s.setRegField r 0 2 0).setRegField r 2 1 (if fenced then 1 else 0))

/-- SIGHT_PASS_END (R389). -/
def execSightPassEnd (die : Nat) (passed : Bool) (s : State) : Out :=
  match s.sights[die]? with
  | some x =>
    if ¬ x.testing then .next s
    else if x.retry then
      let reason := if passed then 1 else 2
      let s := s.physRecord { kind := 0x23, sub := reason, detail := placeBits x.pos } false
      let s := x.suspects.foldl (fun s id => s.noteSuspect x.pos reason id) s
      .next (s.endTest die x.pos (!passed))
    else if passed then
      let s := { s with launches := s.launches.map (Launch.vouchedBy x.pos x.begun) }
      let r := Reg.csight x.pos
      .next ((s.setRegField r 32 32 ((s.regField r 32 32 + 1) % 2 ^ 32)).endTest die x.pos false)
    else .next (s.sightFail die x.pos)
  | none => .next s

/-! ### What goes on at every step -/

/-- The pass limit at a clock (R288). -/
def passLimit (mhz : Nat) : Nat := 4096 * mhz / Config.nominalMHz

/-- The clock reaches the lower frequency that power management is going to, once every pass granted under an earlier limit has
ended (R411). -/
def State.pollClock (s : State) : State :=
  if s.clockTo < s.clock ∧ s.mats.all (fun c => c.running.all (fun r => decide (r.limit ≤ passLimit s.clockTo))) then
    { s with clock := s.clockTo }
  else s

/-- The device's own work that needs no choice: requests, revocations, drains, slices, vouching, the clock, the requests of
halted splits. Log 61 (DESIGN CHOICE). -/
def State.poll (s : State) : State :=
  let s := s.preempts.foldl (fun s p => s.pollHalt p) s
  let s := s.recalls.foldl (fun s x => s.pollRecall x) s
  let s := s.reclaims.foldl (fun s x => s.pollReclaim x) s
  let s := (List.range Config.dies).foldl (fun s d => s.pollSight d) s
  ((s.slices.foldl (fun s x => s.pollSlice x) s).pollVouched).pollClock.withdrawReqs.readmit.fillFrames.pollSwapped

/-- Launches at the head of their pools start to run (R310). Log 35 (DEDUCED). -/
def State.startLaunches (s : State) : State :=
  (s.launches.filter (fun l => l.phase == .ready)).foldl (fun s l =>
    let s := s.modLaunch l.id (fun x => { x with phase := .running, pilot := s.pilotDie l.recd })
    match l.node with
    | some i => s.setNodeState l.dom i 3
    | none => s) s

/-- Count the cycles for the contexts on the cores, and for the page faults that stand (R327, events 1 and 11).
Log 1 (DESIGN CHOICE). -/
def State.countCycles (s : State) (d : Nat) : State :=
  let s := ((s.watches.map (fun w => (w.core, w.dom))).eraseDups).foldl (fun s c => s.countEvent c.1 c.2 1 d) s
  s.watches.foldl (fun s w =>
    s.countEvent w.core w.dom 11 (d * (w.splits.filter (fun p =>
      match p.wait with
      | .page _ _ => true
      | _ => false)).length)) s

/-- Time passes (R60): one cycle and a free number more. Log 1 (DESIGN CHOICE), 61 (DESIGN CHOICE). -/
def State.begin (s : State) : State :=
  let d := 1 + Config.freeCycles s.fresh
  (({ s.tick with time := s.time + d, fired := [] } : State).countCycles d).startLaunches.poll

end Sys2Proof.Machine
end

