-- ==== Sys2Proof/Machine/Translate.lean ====
section
/-!
DEFINITION. Translation and its caches (R355, R356), the page-request queue's answers (R363, R364), the indirection table (R357,
R358), tiering (R359, R360), keys (R361, R362), background clearing (R368), power tokens (R366), and the life cycle of a domain
(R367).
-/
namespace Sys2Proof.Machine

/-! ### Walks and invalidations -/

/-- Whether an invalidation in progress names a page (R356). -/
def State.invalidating (s : State) (dom vpage : Nat) : Bool :=
  s.invals.any (fun x => x.1 == dom && decide (x.2.1 ≤ vpage) && decide (vpage < x.2.1 + x.2.2))

/-- A TLB takes an entry: in place of another where one is named, and of the oldest where it is full (R12, R355).
Log 107 (DESIGN CHOICE). -/
def State.fillTlb (s : State) (e : TlbEntry) (replaced : Option (Nat × Nat)) : State :=
  let kept := s.tlb.filter (fun x =>
    x.unit == e.unit && !((x.dom == e.dom && x.vpage == e.vpage) || replaced == some (x.dom, x.vpage)))
  { s with tlb := e :: kept.take (tlbSize e.unit - 1) ++ s.tlb.filter (fun x => x.unit != e.unit) }

/-- A walk cache of 512 entries takes an entry, in place of the oldest where it is full (R355). Log 107 (DESIGN CHOICE). -/
def State.fillWalk (s : State) (e : WalkEntry) : State :=
  let kept := s.walks.filter (fun x => x.die == e.die && !(x.dom == e.dom && x.level == e.level && x.index == e.index))
  { s with walks := e :: kept.take 511 ++ s.walks.filter (fun x => x.die != e.die) }

/-- The level-3 and level-2 entries that a walk reads, valid and leading on (R355). -/
def State.walkReads (s : State) (die dom key vpage : Nat) : Nat → Option Nat → List WalkEntry
  | 0, _ => []
  | level + 1, node =>
    match s.entryOf die dom key (level + 1) vpage node with
    | .inr _ => []
    | .inl (e, part) =>
      if field e 0 1 = 0 ∨ ¬ pteSound (level + 1) e ∨ level = 0 then []
      else
        { die := die, dom := dom, level := level + 1, index := walkIndex (level + 1) vpage, entry := e, part := part } ::
          (if field e 1 1 = 1 then [] else s.walkReads die dom key vpage level (frameIn part (field e 16 36)))

/-- What a walk puts into its die's walk cache, however it ends (R355). -/
def State.keepReads (s : State) (die dom vpage : Nat) : State :=
  match s.keyOf dom with
  | some key =>
    if s.regField (.ptroot dom) 0 1 = 0 then s
    else (s.walkReads die dom key vpage 3 (s.frameOf dom (s.regField (.ptroot dom) 16 36))).foldl State.fillWalk s
  | none => s

/-- PAGE_TABLE_WALK (R355): a walk fills its die's walk cache, and where it finds a mapping an entry of its unit's TLB, and for a core of
the cluster's; the result of a walk whose page is being invalidated is discarded (R369).
Log 25 (DEDUCED), 107 (DESIGN CHOICE). -/
def execPageTableWalk (tu dom vpage : Nat) (replaced : Option (Nat × Nat)) (s : State) : Out :=
  if s.invalidating dom vpage ∨ 2 ^ 39 ≤ vpage then .next s
  else
    let t := s.keepReads (dieOfUnit tu) dom vpage
    match s.walk tu dom vpage with
    | .ok m =>
      if ¬ s.mediaOk (s.keyAt dom m 0) then .next t
      else
        .next ((tlbsOf tu).foldl (fun t u =>
          t.fillTlb { unit := u, dom := dom, vpage := vpage, page := m.page, r := m.r, w := m.w, host := m.host, hc := m.hc } replaced) t)
    | _ => .next t

/-- Whether a walk-cache entry lies on the way to a page that is being invalidated (R356). -/
def State.walkInvalid (s : State) (e : WalkEntry) : Bool :=
  let n := 2 ^ (13 * (e.level - 1))
  s.invals.any (fun x => x.1 == e.dom && decide (x.2.1 < (e.index + 1) * n) && decide (e.index * n < x.2.1 + x.2.2))

/-- A write of INVCTL with GO (R356): ignored while BUSY is 1. Log 67 (DEDUCED). -/
def State.invalidate (s : State) (dom kind count : Nat) : State :=
  if s.regField (.invctl dom) 32 1 = 1 then s
  else
    let first := if kind = 2 then 0 else s.regField (.invaddr dom) 16 39
    let pages := if kind = 2 then 2 ^ 39 else if kind = 1 then count + 1 else 1
    State.setReg { s with invals := (dom, first, pages) :: s.invals } (.invctl dom) (BitVec.ofNat 64 (2 ^ 32 + kind * 2 ^ 16 + count % 2 ^ 16))

/-- INVALIDATE_PAGE (R356). -/
def execInvalidatePage (dom : Nat) (s : State) : Out :=
  s.byRegister fun s => s.invalidate dom 0 (s.regField (.invctl dom) 0 16)
/-- INVALIDATE_RANGE (R356). -/
def execInvalidateRange (dom count : Nat) (s : State) : Out := s.byRegister (·.invalidate dom 1 count)
/-- INVALIDATE_ALL (R356). -/
def execInvalidateAll (dom : Nat) (s : State) : Out :=
  s.byRegister fun s => s.invalidate dom 2 (s.regField (.invctl dom) 0 16)

/-- Whether a change of a completion signal, which the old translation has addressed, is still on its way (R356, R376). -/
def State.signalDue (s : State) (dom : Nat) : Bool := s.signals.any (fun x => x.dom == dom && s.invalidating dom (x.va / 2 ^ 16))

/-- INVALIDATION_COMPLETE (R356): every access by the old translations has been performed, no unit holds one of the named pages any more, and
BUSY returns to 0. -/
def execInvalidationComplete (dom : Nat) (s : State) : Out :=
  if s.signalDue dom then .next s
  else
  let s := s.enterAll
  .next (State.setRegField
    { s with tlb := s.tlb.filter (fun e => !(e.dom == dom && s.invalidating dom e.vpage)),
             walks := s.walks.filter (fun e => !(e.dom == dom && s.walkInvalid e)),
             invals := s.invals.filter (fun x => x.1 != dom) } (.invctl dom) 32 1 0)

/-! ### Answers to page requests -/

/-- A waiter repeats its translation, or meets the fault (R364). -/
def State.answerWaiter (s : State) (dom vpage : Nat) (decline : Bool) (w : Waiter) : State :=
  match w with
  | .split r id =>
    s.modSplit r id (fun p =>
      if p.wait = .page dom vpage then { p with wait := if decline then .declined dom vpage else .none, since := s.time } else p)
  | .cmd id =>
    if decline then
      match s.cmds.find? (fun c => c.id == id), s.mats.find? (fun c => c.id == id) with
      | some c, _ => s.engFault c 1 (vpage * 2 ^ 16)
      | none, some c => s.matStop c (.fault 1 (vpage * 2 ^ 16))
      | none, none => s
    else
      (s.modCmd id (fun c => { c with stall := none })).modMat id (fun c => { c with stall := none })
  | .io q =>
    { s with served := s.served.map (fun (x : Served) =>
        if x.queue = q then { x with stall := none, declined := if decline then some vpage else none } else x) }
  | .place _ => s

/-- An entry of the queue is answered and freed (R363, R364); a tag that the domain does not hold is ignored. -/
def State.prqAnswer (s : State) (dom tag : Nat) (decline : Bool) : State :=
  match s.prq.find? (fun e => e.tag == tag && e.dom == dom) with
  | none => s
  | some e =>
    e.waiters.foldl (fun s w => s.answerWaiter dom e.vpage decline w)
      { s with prq := s.prq.filter (fun x => !(x.tag == tag && x.dom == dom)) }

/-- PRQ_RESPONSE (R364). -/
def execPrqResponse (dom tag : Nat) (s : State) : Out := s.byRegister (·.prqAnswer dom tag false)
/-- PRQ_DECLINE (R364). -/
def execPrqDecline (dom tag : Nat) (s : State) : Out := s.byRegister (·.prqAnswer dom tag true)

/-- PAGE_REQUEST_RETRY (R363): faults on a page that hold no entry are tried again. -/
def execPageRequestRetry (dom vpage : Nat) (s : State) : Out :=
  if s.prq.any (fun e => e.dom == dom && e.vpage == vpage) then .next s
  else
    let s := s.mapWatches (fun w => w.mapSplits (fun p => if p.wait = .page dom vpage then { p with wait := .none } else p))
    .next { s with
      cmds := s.cmds.map (fun (c : EngCmd) => if c.dom = dom ∧ c.stall = some vpage then { c with stall := none } else c),
      mats := s.mats.map (fun (c : MatCmd) => if c.dom = dom ∧ c.stall = some vpage then { c with stall := none } else c),
      served := s.served.map (fun (x : Served) => if x.stall = some vpage then { x with stall := none } else x) }

/-- PRQHEAD_WRITE (R364): records that a full ring held back are delivered. -/
def execPrqheadWrite (dom : Nat) (v : DWord) (s : State) : Out :=
  s.byRegister fun s => (s.setReg (.prqhead dom) (v &&& 0xFFFF#64)).sendReqs dom

/-! ### The indirection table -/

/-- The 8 bytes of a mapped page's entry (R357). -/
def IdtEntry.word (e : IdtEntry) : DWord :=
  BitVec.ofNat 64 (1 + 2 * e.outer.toNat + 4 * e.zp.toNat + 8 * e.moving.toNat + 16 * e.pin.toNat + 2 ^ 16 * e.frame)

/-- The entry of a page in the indirection table: V = 0 where the page is not mapped (R357). -/
def State.idtWord (s : State) (page : Nat) : DWord := ((s.idtOf page).map IdtEntry.word).getD 0

/-- Media frames of a tier (R357). -/
def tierFrames (outer : Bool) : Nat := if outer then 2 ^ 24 else 2 ^ 23

/-- Whether a frame of a tier lies on a part that is out of service (R407). Log 81 (DESIGN CHOICE), 128 (DESIGN CHOICE). -/
def frameFailed (outer : Bool) (f : Nat) (p : ModulePart) : Bool :=
  match p with
  | .stack n => Config.frameOn 0 n outer f
  | .hbmChannel n => Config.frameOn 1 n outer f
  | .channel n => Config.frameOn 2 n outer f
  | _ => false

/-- Whether a frame of a tier is free: mapped by no entry, and on no part that is out of service (R358, R407). -/
def State.frameFree (s : State) (outer : Bool) (f : Nat) : Bool :=
  decide (f < tierFrames outer) && !(s.idt.any (fun e => e.outer == outer && e.frame == f)) && !s.fenced.any (frameFailed outer f)

/-- The first free frame among n from one on. -/
def State.findFrame (s : State) (outer : Bool) : Nat → Nat → Option Nat
  | 0, _ => none
  | n + 1, f => if s.frameFree outer f then some f else s.findFrame outer n (f + 1)

/-- A free frame of a tier: the one the device has chosen, if it is free, else the lowest. Log 69 (DESIGN CHOICE). -/
def State.pickFrame (s : State) (outer : Bool) (f : Nat) : Option Nat :=
  if s.frameFree outer f then some f else s.findFrame outer (tierFrames outer) 0

/-- IDTSTAT.ERR (R358). -/
def State.idtErr (s : State) : State := s.setRegField .idtstat 1 1 1

/-- IDT_MAP (R358): `outer` is the preferred tier, and `frame` the device's choice. Log 69 (DESIGN CHOICE). -/
def State.idtMap (s : State) (outer : Bool) (page frame : Nat) : State :=
  if (s.idtOf page).isSome ∨ (s.reg .idtcount).toNat ≤ page then s.idtErr
  else
    let add := fun (o : Bool) (f : Nat) =>
      { s with idt := { page := page, frame := f, outer := o, pin := false, moving := false, zp := true } :: s.idt }
    match s.pickFrame outer frame, s.pickFrame (!outer) frame with
    | some f, _ => add outer f
    | none, some f => add (!outer) f
    | none, none => s.idtErr

/-- UNMAP (R358). -/
def State.idtUnmap (s : State) (page : Nat) : State :=
  if (s.idtOf page).isSome then
    { s.enterHere (fun k => decide (k < 2 ^ 58) && pageOf k == page) with idt := s.idt.filter (fun e => e.page != page) }
  else s.idtErr

/-- Log 68 (DEDUCED). -/
def State.setPin (s : State) (page : Nat) (v : Bool) : State :=
  { s with idt := s.idt.map (fun (e : IdtEntry) => if e.page = page then { e with pin := v } else e) }

/-- IDT_MAP (R358). -/
def execIdtMap (outer : Bool) (page frame : Nat) (s : State) : Out := s.byRegister (·.idtMap outer page frame)
/-- IDT_UNMAP (R358). -/
def execIdtUnmap (page : Nat) (s : State) : Out := s.byRegister (·.idtUnmap page)
/-- IDT_SETPIN (R358). -/
def execIdtSetpin (page : Nat) (s : State) : Out := s.byRegister (·.setPin page true)
/-- IDT_CLRPIN (R358). -/
def execIdtClrpin (page : Nat) (s : State) : Out := s.byRegister (·.setPin page false)

/-! ### Tiering (R359, R360) -/

/-- The domain whose partition holds a page (R353). -/
def State.pageDomain (s : State) (page : Nat) : Option Nat :=
  (List.range Config.domains).find? (fun d =>
    decide (s.regField (.part d) 0 36 ≤ page) && decide (page < s.regField (.part d) 0 36 + s.regField (.part d) 36 24))

/-- Whether the tracker counts and moves a page (R359). Log 18 (PRESUMED). -/
def State.tracked (s : State) (page : Nat) : Bool :=
  match s.idtOf page, s.pageDomain page with
  | some e, some d => !e.pin && !e.zp && s.regField (.tierctl d) 0 1 == 1
  | _, _ => false

/-- Count presented misses of a page in a die's table, which holds 65,536 pages (R359). -/
def State.present (s : State) (die page n : Nat) : State :=
  if ¬ s.tracked page then s
  else if s.tracker.any (fun x => x.1 == die && x.2.1 == page) then
    { s with tracker := s.tracker.map (fun x => if x.1 = die ∧ x.2.1 = page then (die, page, x.2.2 + n) else x) }
  else
    let mine := s.tracker.filter (fun x => x.1 == die)
    if mine.length < 65536 then { s with tracker := (die, page, n) :: s.tracker }
    else
      match firstOf (fun (a b : Nat × Nat × Nat) => decide (a.2.2 < b.2.2)) mine with
      | some x => { s with tracker := (die, page, n) :: s.tracker.filter (fun y => y != x) }
      | none => s

/-- Free inner frames, less those that chosen moves will take and give back (R359). -/
def State.freeInner (s : State) : Nat :=
  tierFrames false - ((s.idt.filter (fun e => !e.outer)).length + (s.moves.filter (fun m => !m.2)).length) +
    (s.moves.filter (fun m => m.2)).length

/-- The count of a page on a die. -/
def State.countOf (s : State) (die page : Nat) : Nat :=
  ((s.tracker.find? (fun x => x.1 == die && x.2.1 == page)).map (·.2.2)).getD 0

/-- The movable inner page with the lowest count on a die (R359, step 2). -/
def State.coldest (s : State) (die : Nat) : Option Nat :=
  (firstOf (fun (a b : IdtEntry) => decide (s.countOf die a.page < s.countOf die b.page))
    (s.idt.filter (fun e => !e.outer && s.tracked e.page && !(s.moves.any (fun m => m.1 == e.page))))).map (·.page)

/-- How many promotions a die's tracker may still choose in its present period: 4,096 for the module, less those that the other
dies' trackers chose when their last periods ended (R359). Log 115 (DEDUCED). -/
def State.promotionsLeft (s : State) (die : Nat) : Nat :=
  4096 - ((s.promoted.filter (fun x => x.1 != die)).map (·.2)).foldl (· + ·) 0

/-- Choose one promotion, with a demotion before it where inner frames are short (R359). -/
def State.promote (s : State) (die page : Nat) : State :=
  let s := if s.freeInner < s.regField .hptctl 32 16 * 64 then
      (match s.coldest die with
      | some p => { s with moves := s.moves ++ [(p, true)] }
      | none => s)
    else s
  { s with moves := s.moves ++ [(page, false)] }

/-- TRACKING_PERIOD_END (R359): misses presented in the period are counted, moves are chosen, and every count is halved. -/
def execTrackingPeriodEnd (die : Nat) (presented : List (Nat × Nat)) (s : State) : Out :=
  if s.regField .hptctl 0 1 = 0 then .next s
  else
    let s := presented.foldl (fun s x => s.present die x.1 x.2) s
    let hot := s.tracker.filter (fun x => x.1 == die && decide (s.regField .hptctl 48 16 ≤ x.2.2) &&
      ((s.idtOf x.2.1).map (·.outer)).getD false && s.tracked x.2.1 && !s.moves.any (fun m => m.1 == x.2.1))
    let order := hot.foldl (fun l x => insertBy (fun (a b : Nat × Nat × Nat) => decide (b.2.2 < a.2.2)) x l) []
    let chosen := order.take (s.promotionsLeft die)
    let s := chosen.foldl (fun s x => s.promote die x.2.1) s
    .next { s with
      promoted := (die, chosen.length) :: s.promoted.filter (fun x => x.1 != die)
      tracker := s.tracker.map (fun x => if x.1 = die then (die, x.2.1, x.2.2 / 2) else x) }

/-- Whether a page holds an uncorrectable error. -/
def State.pagePoisoned (s : State) (page : Nat) : Bool := s.poison.any (fun k => decide (k < 2 ^ 58) && pageOf k == page)

/-- PAGE_MOVE (R360): a chosen page goes to a free frame of the other tier; an uncorrectable error abandons the move.
Log 70 (DEDUCED). -/
def execPageMove (page : Nat) (outer : Bool) (frame : Nat) (s : State) : Out :=
  if (page, outer) ∉ s.moves then .next s
  else
    let s := { s with moves := s.moves.erase (page, outer) }
    if ¬ s.tracked page then .next s
    else
      match s.pickFrame outer frame with
      | some f =>
        if s.pagePoisoned page then .next (s.physRecord { kind := 0x24, sub := 1, detail := page, addr := page * 2 ^ 16 } false)
        else .next { s with idt := s.idt.map (fun (e : IdtEntry) => if e.page = page then { e with frame := f, outer := outer } else e) }
      | none => .next s

/-- ZP_BACKGROUND_CLEAR (R368): the frame of a zero-pending page is overwritten with zeros. -/
def execZpBackgroundClear (page : Nat) (s : State) : Out :=
  if ((s.idtOf page).map (·.zp)).getD false then
    .next { s with mem := Memory.clear s.mem (fun k => decide (k < 2 ^ 58) && pageOf k == page),
                   poison := s.poison.filter (fun k => !(decide (k < 2 ^ 58) && pageOf k == page)) }
  else .next s

/-! ### Keys (R361, R362) -/

/-- KEYDATA0 to KEYDATA7 as one key. -/
def State.keyData (s : State) : BitVec 512 :=
  BitVec.ofNat 512 (((List.range 8).map (fun i => (s.reg (.keydata i)).toNat * 2 ^ (64 * i))).foldl (· + ·) 0)

/-- A key slot's line of a sector, as it comes from the media where another slot's line has been written: the same bytes under equal key
material, else what its key makes of them (R361). Log 26 (DESIGN CHOICE). -/
def State.fetchSector (s : State) (slot src sector : Nat) : State :=
  let line := s.bytes (devKey src (128 * sector)) 128
  match s.keys[slot]?, s.keys[src]? with
  | some a, some b =>
    if 2 ^ 45 ≤ sector ∨ s.isZp (devKey slot (128 * sector)) ∨ ¬ s.mediaOk (devKey slot (128 * sector)) then s
    else
      let read := if a.key = b.key then line else (List.range 128).map (Config.deciphered b.key a.key sector line)
      { s with mem := Memory.putAll s.mem (devKey slot (128 * sector)) read }
  | _, _ => s

/-- The key slot under which a page's sectors stand in the media: its domain's. Log 26 (DESIGN CHOICE). -/
def State.pageSlot (s : State) (page : Nat) : Nat := ((s.pageDomain page).map (fun d => s.regField (.dkey d) 0 6)).getD 0

/-- A slot that has just been loaded holds no line: what it reads of a mapped page comes from the media (R361). -/
def State.fetchPage (s : State) (slot page : Nat) : State :=
  if s.pageSlot page = slot then s
  else (List.range 512).foldl (fun s i => s.fetchSector slot (s.pageSlot page) (512 * page + i)) s

/-- LOAD: only a free slot takes the key, and KEYDATA is cleared (R362). -/
def State.keyLoad (s : State) (slot : Nat) : State :=
  let s := s.setReg .keyctl (BitVec.ofNat 64 (slot % 64))
  if (s.keys[slot % 64]?).map (·.state) = some .free then
    let s := { s with keys := setAt s.keys (slot % 64) { state := .loaded, key := s.keyData } }
    let s := (s.idt.filter (fun e => !e.zp)).foldl (fun s e => s.fetchPage (slot % 64) e.page) s
    (List.range 8).foldl (fun s i => s.setReg (.keydata i) 0) s
  else s

/-- The pages that hold what was written under a key slot: those of the domains it is assigned to, and any other with a byte
there. A zero-pending page reads as zero under any key (R368). -/
def State.keyPages (s : State) (slot : Nat) : List Nat :=
  (s.idt.filter (fun e => !e.zp &&
    ((s.pageDomain e.page).any (fun d => s.regField (.dkey d) 0 6 == slot) ||
      s.mem.any (fun c => decide (c.1 < 2 ^ 58) && c.1 / 2 ^ 52 == slot && pageOf c.1 == e.page)))).map (·.page)

/-- What a page holds under a retired key is a free value afterwards, byte by byte (R362). Log 26 (DESIGN CHOICE). -/
def State.scramblePage (s : State) (slot page : Nat) : State :=
  { s with mem := (List.range (2 ^ 16)).foldl
             (fun (m : Memory) i => Memory.put m (devKey slot (page * 2 ^ 16 + i)) (Config.freeByte (s.fresh + i))) s.mem,
           fresh := s.fresh + 2 ^ 16 }

/-- The same for every page. Log 26 (DESIGN CHOICE). -/
def State.scramble (s : State) (slot : Nat) : State := (s.keyPages slot).foldl (fun s p => s.scramblePage slot p) s

/-- RETIRE: slot 0 is never retired; while the slot is retiring, accesses under its key ID are refused (R362). -/
def State.startRetire (s : State) (slot : Nat) : State :=
  if slot = 0 then s
  else { s with keys := modAt (fun k => if k.state = .loaded then { k with state := .retiring } else k) s.keys slot }

/-- The lines of the key ID are dropped, and the slot is free (R362). -/
def State.keyRetire (s : State) (slot : Nat) : State :=
  if slot = 0 ∨ (s.keys[slot]?).map (·.state) = some .free then s
  else
    let mine := fun (k : Nat) => decide (k < 2 ^ 58) && k / 2 ^ 52 == slot
    let s := s.enterHere mine
    ({ s with keys := setAt s.keys slot { state := .free, key := 0 } }).scramble slot

/-- KEY_LOAD (R362). -/
def execKeyLoad (slot : Nat) (s : State) : Out := s.byRegister (·.keyLoad slot)
/-- KEY_RETIRE (R362). -/
def execKeyRetire (slot : Nat) (s : State) : Out := s.byRegister (·.keyRetire slot)

/-! ### Power tokens (R366) -/

/-- Picojoules of a microjoule. -/
def microjoule : Nat := 10 ^ 6

/-- A domain's allotment, and its share of a pool: both in whole microjoules. Log 71 (DESIGN CHOICE). -/
def State.share (s : State) (pool weights dom : Nat) : Nat × Nat × Nat :=
  let c := s.reg (.ptcfg dom)
  (dom, field c 0 8 * 1000 * microjoule,
    if field c 31 1 = 1 ∧ 0 < weights then pool * field c 16 8 / weights / microjoule * microjoule else 0)

/-- POWER_INTERVAL (R366): unspent balances make the pool, which is divided among the domains with EN by WEIGHT. -/
def execPowerInterval (s : State) : Out :=
  let doms := List.range Config.domains
  let pool := (doms.map (fun d => (s.tokens d).1)).foldl (· + ·) 0
  let weights := (doms.map (fun d => if s.regField (.ptcfg d) 31 1 = 1 then s.regField (.ptcfg d) 16 8 else 0)).foldl (· + ·) 0
  .next { s with shares := doms.map (s.share pool weights) }

/-! ### The life cycle of a domain (R367) -/

/-- Steps 2 and 5: every gang of a domain's launches goes, and the launches end FAULTED without a record. -/
def State.resetLaunch (s : State) (l : Launch) : State :=
  ((s.gangs.filter (fun g => g.launch == l.id)).foldl
    (fun s g => s.killGangFuel (s.launches.length + 1) g.launch g.idx false false) s).settleLaunch l.id false

/-- Step 4: ABORT to every peer of an open collective (R268). -/
def State.sendAborts (s : State) (c : EngCmd) : State :=
  match c.group with
  | some g =>
    s.sendAll (((mapFrom (fun i m => (i, m)) 0 g.members).filter (fun x => x.1 != g.rank)).map (fun x =>
        Outgoing.abort (x.2.toNat % 2 ^ 16) (x.2.toNat / 2 ^ 16) g.seq))
  | none => s

/-- Step 10: the event counters that a domain owns (R327). -/
def State.clearCounters (s : State) (dom : Nat) : State :=
  { s with cfg := s.cfg.map (fun (x : Reg × DWord) =>
      match x.1 with
      | .ctrcount c n => if s.regField (.ctrown c) (5 * n) 5 = dom then (x.1, 0) else x
      | .debt _ d => if d = dom then (x.1, 0) else x
      | _ => x) }

/-- The signal that a node or launch of the domain still has to change (R367, step 7). -/
def State.resetSignal (s : State) (launch dom va : Nat) (both : Bool) : State := s.signal launch dom va (.err both true 4 0) false

/-- The words that a packet which a command processor still holds would decrement (R367, step 7; R373). Log 78 (DEDUCED). -/
def State.resetPacket (s : State) (dom : Nat) (bs : List Byte) : State :=
  let va := fieldOf bs 16 8
  if va = 0 ∨ va % 16 ≠ 0 then s else s.resetSignal 0 dom va true

/-- The counts of a launch that is reset with its domain are undefined: its slot records become free values (R155).
Log 105 (DESIGN CHOICE). -/
def State.freeCounts (s : State) (l : Launch) : State :=
  if l.recd.cntbuf = 0 then s
  else
    (List.range 64).foldl (fun (s : State) i =>
      { s.vwrite ioUnit l.dom (l.recd.cntbuf.toNat + 128 + 32 * i) ((List.range 24).map (fun n => Config.freeByte (s.fresh + n))) with
        fresh := s.fresh + 24 }) s

/-- The reset sequence (R367), from state 1. Log 72 (DEDUCED), 105 (DESIGN CHOICE). -/
def State.resetDomain (s : State) (dom : Nat) : State :=
  if s.regField (.vfctl dom) 4 3 ≠ 1 then s
  else
    let open1 := s.launches.filter (fun l => l.dom == dom && (l.phase == .ready || l.phase == .running))
    let done := s.launches.filter (fun l => l.dom == dom && l.phase == .doneUnvouched)
    let waiting := s.nodes.filter (fun n => n.dom == dom)
    let commands := s.cmds.filter (fun c => c.dom == dom)
    let mine := fun (q : Nat) => s.regField (.qrange dom) 0 12 ≤ q ∧ q < s.regField (.qrange dom) 0 12 + s.regField (.qrange dom) 16 12
    let cores := ((s.gangs.filter (fun g => open1.any (fun l => l.id == g.launch) && g.phase == .placed)).flatMap
      (fun g => g.places.map (·.core))).eraseDups
    let packets := s.cps.filterMap (fun p => p.held.filter (fun h => mine h.1))
    let s := open1.foldl (fun s l => s.freeCounts l) s
    -- step 1
    let s := { s with served := s.served.filter (fun x => ¬ mine x.queue),
                      cps := s.cps.map (fun (p : CmdProc) => { p with held := p.held.filter (fun h => ¬ mine h.1) }) }
    -- steps 2 and 5
    let s := waiting.foldl (fun s n => (s.failNode n).joinFall n.parent) s
    let s := { s with launches := s.launches.map (fun (l : Launch) =>
      if open1.any (fun k => k.id == l.id) then { l with faulted := true, reset := true, phase := .running } else l) }
    let s := open1.foldl (fun s l => s.resetLaunch l) s
    let s := cores.foldl (fun s c => (s.dropPreempt c dom).setPstat c dom 5) s
    -- steps 3 and 4
    let s := commands.foldl (fun s c => s.sendAborts c) s
    let s := { s with cmds := s.cmds.filter (fun c => c.dom != dom), mats := s.mats.filter (fun c => c.dom != dom) }
    let s := { s with armed := s.armed.filter (fun x => x.dom != dom), file := s.file.filter (fun x => x.2.1 != dom) }
    -- step 6
    let s := { s with prq := s.prq.filter (fun e => e.dom != dom) }
    -- step 7
    let s := (open1.map (fun (l : Launch) => (l.id, l.recd.signal.toNat)) ++ waiting.map (fun (n : Node) => (0, n.recd.signal.toNat))).foldl
      (fun (s : State) (x : Nat × Nat) => s.resetSignal x.1 dom x.2 true) s
    let s := done.foldl (fun s l => (s.resetSignal l.id dom l.recd.signal.toNat false).modLaunch l.id (fun x => { x with phase := .closed })) s
    let s := packets.foldl (fun s h => s.resetPacket dom h.2.2) s
    let s := (List.range (s.regField (.qrange dom) 16 12)).foldl (fun s i => s.setRegField (.qctl (s.regField (.qrange dom) 0 12 + i)) 63 1 0) s
    -- step 8
    let s := (if s.regField (.dkey dom) 8 1 = 1 then s.keyRetire (s.regField (.dkey dom) 0 6) else s).setRegField (.dkey dom) 8 1 0
    -- step 9
    let lo := s.regField (.part dom) 0 36
    let hi := lo + s.regField (.part dom) 36 24
    let s := { s.enterHere (fun k => decide (k < 2 ^ 58) && decide (lo ≤ pageOf k) && decide (pageOf k < hi)) with
                 idt := s.idt.map (fun (e : IdtEntry) => if lo ≤ e.page ∧ e.page < hi then { e with zp := true } else e) }
    -- step 10
    let s := { s with shares := s.shares.filter (fun x => x.1 != dom) }.clearCounters dom
    ((s.setRegField (.dstat dom) 32 32 0).setRegField (.dstat dom) 0 1 0).setReg (.vfctl dom) 0x30

/-- VF_RESET (R367). -/
def execVfReset (dom : Nat) (s : State) : Out := s.byRegister (·.resetDomain dom)
/-- FUNCTION_LEVEL_RESET (R367, R370): of a virtual function. -/
def execFunctionLevelReset (dom : Nat) (s : State) : Out :=
  s.byRegister fun s => if dom = 0 then s else s.resetDomain dom

/-- EN of VFCTL: it may be set only in states 0 and 3 (R367). -/
def State.enableDomain (s : State) (dom : Nat) : State :=
  if s.regField (.vfctl dom) 4 3 = 0 ∨ s.regField (.vfctl dom) 4 3 = 3 then s.setReg (.vfctl dom) 0x11 else s

/-- VF_ENABLE (R367). -/
def execVfEnable (dom : Nat) (s : State) : Out := s.byRegister (·.enableDomain dom)

end Sys2Proof.Machine
end

