-- ==== Sys2Proof/Machine/Host.lean ====
section
/-!
DEFINITION. The module's dealings with the outside: user-mode queues and their packets (R372 to R375), completion signals in host
memory (R376, R436), the host's accesses (R226), and the Exvor links (R378 to R381).
-/
namespace Sys2Proof.Machine

/-! ### Queues (R372, R374) -/

/-- The domain that owns a queue (R372). -/
def State.queueDomain (s : State) (q : Nat) : Option Nat :=
  if Config.queues ≤ q then none
  else
    (List.range Config.domains).find? (fun d =>
      let r := s.reg (.qrange d)
      decide (field r 0 12 ≤ q) && decide (q < field r 0 12 + field r 16 12))

/-- The slot of a queue's next packet (R373). -/
def State.slotVa (s : State) (q : Nat) : Nat :=
  s.regField (.qbase q) 6 49 * 64 + 64 * (s.regField (.qrd q) 0 32 % 2 ^ s.regField (.qctl q) 0 5)

/-- Mark an enabled queue for service; notifies that find it marked are merged (R372, R374). -/
def State.notifyQueue (s : State) (q : Nat) : State :=
  if (s.queueDomain q).isNone ∨ s.regField (.qctl q) 63 1 = 0 ∨ s.served.any (fun x => x.queue == q) then s
  else { s with served := s.served ++ [{ queue := q, reread := false, stall := none, declined := none }] }

/-- QUEUE_NOTIFY (R372). -/
def execQueueNotify (queue : Nat) (s : State) : Out := s.byRegister (·.notifyQueue queue)

def State.modServed (s : State) (q : Nat) (f : Served → Served) : State :=
  { s with served := s.served.map (fun x => if x.queue = q then f x else x) }
def State.dropServed (s : State) (q : Nat) : State := { s with served := s.served.filter (fun x => x.queue != q) }

/-- An agent of an I/O die waits for a page of a queue's work, or finds it declined (R302, R305, R363, R364).
Log 73 (DEDUCED). -/
def State.ioHold (s : State) (dom q vpage : Nat) : State :=
  (s.pageReq dom vpage false false (.io q)).modServed q (fun x => { x with stall := some vpage })

/-- Whether the page was declined for a queue. Log 73 (DEDUCED). -/
def State.ioDeclined (s : State) (q vpage : Nat) : Bool :=
  s.served.any (fun x => x.queue == q && x.declined == some vpage)

/-- Write byte 0 of the slot that was read and advance RDIDX (R374). -/
def State.consumePacket (s : State) (dom q slot : Nat) : State :=
  let s := s.vwrite ioUnit dom slot [0]
  (s.setRegField (.qrd q) 0 32 ((s.regField (.qrd q) 0 32 + 1) % 2 ^ 32)).modServed q (fun x => { x with declined := none })

/-- A packet is refused: the error value in a signal, where there is one that is not misaligned, and the record (R375).
Log 78 (DEDUCED). -/
def State.refusePacket (s : State) (dom q slot cls reason signal record : Nat) : State :=
  let s := if signal = 0 ∨ signal % 16 ≠ 0 then s else s.signal s.fresh dom signal (.err true true cls reason) false
  (s.record { kind := 5, sub := reason, dom := dom, detail := q, addr2 := record }).consumePacket dom q slot

/-- The fields of a packet (R373). -/
def pktType (bs : List Byte) : Nat := fieldOf bs 1 1
def pktCount (bs : List Byte) : Nat := fieldOf bs 2 1
def pktLaunch (bs : List Byte) : Nat := fieldOf bs 8 8
def pktSignal (bs : List Byte) : Nat := fieldOf bs 16 8
def pktNodes (bs : List Byte) : List Nat := (List.range (min 8 (pktCount bs))).map (fun i => fieldOf bs (24 + 3 * i) 3)

/-- The checks of reasons 0x10 and 0x11 (R373, R375): the reason, or 0. -/
def packetReason (bs : List Byte) : Nat :=
  let n := pktCount bs
  if fieldOf bs 0 1 ≠ 1 ∨ fieldOf bs 3 5 ≠ 0 ∨ fieldOf bs 48 16 ≠ 0 ∨ 3 < pktType bs ∨
      (n ≤ 8 ∧ (List.range 8).any (fun i => decide (n ≤ i) && fieldOf bs (24 + 3 * i) 3 != 0)) then 0x10
  else if 8 < n ∨ pktSignal bs % 16 ≠ 0 ∨ (pktType bs = 0 ∧ (n ≠ 0 ∨ pktLaunch bs ≠ 0 ∨ pktSignal bs ≠ 0)) ∨
      (2 ≤ pktType bs ∧ pktLaunch bs ≠ 0) then 0x11
  else 0

/-- The queue that a command processor serves next: in turn, in ascending number among those notified (R374). -/
def State.nextQueue (s : State) (cp : Nat) : Option Nat :=
  let last := (s.cps[cp]?).bind (·.last)
  let qs := (s.served.filter (fun x => x.queue % 2 == cp && !x.reread && x.stall.isNone)).map (·.queue)
  match firstOf (fun (a b : Nat) => decide (a < b)) (qs.filter (fun q => last.all (fun n => decide (n < q)))) with
  | some q => some q
  | none => firstOf (fun (a b : Nat) => decide (a < b)) qs

def State.modCp (s : State) (cp : Nat) (f : CmdProc → CmdProc) : State := { s with cps := modAt f s.cps cp }

/-- An unreadable slot stops the queue (R374). -/
def State.stopQueue (s : State) (q dom : Nat) : State :=
  (((s.setRegField (.qctl q) 6 1 1).setRegField (.qctl q) 63 1 0).record { kind := 9, dom := dom, detail := q }).dropServed q

/-- Read a queue's next slot (R374, R375). -/
def State.readSlot (s : State) (cp q dom : Nat) : State :=
  match s.vread ioUnit dom (s.slotVa q) 64 with
  | .ok bs =>
    if fieldOf bs 0 1 % 2 = 0 then s.modServed q (fun x => { x with reread := true })
    else if packetReason bs ≠ 0 then s.refusePacket dom q (s.slotVa q) 2 (packetReason bs) (pktSignal bs) (if pktType bs = 1 then pktLaunch bs else 0)
    else s.modCp cp (fun p => { p with held := some (q, s.slotVa q, bs) })
  | .hold v => if s.ioDeclined q v then s.stopQueue q dom else s.ioHold dom q v
  | .refused _ => s.stopQueue q dom

/-- QUEUE_SERVE (R374): the command processor of an I/O die reads the next packet, unless it still holds one. -/
def execQueueServe (iodie : Nat) (s : State) : Out :=
  match (s.cps[iodie]?).bind (·.held), s.nextQueue iodie with
  | none, some q =>
    match s.queueDomain q with
    | none => .next (s.dropServed q)
    | some dom =>
      if s.regField (.qctl q) 63 1 = 0 then .next (s.dropServed q)
      else .next ((s.modCp iodie (fun p => { p with last := some q })).readSlot iodie q dom)
  | _, _ => .next s

/-- QUEUE_REREAD (R374): a slot that was not valid is read once more; if it still is not, the queue is idle. -/
def execQueueReread (queue : Nat) (s : State) : Out :=
  if ¬ s.served.any (fun x => x.queue == queue && x.reread) then .next s
  else
    match s.queueDomain queue with
    | none => .next (s.dropServed queue)
    | some dom =>
      match s.vread ioUnit dom (s.slotVa queue) 1 with
      | .ok bs => .next (if fieldOf bs 0 1 % 2 = 1 then s.modServed queue (fun x => { x with reread := false }) else s.dropServed queue)
      | _ => .next (s.modServed queue (fun x => { x with reread := false }))

/-! ### Packets (R373, R375) -/

/-- Perform the packet that a command processor holds, if it is of a type and its work does not wait. -/
def State.withPacket (s : State) (cp ty : Nat) (k : Nat → Nat → Nat → List Byte → State → State) : Out :=
  match (s.cps[cp]?).bind (·.held) with
  | none => .next s
  | some (q, slot, bs) =>
    match s.queueDomain q with
    | none => .next (s.modCp cp (fun p => { p with held := none }))
    | some dom =>
      if pktType bs ≠ ty ∨ s.served.any (fun x => x.queue == q && x.stall.isSome) then .next s
      else .next (k dom q slot bs s)

/-- The command processor has done with a packet. -/
def State.releaseCp (s : State) (q : Nat) : State := s.modCp (q % 2) (fun p => { p with held := none })

/-- Decrement both words of a packet's SIGNAL (R373). -/
def State.signalBoth (s : State) (dom va : Nat) : State :=
  if va = 0 then s else (s.signal s.fresh dom va (.dec false) false).signal s.fresh dom va (.dec true) false

/-- NOP_PACKET (R373). -/
def execNopPacket (iodie : Nat) (s : State) : Out :=
  s.withPacket iodie 0 fun dom q slot _ s => (s.consumePacket dom q slot).releaseCp q

/-- The home of a LAUNCH packet's node: the lower compute die of the serving I/O die (R373). -/
def State.packetHome (s : State) (q : Nat) : Nat := s.homeDie (2 * (q % 2))

/-- The signal that a refused record's error goes to: the packet's, else the record's where that could be read (R302). -/
def launchSignal (bs : List Byte) (record : Option Nat) : Nat := if pktSignal bs ≠ 0 then pktSignal bs else record.getD 0

/-- LAUNCH_PACKET (R373): an anonymous node with successors; a SIGNAL of the packet replaces the record's. -/
def execLaunchPacket (iodie : Nat) (s : State) : Out :=
  s.withPacket iodie 1 fun dom q slot bs s =>
    if (pktNodes bs).any (fun i => decide (s.regField (.ntcount dom) 0 24 ≤ i)) then
      (s.refusePacket dom q slot 2 1 (pktSignal bs) (pktLaunch bs)).releaseCp q
    else
      match s.acceptLaunch ioUnit dom (pktLaunch bs) with
      | .hold p sig =>
        if s.ioDeclined q p then (s.refusePacket dom q slot 1 11 (launchSignal bs sig) (pktLaunch bs)).releaseCp q else s.ioHold dom q p
      | .refused reason sig => (s.refusePacket dom q slot 1 reason (launchSignal bs sig) (pktLaunch bs)).releaseCp q
      | .ok r =>
        let home := s.packetHome q
        if 4096 ≤ s.anonymous home then s
        else
          let r := if pktSignal bs = 0 then r else { r with signal := BitVec.ofNat 64 (pktSignal bs) }
          ((s.enterPool dom none (pktNodes bs) home r.prio r none none).consumePacket dom q slot).releaseCp q

/-- What the listed nodes of an INSERT or RELEASE packet come to, in order: all of them, or what stops it. -/
inductive Listed
  | ok (s : State)
  | hold (vpage : Nat)
  | bad (cls reason : Nat)

/-- Insert listed nodes in order (R373, R375). Every condition of R312 for a listed node, a refused launch record among them, refuses
the packet with class 2. Log 122 (DEDUCED). -/
def State.insertAll (s : State) (dom q : Nat) : List Nat → Listed
  | [] => .ok s
  | i :: is =>
    match s.checkNode ioUnit dom i with
    | .ok n => (s.insertNode n).insertAll dom q is
    | .hold p =>
      if s.ioDeclined q p then (if p = s.nodeVa dom i / 2 ^ 16 then .bad 2 7 else .bad 2 4) else .hold p
    | .bad code _ => .bad 2 code

/-- INSERT_PACKET (R373). -/
def execInsertPacket (iodie : Nat) (s : State) : Out :=
  s.withPacket iodie 2 fun dom q slot bs s =>
    match s.insertAll dom q (pktNodes bs) with
    | .hold p => s.ioHold dom q p
    | .bad cls reason => (s.refusePacket dom q slot cls reason (pktSignal bs) 0).releaseCp q
    | .ok t => ((t.signalBoth dom (pktSignal bs)).consumePacket dom q slot).releaseCp q

/-- The checks of a RELEASE packet's nodes, in list order (R305, R312, R375): the index, the record, which must be readable, and that the
node is WAITING. Log 122 (DEDUCED). -/
def State.releaseAllowed (s : State) (dom q : Nat) : List Nat → Listed
  | [] => .ok s
  | i :: is =>
    if s.regField (.ntcount dom) 0 24 ≤ i then .bad 2 1
    else
      match s.vread ioUnit dom (s.nodeVa dom i) 128 with
      | .hold p => if s.ioDeclined q p then .bad 2 7 else .hold p
      | .refused _ => .bad 2 7
      | .ok _ => if (s.counterOf dom i).isNone then .bad 2 2 else s.releaseAllowed dom q is

/-- RELEASE_PACKET (R373): each listed node is decremented by 1, in list order. -/
def execReleasePacket (iodie : Nat) (s : State) : Out :=
  s.withPacket iodie 3 fun dom q slot bs s =>
    match s.releaseAllowed dom q (pktNodes bs) with
    | .hold p => s.ioHold dom q p
    | .bad cls reason => (s.refusePacket dom q slot cls reason (pktSignal bs) 0).releaseCp q
    | .ok t => (((t.releaseAll dom (pktNodes bs)).signalBoth dom (pktSignal bs)).consumePacket dom q slot).releaseCp q

/-! ### Signals in host memory (R436) -/

/-- Whether a change of VOUCHED alone is the error value of a failed sight pass (R389). -/
def SigChange.sight (c : SigChange) : Bool :=
  match c with
  | .err _ _ cls _ => cls == 6
  | .dec _ => false

/-- A change of VOUCHED alone waits until the launch's DONE change has been performed at the host, but for the error value of a failed
sight pass (R436). -/
def State.signalWaits (s : State) (x : SigOp) : Bool :=
  x.change.touches true && !x.change.touches false && !x.change.sight && s.signals.any (fun y => y.launch == x.launch && y.va == x.va && y.change.touches false && decide (y.id < x.id))

/-- SIGNAL_ATOMIC_COMPLETION (R436): a compare that failed is repeated; one that succeeds changes the word once. -/
def execSignalAtomicCompletion (id : Nat) (swapped : Bool) (s : State) : Out :=
  match s.signals.find? (fun x => x.id == id) with
  | none => .next s
  | some x =>
    if ¬ swapped ∨ s.signalWaits x then .next s
    else
      let s := { s with signals := s.signals.filter (fun y => y.id != id) }
      .next ((s.changeSignal x.key x.change).notifyDone x.dom x.notify)

/-! ### The host's accesses -/

/-- A write of an outside path to consecutive keys: as a whole, or late in its aligned parts of 8 B (R226). Log 127 (DEDUCED). -/
def State.outsidePut (s : State) (t : Trail) (k : Nat) (bs : List Byte) : State :=
  if s.manner ≠ .late then s.pathPut t s.fresh (k, bs.length) k bs
  else
    (List.range ((k % 8 + bs.length + 7) / 8)).foldl (fun u i =>
      let lo := 8 * i - k % 8
      u.pathPut t s.fresh (k, bs.length) (k + lo) ((bs.take (8 * (i + 1) - k % 8)).drop lo)) { s with fresh := s.fresh + 1 }

/-- The same at a domain's virtual address, whose pages were found writable, page by page. -/
def State.outsideWriteFuel : Nat → State → Trail → Nat → Nat → List Byte → State
  | 0, s, _, _, _, _ => s
  | fuel + 1, s, t, dom, va, bs =>
    if bs.isEmpty then s
    else
      let c := pageCut va bs
      let u := match s.reachAt ioUnit dom va true with
        | .ok k => s.outsidePut t k c.1
        | _ => s
      State.outsideWriteFuel fuel u t dom (va + c.1.length) c.2
/-- A write of an outside path to a range of a domain's addresses, page by page (R223, R226). Log 127 (DEDUCED). -/
def State.outsideWrite (s : State) (t : Trail) (dom va : Nat) (bs : List Byte) : State :=
  State.outsideWriteFuel (bs.length / 2 ^ 16 + 2) s t dom va bs

/-- The key of each of n bytes at a domain's virtual address that can be read. -/
def State.keysAt (s : State) (dom va n : Nat) : List Nat :=
  (List.range n).filterMap (fun i => match s.reachAt ioUnit dom (va + i) false with
    | .ok k => some k
    | _ => none)

/-- n bytes at a domain's virtual address as an outside path reads them (R226, R228). -/
def State.outsideRead (s : State) (t : Trail) (dom va n : Nat) : List Byte × State :=
  let ks := s.keysAt dom va n
  (ks.flatMap (fun k => s.pathBytes t k 1), ks.foldl (fun s k => s.observe t.path k 1) s)

/-- Whose writes the host's are: PCIe keeps all of them in order (R228). -/
def hostTrail : Trail := { path := 5, src := 5000 }
/-- Those of a peer domain: one Exvor link brings them in order (R228). -/
def peerTrail (node peer : Nat) : Trail := { path := 6, src := 6000 + 32 * node + peer }

/-- HOST_ACCESS (R226, R228): the host writes or reads its own memory, or a domain's device memory through that domain's tables.
Log 74 (DEDUCED). -/
def execHostAccess (dom : Nat) (own write : Bool) (addr : Nat) (data : List Byte) (s : State) : Out :=
  if own then
    .next (if write then s.outsidePut hostTrail (hostKey dom addr) data else s.observe 5 (hostKey dom addr) data.length)
  else if ¬ write then .next (s.outsideRead hostTrail dom addr data.length).2
  else
    match s.vwritable ioUnit dom addr data.length with
    | .ok _ => .next (s.outsideWrite hostTrail dom addr data)
    | _ => .next s

/-! ### Exvor: inbound traffic (R378, R379, R380) -/

/-- The record of an inbound access that was refused or faulted (R379, R385). Log 77 (DEDUCED). -/
def State.inboundError (s : State) (dom node peer sub addr : Nat) : State :=
  (s.send (.refusal node peer)).record
    { kind := 0x0A, sub := sub, dom := dom, detail := node + peer * 2 ^ 16, addr := addr }

/-- What an atomic writes over an old value, by its operation: ATOM's 0 to 8, and 9 for ACAS, which brings the value compared
before the new one (R235). -/
def peerAtomic (op n old : Nat) (data : List Byte) : Option Nat :=
  let b := leNat (data.take n)
  let lower := decide (signed (8 * n) old ≤ signed (8 * n) b)
  match op with
  | 0 => some ((old + b) % 2 ^ (8 * n))
  | 1 => some (old &&& b)
  | 2 => some (old ||| b)
  | 3 => some (old ^^^ b)
  | 4 => some (if lower then old else b)
  | 5 => some (if lower then b else old)
  | 6 => some (min old b)
  | 7 => some (max old b)
  | 8 => some b
  | 9 => if old = b then some (leNat ((data.drop n).take n)) else none
  | _ => none

/-- Whether a domain's virtual address leads to host memory. -/
def State.onHost (s : State) (dom addr : Nat) : Bool :=
  match s.translate ioUnit dom (addr / 2 ^ 16) with
  | .ok m => m.host
  | _ => false

/-- Whether an atomic may be performed on host memory: PCIe has FetchAdd, Swap and CAS (R234, R370). -/
def hostAtomic (op : Nat) : Bool := op == 0 || op == 8 || op == 9

/-- Perform an inbound access of n bytes (R379). Log 75 (DEDUCED). -/
def State.inbound (s : State) (dom node peer : Nat) (op : FabricOp) (addr n : Nat) (data : List Byte) : State :=
  match s.vread ioUnit dom addr n, s.vwritable ioUnit dom addr n, op with
  | .ok _, _, .read =>
    let r := s.outsideRead (peerTrail node peer) dom addr n
    r.2.send (.reply node peer r.1)
  | _, .ok _, .write => s.outsideWrite (peerTrail node peer) dom addr data
  | .ok old, .ok _, .atomic o =>
    if s.onHost dom addr ∧ ¬ hostAtomic o.toNat then s.inboundError dom node peer 2 addr
    else
    let t := match peerAtomic o.toNat n (leNat old) data with
      | some v => ({ s with manner := .now } : State).outsideWrite (peerTrail node peer) dom addr (leBytes n v)
      | none => s
    t.send (.reply node peer old)
  | _, _, _ => s.inboundError dom node peer 2 addr

/-- FABRIC_MEMORY_ACCESS (R378, R379): an access of a peer's domain, through this domain's tables. Log 76 (DEDUCED). -/
def execFabricMemoryAccess (dom node peer : Nat) (op : FabricOp) (addr : Nat) (data : List Byte) (s : State) : Out :=
  let n := match op with
    | .atomic o => if o = 9 then data.length / 2 else data.length
    | _ => data.length
  let r := s.accepts dom node peer 24
  let w := s.accepts dom node peer 25
  let allowed := match op with
    | .read => r
    | .write => w
    | .atomic _ => r && w
  .next (if allowed then s.inbound dom node peer op addr n data else s.inboundError dom node peer 1 addr)

/-- Slots of a message ring (R380). -/
def State.msgSlots (s : State) (dom : Nat) : Nat := 2 ^ s.regField (.msgring dom) 0 4
def State.msgVa (s : State) (dom : Nat) : Nat :=
  s.regField (.msgring dom) 12 43 * 2 ^ 12 + 4096 * (s.regField (.msgtail dom) 0 16 % s.msgSlots dom)

/-- A fired tag: the payload's address is recorded, the entry removed, the node decremented (R317). -/
def State.fireTag (s : State) (dom tag payload : Nat) : State :=
  match s.armed.find? (fun x => x.dom == dom && x.tag == tag) with
  | none => s
  | some x =>
    let s := { s with armed := s.armed.filter (fun y => !(y.dom == dom && y.tag == tag)) }
    let s := s.vwrite ioUnit dom (s.nodeVa dom x.node + 56) (leBytes 8 payload)
    let s := { s with nodes := s.nodes.map (fun (n : Node) =>
      if n.dom = dom ∧ n.idx = x.node then { n with payload := some (BitVec.ofNat 64 payload) } else n) }
    s.decNode dom x.node 1

/-- Write a message into the next slot, if the ring has room and can be written, and match its tag (R380).
Log 20 (DEDUCED), 77 (DEDUCED). -/
def State.storeMessage (s : State) (m : Message) : Option State :=
  let tail := s.regField (.msgtail m.dom) 0 16
  let head := s.regField (.msghead m.dom) 0 16
  let va := s.msgVa m.dom
  let bs := leBytes 4 m.tag ++ leBytes 2 m.data.length ++ leBytes 2 m.node ++ leBytes 1 m.peer ++ leBytes 55 0 ++ m.data
  if s.msgSlots m.dom ≤ (tail + 2 ^ 16 - head) % 2 ^ 16 then none
  else
    match s.vwritable ioUnit m.dom va bs.length with
    | .ok _ =>
      some (((s.vwrite ioUnit m.dom va bs).setReg (.msgtail m.dom) (BitVec.ofNat 64 ((tail + 1) % 2 ^ 16))).fireTag m.dom m.tag (va + 64))
    | _ => none

/-- Deliver the messages that wait for a domain, in the order they came, while the ring has room (R380). -/
def State.deliverMessages (s : State) (dom : Nat) : List Message → State
  | [] => s
  | m :: ms =>
    if m.dom = dom then
      match s.storeMessage m with
      | some t => ({ t with waiting := t.waiting.erase m } : State).deliverMessages dom ms
      | none => s
    else s.deliverMessages dom ms

/-- TAGGED_MESSAGE (R378, R380): a message that finds the ring full waits and is never dropped. -/
def execTaggedMessage (dom node peer tag : Nat) (data : List Byte) (s : State) : Out :=
  if ¬ s.accepts dom node peer 26 then .next (s.inboundError dom node peer 1 0)
  else
    let m : Message := { dom := dom, node := node, peer := peer, tag := tag % 2 ^ 32, data := data }
    .next (({ s with waiting := s.waiting ++ [m] } : State).deliverMessages dom (s.waiting ++ [m]))

/-- MSGHEAD_WRITE (R380): freed slots take waiting messages. -/
def execMsgheadWrite (dom : Nat) (v : DWord) (s : State) : Out :=
  s.byRegister fun s => (s.setReg (.msghead dom) (v &&& 0xFFFF#64)).deliverMessages dom s.waiting

end Sys2Proof.Machine
end

