-- ==== Sys2Proof/Machine/Configure.lean ====
section
/-!
DEFINITION. What a write of a configuration register does, and what a read of one yields (R219, R220, R304, R327, R329, R330, R332,
R336, R340, R353, R356, R358, R359, R362, R364 to R367, R372, R377, R378, R380, R386, R387, R407).
-/
namespace Sys2Proof.Machine

/-! ### Ranges that may not overlap -/

/-- Whether two ranges, first and count, share a member. -/
def rangesOverlap (a b : Nat × Nat) : Bool :=
  decide (0 < a.2) && decide (0 < b.2) && decide (a.1 < b.1 + b.2) && decide (b.1 < a.1 + a.2)

/-- Whether a range meets that of another domain. -/
def State.rangeTaken (dom : Nat) (range : Nat → Nat × Nat) (new : Nat × Nat) : Bool :=
  (List.range Config.domains).any (fun d => d != dom && rangesOverlap new (range d))

/-- A quota register, its RW bits, and its range: FIRST and COUNT (R329). -/
def quotaReg (kind : QuotaKind) (core dom : Nat) : Reg :=
  match kind with
  | .slot => .qslot core dom
  | .caddy => .qcaddy core dom
  | .spad => .qspad core dom
  | .acc => .qacc core dom
def quotaBits (kind : QuotaKind) : DWord :=
  match kind with
  | .slot => 0x1F0F
  | .caddy => 0x7F3F
  | .spad => 0x1FFF0FFF
  | .acc => 0x01FF00FF
def quotaRange (kind : QuotaKind) (v : DWord) : Nat × Nat :=
  match kind with
  | .slot => (field v 0 4, field v 8 5)
  | .caddy => (field v 0 6, field v 8 7)
  | .spad => (field v 0 12, field v 16 13)
  | .acc => (field v 0 8, field v 16 9)

/-- A write of a quota range (R329); QSPAD decides LENDRNG.ERR (R330). -/
def State.writeQuota (s : State) (kind : QuotaKind) (core dom : Nat) (v : DWord) : State :=
  if State.rangeTaken dom (fun d => quotaRange kind (s.reg (quotaReg kind core d))) (quotaRange kind v) then
    s.setRegField (.quotaCtl core dom) 8 1 1
  else
    let s := s.setReg (quotaReg kind core dom) (v &&& quotaBits kind)
    if kind = .spad ∧ s.reg (.lendrng core) ≠ 0 then s.lendErr core else s

/-- QUOTA_WRITE (R329). -/
def execQuotaWrite (kind : QuotaKind) (core dom : Nat) (v : DWord) (s : State) : Out :=
  s.byRegister (·.writeQuota kind core dom v)

/-- A write of PART (R353). -/
def State.writePart (s : State) (dom : Nat) (v : DWord) : State :=
  let range := fun (x : DWord) => (field x 0 36, field x 36 24)
  let r := Reg.part dom
  if State.rangeTaken dom (fun d => range (s.reg (.part d))) (range v) then s.setRegField r 63 1 1
  else s.setReg r ((v &&& 0x0FFFFFFFFFFFFFFF#64) ||| (s.reg r &&& ~~~v &&& 0x8000000000000000#64))

/-- PART_WRITE (R353). -/
def execPartWrite (dom : Nat) (v : DWord) (s : State) : Out := s.byRegister (·.writePart dom v)

/-- A write of QRANGE (R372). -/
def State.writeQrange (s : State) (dom : Nat) (v : DWord) : State :=
  let range := fun (x : DWord) => (field x 0 12, field x 16 12)
  if State.rangeTaken dom (fun d => range (s.reg (.qrange d))) (range v) then s else s.setReg (.qrange dom) (v &&& 0x0FFF0FFF#64)

/-- QRANGE_WRITE (R372). -/
def execQrangeWrite (dom : Nat) (v : DWord) (s : State) : Out := s.byRegister (·.writeQrange dom v)

/-! ### Counters -/

/-- A write of CTROWN clears each counter whose owner it changes (R327, R330). Log 79 (DEDUCED). -/
def State.writeCtrown (s : State) (core : Nat) (v : DWord) : State :=
  let old := s.reg (.ctrown core)
  let s := (List.range 8).foldl (fun s n => if field old (5 * n) 5 = field v (5 * n) 5 then s else s.setReg (.ctrcount core n) 0) s
  s.setReg (.ctrown core) (v &&& 0xFFFFFFFFFF#64)

/-- CTROWN_WRITE (R330). Log 79 (DEDUCED). -/
def execCtrownWrite (core : Nat) (v : DWord) (s : State) : Out := s.byRegister (·.writeCtrown core v)

/-- CTRCFG_CLEAR (R327). -/
def execCtrcfgClear (core n : Nat) (s : State) : Out := .next (s.setReg (.ctrcount core n) 0)

/-! ### Residency ranges (R219, R220) -/

/-- A domain's reservation on a die, with range n counted as if its register held v. -/
def State.reservation (s : State) (die dom : Nat) (n : Option Nat) (v : DWord) : Nat :=
  ((List.range 8).map (fun i =>
    let x := if n = some i then v else s.reg (.rsvctl die dom i)
    if field x 15 1 = 1 ∧ field x 14 1 = 0 then field x 8 4 else 0)).foldl max 0

/-- A domain's retained lines on a die, the newest of each set of a slice up to its reservation (R220). Log 132 (DEDUCED). -/
def State.trimRetained (s : State) (die dom : Nat) : State :=
  let mine := fun (x : Retained) => x.die == die && x.dom == dom
  let room := fun (kept : List Retained) (x : Retained) =>
    decide ((kept.filter (fun y => mine y && y.slice == x.slice && Config.lineSet y.line == Config.lineSet x.line)).length < s.waysOf die dom)
  { s with retained := s.retained.foldl (fun kept x => if mine x && !room kept x then kept else kept ++ [x]) [] }

/-- A write of RSVCTL: ERR is 1 when the range cannot be in effect, which then holds no line, as when it is disabled; its sampling counts
start again (R220). Log 132 (DEDUCED). -/
def State.writeRsvctl (s : State) (die dom n : Nat) (v : DWord) : State :=
  let new := setField (setField (v &&& 0x8F1F#64) 8 4 (min 8 (field v 8 4))) 0 5 (min 16 (field v 0 5))
  let total := ((List.range Config.domains).map (fun d => s.reservation die d (if d = dom then some n else none) new)).foldl (· + ·) 0
  let new := if field v 15 1 = 1 ∧ 12 < total then setField new 14 1 1 else new
  (State.setReg { s with samples := s.samples.filter (fun x => !(x.1 == die && x.2.1 == dom && x.2.2.1 == n)),
                         retained := s.retained.filter (fun x => !(x.die == die && x.dom == dom && x.range == n && (!new.getLsbD 15 || new.getLsbD 14))) } (.rsvctl die dom n) new).trimRetained die dom

/-- RSVCTL_WRITE (R220). -/
def execRsvctlWrite (die dom n : Nat) (v : DWord) (s : State) : Out := s.byRegister (·.writeRsvctl die dom n v)

/-! ### Rings and queues -/

/-- BASE and SIZE of a ring: fields `mask`, and a SIZE above `top` stored as `top`. -/
def ringValue (v mask : DWord) (top : Nat) : DWord := setField (v &&& mask) 0 4 (min top (field v 0 4))

/-- A write of a domain's EQRING, or of PLRING, sets TAIL and HEAD to 0 (R386, R387). -/
def State.writeEqring (s : State) (dom : Option Nat) (v : DWord) : State :=
  match dom with
  | some d => ((s.setReg (.eqring d) (ringValue v 0x007FFFFFFFFFF00F#64 10)).setReg (.eqtail d) 0).setReg (.eqhead d) 0
  | none => ((s.setReg .plring (ringValue v 0x000FFFFFFFFFF00F#64 10)).setReg .pltail 0).setReg .plhead 0

/-- EQRING_WRITE (R386). -/
def execEqringWrite (dom : Option Nat) (v : DWord) (s : State) : Out := s.byRegister (·.writeEqring dom v)

/-- A write of HEAD: it advances by as much as the 16 bits say (R386, R387). Log 20 (DEDUCED). -/
def State.writeHead (s : State) (r : Reg) (v : DWord) : State :=
  let head := s.regField r 0 17
  s.setReg r (BitVec.ofNat 64 ((head + (field v 0 16 + 2 ^ 17 - head) % 2 ^ 16) % 2 ^ 17))

/-- Setting EN of a queue clears RDIDX and STOP (R372). -/
def State.enableQueue (s : State) (q : Nat) : State :=
  if s.regField (.qctl q) 63 1 = 1 then s
  else ((s.setReg (.qrd q) 0).setRegField (.qctl q) 6 1 0).setRegField (.qctl q) 63 1 1

/-- QUEUE_ENABLE (R372). -/
def execQueueEnable (queue : Nat) (s : State) : Out := s.byRegister (·.enableQueue queue)

/-- A write of a queue's QCTL: SIZE only while EN is 0, from 4 to 16; a queue that is disabled forgets its notifies (R372). -/
def State.writeQctl (s : State) (q : Nat) (v : DWord) : State :=
  let s := if s.regField (.qctl q) 63 1 = 1 then s else s.setRegField (.qctl q) 0 5 (max 4 (min 16 (field v 0 5)))
  if v.getLsbD 63 then s.enableQueue q else (s.setRegField (.qctl q) 63 1 0).dropServed q

/-! ### Every register -/

/-- A value clamped to a range. -/
def clampReg (lo hi v : Nat) : DWord := BitVec.ofNat 64 (max lo (min hi v))

/-- RW1C bits: ones written clear them. -/
def State.clearOnes (s : State) (r : Reg) (bits v : DWord) : State := s.setReg r (s.reg r &&& ~~~(v &&& bits))

/-- A write of PREQ (R340). -/
def State.writePreq (s : State) (core : Nat) (v : DWord) : State :=
  if ¬ v.getLsbD 15 then s
  else
    match field v 8 2 with
    | 0 => s.withdraw core (field v 0 5)
    | 1 => s.softRequest core (field v 0 5)
    | 2 => s.hardRequest core (field v 0 5)
    | _ => s

/-- A write of INVCTL: KIND and COUNT, and with GO an invalidation, unless BUSY or KIND 3 (R356). -/
def State.writeInvctl (s : State) (dom : Nat) (v : DWord) : State :=
  if ¬ v.getLsbD 63 ∨ field v 16 2 = 3 then
    (s.setRegField (.invctl dom) 16 2 (field v 16 2)).setRegField (.invctl dom) 0 16 (field v 0 16)
  else s.invalidate dom (field v 16 2) (field v 0 16)

/-- A write of IDTCMD with GO (R358). -/
def State.writeIdtcmd (s : State) (v : DWord) : State :=
  let page := field v 0 36
  if ¬ v.getLsbD 63 then s
  else
    match field v 60 3 with
    | 0 => s.idtMap (v.getLsbD 59) page (tierFrames (v.getLsbD 59))
    | 1 => s.idtUnmap page
    | 2 => s.setPin page true
    | 3 => s.setPin page false
    | _ => s.idtErr

/-- A write of KEYCTL: SLOT; LOAD of a free slot; RETIRE of a loaded one, which refuses accesses until KEY_RETIRE (R362). Where one
write sets both bits, each meets the slot as the write found it. Log 116 (DEDUCED). -/
def State.writeKeyctl (s : State) (v : DWord) : State :=
  let slot := field v 0 6
  let s := s.setReg .keyctl (BitVec.ofNat 64 slot)
  if (s.keys[slot]?).map (·.state) = some .free then (if v.getLsbD 8 then s.keyLoad slot else s)
  else if v.getLsbD 9 then s.startRetire slot else s

/-- A write of VFCTL (R367): RESET from state 1, EN from states 0 and 3; EN can be written 0, which changes no STATE.
Log 117 (DESIGN CHOICE). -/
def State.writeVfctl (s : State) (dom : Nat) (v : DWord) : State :=
  if v.getLsbD 1 ∧ s.regField (.vfctl dom) 4 3 = 1 then s.resetDomain dom
  else if v.getLsbD 0 then s.enableDomain dom
  else s.setRegField (.vfctl dom) 0 1 0

/-- HPTCTL with its PERIOD from 100 to 100,000 (R359). -/
def hptValue (v : DWord) : DWord := setField (v &&& 0xFFFFFFFFFFFFFF01#64) 8 24 (max 100 (min 100000 (field v 8 24)))

/-- A write of a configuration register: RW fields take the value, RW1C bits clear, RO and RZ fields ignore it, and the register
acts as its rule says. -/
def State.writeReg (s : State) (r : Reg) (v : DWord) : State :=
  match r with
  | .qslot c d => s.writeQuota .slot c d v
  | .qcaddy c d => s.writeQuota .caddy c d v
  | .qspad c d => s.writeQuota .spad c d v
  | .qacc c d => s.writeQuota .acc c d v
  | .quotaCtl _ _ => s.setReg r ((v &&& 0x37#64) ||| (s.reg r &&& ~~~v &&& 0x100#64))
  | .debt _ _ => s.setReg r (v &&& 0xFFFFFFFF#64)
  | .ctrown c => s.writeCtrown c v
  | .lendrng c => s.writeLend c false v
  | .lslot c => s.writeLend c true v
  | .preq c => s.writePreq c v
  | .pstat _ => s
  | .wslist _ => s.setReg r (v &&& 0x9F9F9F9F9F9F9F9F#64)
  | .wsctl _ => s.setReg r (setField (v &&& 0x20000#64) 0 17 (max 100 (min 100000 (field v 0 17))))
  | .csight _ => s
  | .ctrcfg c n => s.writeCtrcfg c n v
  | .ctrcount _ _ => s
  | .rsvbase _ _ _ => s.setReg r (v &&& 0x000FFFFFFFFF0000#64)
  | .rsvlimit _ _ _ => s.setReg r (v &&& 0x000FFFFFFFFF0000#64)
  | .rsvctl e d n => s.writeRsvctl e d n v
  | .dpol _ => s.setReg r (v &&& 3#64)
  | .featmask _ => s.setReg r v
  | .grace _ => s.setReg r (clampReg 10 10000 (field v 0 14))
  | .killt _ => s.setReg r (clampReg 100 60000 (field v 0 16))
  | .dstat _ => s.clearOnes r 1 v
  | .part d => s.writePart d v
  | .dkey _ => s.setReg r (v &&& 0x13F#64)
  | .vfctl d => s.writeVfctl d v
  | .ptcfg _ => s.setReg r (v &&& 0x80FF00FF#64)
  | .ptbal _ => s
  | .qrange d => s.writeQrange d v
  | .fwbase _ _ => s.setReg r (v &&& 0x007FFFFFFFFF0000#64)
  | .fwsize _ _ => s.setReg r (v &&& 0xFFFFFF#64)
  | .fwtgt _ _ => s.setReg r (v &&& 0x80000000007FFFFF#64)
  | .fwrbase _ _ => s.setReg r (v &&& 0x007FFFFFFFFFFFFF#64)
  | .accept _ _ => s.setReg r (v &&& 0x871FFFFF#64)
  | .ntbase _ => s.setReg r (v &&& 0x007FFFFFFFFF0000#64)
  | .ntcount _ => s.setReg r (v &&& 0xFFFFFF#64)
  | .gsbase _ => s.setReg r (v &&& 0x007FFFFFFFFFF000#64)
  | .gssize _ => s.setReg r (v &&& 0xFFFFFFFF#64)
  | .ptroot _ => s.setReg r (v &&& 0x000FFFFFFFFF0001#64)
  | .invaddr _ => s.setReg r (v &&& 0x007FFFFFFFFF0000#64)
  | .invctl d => s.writeInvctl d v
  | .prqring _ => s.setReg r (ringValue v 0x007FFFFFFFFFF00F#64 8)
  | .prqtail _ => s
  | .prqhead d => (s.setReg r (v &&& 0xFFFF#64)).sendReqs d
  | .prqresp d => s.prqAnswer d (field v 0 9) (v.getLsbD 16)
  | .msgring _ => s.setReg r (v &&& 0x007FFFFFFFFFF00F#64)
  | .msgtail _ => s
  | .msghead d => (s.setReg r (v &&& 0xFFFF#64)).deliverMessages d s.waiting
  | .eqring d => s.writeEqring (some d) v
  | .eqtail _ => s
  | .eqhead _ => s.writeHead r v
  | .eqlost _ => s.clearOnes r 0xFFFFFFFF v
  | .hashlo _ => s
  | .hashhi _ => s
  | .tierctl _ => s.setReg r (v &&& 1#64)
  | .qbase q => if s.regField (.qctl q) 63 1 = 1 then s else s.setReg r (v &&& 0x007FFFFFFFFFFFC0#64)
  | .qctl q => s.writeQctl q v
  | .qrd _ => s
  | .gtbase => s.setReg r (v &&& 0x000FFFFFFFFFFFC0#64)
  | .gtcount => s.setReg r (clampReg 0 4096 (field v 0 16))
  | .idtbase => s.setReg r v
  | .idtcount => s.setReg r v
  | .idtcmd => s.writeIdtcmd v
  | .idtstat => s.clearOnes r 2 v
  | .hptctl => s.setReg r (hptValue v)
  | .keydata _ => s.setReg r v
  | .keyctl => s.writeKeyctl v
  | .plring => s.writeEqring none v
  | .pltail => s
  | .plhead => s.writeHead r v
  | .pllost => s.clearOnes r 0xFFFFFFFF v
  | .bootstat => s
  | .nodeid => s.setReg r (v &&& 0xFFFF#64)
  | .route _ => s.setReg r (v &&& 0x1F#64)
  | .bar4 _ _ => s.setReg r v

/-! ### Where registers lie -/

/-- The registers of a core's configuration space (R329, R330, R340, R365, R388). -/
def coreReg (c off : Nat) : Option Reg :=
  let d := off / 0x40
  if off < 0x800 then
    (match off % 0x40 with
    | 0x00 => some (.qslot c d)
    | 0x08 => some (.qcaddy c d)
    | 0x10 => some (.qspad c d)
    | 0x18 => some (.qacc c d)
    | 0x20 => some (.quotaCtl c d)
    | 0x28 => some (.debt c d)
    | _ => none)
  else
    match off - 0x800 with
    | 0x00 => some (.ctrown c)
    | 0x08 => some (.lendrng c)
    | 0x10 => some (.lslot c)
    | 0x18 => some (.preq c)
    | 0x20 => some (.pstat c)
    | 0x28 => some (.wslist c)
    | 0x30 => some (.wsctl c)
    | 0x40 => some (.csight c)
    | _ => none

/-- The registers of a domain's control block (R332, R353, R366, R367, R372, R378). -/
def blockReg (d off : Nat) : Option Reg :=
  if off < 0x100 then
    (match off with
    | 0x00 => some (.dpol d)
    | 0x08 => some (.featmask d)
    | 0x10 => some (.grace d)
    | 0x18 => some (.killt d)
    | 0x20 => some (.dstat d)
    | 0x28 => some (.part d)
    | 0x30 => some (.dkey d)
    | 0x40 => some (.vfctl d)
    | 0x48 => some (.ptcfg d)
    | 0x50 => some (.ptbal d)
    | 0x58 => some (.qrange d)
    | _ => none)
  else if off < 0x300 then
    let n := (off - 0x100) / 0x20
    (match (off - 0x100) % 0x20 with
    | 0x00 => some (.fwbase d n)
    | 0x08 => some (.fwsize d n)
    | 0x10 => some (.fwtgt d n)
    | 0x18 => some (.fwrbase d n)
    | _ => none)
  else if off < 0x340 ∧ off % 4 = 0 then some (.accept d ((off - 0x300) / 4))
  else none

/-- The registers of the device control space (R332, R387, R407). -/
def controlReg (off : Nat) : Option Reg :=
  if off < 0x8000 then blockReg (off / 0x400) (off % 0x400)
  else
    match off with
    | 0x10000 => some .plring
    | 0x10008 => some .pltail
    | 0x10010 => some .plhead
    | 0x10018 => some .pllost
    | 0x20000 => some .bootstat
    | _ => none

/-- The registers of the scheduler's configuration space (R304). -/
def schedulerReg (off : Nat) : Option Reg :=
  let d := off / 0x40
  if Config.domains ≤ d then none
  else
    match off % 0x40 with
    | 0x00 => some (.ntbase d)
    | 0x08 => some (.ntcount d)
    | 0x10 => some (.gsbase d)
    | 0x18 => some (.gssize d)
    | _ => none

/-- The registers of a die's residency block (R219). -/
def residencyReg (die off : Nat) : Option Reg :=
  let d := off / 0x100
  let n := off % 0x100 / 0x20
  if Config.domains ≤ d then none
  else
    match off % 0x20 with
    | 0x00 => some (.rsvbase die d n)
    | 0x08 => some (.rsvlimit die d n)
    | 0x10 => some (.rsvctl die d n)
    | _ => none

/-- The registers of a function page (R356, R364, R372, R380, R386, R392). -/
def State.pageReg (s : State) (d off : Nat) : Option Reg :=
  if 0x10000 ≤ off then
    let i := (off - 0x10000) / 0x20
    let q := s.regField (.qrange d) 0 12 + i
    if s.regField (.qrange d) 16 12 ≤ i ∨ Config.queues ≤ q then none
    else
      (match off % 0x20 with
      | 0x00 => some (.qbase q)
      | 0x08 => some (.qctl q)
      | 0x10 => some (.qrd q)
      | _ => none)
  else
    match off with
    | 0x00 => some (.ptroot d)
    | 0x08 => some (.invaddr d)
    | 0x10 => some (.invctl d)
    | 0x18 => some (.prqring d)
    | 0x20 => some (.prqtail d)
    | 0x28 => some (.prqhead d)
    | 0x30 => some (.prqresp d)
    | 0x38 => some (.msgring d)
    | 0x40 => some (.msgtail d)
    | 0x48 => some (.msghead d)
    | 0x50 => some (.eqring d)
    | 0x58 => some (.eqtail d)
    | 0x60 => some (.eqhead d)
    | 0x68 => some (.eqlost d)
    | 0x70 => some (.hashlo d)
    | 0x78 => some (.hashhi d)
    | _ => none

/-- The words of a function's BAR4, 16 KiB (R370). Log 121 (DESIGN CHOICE). -/
def bar4Reg (d off : Nat) : Option Reg :=
  if d < Config.domains ∧ off < 0x4000 ∧ off % 8 = 0 then some (.bar4 d (off / 8)) else none

/-- The register at a place, if there is one (R219, R332). Log 118 (DEDUCED). -/
def State.regAt (s : State) (p : RegPlace) : Option Reg :=
  match p with
  | .named r => some r
  | .offset .control off => controlReg off
  | .offset .scheduler off => schedulerReg off
  | .offset (.core c) off => coreReg c off
  | .offset (.residency e) off => residencyReg e off
  | .offset (.page d) off => s.pageReg d off
  | .offset (.bar4 d) off => bar4Reg d off

/-- The function through whose page a register is reached: a domain's own, or for all others the physical function, which is domain
0's (R219, R304, R329, R332, R370, R372). -/
def State.pageOwner (s : State) (r : Reg) : Nat :=
  match r with
  | .ptroot d | .invaddr d | .invctl d | .prqring d | .prqtail d | .prqhead d | .prqresp d | .msgring d | .msgtail d | .msghead d
  | .eqring d | .eqtail d | .eqhead d | .eqlost d | .hashlo d | .hashhi d | .bar4 d _ => d
  | .qbase q | .qctl q | .qrd q => (s.queueDomain q).getD 0
  | _ => 0

/-- REGISTER_WRITE (R332): a function writes a register that it reaches; where no register lies the write is ignored. -/
def execRegisterWrite (target : RegTarget) (v : DWord) (s : State) : Out :=
  s.byRegister fun s =>
    match s.regAt target.place with
    | some r => if s.pageOwner r = target.fn then s.writeReg r v else s
    | none => s

/-- What software reads from a register: WO fields read zero, KEYCTL shows the selected slot's state (R362), PTBAL the balance in
microjoules (R366), and in recovery every register but BOOTSTAT reads zero (R407). -/
def State.readReg (s : State) (r : Reg) : DWord :=
  if ¬ s.isUp ∧ r ≠ .bootstat then 0
  else
    match r with
    | .ptbal d => BitVec.ofNat 64 ((s.tokens d).1 / microjoule % 2 ^ 32)
    | .keyctl =>
      let slot := s.regField .keyctl 0 6
      let st := match (s.keys[slot]?).map (·.state) with
        | some .loaded => 1
        | some .retiring => 2
        | _ => 0
      BitVec.ofNat 64 (slot + st * 2 ^ 16)
    | .keydata _ => 0
    | .eqtail _ | .eqhead _ | .pltail | .plhead => s.reg r &&& 0xFFFF#64
    | r => s.reg r

/-- What software reads at a place: zero where no register lies (R219, R332). -/
def State.readAt (s : State) (p : RegPlace) : DWord := ((s.regAt p).map s.readReg).getD 0

end Sys2Proof.Machine
end

