-- ==== Sys2Proof/Machine/Digest.lean ====
section
/-!
DEFINITION. SHAKE256, with a digest of 64 bytes (R404, R410): the sponge over Keccak-f[1600] that its name stands for, at a rate of
136 bytes. Lanes are numbers below 2^64, lane x + 5 y at place x + 5 y of a list of 25. Log 96 (PRESUMED).
-/
namespace Sys2Proof.Machine.Keccak

def lane (a : List Nat) (i : Nat) : Nat := a.getD i 0

/-- A lane rotated towards higher bits. -/
def rot (v n : Nat) : Nat := v * 2 ^ (n % 64) % 2 ^ 64 + v / 2 ^ (64 - n % 64)

/-- The rotation of each lane. -/
def offsets : List Nat := [0, 1, 62, 28, 27, 36, 44, 6, 55, 20, 3, 10, 43, 25, 39, 41, 45, 15, 21, 8, 18, 2, 61, 56, 14]

/-- The constants of the 24 rounds. -/
def constants : List Nat :=
  [0x0000000000000001, 0x0000000000008082, 0x800000000000808A, 0x8000000080008000, 0x000000000000808B, 0x0000000080000001,
   0x8000000080008081, 0x8000000000008009, 0x000000000000008A, 0x0000000000000088, 0x0000000080008009, 0x000000008000000A,
   0x000000008000808B, 0x800000000000008B, 0x8000000000008089, 0x8000000000008003, 0x8000000000008002, 0x8000000000000080,
   0x000000000000800A, 0x800000008000000A, 0x8000000080008081, 0x8000000000008080, 0x0000000080000001, 0x8000000080008008]

def theta (a : List Nat) : List Nat :=
  let c := (List.range 5).map (fun x => (List.range 5).foldl (fun v y => v ^^^ lane a (x + 5 * y)) 0)
  let d := (List.range 5).map (fun x => lane c ((x + 4) % 5) ^^^ rot (lane c ((x + 1) % 5)) 1)
  mapFrom (fun i v => v ^^^ lane d (i % 5)) 0 a

/-- The lane that ρ and π bring to place x + 5 y is the one of column x + 3 y and row x. -/
def rhoPi (a : List Nat) : List Nat :=
  (List.range 25).map (fun i =>
    let j := (i % 5 + 3 * (i / 5)) % 5 + 5 * (i % 5)
    rot (lane a j) (offsets.getD j 0))

def chi (a : List Nat) : List Nat :=
  mapFrom (fun i v => v ^^^ ((2 ^ 64 - 1 - lane a ((i + 1) % 5 + 5 * (i / 5))) &&& lane a ((i + 2) % 5 + 5 * (i / 5)))) 0 a

def round (a : List Nat) (k : Nat) : List Nat :=
  match chi (rhoPi (theta a)) with
  | v :: vs => (v ^^^ k) :: vs
  | [] => []

/-- The permutation. -/
def permute (a : List Nat) : List Nat := constants.foldl round a

/-- The bytes of a message with SHAKE's suffix, filled up to whole blocks. -/
def padded (bs : List Byte) : List Byte :=
  let gap := 136 - bs.length % 136
  bs ++ (if gap = 1 then [0x9F] else 0x1F :: List.replicate (gap - 2) 0 ++ [0x80])

/-- Absorb one block. -/
def absorb (a : List Nat) (block : List Byte) : List Nat :=
  permute (mapFrom (fun i v => v ^^^ leNat ((block.drop (8 * i)).take 8)) 0 a)

/-- The 64 bytes of the digest as a number, byte 0 in the low bits. -/
def shake256 (bs : List Byte) : BitVec 512 :=
  let a := (chunks 136 ((padded bs).length / 136) (padded bs)).foldl absorb (List.replicate 25 0)
  BitVec.ofNat 512 (leNat ((a.take 8).flatMap (leBytes 8)))

end Sys2Proof.Machine.Keccak
end

