-- ==== Sys2Proof/Machine/Power.lean ====
section
/-!
DEFINITION. Bring-up, flash and attestation (R404 to R410), the arithmetic clock (R411), temperature and power (R411, R412), and
link errors (R383).
-/
namespace Sys2Proof.Machine

/-! ### Clock and temperature -/

/-- Power management goes to a clock: down, the pass limit falls first and the clock follows when the passes granted before have
ended; up, the clock rises with the limit (R411). -/
def State.goToClock (s : State) (mhz : Nat) : State :=
  ({ s with clockTo := mhz, clock := max s.clock mhz, passMax := passLimit mhz } : State).pollClock

/-- CLOCK_STEP_DOWN (R411). -/
def execClockStepDown (s : State) : Out := .next (s.goToClock (max Config.lowestMHz (s.clockTo - 50)))
/-- CLOCK_STEP_UP (R411). -/
def execClockStepUp (s : State) : Out := .next (s.goToClock (min Config.nominalMHz (s.clockTo + 50)))

/-- THERMAL_THROTTLE (R412). -/
def execThermalThrottle (die : Nat) (s : State) : Out :=
  .next ((s.goToClock Config.lowestMHz).physRecord { kind := 0x27, sub := 1, detail := die } false)

/-- The module without power: what survives is its flash and what belongs to the host or to the model. Log 80 (DEDUCED). -/
def State.off (s : State) : State :=
  { State.reset with
    powered := false, sched := s.sched, fresh := s.fresh, outgoing := s.outgoing, msix := s.msix, flash := s.flash,
    mem := s.mem.filter (fun c => decide (2 ^ 58 ≤ c.1) && decide (c.1 < 2 ^ 60)) }

/-- THERMAL_SHUTDOWN (R412): off without saving any context. -/
def execThermalShutdown (_die : Nat) (s : State) : Out := .next s.off
/-- UNDERVOLTAGE (R411). -/
def execUndervoltage (s : State) : Out := .next s.off

/-! ### Bring-up (R404 to R409) -/

/-- The signed bytes of an image: its header and its other bytes (R404, R405). Log 8 (DESIGN CHOICE). -/
def signedBytes (i : FlashImage) : List Byte := leBytes 2 i.version.toNat ++ leBytes 1 i.advance.toNat ++ i.code

/-- The 4,096 bytes of the blob's record (R409). -/
def blobBytes (i : FlashImage) : List Byte := Memory.getAll i.blob 0 4096

/-- Whether a signature field of 1,462 bytes holds a signature of signed bytes that verifies under a key (R404); those that the module
ships with do. Log 8 (DESIGN CHOICE). -/
def verifies (key signed sig : List Byte) : Bool :=
  sig.length == 1462 &&
  (decide (key = FlashImage.shipped.key ∧ ((signed = signedBytes FlashImage.shipped ∧ sig = FlashImage.shipped.sig) ∨
      (signed = blobBytes FlashImage.shipped ∧ sig = FlashImage.shipped.blobSig))) ||
    Config.falconHolds key (Keccak.shake256 signed) sig)

/-- The digest of Galoita's firmware public key, in mask ROM (R404). -/
def romKeyDigest : BitVec 512 := Keccak.shake256 FlashImage.shipped.key

/-- Whether the boot ROM accepts an image: its embedded public key hashes to the digest in mask ROM and the signature verifies
under that key (R404). -/
def genuine (i : FlashImage) : Bool := Keccak.shake256 i.key == romKeyDigest && verifies i.key (signedBytes i) i.sig

/-- n bytes of the blob's record as a number (R409). -/
def blobField (i : FlashImage) (off n : Nat) : Nat := leNat (Memory.getAll i.blob off n)

/-- Whether the blob's signature verifies (R404, R406). -/
def blobGenuine (i : FlashImage) : Bool := verifies i.key (blobBytes i) i.blobSig

/-- The fields of the blob (R409). -/
def blobCfgver (i : FlashImage) : Nat := blobField i 6 2
def blobSerial (i : FlashImage) : Nat := blobField i 8 8
def blobPlimit (i : FlashImage) : Nat := blobField i 16 4
def blobInlet (i : FlashImage) : Nat := blobField i 20 4

/-- The entries of the repair list; one of zero is unused (R409). Log 8 (DESIGN CHOICE). -/
def blobRepair (i : FlashImage) : List Nat :=
  ((List.range 192).map (fun n => blobField i (256 + 4 * n) 4)).filter (· != 0)

/-- An entry of the repair list that is in range (R409). -/
def repairSound (v : Nat) : Bool :=
  bitsAt v 11 21 == 0 && (if bitsAt v 10 1 = 0 then decide (bitsAt v 2 6 < 40) else bitsAt v 7 3 == 0)

/-- A blob that is not malformed: every field in its range, every reserved byte zero (R409). -/
def blobOk (i : FlashImage) : Bool :=
  blobField i 0 4 == 0x42464350 && blobField i 4 2 == 4096 && decide (800 ≤ blobPlimit i) && decide (blobPlimit i ≤ 2400) &&
  decide (200 ≤ blobInlet i) && decide (blobInlet i ≤ 400) && (blobRepair i).all repairSound &&
  i.blob.all (fun c => c.2 == 0 || decide (c.1 < 24) || (decide (256 ≤ c.1) && decide (c.1 < 1024)))

/-- The core or LLC slice that a repair entry names (R409). -/
def repairPart (v : Nat) : ModulePart :=
  if bitsAt v 10 1 = 0 then .core (160 * (v % 4) + 4 * bitsAt v 2 6 + bitsAt v 8 2) else .slice (32 * (v % 4) + bitsAt v 2 5)

/-- The image that the boot ROM tries first, and the one in the alternate bank: once another has been written, the previous image
(R408). Log 93 (DEDUCED). -/
def Flash.banks (f : Flash) : FlashImage × FlashImage :=
  match f.pending with
  | some i => (i, if genuine f.image then f.image else f.alternate)
  | none => (f.image, f.alternate)

/-- Step 1: the firmware that the boot ROM accepts, with the primary's failure code, or the code of the failure (R404, R405,
R408). -/
def Flash.firmware (f : Flash) : (FlashImage × Nat) ⊕ Nat :=
  let pick := if genuine f.banks.1 then some (f.banks.1, 0) else if genuine f.banks.2 then some (f.banks.2, 1) else none
  match pick with
  | none => .inr 1
  | some (i, err) => if i.version.toNat < f.minver.toNat then .inr 2 else .inl (i, err)

/-- Steps 1 and 2: the image that runs with an accepted blob, or the code of the failure (R407, R409). Log 93 (DEDUCED). -/
def Flash.bootImage (f : Flash) : (FlashImage × Nat) ⊕ Nat :=
  match f.firmware with
  | .inr code => .inr code
  | .inl (i, err) => if ¬ blobGenuine i then .inr 3 else if ¬ blobOk i then .inr 4 else .inl (i, err)

/-- The flash after step 1: what was written stands in its bank, and MINVER has risen where the accepted image asks for it (R405,
R408). Log 93 (DEDUCED). -/
def Flash.booted (f : Flash) : Flash :=
  let g : Flash := { f with image := f.banks.1, alternate := f.banks.2, pending := none }
  match f.firmware with
  | .inl (i, _) => { g with running := i, minver := if i.advance ∧ f.minver.toNat < i.version.toNat then i.version else f.minver }
  | .inr _ => g

/-- The state in which every bring-up begins: nothing but flash and host memory survives. -/
def State.cold (s : State) : State := { s.off with powered := true, cfg := [], flash := s.flash.booted }

/-- BOOTSTAT's version fields: of the firmware that runs, and of the blob that was accepted (R407). -/
def fwver (i : FlashImage) : Nat := i.version.toNat * 2 ^ 48
def cfgver (i : FlashImage) : Nat := blobCfgver i * 2 ^ 32

/-- Recovery: BOOTSTAT shows the failure, the last completed step and the versions (R407). -/
def State.recovery (s : State) (code stage versions : Nat) : State :=
  s.setReg .bootstat (BitVec.ofNat 64 (versions + code * 2 ^ 8 + 2 ^ 7 + stage))

/-- The cores among some parts. -/
def coresOf (ps : List ModulePart) : List Nat :=
  ps.filterMap (fun p =>
    match p with
    | .core n => some n
    | _ => none)

/-- Whether both HBM stacks of some compute die are among the failed parts (R407). -/
def dieWithoutStack (failed : List ModulePart) : Bool :=
  (List.range Config.dies).any (fun d => failed.contains (.stack (2 * d)) && failed.contains (.stack (2 * d + 1)))

/-- Step 3 on (R406): parts that fail, or that the repair list names, are fenced; a die without a working HBM stack, or a failed I/O
die 0, leads to recovery (R407). Log 81 (DESIGN CHOICE). -/
def State.train (s : State) (i : FlashImage) (err : Nat) (failed : List ModulePart) : State :=
  if failed.contains .ioDie0 then s.recovery 6 2 (fwver i + cfgver i)
  else if dieWithoutStack failed then s.recovery 5 2 (fwver i + cfgver i)
  else
    let bad := (blobRepair i).map repairPart ++ failed
    let s := ((coresOf bad).filter (fun n => decide (n < Config.cores))).foldl (fun s c => s.setRegField (.csight c) 2 1 1) s
    ({ s with fenced := bad.filter (fun p => (coresOf [p]).isEmpty) } : State).setReg .bootstat
      (BitVec.ofNat 64 (fwver i + cfgver i + err * 2 ^ 8 + 6))

/-- The bring-up sequence (R406). -/
def State.bringUp (s : State) (failed : List ModulePart) : State :=
  match s.flash.bootImage, s.flash.firmware with
  | .inl (i, err), _ => s.cold.train i err failed
  | .inr code, .inl (i, _) => s.cold.recovery code 1 (fwver i)
  | .inr code, .inr _ => s.cold.recovery code 0 0

/-- POWER_ON (R406). -/
def execPowerOn (failed : List ModulePart) (s : State) : Out := .next (s.bringUp failed)
/-- FUNDAMENTAL_RESET (R406). -/
def execFundamentalReset (failed : List ModulePart) (s : State) : Out := .next (if s.powered then s.bringUp failed else s)

/-! ### The mailbox -/

/-- FLASH_IMAGE_WRITE (R408): the new image takes effect at the next reset. -/
def execFlashImageWrite (img : FlashImage) (s : State) : Out :=
  .next (if s.powered then { s with flash := { s.flash with pending := some img } } else s)

/-- The attestation report from its lowest byte, without its signature (R410). -/
def State.reportBytes (s : State) (nonce : List Byte) : List Byte :=
  let i := s.flash.running
  leBytes 8 (blobSerial i) ++ leBytes 16 Config.deviceHash.toNat ++ leBytes 64 (Keccak.shake256 (signedBytes i)).toNat ++
  leBytes 64 (Keccak.shake256 (blobBytes i)).toNat ++ (nonce ++ leBytes 32 0).take 32 ++ leBytes 8 (s.time % 2 ^ 48)

/-- The report and its signature under the identity key, of 1,462 bytes (R404, R410). Log 8 (DESIGN CHOICE). -/
def State.report (s : State) (nonce : List Byte) : List Byte :=
  let bs := s.reportBytes nonce
  bs ++ (List.range 1462).map (fun n => Config.falconByte s.flash.sealedKey (Keccak.shake256 bs) (s.fresh + n))

/-- ATTESTATION_REQUEST (R410): the running firmware answers. -/
def execAttestationRequest (nonce : List Byte) (s : State) : Out :=
  .next (if s.isUp then { s with flash := { s.flash with report := s.report nonce }, fresh := s.fresh + 1462 } else s)

/-! ### Link errors (R383) -/

/-- LINK_ERROR (R383): a port goes down, with its record; 16 failed retries on the mesh poison the carried data. There are 18 Exvor
ports (R13). Log 82 (DEDUCED), 83 (DEDUCED). -/
def execLinkError (kind : LinkKind) (port : Nat) (s : State) : Out :=
  match kind with
  | .pcie => .next (State.physRecord { s with down := 0 :: s.down.filter (· != 0) } { kind := 0x26, sub := 1, detail := port } false)
  | .exvor =>
    .next (if Config.exvorPorts ≤ port then s
      else State.physRecord { s with down := (1 + port) :: s.down.filter (· != 1 + port) } { kind := 0x26, sub := 2, detail := port } false)
  | .mesh key =>
    let k := key / codeWord key * codeWord key
    .next (State.physRecord { s with poison := k :: s.poison.filter (· != k) }
      { kind := 0x26, sub := 3, detail := port, addr := if k < 2 ^ 58 then k % 2 ^ 52 else 0 } false)

end Sys2Proof.Machine
end

