-- ==== Sys2Proof/Machine/Background.lean ====
section
/-!
DEFINITION. What the machine's own units do when no split can issue and nothing has been chosen, and the placing of one
instruction for the next step.
-/
namespace Sys2Proof.Machine

/-- The first operation in flight of every resident watch. -/
def State.flightEvents (s : State) : List (State → Out) :=
  s.watches.filterMap (fun w => w.flights.head?.map (fun f =>
    if f.inUnit then execUnitOperationComplete w.ref f.id else execPendingValueArrival w.ref f.id))

/-- The commands of the engines, and those at accumulator ports, with all their work. -/
def State.commandEvents (s : State) : List (State → Out) :=
  s.cmds.flatMap (fun c => [execEngineDelivery c.id c.total [], execEngineCommandComplete c.id]) ++
    s.mats.flatMap (fun c => if c.isProduct then [] else [execEngineDelivery c.id c.total [], execEngineCommandComplete c.id])

/-- Running passes, and grants of the arrays that products address. -/
def State.passEvents (s : State) : List (State → Out) :=
  s.mats.flatMap (fun c => c.running.map (fun r => execPassEnd r.array) ++ [execPassGrant c.core, execPassGrant (c.core ^^^ 1)])

/-- For each die, the placing of the next gang on the first cluster that can take it (R310). -/
def State.placeEvents (s : State) : List (State → Out) :=
  (List.range Config.dies).filterMap (fun d => (s.nextCand d).bind (fun c =>
    ((List.range Config.clustersPerDie).findSome? (fun k => s.clusterFor c [] (Config.clustersPerDie * d + k))).map execGangPlace))

/-- Caddy grants, signals, invalidations, and the queues that have been notified. -/
def State.serviceEvents (s : State) : List (State → Out) :=
  s.caddyQ.map (fun q => execCaddyGrant q.core q.pool) ++ s.signals.map (fun x => execSignalAtomicCompletion x.id true) ++
    s.invals.map (fun x => execInvalidationComplete x.1) ++ s.served.map (fun x => execQueueReread x.queue) ++
    (if s.served.isEmpty && s.cps.all (fun p => p.held.isNone) then [] else [0, 1]).flatMap (fun (p : Nat) =>
      [execNopPacket p, execLaunchPacket p, execInsertPacket p, execReleasePacket p, execQueueServe p])

/-- What the machine's units may do of themselves, in the order in which the model's fixed policy tries it. The policy stands
for no rule: any order is one that `sched` can name. Log 7 (DESIGN CHOICE). -/
def State.ownEvents (s : State) : List (State → Out) :=
  s.flightEvents ++ s.commandEvents ++ s.passEvents ++ s.serviceEvents ++ s.placeEvents

/-- Whether an event, as its meaning, changes anything. -/
def State.movedBy (s : State) (f : State → Out) : Bool :=
  match f s with
  | .next t => ({ t with time := 0 } : State) != { s with time := 0 }
  | _ => false

/-- Nothing is chosen and nothing can issue: the first of the machine's own events that changes anything happens.
Log 7 (DESIGN CHOICE). -/
def State.background (s : State) : Out :=
  match s.ownEvents.find? s.movedBy with
  | some f => f s
  | none => .next s

/-- The watch that stands for a loaded program when none is resident: domain 0, core 0, slot 0, 64 lanes (log entry 9).
Log 9 (DESIGN CHOICE). -/
def bootWatch : Watch :=
  { Watch.empty with
    resident := true, feat := 0xFFFFFFFFFFFFFFFF#64, caddies := [{ id := 0, pool := 0, blks := [], slots := [] }],
    lanes := List.replicate 64 { Lane.empty with exited := false } }

/-- Map the page of the issuing split's PC to a device-physical page in which the words of one instruction stand, and let the
split issue next (log entry 9). Log 9 (DESIGN CHOICE). -/
def State.placeWord (s : State) (w : Nat) : State :=
  let c := if s.ctx.resident then s.ctx else bootWatch
  let c := { c with sp := { c.sp with wait := .none, stops := 0 } }
  let pc := c.sp.pc.toNat
  let key := s.regField (.dkey c.dom) 0 6
  let s := { s with
    ctx := c, sched := [], turns := [], preempts := [],
    keys := setAt s.keys key { state := .loaded, key := 0 },
    tlb := { unit := c.core, dom := c.dom, vpage := pc / 2 ^ 16, page := 0, r := true, w := true, host := false, hc := false } ::
      s.tlb,
    idt := { page := 0, frame := 0, outer := false, pin := false, moving := false, zp := false } ::
      s.idt.filter (fun e => e.page != 0),
    mem := Memory.putAll s.mem (devKey key (pc % 2 ^ 16)) (leBytes 16 w),
    poison := [] }
  (s.setRegField (.dkey c.dom) 8 1 1).setRegField (.ptroot c.dom) 0 1 1

end Sys2Proof.Machine
end

