-- ==== Sys2Proof/Machine/Dispatch.lean ====
section
/-!
DEFINITION. One arm for each constructor of Instr: a direct call of its meaning.
-/
namespace Sys2Proof.Machine

def exec (i : Instr) (s : State) : Host.Outcome State Fault Refusal :=
  match i with
  | .trap k code => Sys2Proof.Machine.execTrap k code s
  | .tret => Sys2Proof.Machine.execTret s
  | .tretNext => Sys2Proof.Machine.execTretNext s
  | .srd reg => Sys2Proof.Machine.execSrd reg s
  | .swr reg a => Sys2Proof.Machine.execSwr reg a s
  | .gate index => Sys2Proof.Machine.execGate index s
  | .gret n m => Sys2Proof.Machine.execGret n m s
  | .ctrrd n => Sys2Proof.Machine.execCtrrd n s
  | .sleep a => Sys2Proof.Machine.execSleep a s
  | .yieldb => Sys2Proof.Machine.execYieldb s
  | .yield => Sys2Proof.Machine.execYield s
  | .nop => Sys2Proof.Machine.execNop s
  | .cgrowWait a => Sys2Proof.Machine.execCgrowWait a s
  | .cgrowTry a => Sys2Proof.Machine.execCgrowTry a s
  | .cshrink a => Sys2Proof.Machine.execCshrink a s
  | .featq implemented => Sys2Proof.Machine.execFeatq implemented s
  | .br disp => Sys2Proof.Machine.execBr disp s
  | .bany k disp => Sys2Proof.Machine.execBany k disp s
  | .ball k disp => Sys2Proof.Machine.execBall k disp s
  | .bnone k disp => Sys2Proof.Machine.execBnone k disp s
  | .ifRegion k disp => Sys2Proof.Machine.execIfRegion k disp s
  | .ifs k disp => Sys2Proof.Machine.execIfs k disp s
  | .elseArm disp => Sys2Proof.Machine.execElseArm disp s
  | .rejoin entry => Sys2Proof.Machine.execRejoin entry s
  | .loop n disp x => Sys2Proof.Machine.execLoop n disp x s
  | .endloop k disp entry => Sys2Proof.Machine.execEndloop k disp entry s
  | .brk k entry => Sys2Proof.Machine.execBrk k entry s
  | .cont k entry => Sys2Proof.Machine.execCont k entry s
  | .call n disp m b => Sys2Proof.Machine.execCall n disp m b s
  | .calli n age m b => Sys2Proof.Machine.execCalli n age m b s
  | .ret n m => Sys2Proof.Machine.execRet n m s
  | .exit k => Sys2Proof.Machine.execExit k s
  | .sadd f => Sys2Proof.Machine.execSadd f s
  | .ssub f => Sys2Proof.Machine.execSsub f s
  | .smul f => Sys2Proof.Machine.execSmul f s
  | .smulh f => Sys2Proof.Machine.execSmulh f s
  | .sand f => Sys2Proof.Machine.execSand f s
  | .sor f => Sys2Proof.Machine.execSor f s
  | .sxor f => Sys2Proof.Machine.execSxor f s
  | .snot f => Sys2Proof.Machine.execSnot f s
  | .sshl f => Sys2Proof.Machine.execSshl f s
  | .sshr f => Sys2Proof.Machine.execSshr f s
  | .ssar f => Sys2Proof.Machine.execSsar f s
  | .smin f => Sys2Proof.Machine.execSmin f s
  | .smax f => Sys2Proof.Machine.execSmax f s
  | .snmin f => Sys2Proof.Machine.execSnmin f s
  | .snmax f => Sys2Proof.Machine.execSnmax f s
  | .scmp cond f => Sys2Proof.Machine.execScmp cond f s
  | .ssel f => Sys2Proof.Machine.execSsel f s
  | .sldi v => Sys2Proof.Machine.execSldi v s
  | .sldiHi a v => Sys2Proof.Machine.execSldiHi a v s
  | .ldil lit => Sys2Proof.Machine.execLdil lit s
  | .slane f => Sys2Proof.Machine.execSlane f s
  | .spick f => Sys2Proof.Machine.execSpick f s
  | .iadd f => Sys2Proof.Machine.execIadd f s
  | .isub f => Sys2Proof.Machine.execIsub f s
  | .iadc f => Sys2Proof.Machine.execIadc f s
  | .isbb f => Sys2Proof.Machine.execIsbb f s
  | .imul f => Sys2Proof.Machine.execImul f s
  | .imulh f => Sys2Proof.Machine.execImulh f s
  | .imad f => Sys2Proof.Machine.execImad f s
  | .ineg f => Sys2Proof.Machine.execIneg f s
  | .iabs f => Sys2Proof.Machine.execIabs f s
  | .imin f => Sys2Proof.Machine.execImin f s
  | .imax f => Sys2Proof.Machine.execImax f s
  | .nmin f => Sys2Proof.Machine.execNmin f s
  | .nmax f => Sys2Proof.Machine.execNmax f s
  | .andv f => Sys2Proof.Machine.execAndv f s
  | .orv f => Sys2Proof.Machine.execOrv f s
  | .xorv f => Sys2Proof.Machine.execXorv f s
  | .notv f => Sys2Proof.Machine.execNotv f s
  | .andnv f => Sys2Proof.Machine.execAndnv f s
  | .shl f => Sys2Proof.Machine.execShl f s
  | .shr f => Sys2Proof.Machine.execShr f s
  | .sar f => Sys2Proof.Machine.execSar f s
  | .rot f => Sys2Proof.Machine.execRot f s
  | .bfx f => Sys2Proof.Machine.execBfx f s
  | .bfi f => Sys2Proof.Machine.execBfi f s
  | .popc f => Sys2Proof.Machine.execPopc f s
  | .clz f => Sys2Proof.Machine.execClz f s
  | .brev f => Sys2Proof.Machine.execBrev f s
  | .icmp cond f => Sys2Proof.Machine.execIcmp cond f s
  | .sel f => Sys2Proof.Machine.execSel f s
  | .pick f => Sys2Proof.Machine.execPick f s
  | .ldi f => Sys2Proof.Machine.execLdi f s
  | .ldiHi f => Sys2Proof.Machine.execLdiHi f s
  | .stash f => Sys2Proof.Machine.execStash f s
  | .unstash f => Sys2Proof.Machine.execUnstash f s
  | .kand d a b => Sys2Proof.Machine.execKand d a b s
  | .kor d a b => Sys2Proof.Machine.execKor d a b s
  | .kxor d a b => Sys2Proof.Machine.execKxor d a b s
  | .kandn d a b => Sys2Proof.Machine.execKandn d a b s
  | .knot d a => Sys2Proof.Machine.execKnot d a s
  | .kmov d a => Sys2Proof.Machine.execKmov d a s
  | .kset d a => Sys2Proof.Machine.execKset d a s
  | .kpop a => Sys2Proof.Machine.execKpop a s
  | .kfirst a => Sys2Proof.Machine.execKfirst a s
  | .fadd f => Sys2Proof.Machine.execFadd f s
  | .fsub f => Sys2Proof.Machine.execFsub f s
  | .fmul f => Sys2Proof.Machine.execFmul f s
  | .ffma f => Sys2Proof.Machine.execFfma f s
  | .ffms f => Sys2Proof.Machine.execFfms f s
  | .fmin f => Sys2Proof.Machine.execFmin f s
  | .fmax f => Sys2Proof.Machine.execFmax f s
  | .fcmp cond f => Sys2Proof.Machine.execFcmp cond f s
  | .fclass f => Sys2Proof.Machine.execFclass f s
  | .frnd f => Sys2Proof.Machine.execFrnd f s
  | .fdiv f => Sys2Proof.Machine.execFdiv f s
  | .frcp f => Sys2Proof.Machine.execFrcp f s
  | .frsq f => Sys2Proof.Machine.execFrsq f s
  | .fsqrt f => Sys2Proof.Machine.execFsqrt f s
  | .fexp2 f => Sys2Proof.Machine.execFexp2 f s
  | .flog2 f => Sys2Proof.Machine.execFlog2 f s
  | .fsin f => Sys2Proof.Machine.execFsin f s
  | .fcos f => Sys2Proof.Machine.execFcos f s
  | .ftanh f => Sys2Proof.Machine.execFtanh f s
  | .fcvt f => Sys2Proof.Machine.execFcvt f s
  | .icvt f => Sys2Proof.Machine.execIcvt f s
  | .ficvt f => Sys2Proof.Machine.execFicvt f s
  | .hadd2 f => Sys2Proof.Machine.execHadd2 f s
  | .hmul2 f => Sys2Proof.Machine.execHmul2 f s
  | .hfma2 f => Sys2Proof.Machine.execHfma2 f s
  | .sfadd f => Sys2Proof.Machine.execSfadd f s
  | .sfmul f => Sys2Proof.Machine.execSfmul f s
  | .sffma f => Sys2Proof.Machine.execSffma f s
  | .sfcmp f => Sys2Proof.Machine.execSfcmp f s
  | .dot4 f => Sys2Proof.Machine.execDot4 f s
  | .dot8 f => Sys2Proof.Machine.execDot8 f s
  | .fdot4 f => Sys2Proof.Machine.execFdot4 f s
  | .fdot8 f => Sys2Proof.Machine.execFdot8 f s
  | .mac2 f => Sys2Proof.Machine.execMac2 f s
  | .pack f => Sys2Proof.Machine.execPack f s
  | .unpk f => Sys2Proof.Machine.execUnpk f s
  | .shrr f => Sys2Proof.Machine.execShrr f s
  | .fscl f => Sys2Proof.Machine.execFscl f s
  | .satclr k => Sys2Proof.Machine.execSatclr k s
  | .shfl f => Sys2Proof.Machine.execShfl f s
  | .shflx f => Sys2Proof.Machine.execShflx f s
  | .slide f => Sys2Proof.Machine.execSlide f s
  | .bcastl f => Sys2Proof.Machine.execBcastl f s
  | .red op f => Sys2Proof.Machine.execRed op f s
  | .scan op f => Sys2Proof.Machine.execScan op f s
  | .kbal f => Sys2Proof.Machine.execKbal f s
  | .bset f => Sys2Proof.Machine.execBset f s
  | .bzero f => Sys2Proof.Machine.execBzero f s
  | .bget f => Sys2Proof.Machine.execBget f s
  | .bdir f => Sys2Proof.Machine.execBdir f s
  | .bnorm f => Sys2Proof.Machine.execBnorm f s
  | .btest f => Sys2Proof.Machine.execBtest f s
  | .bscl f => Sys2Proof.Machine.execBscl f s
  | .bneg f => Sys2Proof.Machine.execBneg f s
  | .bmov f => Sys2Proof.Machine.execBmov f s
  | .bdot f => Sys2Proof.Machine.execBdot f s
  | .badd f => Sys2Proof.Machine.execBadd f s
  | .bmix f => Sys2Proof.Machine.execBmix f s
  | .bmatch f => Sys2Proof.Machine.execBmatch f s
  | .bld r m => Sys2Proof.Machine.execBld r m s
  | .bst r m => Sys2Proof.Machine.execBst r m s
  | .ld m => Sys2Proof.Machine.execLd m s
  | .st m => Sys2Proof.Machine.execSt m s
  | .lds m => Sys2Proof.Machine.execLds m s
  | .sts m => Sys2Proof.Machine.execSts m s
  | .ldu m => Sys2Proof.Machine.execLdu m s
  | .stu m => Sys2Proof.Machine.execStu m s
  | .ldw m => Sys2Proof.Machine.execLdw m s
  | .stw m => Sys2Proof.Machine.execStw m s
  | .lea m => Sys2Proof.Machine.execLea m s
  | .pref m => Sys2Proof.Machine.execPref m s
  | .cwb m => Sys2Proof.Machine.execCwb m s
  | .cinv m => Sys2Proof.Machine.execCinv m s
  | .atomAdd m => Sys2Proof.Machine.execAtomAdd m s
  | .atomAnd m => Sys2Proof.Machine.execAtomAnd m s
  | .atomOr m => Sys2Proof.Machine.execAtomOr m s
  | .atomXor m => Sys2Proof.Machine.execAtomXor m s
  | .atomMin m => Sys2Proof.Machine.execAtomMin m s
  | .atomMax m => Sys2Proof.Machine.execAtomMax m s
  | .atomNmin m => Sys2Proof.Machine.execAtomNmin m s
  | .atomNmax m => Sys2Proof.Machine.execAtomNmax m s
  | .atomXchg m => Sys2Proof.Machine.execAtomXchg m s
  | .acas m => Sys2Proof.Machine.execAcas m s
  | .afadd m => Sys2Proof.Machine.execAfadd m s
  | .axadd m => Sys2Proof.Machine.execAxadd m s
  | .lres m => Sys2Proof.Machine.execLres m s
  | .scnd m => Sys2Proof.Machine.execScnd m s
  | .fence ord scope => Sys2Proof.Machine.execFence ord scope s
  | .fencex scope x y => Sys2Proof.Machine.execFencex scope x y s
  | .barrierBlock => Sys2Proof.Machine.execBarrierBlock s
  | .barrierGang => Sys2Proof.Machine.execBarrierGang s
  | .binit e => Sys2Proof.Machine.execBinit e s
  | .barm e => Sys2Proof.Machine.execBarm e s
  | .barrive e => Sys2Proof.Machine.execBarrive e s
  | .waitb e => Sys2Proof.Machine.execWaitb e s
  | .testb e => Sys2Proof.Machine.execTestb e s
  | .waitcLd limit => Sys2Proof.Machine.execWaitcLd limit s
  | .waitcEng acq limit => Sys2Proof.Machine.execWaitcEng acq limit s
  | .shld e => Sys2Proof.Machine.execShld e s
  | .shst e => Sys2Proof.Machine.execShst e s
  | .shset e => Sys2Proof.Machine.execShset e s
  | .cpy e => Sys2Proof.Machine.execCpy e s
  | .cpys e => Sys2Proof.Machine.execCpys e s
  | .cpyp e => Sys2Proof.Machine.execCpyp e s
  | .gthr e => Sys2Proof.Machine.execGthr e s
  | .scat e => Sys2Proof.Machine.execScat e s
  | .collRed e => Sys2Proof.Machine.execCollRed e s
  | .collBcast e => Sys2Proof.Machine.execCollBcast e s
  | .collGath e => Sys2Proof.Machine.execCollGath e s
  | .collAllred e => Sys2Proof.Machine.execCollAllred e s
  | .mma e => Sys2Proof.Machine.execMma e s
  | .mmap e => Sys2Proof.Machine.execMmap e s
  | .mmas e => Sys2Proof.Machine.execMmas e s
  | .mmasp e => Sys2Proof.Machine.execMmasp e s
  | .accinit e => Sys2Proof.Machine.execAccinit e s
  | .anchor e => Sys2Proof.Machine.execAnchor e s
  | .accrd e => Sys2Proof.Machine.execAccrd e s
  | .accrdw e => Sys2Proof.Machine.execAccrdw e s
  | .accadd e => Sys2Proof.Machine.execAccadd e s
  | .accstat e => Sys2Proof.Machine.execAccstat e s
  | .node a => Sys2Proof.Machine.execNode a s
  | .ndep a n => Sys2Proof.Machine.execNdep a n s
  | .nrel a n => Sys2Proof.Machine.execNrel a n s
  | .fork a k => Sys2Proof.Machine.execFork a k s
  | .join => Sys2Proof.Machine.execJoin s
  | .arm a => Sys2Proof.Machine.execArm a s
  | .disarm a => Sys2Proof.Machine.execDisarm a s
  | .launchq a => Sys2Proof.Machine.execLaunchq a s
  | .illegalMajor word => Sys2Proof.Machine.execIllegalMajor word s
  | .instructionFetchFault addr kind => Sys2Proof.Machine.execInstructionFetchFault addr kind s
  | .sleepEnd w split => Sys2Proof.Machine.execSleepEnd w split s
  | .caddyGrant core pool => Sys2Proof.Machine.execCaddyGrant core pool s
  | .unitOperationComplete w id => Sys2Proof.Machine.execUnitOperationComplete w id s
  | .pendingValueArrival w id => Sys2Proof.Machine.execPendingValueArrival w id s
  | .pageTableWalk tu dom vpage replaced => Sys2Proof.Machine.execPageTableWalk tu dom vpage replaced s
  | .engineDelivery id count pieces => Sys2Proof.Machine.execEngineDelivery id count pieces s
  | .engineCommandComplete id => Sys2Proof.Machine.execEngineCommandComplete id s
  | .collAbort id mismatch => Sys2Proof.Machine.execCollAbort id mismatch s
  | .passGrant array => Sys2Proof.Machine.execPassGrant array s
  | .pairedHold id => Sys2Proof.Machine.execPairedHold id s
  | .passEnd array => Sys2Proof.Machine.execPassEnd array s
  | .gangPlace cores => Sys2Proof.Machine.execGangPlace cores s
  | .gangEnd launch gang => Sys2Proof.Machine.execGangEnd launch gang s
  | .pilotDieLoss die => Sys2Proof.Machine.execPilotDieLoss die s
  | .fairnessSwitch w split => Sys2Proof.Machine.execFairnessSwitch w split s
  | .reservationDeferEnd w split => Sys2Proof.Machine.execReservationDeferEnd w split s
  | .preqWithdraw core dom => Sys2Proof.Machine.execPreqWithdraw core dom s
  | .preqSoft core dom => Sys2Proof.Machine.execPreqSoft core dom s
  | .preqHard core dom => Sys2Proof.Machine.execPreqHard core dom s
  | .graceExpiry core => Sys2Proof.Machine.execGraceExpiry core s
  | .killTimerExpiry core => Sys2Proof.Machine.execKillTimerExpiry core s
  | .responseWindowExpiry core dom => Sys2Proof.Machine.execResponseWindowExpiry core dom s
  | .responseTimeout w id => Sys2Proof.Machine.execResponseTimeout w id s
  | .sliceEnd core overrun => Sys2Proof.Machine.execSliceEnd core overrun s
  | .lendReclaim core => Sys2Proof.Machine.execLendReclaim core s
  | .sightDrain die => Sys2Proof.Machine.execSightDrain die s
  | .sightPassEnd die passed => Sys2Proof.Machine.execSightPassEnd die passed s
  | .queueNotify queue => Sys2Proof.Machine.execQueueNotify queue s
  | .queueServe iodie => Sys2Proof.Machine.execQueueServe iodie s
  | .queueReread queue => Sys2Proof.Machine.execQueueReread queue s
  | .nopPacket iodie => Sys2Proof.Machine.execNopPacket iodie s
  | .launchPacket iodie => Sys2Proof.Machine.execLaunchPacket iodie s
  | .insertPacket iodie => Sys2Proof.Machine.execInsertPacket iodie s
  | .releasePacket iodie => Sys2Proof.Machine.execReleasePacket iodie s
  | .hostAccess dom own write addr data => Sys2Proof.Machine.execHostAccess dom own write addr data s
  | .fabricMemoryAccess dom node peer op addr data => Sys2Proof.Machine.execFabricMemoryAccess dom node peer op addr data s
  | .taggedMessage dom node peer tag data => Sys2Proof.Machine.execTaggedMessage dom node peer tag data s
  | .pageRequestRetry dom vpage => Sys2Proof.Machine.execPageRequestRetry dom vpage s
  | .prqResponse dom tag => Sys2Proof.Machine.execPrqResponse dom tag s
  | .prqDecline dom tag => Sys2Proof.Machine.execPrqDecline dom tag s
  | .invalidatePage dom => Sys2Proof.Machine.execInvalidatePage dom s
  | .invalidateRange dom count => Sys2Proof.Machine.execInvalidateRange dom count s
  | .invalidateAll dom => Sys2Proof.Machine.execInvalidateAll dom s
  | .invalidationComplete dom => Sys2Proof.Machine.execInvalidationComplete dom s
  | .idtMap outer page frame => Sys2Proof.Machine.execIdtMap outer page frame s
  | .idtUnmap page => Sys2Proof.Machine.execIdtUnmap page s
  | .idtSetpin page => Sys2Proof.Machine.execIdtSetpin page s
  | .idtClrpin page => Sys2Proof.Machine.execIdtClrpin page s
  | .trackingPeriodEnd die presented => Sys2Proof.Machine.execTrackingPeriodEnd die presented s
  | .pageMove page outer frame => Sys2Proof.Machine.execPageMove page outer frame s
  | .zpBackgroundClear page => Sys2Proof.Machine.execZpBackgroundClear page s
  | .keyLoad slot => Sys2Proof.Machine.execKeyLoad slot s
  | .keyRetire slot => Sys2Proof.Machine.execKeyRetire slot s
  | .vfReset dom => Sys2Proof.Machine.execVfReset dom s
  | .functionLevelReset dom => Sys2Proof.Machine.execFunctionLevelReset dom s
  | .vfEnable dom => Sys2Proof.Machine.execVfEnable dom s
  | .queueEnable queue => Sys2Proof.Machine.execQueueEnable queue s
  | .quotaWrite kind core dom v => Sys2Proof.Machine.execQuotaWrite kind core dom v s
  | .partWrite dom v => Sys2Proof.Machine.execPartWrite dom v s
  | .qrangeWrite dom v => Sys2Proof.Machine.execQrangeWrite dom v s
  | .ctrownWrite core v => Sys2Proof.Machine.execCtrownWrite core v s
  | .ctrcfgClear core n => Sys2Proof.Machine.execCtrcfgClear core n s
  | .rsvctlWrite die dom n v => Sys2Proof.Machine.execRsvctlWrite die dom n v s
  | .lendConfigWrite core slots v => Sys2Proof.Machine.execLendConfigWrite core slots v s
  | .eqringWrite dom v => Sys2Proof.Machine.execEqringWrite dom v s
  | .registerWrite target v => Sys2Proof.Machine.execRegisterWrite target v s
  | .powerInterval => Sys2Proof.Machine.execPowerInterval s
  | .clockStepDown => Sys2Proof.Machine.execClockStepDown s
  | .clockStepUp => Sys2Proof.Machine.execClockStepUp s
  | .thermalThrottle die => Sys2Proof.Machine.execThermalThrottle die s
  | .thermalShutdown die => Sys2Proof.Machine.execThermalShutdown die s
  | .undervoltage => Sys2Proof.Machine.execUndervoltage s
  | .powerOn failed => Sys2Proof.Machine.execPowerOn failed s
  | .fundamentalReset failed => Sys2Proof.Machine.execFundamentalReset failed s
  | .linkError kind port => Sys2Proof.Machine.execLinkError kind port s
  | .attestationRequest nonce => Sys2Proof.Machine.execAttestationRequest nonce s
  | .flashImageWrite img => Sys2Proof.Machine.execFlashImageWrite img s
  | .prqheadWrite dom v => Sys2Proof.Machine.execPrqheadWrite dom v s
  | .msgheadWrite dom v => Sys2Proof.Machine.execMsgheadWrite dom v s
  | .signalAtomicCompletion id swapped => Sys2Proof.Machine.execSignalAtomicCompletion id swapped s

end Sys2Proof.Machine
end

