-- ==== Sys2Proof/Machine/Cycle.lean ====
section
/-!
DEFINITION. The issue of the instruction at a split's PC, the issue of two ports of a core in one cycle (R59, R115), which splits
are ready (R65), and what happens in one step.
-/
namespace Sys2Proof.Machine

/-- The split in focus issues the instruction at its PC (R43, R55, R396). -/
def issue (s : State) : Host.Outcome State Fault Refusal :=
  match s.fetch with
  | .ok i => mapOut (fun t => t.countIssue s.ctx (s.portAt s.ctx s.ctx.sp)) (exec i s)
  | .illField maj len => s.illField maj len
  | .none addr (.fault k) => exec (.instructionFetchFault addr k) s
  | .none addr x => .next (s.noWord addr x)

/-- An issue that performs at most n more events of a bearing record; any other instruction issues as ever (R223).
Log 119 (DESIGN CHOICE). -/
def issuePart (s : State) (n : Nat) : Host.Outcome State Fault Refusal :=
  mapOut (fun t => t.modSplit s.ctx.ref s.ctx.sp.id (fun p => { p with record := { p.record with goal := 0 } }))
    (issue (s.setRecord { s.ctx.sp.record with goal := n }))

/-- An event happens; what is no event does not. -/
def runEvent (i : Instr) (s : State) : Host.Outcome State Fault Refusal := if isEvent i then exec i s else .next s

/-- An event whose accesses stand in T, or take their places in O, as `m` says (R226, R242). -/
def runManner (m : Manner) (i : Instr) (s : State) : Host.Outcome State Fault Refusal :=
  mapOut (fun t => { t with manner := .now }) (runEvent i { s with manner := m })

/-! ### Readiness -/

/-- What a split that waits for nothing, or for a condition only, would still wait for if it issued now (R60 to R62, R65).
Log 34 (DEDUCED). -/
def State.blockedBy (s : State) (w : Watch) (p : Split) : Option Wait :=
  let u := s.focus w.ref p.id
  let u := if p.wait.retries then u.hold .none else u
  match issue u with
  | .next t => if t.stalled w.ref p.id ∧ t.ctx.sp.wait.retries then some t.ctx.sp.wait else none
  | _ => none

/-- A split whose sleep has come to its end at the device time waits for nothing (R351). -/
def Split.awake (p : Split) (now : Nat) : Split :=
  match p.wait with
  | .sleep t => if t ≤ now then { p with wait := .none } else p
  | _ => p

/-- A split at the end of a step: ready, since then or for longer, when its next instruction can issue; otherwise waiting (R65).
Log 34 (DEDUCED). -/
def State.renewSplit (s : State) (w : Watch) (p : Split) : Split :=
  let p := p.awake s.time
  if ¬ s.runs w p ∨ ¬ (p.free ∨ p.wait.retries) then { p with ready := false }
  else
    match s.blockedBy w p with
    | some x => { p with ready := false, wait := x }
    | none =>
      { p with ready := true, wait := if p.wait.retries then .none else p.wait, since := if p.ready then p.since else s.time }

/-- Every split of every resident watch is looked at, once the sleeps that are over have ended. -/
def State.renew (s : State) : State :=
  let s := s.mapWatches (fun w => w.mapSplits (·.awake s.time))
  s.mapWatches (fun w => if w.resident then w.mapSplits (s.renewSplit w) else w)

/-! ### Several things in one cycle (R59, R115, R214, R309) -/

/-- Whether an issue of the split in focus has raised a trap: its frame is a new handler's, or its watch is gone (R320, R323). -/
def trapped (s : State) (o : Host.Outcome State Fault Refusal) : Bool :=
  match o with
  | .next t =>
    match t.watches.find? (fun w => w.resident && decide (w.ref = s.ctx.ref)) with
    | none => true
    | some w => (w.splits.filter (fun p => p.id == s.ctx.sp.id)).any (fun p =>
        decide (s.ctx.sp.frames.length < p.frames.length) && p.frames.head?.any (fun f => f.kind == .handler))
  | _ => false

/-- The instruction at the PC of the split in focus. -/
def State.atPc (s : State) : Option Instr :=
  match s.fetch with
  | .ok i => some i
  | _ => none

/-- Whether an instruction is RET. -/
def isRet (i : Instr) : Bool :=
  match i with
  | .ret _ _ => true
  | _ => false

/-- A later issue of a cycle, of a watch whose masks stood as `old` before it: it reads them so (R115). -/
def issueSecond (old : List Mask) (s : State) : Host.Outcome State Fault Refusal :=
  mapOut (fun t => t.masksAfter s.ctx.ref s.ctx.ks (s.atPc.bind maskResult) s.ctx.sp.frames.length (s.atPc.any isRet))
    (issue (s.masksBefore old))

/-- An issue in a cycle that began in the state `s0`. -/
def issueIn (s0 s : State) : Host.Outcome State Fault Refusal :=
  match s0.watches.find? (fun w => decide (w.ref = s.ctx.ref)) with
  | some w => if w.ks = s.ctx.ks then issue s else issueSecond w.ks s
  | none => issue s

/-- The state in which a cycle with several acts begins: the fairness rule has been applied to each port (R66). -/
def State.fairAll (s : State) (as : List Act) : State :=
  as.foldl (fun s a => match a with
    | .issue core port => s.fairness core port
    | .event _ => s) s

/-- What the ports that acts name grant at the start of a cycle, one split each (R59, R65). -/
def State.grants (s : State) (as : List Act) : List (WatchRef × Nat) :=
  as.filterMap (fun a => match a with
    | .issue core port => s.grant core port
    | .event _ => none)

/-- Whether the split that a port grants would trap. -/
def State.wouldTrap (s : State) (g : WatchRef × Nat) : Bool := trapped (s.focus g.1 g.2) (issue (s.focus g.1 g.2))

/-- Of two splits of a watch that trap in one cycle, the one with the higher index stops before its instruction (R352). -/
def State.yields (s : State) (as : List Act) (g : WatchRef × Nat) : Bool :=
  (s.grants as).any (fun h => decide (h.1 = g.1) && decide (h.2 < g.2) && s.wouldTrap h) && s.wouldTrap g

/-- One act of the cycle that began in the state `s0` with the acts `as`: a split that an earlier act has stopped does not issue. -/
def runAct (s0 : State) (as : List Act) (a : Act) (s : State) : Host.Outcome State Fault Refusal :=
  match a with
  | .event i => runEvent i s
  | .issue core port =>
    match (s0.grant core port).bind (fun g => if s0.yields as g then none else s.takeSplit core port g) with
    | some u => issueIn s0 u
    | none => .next s

/-- Acts one after the other, until one does not end in a next state. Log 7 (DESIGN CHOICE). -/
def runActs (s0 : State) (as : List Act) : List Act → State → Host.Outcome State Fault Refusal
  | [], s => .next s
  | a :: bs, s =>
    match runAct s0 as a s with
    | .next t => runActs s0 as bs t
    | x => x

/-- Whether a launch has completed: it runs no more (R314). -/
def State.hasEnded (s : State) (l : Launch) : Bool :=
  match s.launchOf l.id with
  | some x => decide (x.phase ≠ .ready ∧ x.phase ≠ .running)
  | none => true

/-- The launches of a state that acts end. -/
def State.ended (s : State) (as : List Act) : List Launch :=
  match runActs s as as s with
  | .next t => s.launches.filter (fun l => decide (l.phase = .running) && t.hasEnded l)
  | _ => []

/-- A launch's place among completions of one cycle: its node's index, or for an anonymous one a number beyond every index, in the order of
insertion (R309). -/
def Launch.place (l : Launch) : Nat := l.node.getD (2 ^ 24 + l.id)

/-- The completion that an act takes part in: one that does not come about without it. -/
def State.completing (s : State) (as : List Act) (a : Act) : Option Nat :=
  let without := s.ended (as.filter (fun b => decide (b ≠ a)))
  (((s.ended as).filter (fun l => without.all (fun x => x.id != l.id))).map Launch.place).min?

/-- The tag of a message that waits for room in a domain's ring and will fire (R317, R380). -/
def State.waitingTag (s : State) (dom : Nat) : Option Nat :=
  (s.waiting.find? (fun m => m.dom == dom && s.armed.any (fun a => a.dom == dom && a.tag == m.tag))).map (·.tag)

/-- An act's place in R309's order: completions by node, RELEASE packets by I/O die, tags by value, then issues by die, cluster, core and
port. Log 7 (DESIGN CHOICE). -/
def State.actRank (s : State) (as : List Act) (a : Act) : Nat × Nat :=
  match s.completing as a with
  | some n => (0, n)
  | none =>
    match a with
    | .event (.releasePacket d) => (1, d)
    | .event (.taggedMessage _ _ _ tag _) => (2, tag)
    | .event (.msgheadWrite dom _) =>
      match s.waitingTag dom with
      | some tag => (2, tag)
      | none => (4, 0)
    | .issue core port => (3, 4 * core + port)
    | .event _ => (4, 0)

/-- The acts in the order of issues, and then in R309's; those of equal rank stay so. -/
def State.inRank (s : State) (as : List Act) : List Act :=
  let sorted := fun (rank : Act → Nat × Nat) (l : List Act) =>
    (l.foldl (fun l a => insertBy (fun (x y : (Nat × Nat) × Act) =>
      decide (x.1.1 < y.1.1) || (x.1.1 == y.1.1 && decide (x.1.2 < y.1.2))) (rank a, a) l) []).map (·.2)
  let bs := sorted (fun a => match a with
    | .issue core port => (1, 4 * core + port)
    | .event _ => (0, 0)) as.eraseDups
  sorted (s.actRank bs) bs

/-- Several acts in one cycle: an event of the order of R309 each, or the issue of a port, each once (R59, R115, R214, R309).
Log 7 (DESIGN CHOICE). -/
def runCycle (as : List Act) (s : State) : Host.Outcome State Fault Refusal :=
  let s := s.fairAll as
  let bs := s.inRank as
  runActs s bs bs s

/-! ### Errors that checks find (R383) -/

/-- A parity error in an entry of a wake. -/
def VWake.upset (v : VWake) (pos : Nat) : VWake := { v with ring := modAt (fun e => if e.isVoid then e else .bad) v.ring pos }
def SWake.upset (v : SWake) (pos : Nat) : SWake := { v with ring := modAt (fun e => if e.isVoid then e else .bad) v.ring pos }

/-- Poison the code words of n bytes at a key. -/
def State.poisonBytes (s : State) (k n : Nat) : State :=
  let ks := (List.range (n / codeWord k)).map (fun i => k + codeWord k * i)
  { s with poison := ks ++ s.poison.filter (fun p => !ks.contains p) }

/-- What a check of R383 finds: a corrected error is recorded; the sector or row of an uncorrectable one is poisoned, and the entry of a
parity error is found bad when it is read. Log 90 (DEDUCED). -/
def State.upset (s : State) (u : Upset) : State :=
  match u with
  | .corrected hop syndrome key =>
    s.physRecord { kind := 0x20, sub := hop, detail := syndrome, addr := if key < 2 ^ 58 then key % 2 ^ 52 else 0 } false
  | .sector key => s.poisonBytes (key / 128 * 128) 128
  | .spadRow core row => s.poisonBytes (spadKey core (128 * row)) 128
  | .accRow core row =>
    { s with accPoison := (core * 256 + row) :: s.accPoison.filter (· != core * 256 + row) }
  | .vector r lane pos => s.modWatch r (fun w => w.mapLanes (fun l x => if l = lane then { x with wake := x.wake.upset pos } else x))
  | .scalar r split pos =>
    s.modWatch r (fun w => w.mapSplits (fun p => if p.id = split then { p with swake := p.swake.upset pos } else p))
  | .caddy r frame slot lane =>
    s.modWatch r (fun w => { w with caddies := w.caddies.map (fun f => if f.id = frame then { f with bad := f.bad ++ [(slot, lane)] } else f) })

/-! ### One cycle -/

/-- The state in which a step's choice is carried out: time has passed, and the rest is still to come. -/
def State.chose (s : State) (rest : List Pick) : State := { s.begin with sched := rest }

/-- What happens in a step: the next choice of `sched`: an event, an issue, both ports of a core, part of a record's transfer,
an access whose writes enter T late or whose counts take earlier places in O, the entry of a late write, bytes that a reader finds as
they stood, or no longer, a line fetched again, several things in one cycle, or an error that a check finds; with nothing chosen, a
split that can issue does, and else late writes enter T and the machine's own units go on. Log 7 (DESIGN CHOICE). -/
def proceed (s : State) : Host.Outcome State Fault Refusal :=
  match s.sched with
  | .event i :: rest => runEvent i (s.chose rest)
  | .issue core port :: rest =>
    match (s.chose rest).take core port with
    | some u => issue u
    | none => .next (s.chose rest)
  | .cycle core :: rest => runCycle [.issue core 0, .issue core 1] (s.chose rest)
  | .part core port n :: rest =>
    match (s.chose rest).take core port with
    | some u => issuePart u n
    | none => .next (s.chose rest)
  | .late i :: rest => runManner .late i (s.chose rest)
  | .early i :: rest => runManner .early i (s.chose rest)
  | .enter n :: rest => .next ((s.chose rest).enterSome (fun i _ => i == n))
  | .behind reader k n :: rest => .next (if reader = 0 then s.chose rest else (s.chose rest).keepBehind reader k n)
  | .forget n :: rest => .next ((s.chose rest).forgetByte n)
  | .refetch slot src sector :: rest => .next ((s.chose rest).fetchSector slot src sector)
  | .together as :: rest => runCycle as (s.chose rest)
  | .upset u :: rest => .next ((s.chose rest).upset u)
  | [] =>
    match s.begin.takeAny with
    | some u => issue u
    | none => s.begin.enterAll.background

end Sys2Proof.Machine
end

