-- ==== Sys2Proof/Machine/Step.lean ====
section
/-!
DEFINITION. One step of the machine, and the placing of one instruction where the next step fetches it.
-/
namespace Sys2Proof.Machine

/-- One step (R59, R65): time passes, what has been chosen happens, and it is seen which images it altered
(R348) and which splits are ready next.
Log 7 (DESIGN CHOICE). -/
def step (s : State) : Host.Outcome State Fault Refusal := mapOut (fun t => (s.noteAltered t).renew) (proceed s)

/-- `s` with an instruction's bits where the next step fetches (R43, R396). Log 9 (DESIGN CHOICE). -/
def State.withFetchWord (s : State) (_nbits w : Nat) : State := s.placeWord w

end Sys2Proof.Machine
end

