-- ==== Sys2Proof/Safety.lean ====
section
/-!
DEFINITION. Safe runs: the machine never stops. A step ends in a fault only when a fetched instruction's meaning is asked for
while no watch is resident, which no step does. And the conditions under which an instruction executes normally, in the terms of
R55: the words that claims use.
-/
namespace Sys2Proof.Machine

/-- A state whose next step is a state. -/
def State.goesOn (s : State) : Prop := ∃ t, step s = .next t

/-- A state from which n steps are taken without a fault or a refusal. -/
def State.goesOnFor : Nat → State → Prop
  | 0, _ => True
  | n + 1, s => ∃ t, step s = .next t ∧ t.goesOnFor n

/-- A watch issues whose domain has the feature group of the instruction, if it lies in one (R55 check 2, R333). -/
def State.admits (s : State) (group : Option Nat) : Prop :=
  s.ctx.resident = true ∧ ∀ g, group = some g → s.ctx.feat.getLsbD g = true

/-- Every source of a vector instruction can be read in every lane of its mask: inside the caddy frame, not void, not in flight,
its parity good (R55 checks 5 and 6, R60, R383). Under an empty mask nothing is read. -/
def Watch.vecReads (w : Watch) (m : Mask) (srcs : List Src) : Prop :=
  m = 0 ∨ ∀ x ∈ srcs, x.beyond w = false ∧ x.voidIn w m = 0 ∧ x.badIn w m = 0 ∧ x.pendIn w m = 0

/-- Every scalar source can be read: not void, not in flight, its parity good (R35, R60, R383). -/
def Watch.uniReads (w : Watch) (srcs : List Src) : Prop :=
  ∀ x ∈ srcs, x.uniIs w Entry.isVoid = false ∧ x.uniIs w Entry.isBad = false ∧ x.uniIs w Entry.isPend = false

/-- A vector instruction executes normally: its watch issues and its sources can be read under its mask (R55, R60). -/
def State.vecOk (s : State) (f : FmtA) (srcs : List Src) : Prop :=
  s.admits none ∧ s.ctx.vecReads (s.ctx.gov f.k) srcs

/-- A scalar or uniform instruction executes normally (R55, R60). -/
def State.uniOk (s : State) (srcs : List Src) : Prop := s.admits none ∧ s.ctx.uniReads srcs

/-- A layout finds its entries at hand: none in flight, the parity of each good (R60, R72, R383). -/
def Watch.laysOut (w : Watch) (m : Mask) (ages : List Nat) : Prop := w.layoutBad m ages = false ∧ w.layoutPends m ages = false

/-- What a call hands over or a return brings back is at hand (R60, R150, R383). -/
def Watch.topsRead (w : Watch) (n m : Nat) : Prop := w.topBad n m = false ∧ w.topPends n m = false

/-- Element e of an operand in lane l, for an instruction's type (R94). -/
def Watch.el (w : Watch) (f : FmtA) (o : Opnd) (l e : Nat) : Nat := bitsAt (w.opnd f.ty o l) (f.ty.width * e) f.ty.width

/-- Executed normally, the instruction pushes one value of type t in each enabled lane, which is as `r` says for the watch as it
stood, the lane and the value; and nothing else happens. -/
def pushesLanes (i : Instr) (f : FmtA) (srcs : List Src) (t : Ty) (r : Watch → Nat → Nat → Prop) : Prop :=
  ∀ s : State, s.vecOk f srcs →
    ∃ v, exec i s = .next (s.pushLanes (s.ctx.gov f.k) t v) ∧ ∀ l, r s.ctx l (v l)

/-- As `pushesLanes`, with a result for each element of the instruction's type. -/
def pushesElems (i : Instr) (f : FmtA) (srcs : List Src) (r : Watch → Nat → Nat → Nat) : Prop :=
  pushesLanes i f srcs f.ty (fun w l x => ∀ e < f.ty.count, bitsAt x (f.ty.width * e) f.ty.width = r w l e)

/-- As `pushesLanes`, with a result for each bit of the instruction's type. -/
def pushesBits (i : Instr) (f : FmtA) (srcs : List Src) (r : Watch → Nat → Nat → Bool) : Prop :=
  pushesLanes i f srcs f.ty (fun w l x => ∀ b < f.ty.width, x.testBit b = r w l b)

/-- Executed normally, the instruction pushes one scalar entry, which is as `r` says; and nothing else happens. -/
def pushesScalar (i : Instr) (srcs : List Src) (r : Watch → DWord → Prop) : Prop :=
  ∀ s : State, s.uniOk srcs → ∃ v, exec i s = .next (s.pushScalar v) ∧ r s.ctx v

/-- A scalar result of a type: 64 bits for .I64, and 32 bits extended by sign for .I32, by zeros for .N32 (R94). -/
def scalarOf (t : Ty) (x64 : BitVec 64) (x32 : BitVec 32) : DWord :=
  match t with
  | .i64 => x64
  | .i32 => x32.signExtend 64
  | _ => x32.zeroExtend 64

/-- The least and the greatest value of an integer type (R95). -/
def lowOf (t : Ty) : Int := if t.isSigned then -((2 ^ (t.width - 1) : Nat) : Int) else 0
def highOf (t : Ty) : Int := if t.isSigned then ((2 ^ (t.width - 1) : Nat) : Int) - 1 else ((2 ^ t.width : Nat) : Int) - 1

/-- Executed normally with SAT = 1, the instruction clamps the exact result `x` of each element to its type, and sets SATF in the
enabled lanes where an element was clamped (R95). -/
def pushesClamped (i : Instr) (f : FmtA) (srcs : List Src) (x : Watch → Nat → Nat → Int) : Prop :=
  ∀ s : State, s.vecOk f srcs →
    ∃ c v, exec i s = .next ((if c = 0 then s else s.saturate c).pushLanes (s.ctx.gov f.k) f.ty v) ∧
      (∀ l < 64, has c l = true ↔
        has (s.ctx.gov f.k) l = true ∧ ∃ e < f.ty.count, x s.ctx l e < lowOf f.ty ∨ highOf f.ty < x s.ctx l e) ∧
      ∀ l e, e < f.ty.count →
        elemInt f.ty.isSigned f.ty.width (bitsAt (v l) (f.ty.width * e) f.ty.width) =
          if x s.ctx l e < lowOf f.ty then lowOf f.ty
          else if highOf f.ty < x s.ctx l e then highOf f.ty else x s.ctx l e

/-- Element e of an operand in lane l as an integer, read as the type says (R94). -/
def Watch.eli (w : Watch) (f : FmtA) (o : Opnd) (l e : Nat) : Int := elemInt f.ty.isSigned f.ty.width (w.el f o l e)

/-- The parts of a split have the sizes that the machine gives them: scalar wakes of 16 entries (R35), records with a mark and a
depth for each of 64 lanes (R71), and seven masks in what a handler or gate set aside (R321, R337). -/
def Region.sound (r : Region) : Prop :=
  r.marks.length = 64 ∧ r.depths.length = 64 ∧ r.scalar.ring.length = 16
def GateBank.sound (b : GateBank) : Prop :=
  b.bears.length = 8 ∧ b.shapes.length = 16
def Frame.sound (f : Frame) : Prop :=
  f.swake.ring.length = 16 ∧ (∀ r ∈ f.recs, r.sound) ∧ (f.kind ≠ .call → f.ks.length = 7) ∧ ∀ b, f.bank = some b → b.sound
def Split.sound (p : Split) : Prop :=
  p.swake.ring.length = 16 ∧ (∀ r ∈ p.recs, r.sound) ∧ ∀ f ∈ p.frames, f.sound

/-- A watch has 64 lanes with wakes of 32 entries, seven mask registers, eight bearings, sixteen shape registers, and caddy slots
with one entry per lane (R30, R37, R113, R178, R251). -/
def Watch.sound (w : Watch) : Prop :=
  w.lanes.length = 64 ∧ (∀ l ∈ w.lanes, l.wake.ring.length = 32 ∧ ∀ v ∈ l.saved, v.ring.length = 32) ∧
  w.ks.length = 7 ∧ w.bears.length = 8 ∧ w.shapes.length = 16 ∧
  (∀ f ∈ w.caddies, ∀ row ∈ f.slots, row.length = 64) ∧ w.sp.sound ∧ ∀ p ∈ w.sibs, p.sound

/-- Every watch of the machine, resident or in an image, is so formed. -/
def State.sound (s : State) : Prop :=
  s.ctx.sound ∧ (∀ w ∈ s.others, w.sound) ∧ ∀ g ∈ s.gangs, ∀ w ∈ g.watches, w.sound

/-- What a watch holds when a handler frame of it has ended (R325). -/
def Watch.returned (w : Watch) (f : Frame) (below : List Frame) (v : Watch) : Prop :=
  v.sp.frames = below ∧ v.sp.swake = f.swake ∧ v.sp.recs = f.recs ∧ v.sp.caddy = f.caddy ∧ v.sp.depth = w.sp.depth ∧
  v.sp.id = w.sp.id ∧ v.ks = f.ks ∧ v.bears = w.bears ∧ v.shapes = w.shapes ∧ v.segs = w.segs ∧ v.bovf = w.bovf ∧
  v.ntid = w.ntid ∧ v.sibs = w.sibs.map (fun q => { q with stops := q.stops - 1 }) ∧
  ∀ l, (v.lane l).exited = (w.lane l).exited ∧ (v.lane l).satf = (w.lane l).satf ∧ (v.lane l).resv = (w.lane l).resv ∧
    ((w.lane l).split = w.sp.id →
      (v.lane l).wake = (w.lane l).saved.headD VWake.empty ∧ (v.lane l).saved = (w.lane l).saved.tail) ∧
    ((w.lane l).split ≠ w.sp.id → v.lane l = w.lane l)

/-- Change the issuing split's caddy frame. -/
def Watch.mapCaddy (w : Watch) (g : CaddyFrame → CaddyFrame) : Watch :=
  { w with caddies := w.caddies.map (fun f => if f.id = w.sp.caddy then g f else f) }

/-- Nothing but the watch in focus differs. -/
def State.sameAround (s t : State) : Prop := { t with ctx := s.ctx } = s

/-- A watch with every reservation cleared: a write of memory may clear reservations of any lane (R239). -/
def Watch.unreserved (w : Watch) : Watch := { w with lanes := w.lanes.map (fun l => { l with resv := none }) }

/-- The bytes of memory after stores in turn, each of some bytes at a key. -/
def written (ws : List (Nat × List Byte)) (old : Nat → Byte) (a : Nat) : Byte :=
  ws.foldl (fun b x => if x.1 ≤ a ∧ a < x.1 + x.2.length then x.2.getD (a - x.1) 0 else b) (old a)

/-- n bytes from a key of a memory, lowest first. -/
def bytesOf (m : Nat → Byte) (k n : Nat) : List Byte := (List.range n).map (fun i => m (k + i))

/-- Bytes of storage at a key lie on one page that the indirection table maps (R357). -/
def State.holds (s : State) (key n : Nat) : Prop :=
  s.mediaOk key = true ∧ (key < 2 ^ 58 → key % 2 ^ 16 + n ≤ 2 ^ 16)

/-- An access passes every check of R210 and leads to bytes of storage at a key, and not to a cacheable host page. -/
def State.leads (s : State) (a : Access) (spad : Bool) (seg : BitVec 4) (o key : Nat) : Prop :=
  s.holds key a.size ∧ ∃ h, s.judge a spad seg o = .ok (.store [⟨key, a.size, h, false⟩])

/-- The same for the parts of a record that is read or written at once from an offset (R195, R256): the record is aligned, inside its
segment and permitted, and each 16 bytes of it lead to storage. -/
def State.leadsRecord (s : State) (a : Access) (seg : BitVec 4) (o align size : Nat) (key : Nat → Nat) : Prop :=
  o % align = 0 ∧ inSegment (s.ctx.seg seg) o size = true ∧
  a.allowed (segRd (s.ctx.seg seg)) (segWr (s.ctx.seg seg)) = true ∧
  ∀ i < size / 16, s.holds (key i) 16 ∧
    ∃ h, s.judgePage a (segBase (s.ctx.seg seg) + o + 16 * i) = .ok (.store [⟨key i, 16, h, false⟩])

/-- What a late write puts in place, and where (R226). -/
def LateWrite.gist (e : LateWrite) : Nat × Nat × List Byte := (e.num, e.key, e.bytes)

/-- What a load changes besides the entries that it pushes: the split goes on by 8, an operation of its kind is in flight, the
counts of the residency ranges and the lines that slices retain (R220), which outside writes still late the split has met (R228),
and nothing else. -/
def State.loaded (s t : State) (u : UnitKind) : Prop :=
  (∀ a, t.byte a = s.byte a) ∧ { t with ctx := s.ctx, samples := s.samples, retained := s.retained, late := s.late, fresh := s.fresh } = s ∧
  t.late.map LateWrite.gist = s.late.map LateWrite.gist ∧ t.ctx.sp.pc = s.ctx.sp.pc + 8 ∧ t.ctx.sp.wait = .none ∧
  (∃ x, t.ctx.flights = s.ctx.flights ++ [x] ∧ x.id = s.fresh ∧ x.unit = u) ∧
  { t.ctx with lanes := s.ctx.lanes, sp := s.ctx.sp, flights := s.ctx.flights } = s.ctx ∧
  { t.ctx.sp with pc := s.ctx.sp.pc, wait := s.ctx.sp.wait, recs := s.ctx.sp.recs, swake := s.ctx.sp.swake } = s.ctx.sp

/-- What a store changes besides memory: the split goes on by 8, reservations go (R239), pages open (R368), poison goes (R384),
lines are counted and retained (R220), readers who may find bytes as they stood have been overtaken (R228), and nothing else. -/
def State.stored (s t : State) : Prop :=
  t.ctx.unreserved = { s.ctx.unreserved with sp := { s.ctx.sp with pc := s.ctx.sp.pc + 8, wait := .none } } ∧
  t.others.map Watch.unreserved = s.others.map Watch.unreserved ∧
  { t with ctx := s.ctx, others := s.others, mem := s.mem, poison := s.poison, idt := s.idt, copies := s.copies,
           samples := s.samples, retained := s.retained, late := s.late, behind := s.behind, fresh := s.fresh } = s ∧
  t.late.map LateWrite.gist = s.late.map LateWrite.gist

/-- An access passes every check of R210, wherever it leads, on pages that the indirection table maps and to bytes without poison. -/
def State.passes (s : State) (a : Access) (spad : Bool) (seg : BitVec 4) (o : Nat) (t : Target) : Prop :=
  s.judge a spad seg o = .ok t ∧ ∀ p ∈ t.parts, s.mediaOk p.key = true ∧ s.poisoned p.key p.n = false

/-- No byte of a range that the watch in focus could read is poisoned or lies on a page that the indirection table does not map
(R357, R384). -/
def State.clean (s : State) (va n : Nat) : Prop := s.vbad s.ctx.core s.ctx.dom va n = none

/-- The same for all that the acceptance of a launch record reads: the record, and its code object's header and entries (R302, R396). -/
def State.cleanLaunch (s : State) (va : Nat) : Prop :=
  s.clean va 512 ∧ ∀ bs, s.vread s.ctx.core s.ctx.dom va 512 = .ok bs →
    let code := (parseLaunch va bs).code.toNat
    s.clean code 64 ∧ ∀ h, s.vread s.ctx.core s.ctx.dom code 64 = .ok h → s.clean (code + 64) (16 * min 16 (fieldOf h 6 1))

/-- The same for a node: its record, and its launch record (R305). -/
def State.cleanNode (s : State) (idx : Nat) : Prop :=
  s.clean (s.nodeVa s.ctx.dom idx) 128 ∧
  ∀ bs, s.vread s.ctx.core s.ctx.dom (s.nodeVa s.ctx.dom idx) 128 = .ok bs → s.cleanLaunch (fieldOf bs 0 8)

/-- An instruction ends in the outcome that belongs to the first of some conditions that holds. -/
def stopsAtFirst (i : Instr) (s : State) (l : List (Prop × State)) : Prop :=
  ∀ before p t after, l = before ++ (p, t) :: after → (∀ x ∈ before, ¬ x.1) → p → exec i s = .next t

/-- The checks on n bytes at a scratchpad address that an engine command uses, with the trap of each (R204, R209, R210, R259). -/
def State.spadConds (s : State) (n addr : Nat) : List (Prop × State) :=
  let w := s.ctx
  let d := BitVec.ofNat 64 addr
  [(addr % n ≠ 0, s.takeTrap 0x0B w.k0 d),
   (addr / 2 ^ 19 % 2 ^ 11 ≠ 0 ∨ (addr / 2 ^ 30 < w.blocks ∧ 128 * w.spadRows < addr % 2 ^ 19 + n), s.takeTrap 0x07 w.k0 d),
   (w.blocks ≤ addr / 2 ^ 30 ∨ w.dom ≠ w.home, s.domainTrap w.k0 d)]

/-- SHAPE with a condition and the register concerned, if one is (R259). -/
def State.shapeStop (s : State) (code : Nat) (reg : Option (BitVec 4)) : State :=
  s.takeTrap 0x0C s.ctx.k0 (BitVec.ofNat 64 (code + match reg with
    | some r => 4096 + 256 * r.toNat
    | none => 0))

/-- The checks on one shape in the order of R259, with the trap of each; `spadOnly` for a destination of CPYP (R264). The bytes that a
tile reaches are those of `spadBad` and `addrBad`. -/
def State.shapeConds (s : State) (r : BitVec 4) (h : Shape) (spadOnly : Bool) : List (Prop × State) :=
  let w := s.ctx
  let len := 8 * 2 ^ shBlk h
  let inside := ∀ k < 4, 0 ≤ shOrg h k ∧ shOrg h k + shBox h k ≤ shExt h k
  [(shSpad h = true ∧ (w.blocks ≤ shBase h % 2 ^ 32 / 2 ^ 30 ∨ w.dom ≠ w.home),
      s.domainTrap w.k0 (BitVec.ofNat 64 (shBase h % 2 ^ 32))),
   (∃ k < 4, shBox h k = 0, s.shapeStop 0x01 (some r)),
   (2 ≤ shLayout h ∨ shLayout h = 1 ∧ (shBase h % 128 ≠ 0 ∨ shStep h 1 % 128 ≠ 0), s.shapeStop 0x03 (some r)),
   (shOob h = 3, s.shapeStop 0x04 (some r)),
   (shOob h = 1 ∧ ¬ inside, s.shapeStop 0x05 (some r)),
   (shBlk h ≠ 0 ∧ (shFmt h ∉ [3, 4, 5, 10, 12] ∨ shOrg h 0 % len ≠ 0 ∨ shBox h 0 % len ≠ 0 ∨
      ∃ k ∈ [1, 2, 3], shStep h k * 8 % (len * shBits h) ≠ 0), s.shapeStop 0x06 (some r)),
   (shBits h = 4 ∧ (shOrg h 0 % 2 ≠ 0 ∨ shBox h 0 % 2 ≠ 0), s.shapeStop 0x07 (some r)),
   (shSpad h = true ∧ (2 ^ 32 ≤ shBase h ∨ shBlk h ≠ 0 ∨ spadBad h w.spadRows = true) ∨ spadOnly = true ∧ shSpad h = false,
      s.shapeStop 0x08 (some r)),
   (shSpad h = false ∧ addrBad h = true, s.shapeStop 0x09 (some r)),
   (14 ≤ shFmt h ∧ shFmt h ≤ 18 ∧ ¬ inside, s.shapeStop 0x0B (some r))]

/-- `code` is the element of a format 0 to 13 that a value is converted to (R128, R261): rounded to nearest even, and for the integers
clamped, with 0 for NaN. -/
def convertsTo (f : Nat) (v : FVal) (code : Nat) : Prop :=
  let t := fmtTy f
  if t.isFloat then code = (t.ffmt.round .ne v).1
  else
    match v with
    | .nan => code = 0
    | .inf n => code = wrap t.width (if n then lowOf t else highOf t)
    | .num n m e =>
      -- the magnitude is p / 2^k, and r the integer nearest to it
      let p := m * 2 ^ e.toNat
      let k := (-e).toNat
      ∃ r : Nat, 2 * (r * 2 ^ k) ≤ 2 * p + 2 ^ k ∧ 2 * p ≤ 2 * (r * 2 ^ k) + 2 ^ k ∧
        (2 * (r * 2 ^ k) = 2 * p + 2 ^ k ∨ 2 * p = 2 * (r * 2 ^ k) + 2 ^ k → r % 2 = 0) ∧
        code = wrap t.width (max (lowOf t) (min (highOf t) (if n then -(r : Int) else r)))

/-- Memory after an engine's or the accumulator port's delivery: the data, and the object that counts its bytes (R242, R243, R260). -/
def State.delivered (s t : State) (data : Nat → Byte) (obj counted : Nat) : Prop :=
  let old := leNat (bytesOf data obj 16)
  (counted = 0 → ∀ k, t.byte k = data k) ∧
  (counted ≠ 0 → ∀ k, t.byte k = written [(obj, leBytes 16 ((BarObj.sub (BarObj.ofNat old) counted).toNat old))] data k) ∧
  t.ctx.unreserved = s.ctx.unreserved ∧ t.cfg = s.cfg

/-- No write is late, no reader may find bytes as they stood, and accesses take their places at once (R226). -/
def State.settled (s : State) : Prop := s.late = [] ∧ s.behind = [] ∧ s.manner = .now

/-- Lane l has been pushed some entries of an operation in flight, the last one at age 0, over what it held. -/
def Lane.pushed (l t : Lane) (id : Nat) (vs : List Word) : Prop :=
  (∀ i (h : i < vs.length), t.wake.get (vs.length - 1 - i) = .pend vs[i] id) ∧
  ∀ a, a + vs.length < 32 → t.wake.get (a + vs.length) = l.wake.get a

end Sys2Proof.Machine
end

