-- ==== Sys2Proof/Certificates/Slice0/Obligations.lean ====
section
/-!
DEFINITION. The statements for the provers. Each names the rules that it states; a clause that rests on a choice of the model says so.
-/

open Sys2Proof Sys2Proof.Machine


/-! ### Encoding -/

/-- Every well-formed instruction that has a word decodes to itself from its own bytes, whatever bytes stand behind them (R40, R43 to
R49, R51): no bit of an operand, in any format, is dropped. -/
def Obligations.DecodeEncode : Prop :=
  ∀ (i : Instr) (rest : List Byte), i.wf = true → encode i ≠ [] → decode (encodeBytes i ++ rest) = .ok i

/-- What the decoder accepts is well-formed, and its word is the one word that encodes it, but for operand fields that the class ignores
(R40, R44 to R46): no reserved bit is set, and a literal word has its mark (R51). -/
def Obligations.EncodeDecode : Prop :=
  ∀ (w lit : DWord) (i : Instr), decodeWord w lit = .ok i →
    i.wf = true ∧ (encode i = [w &&& ~~~(ignored i)] ∨ (encode i = [w, lit] ∧ lit.extractLsb' 48 16 = 0xFFFF))

/-- Words of the specification, with the instructions that they stand for. -/
def Obligations.DecodeWords : Prop :=
  decodeWord 0x30018000C5000000 0 = .ok (.iadd ⟨.i32, 0, .ne, false, .w 0, .imm 5, .w 0, 0⟩) ∧
  decodeWord 0x100000FFFFFD0000 0 = .ok (.br 0xFFFFFD) ∧
  decodeWord 0x18000400001F0004 0 = .ok (.loop 4 0x1F 4) ∧
  decodeWord 0x190080FFFFE30000 0 = .ok (.endloop 1 0xFFFFE3 0) ∧
  decodeWord 0x1C00010000040200 0 = .ok (.call 1 4 2 0) ∧
  decodeWord 0x2801C000D4000000 0 = .ok (.slane ⟨.n32, 0, .ne, false, .w 0, .imm 20, .w 0, 0⟩) ∧
  decodeWord 0x2703800000000000 0xFFFF0000000F4240 = .ok (.ldil 1000000) ∧
  decodeWord 0x3711800040000001 0 = .ok (.icmp .gt ⟨.i32, 0, .ne, false, .w 0, .s 0, .w 0, 1⟩) ∧
  decodeWord 0x3B07C00000850000 0 = .ok (.unstash ⟨.b32, 0, .ne, false, .w 0, .w 0, .c 5, 0⟩) ∧
  decodeWord 0x5100000201004000 0 = .ok (.ffma ⟨.f32, 0, .ne, false, .w 2, .w 1, .w 0, 0x4000⟩) ∧
  decodeWord 0x5708060000000000 0 = .ok (.fsqrt ⟨.f32, 0, .up, false, .w 0, .w 0, .w 0, 0⟩) ∧
  decodeWord 0x6C02010003000110 0 = .ok (.shrr ⟨.i16, 0, .ne, true, .w 0, .w 3, .w 0, 0x110⟩) ∧
  decodeWord 0x740180C000000001 0 = .ok (.scan .add ⟨.i32, 0, .ne, false, .imm 0, .w 0, .w 0, 1⟩) ∧
  decodeWord 0x7E00004041420001 0 = .ok (.bmatch ⟨.f32, 0, .ne, false, .s 0, .s 1, .s 2, 1⟩) ∧
  decodeWord 0x7F68320000400040 0 = .ok (.bld 2 ⟨1, 5, 0, 3, .f32, .w 0, .w 0, .s 0, 0x40⟩) ∧
  decodeWord 0x81A8260100410000 0 = .ok (.st ⟨2, 5, 0, 2, .i32, .w 1, .w 0, .s 1, 0⟩) ∧
  decodeWord 0x90290F00C0418010 0 = .ok (.atomXchg ⟨0, 5, 1, 0, .b32, .w 0, .imm 0, .s 1, 0x10⟩) ∧
  decodeWord 0x9738050000000000 0 = .ok (.fencex 7 0 5) ∧
  decodeWord 0x9C00000141C00000 0 = .ok (.waitb ⟨0, 0, 0, 1, .s 1, .imm 0, 0⟩) ∧
  decodeWord 0xA100C00000410001 0 = .ok (.shset ⟨3, 0, 0, 0, .w 0, .s 1, 1⟩) ∧
  decodeWord 0xA5011580C0000000 0 ≠ .illField ∧
  decodeWord 0xB205580941430040 0 = .ok (.mmasp ⟨5, 6, 0, 9, .s 1, .s 3, 0x40⟩) ∧
  decodeWord 0xC300000000410003 0 = .ok (.fork (.s 1) 3) ∧
  decodeWord 0x0204000000000000 0 = .ok .tretNext ∧
  decodeWord 0x0400000000420009 0 = .ok (.swr 9 (.s 2)) ∧
  -- FUNC 10 of a compare, k0 as the destination of a compare, and a reserved bit of EXT16 are refused by name (R98, R110, R96)
  decodeWord 0x2428000000000000 0 = .illField ∧
  decodeWord 0x3711800040000000 0 = .illField ∧
  decodeWord 0x3001800001000100 0 = .illField

/-! ### The step -/

/-- A step runs what it fetches: when the word at the PC of the split that issues decodes to an instruction, the step is that
instruction's `exec`; after it the issue is counted (R327; that it is counted behind the instruction's own effect is log 98), images
that were altered are marked (R348) and it is seen which splits are ready (R43, R59, R65). LDIL takes the word behind it (R51). What
a fetch does that gives no word, or a word with a bad field, stands in the last two clauses (R55, R396). Which split issues where
nothing has been chosen is the model's policy (log 7). When an event of the device, the host or the environment is chosen, the step
is that event's `exec`. Its writes on the paths P1 to P6 stand in T at once, unless it is chosen that they enter later (R226; log
15), and its counts are the last in O, unless it is chosen that they take earlier places (R242; log 123). -/
def Obligations.StepRuns : Prop :=
  (∀ (s u : State) (core port : Nat) (rest : List Pick),
     (s.sched = .issue core port :: rest ∧ (s.chose rest).take core port = some u) ∨ (s.sched = [] ∧ s.begin.takeAny = some u) →
     let after := fun (t : State) => (s.noteAltered t).renew
     let runs := fun (i : Instr) => mapOut (fun t => after (t.countIssue u.ctx (u.portAt u.ctx u.ctx.sp))) (exec i u)
     (∀ w i, u.word8 u.ctx.sp.pc = .ok w → majOf w ≠ 0x27 → decodeWord w 0 = .ok i → step s = runs i) ∧
     (∀ w lit i, u.word8 u.ctx.sp.pc = .ok w → majOf w = 0x27 → u.word8 (u.ctx.sp.pc + 8) = .ok lit →
       decodeWord w lit = .ok i → step s = runs i) ∧
     (∀ w, u.word8 u.ctx.sp.pc = .ok w → majOf w ≠ 0x27 → decodeWord w 0 = .illField →
       step s = mapOut after (u.illField (majOf w).toNat 8)) ∧
     (∀ k, u.word8 u.ctx.sp.pc = .fault k → step s = mapOut after (exec (.instructionFetchFault u.ctx.sp.pc k) u))) ∧
  (∀ (s : State) (i : Instr) (rest : List Pick), isEvent i = true →
     (s.sched = .event i :: rest → step s = mapOut (fun t => (s.noteAltered t).renew) (exec i (s.chose rest))) ∧
     ∀ (p : Pick) (m : Manner), (p = .late i ∧ m = .late) ∨ (p = .early i ∧ m = .early) → s.sched = p :: rest →
       step s = mapOut (fun t => (s.noteAltered { t with manner := .now }).renew) (exec i { s.chose rest with manner := m }))

/-- With a watch in focus, every instruction answers a next state: no operand, mode or memory contents ends a run. The machine never
stops: from every state, reachable or not, a step gives a state. -/
def Obligations.NothingStops : Prop :=
  (∀ (i : Instr) (s : State), s.ctx.resident = true → ∃ t, exec i s = .next t) ∧
  (∀ s : State, s.goesOn)

/-- Every step keeps the canonical form of memory: keys strictly rising, and nothing listed that equals what an unlisted byte reads as. -/
def Obligations.MemoryFormKept : Prop :=
  ∀ s t : State, Memory.wf s.mem = true → step s = .next t → Memory.wf t.mem = true

/-- Every step keeps the sizes of every watch's registers and wakes. -/
def Obligations.WatchFormKept : Prop := ∀ s t : State, s.sound → step s = .next t → t.sound

/-- At reset memory has its canonical form, and the watch in focus its sizes. What bring-up leaves where the specification states a
value (R304, R327, R329, R332, R336, R340, R353, R357, R359, R362, R365, R366, R372, R378): no launch, gang or node; registers that
R327 to R372 reset to 0, and the others at theirs. -/
def Obligations.ResetState : Prop :=
  (Memory.wf State.reset.mem = true ∧ State.reset.sound) ∧
  (let s := State.reset
   s.ctx.resident = false ∧ s.others = [] ∧ s.launches = [] ∧ s.gangs = [] ∧ s.nodes = [] ∧ s.armed = [] ∧
   (∀ c d, s.reg (.qslot c d) = 0 ∧ s.reg (.qcaddy c d) = 0 ∧ s.reg (.qspad c d) = 0 ∧ s.reg (.qacc c d) = 0 ∧
     s.reg (.quotaCtl c d) = 0 ∧ s.reg (.debt c d) = 0) ∧
   (∀ c, s.reg (.ctrown c) = 0 ∧ s.reg (.wsctl c) = 2000) ∧
   (∀ c n, s.reg (.ctrcfg c n) = 0 ∧ s.reg (.ctrcount c n) = 0) ∧
   (∀ d, s.reg (.featmask d) = 0xFFFFFFFFFFFFFFFF ∧ s.reg (.grace d) = 200 ∧ s.reg (.killt d) = 2000 ∧
     s.reg (.dpol d) = 0 ∧ s.reg (.dstat d) = 0 ∧ s.reg (.vfctl d) = 0 ∧ s.reg (.part d) = 0 ∧ s.reg (.dkey d) = 0) ∧
   s.reg .gtcount = 0 ∧ (∀ q, s.regField (.qctl q) 0 2 = 0))

/-! ### Wakes, results and memory -/

/-- A push by lanes (R30, R31): in each lane of the mask the entry at age a goes to age a + 1, the one at age 31 is lost, and the new
entry stands at age 0; every other lane keeps its wake, with its head. A push to the scalar wake of the issuing split (R35). -/
def Obligations.Pushes : Prop :=
  (∀ (w : Watch) (m : Mask) (e : Nat → Entry Word), w.sound → ∀ l < 64,
     (has m l = true →
       ((w.push m e).lane l).wake.get 0 = e l ∧
       ∀ a < 31, ((w.push m e).lane l).wake.get (a + 1) = (w.lane l).wake.get a) ∧
     (has m l = false → (w.push m e).lane l = w.lane l)) ∧
  (∀ (w : Watch) (e : Entry DWord), w.sound →
     (w.spush e).sp.swake.get 0 = e ∧ ∀ a < 15, (w.spush e).sp.swake.get (a + 1) = w.sp.swake.get a)

/-- What an instruction that pushes to the lanes changes besides their wakes: the PC goes on by 8, and the depths in the open records of
the frame rise (R71). A value of .I64 stands at two ages, its low half at age 0's neighbour (R33). Masks, bearings, shapes,
segments, the scalar wake, caddy slots, the other splits, the other watches, all registers and every byte of memory are as they
were. What a scalar instruction changes: the issuing split's scalar wake and PC, and nothing else. Saturation sets SATF in the lanes
of a mask, and in no other, and counts one saturation for each lane for the gang, under NTID, in the core's table or the staging
record (R95, R151, R153); it changes nothing else. -/
def Obligations.ResultFrames : Prop :=
  (∀ (s : State) (m : Mask) (ty : Ty) (v : Nat → Nat), s.ctx.sound →
     let t := s.pushLanes m ty v
     s.sameAround t ∧ (∀ a, t.byte a = s.byte a) ∧
     t.ctx.sp.pc = s.ctx.sp.pc + 8 ∧ t.ctx.sp.wait = .none ∧ t.ctx.sp.swake = s.ctx.sp.swake ∧
     { t.ctx with lanes := s.ctx.lanes, sp := s.ctx.sp } = s.ctx ∧
     { t.ctx.sp with pc := s.ctx.sp.pc, wait := s.ctx.sp.wait, recs := s.ctx.sp.recs } = s.ctx.sp ∧
     (∀ l < 64, { t.ctx.lane l with wake := (s.ctx.lane l).wake } = s.ctx.lane l) ∧
     (∀ l < 64, has m l = false → t.ctx.lane l = s.ctx.lane l) ∧
     (ty ≠ .i64 → ∀ l < 64, has m l = true → (t.ctx.lane l).wake.get 0 = .val (BitVec.ofNat 32 (v l))) ∧
     (ty = .i64 → ∀ l < 64, has m l = true →
       (t.ctx.lane l).wake.get 1 = .val (BitVec.ofNat 32 (v l)) ∧
       (t.ctx.lane l).wake.get 0 = .val (BitVec.ofNat 32 (v l / 2 ^ 32)) ∧
       ∀ a < 30, (t.ctx.lane l).wake.get (a + 2) = (s.ctx.lane l).wake.get a)) ∧
  (∀ (s : State) (v : DWord),
     let t := s.pushScalar v
     s.sameAround t ∧ (∀ a, t.byte a = s.byte a) ∧ t.ctx.sp.pc = s.ctx.sp.pc + 8 ∧ t.ctx.sp.wait = .none ∧
     { t.ctx with sp := s.ctx.sp } = s.ctx ∧
     { t.ctx.sp with pc := s.ctx.sp.pc, wait := s.ctx.sp.wait, swake := s.ctx.sp.swake } = s.ctx.sp ∧
     t.ctx.sp.swake = s.ctx.sp.swake.push (.val v)) ∧
  (∀ (s : State) (m : Mask), s.ctx.sound →
     let r := s.ctx.ref
     (∀ l < 64, ((s.saturate m).ctx.lane l).satf = ((s.ctx.lane l).satf || has m l)) ∧
     (∀ l < 64, { (s.saturate m).ctx.lane l with satf := (s.ctx.lane l).satf } = s.ctx.lane l) ∧
     { (s.saturate m) with ctx := s.ctx, gangs := s.gangs, counts := s.counts } = s ∧
     { (s.saturate m).ctx with lanes := s.ctx.lanes } = s.ctx ∧
     (∀ x g, s.launchOf r.launch = some x → x.recd.cntbuf ≠ 0 → m ≠ 0 → s.gangOf r.launch r.gang = some g →
       ∃ h, (s.saturate m).gangOf r.launch r.gang = some h ∧
         let slot := slotOf g.tids s.ctx.ntid.toNat
         let counted := fun (u : State) (v : Gang) =>
           ((u.counts.filter (fun e => e.launch == r.launch && e.gang == r.gang && e.slot == slot)).map (·.sat)).sum +
             ((v.staging.filter (fun e => e.slot == slot && e.kind == 0)).map (·.count)).sum
         counted (s.saturate m) h % 2 ^ 64 = (counted s g + laneCount m) % 2 ^ 64))

/-- A byte reads as the last write of it left it, and every other byte as before (R3): for any agent's write that does not open a
zero-pending page, and for one that does every other byte of that page still reads zero (R368). Multi-byte values stand lowest byte
first. -/
def Obligations.MemoryReadWrite : Prop :=
  ∀ (s : State) (k n v : Nat), Memory.wf s.mem = true → (∀ i < n, pageOf (k + i) = pageOf k) →
    k + n ≤ 2 ^ 58 ∨ 2 ^ 58 ≤ k →
    (∀ i < n, (s.store k n v).byte (k + i) = BitVec.ofNat 8 (v / 256 ^ i)) ∧
    (∀ a, a < k ∨ k + n ≤ a → (s.store k n v).byte a = s.byte a) ∧
    ((s.store k n v).load k n = v % 256 ^ n)

/-! ### Traps -/

/-- Handler entry outside gates (R320, R321): where the handler starts, what its bank and wakes hold, what the faulting frame keeps, and
that the watch's other splits stop. Bearings, shape registers, SATF, BOVF and NTID stand. A trap while TRAPH is 0 outside a gate, or
in a handler frame or a frame called from one, kills the gang, after the count of the trap (R323, R327). -/
def Obligations.TrapEntry : Prop :=
  (∀ (s : State) (cause : Nat) (mask : Mask) (detail : DWord), s.ctx.sound →
     s.ctx.sp.inHandler = false → gateBelow s.ctx.sp.frames = none → s.ctx.traph ≠ 0 →
     (∀ fid, (s.ctx.enterHandler fid cause mask detail (s.ctx.code + s.ctx.traph) 8).spillFits = true) →
     let w := s.ctx
     let t := (s.takeTrap cause mask detail).ctx
     t.sp.pc = w.code + w.traph ∧ t.sp.wait = .none ∧ t.k0 = w.present ∧ t.kreg 1 = mask ∧
     (∀ n, 2 ≤ n → n ≤ 7 → t.kreg n = 0) ∧
     (∀ l < 64, (w.lane l).split = w.sp.id →
       (∀ a, (t.lane l).wake.get a = .void) ∧ (t.lane l).wake.nest = 0 ∧
       (t.lane l).saved = (w.lane l).wake :: (w.lane l).saved) ∧
     (∀ l < 64, (w.lane l).split ≠ w.sp.id → (t.lane l).wake = (w.lane l).wake ∧ (t.lane l).saved = (w.lane l).saved) ∧
     t.sp.swake.get 0 = .val (BitVec.ofNat 64 cause) ∧ t.sp.swake.get 1 = .val w.sp.pc ∧ t.sp.swake.get 2 = .val detail ∧
     t.sp.swake.get 3 = .val (BitVec.ofNat 64 (w.sp.id + 4 * w.sp.depth.toNat)) ∧
     (∀ a, 4 ≤ a → a < 16 → t.sp.swake.get a = .void) ∧
     t.caddy.slots = [] ∧ t.sp.recs = [] ∧ t.sp.depth = w.sp.depth ∧ t.sp.id = w.sp.id ∧
     (∃ f, t.sp.frames = f :: w.sp.frames ∧ f.kind = .handler ∧ f.retPc = w.sp.pc ∧ f.retNext = w.sp.pc + 8 ∧
       f.swake = w.sp.swake ∧ f.caddy = w.sp.caddy ∧ f.recs = w.sp.recs ∧ f.ks = w.ks) ∧
     t.bears = w.bears ∧ t.shapes = w.shapes ∧ t.segs = w.segs ∧ t.bovf = w.bovf ∧ t.ntid = w.ntid ∧
     (∀ l < 64, (t.lane l).satf = (w.lane l).satf ∧ (t.lane l).exited = (w.lane l).exited) ∧
     t.sibs = w.sibs.map (fun q => { q with stops := q.stops + 1 })) ∧
  (∀ (s : State) (cause : Nat) (mask : Mask) (detail : DWord), s.ctx.sound →
     s.ctx.sp.inHandler = true ∨ (gateBelow s.ctx.sp.frames = none ∧ s.ctx.traph = 0) →
     s.takeTrap cause mask detail = s.countTrap.killForTrap cause detail)

/-- TRET and TRET.NEXT (R325): the faulting frame and bank return, at the faulting PC or at the word after it, and the other splits go
on; what the handler left in bearings, shapes, BOVF and NTID stays. In the wrong frame, or with a record open, they trap. Entering a
handler and ending it by TRET brings back the watch as it was: PC, masks, records, frames, every wake and every split (R321, R325).
Only load reservations are lost, and caddy frames that no split holds. -/
def Obligations.TrapReturn : Prop :=
  (∀ (s : State), s.admits none →
     (∀ f below, s.ctx.sp.frames = f :: below → f.kind = .handler → s.ctx.sp.recs = [] →
       (∃ v, exec .tret s = .next (({ s with ctx := v } : State).settle) ∧ v.sp.pc = f.retPc ∧
         s.ctx.returned f below v) ∧
       (∃ v, exec .tretNext s = .next (({ s with ctx := v } : State).settle) ∧ v.sp.pc = f.retNext ∧
         s.ctx.returned f below v)) ∧
     ((∀ f below, s.ctx.sp.frames = f :: below → f.kind ≠ .handler) →
       exec .tret s = .next (s.takeTrap 0x01 s.ctx.k0 3) ∧ exec .tretNext s = .next (s.takeTrap 0x01 s.ctx.k0 3)) ∧
     (∀ f below, s.ctx.sp.frames = f :: below → f.kind = .handler → s.ctx.sp.recs ≠ [] →
       exec .tret s = .next (s.takeTrap 0x14 s.ctx.k0 7) ∧ exec .tretNext s = .next (s.takeTrap 0x14 s.ctx.k0 7))) ∧
  (∀ (w : Watch) (fid cause len : Nat) (mask : Mask) (detail pc : DWord) (f : Frame) (below : List Frame), w.sound →
     (w.enterHandler fid cause mask detail pc len).sp.frames = f :: below →
     let v := (w.enterHandler fid cause mask detail pc len).exitHandler f below f.retPc
     v.sp = { w.sp with wait := .none } ∧ v.sibs = w.sibs ∧ v.ks = w.ks ∧ v.lanes = w.unreserved.lanes ∧
     { v with sp := w.sp, sibs := w.sibs, ks := w.ks, lanes := w.lanes, caddies := w.caddies } = w)

/-- TRAP, and the traps of a word that is no instruction or cannot be fetched (R54, R324, R396). A word of a major that R52 leaves
unassigned is no field error: it raises ILLOP with mask k0, with detail 2 for a literal word and 0 otherwise (R51, R54). That a word
of major 0xFF whose bits [55:48] are not all set is no literal word is the model's reading (log 102). -/
def Obligations.SoftwareTrap : Prop :=
  (∀ (s : State) (k : BitVec 3) (code : BitVec 16) (word addr : DWord) (p : Nat), s.admits none →
     (s.ctx.gov k ≠ 0 → exec (.trap k code) s = .next (s.takeTrap 0x15 (s.ctx.gov k) (code.zeroExtend 64))) ∧
     (s.ctx.gov k = 0 → exec (.trap k code) s = .next (s.advance 8)) ∧
     exec (.illegalMajor word) s = .next (s.takeTrap 0x01 s.ctx.k0 (if word.extractLsb' 48 16 = 0xFFFF then 2 else 0)) ∧
     exec (.instructionFetchFault addr .pageFault) s = .next (s.takeTrapLen 0x08 s.ctx.k0 addr s.wordLen) ∧
     exec (.instructionFetchFault addr .protect) s = .next (s.takeTrapLen 0x09 s.ctx.k0 addr s.wordLen) ∧
     exec (.instructionFetchFault addr (.recoverable p)) s = .next (s.holdPage s.ctx.dom p false)) ∧
  (∀ (w lit : DWord) (s : State),
     ((majOf w).toNat ∈ [0x00, 0x0F, 0x6F, 0x76, 0x77, 0x9F] ∨ (0x2A ≤ (majOf w).toNat ∧ (majOf w).toNat ≤ 0x2F) ∨
       (0x3F ≤ (majOf w).toNat ∧ (majOf w).toNat ≤ 0x4F) ∨ (0x5E ≤ (majOf w).toNat ∧ (majOf w).toNat ≤ 0x67) ∨
       (0x8B ≤ (majOf w).toNat ∧ (majOf w).toNat ≤ 0x8F) ∨ (0xA8 ≤ (majOf w).toNat ∧ (majOf w).toNat ≤ 0xAF) ∨
       (0xB9 ≤ (majOf w).toNat ∧ (majOf w).toNat ≤ 0xBF) ∨ 0xC8 ≤ (majOf w).toNat) →
     decodeWord w lit = .ok (.illegalMajor w) ∧
     (s.admits none → exec (.illegalMajor w) s = .next (s.takeTrap 0x01 s.ctx.k0 (if w.extractLsb' 48 16 = 0xFFFF then 2 else 0))))

/-- An instruction of a feature group that its domain has masked raises ILLOP with detail 1, whatever its mask and operands, and a
record goes to the physical log (R55, R333): shown for one instruction of each of the groups 2, 5, 6, 9, 10, 11 and 12. A void
source (R32, R35): a vector instruction raises VOIDREAD for the enabled lanes in which some source is void, and an instruction on
the scalar wake raises it with k0; the detail names the first void operand and its position. Shown for an addition of each. -/
def Obligations.IssueChecks : Prop :=
  (∀ (s : State) (f : FmtA) (m : FmtM) (r : BitVec 3) (n : BitVec 4) (g : BitVec 16) (a : Opnd), s.ctx.resident = true →
     let off := fun (group maj : Nat) =>
       (Host.Outcome.next ((s.physRecord { kind := 0x22, sub := group, dom := s.ctx.dom, gang := s.ctx.ref.gang, detail := maj } true).takeTrap
         0x01 s.ctx.k0 1) : Out)
     (s.ctx.feat.getLsbD 2 = false → exec (.bset f) s = off 2 0x78 ∧ exec (.bld r m) s = off 2 0x7F) ∧
     (s.ctx.feat.getLsbD 5 = false → exec (.afadd m) s = off 5 0x92) ∧
     (s.ctx.feat.getLsbD 6 = false → exec (.axadd m) s = off 6 0x93) ∧
     (s.ctx.feat.getLsbD 9 = false → exec (.node a) s = off 9 0xC0) ∧
     (s.ctx.feat.getLsbD 10 = false → exec (.ctrrd n) s = off 10 0x07) ∧
     (s.ctx.feat.getLsbD 11 = false → exec (.gate g) s = off 11 0x05) ∧
     (s.ctx.feat.getLsbD 12 = false → exec (.fsin f) s = off 12 0x59)) ∧
  (∀ (s : State) (f : FmtA), s.admits none →
     (let m := s.ctx.gov f.k
      let va := (Src.of 0 f.ty f.a).voidIn s.ctx m
      let vb := (Src.of 1 f.ty f.b).voidIn s.ctx m
      (Src.of 0 f.ty f.a).beyond s.ctx = false → (Src.of 1 f.ty f.b).beyond s.ctx = false → va ||| vb ≠ 0 →
       exec (.iadd f) s = .next (s.takeTrap 0x03 (va ||| vb)
         (if va ≠ 0 then BitVec.ofNat 64 f.a.code.toNat else BitVec.ofNat 64 (f.b.code.toNat + 256)))) ∧
     (∀ x y : BitVec 4, f.a = .s x → f.b = .s y →
       (s.ctx.sp.swake.get x.toNat = .void →
         exec (.sadd f) s = .next (s.takeTrap 0x03 s.ctx.k0 (BitVec.ofNat 64 f.a.code.toNat))) ∧
       (s.ctx.sp.swake.get x.toNat ≠ .void → s.ctx.sp.swake.get y.toNat = .void →
         exec (.sadd f) s = .next (s.takeTrap 0x03 s.ctx.k0 (BitVec.ofNat 64 (f.b.code.toNat + 256))))))

/-! ### Control -/

/-- BR, BANY, BALL and BNONE move the whole split, to PC + 8 * DISP24 when taken and to PC + 8 otherwise; they push nothing and leave
everything else as it is (R70). -/
def Obligations.UniformBranches : Prop :=
  ∀ (s : State) (k : BitVec 3) (disp : BitVec 24), s.admits none →
    let T := s.ctx.gov k
    let there := s.ctx.sp.pc + 8 * disp.signExtend 64
    let go := fun (pc : DWord) => (Host.Outcome.next (s.setPc pc) : Out)
    exec (.br disp) s = go there ∧
    exec (.bany k disp) s = go (if T ≠ 0 then there else s.ctx.sp.pc + 8) ∧
    exec (.ball k disp) s = go (if T = s.ctx.k0 then there else s.ctx.sp.pc + 8) ∧
    exec (.bnone k disp) s = go (if T = 0 then there else s.ctx.sp.pc + 8) ∧
    ∀ pc, s.sameAround (s.setPc pc) ∧ (s.setPc pc).ctx = { s.ctx with sp := { s.ctx.sp with pc := pc, wait := .none } }

/-- IF, and an IFS that needs no split or finds four, whose resume word is an ELSE or a REJOIN (R71, R74, R77, R80): the record, the
counters of the lanes that it excludes, the active mask, and the PC; and nothing else changes. An IFS with lanes in both arms, in a
watch with fewer than four splits (R77, R78, R79): the lanes of E form a new split with copies of the parent's uniform parts, which
starts behind the ELSE, or at the REJOIN; no counter changes. A resume word that is neither makes every IFS raise LAYOUT with detail
0x0A, whatever its arms. ELSE (R75, R79, R82): on an IF record in phase 0 it parks arm 0, frees arm 1 and gives back the scalar wake
of the IF; on an IFS record it jumps to the REJOIN; otherwise it raises LAYOUT with detail 1. -/
def Obligations.Openings : Prop :=
  (∀ (s : State) (k : BitVec 3) (disp : BitVec 24), s.admits none → s.ctx.sound →
     (∀ r : Region, ({ s.ctx with sp := { s.ctx.sp with recs := r :: s.ctx.sp.recs } } : Watch).spillFits = true) →
     let w := s.ctx
     let T := w.gov k
     let E := w.k0 &&& ~~~T
     let there := w.sp.pc + 8 * disp.signExtend 64
     let opens := fun (i : Instr) (origin : Bool) =>
       ∃ t r, exec i s = .next t ∧ t.ctx.sp.recs = r :: w.sp.recs ∧
         r.kind = .ifr ∧ r.phase = false ∧ r.resume = there ∧ r.arm0 = T ∧ r.arm1 = E ∧ r.origin = origin ∧
         r.marks = w.heads ∧ r.depths = List.replicate 64 0 ∧ r.scalar = w.sp.swake ∧
         t.ctx.k0 = T ∧ t.ctx.sp.pc = (if T = 0 then there else w.sp.pc + 8) ∧ t.ctx.sp.wait = .none ∧
         (∀ l < 64, t.ctx.lane l =
           { w.lane l with wake := { (w.lane l).wake with nest := (w.lane l).wake.nest + (if has E l then 1 else 0) } }) ∧
         { t with ctx := w, fresh := s.fresh } = s ∧ { t.ctx with lanes := w.lanes, sp := w.sp } = w ∧
         { t.ctx.sp with recs := w.sp.recs, pc := w.sp.pc, wait := w.sp.wait } = w.sp
     opens (.ifRegion k disp) false ∧
     ∀ v, s.word8 there = .ok v → majOf v = 0x16 ∨ majOf v = 0x17 → T = 0 ∨ E = 0 ∨ 4 ≤ w.splits.length → opens (.ifs k disp) true) ∧
  (∀ (s : State) (k : BitVec 3) (disp : BitVec 24) (v : DWord), s.admits none → s.ctx.sound →
     (∀ r : Region, ({ s.ctx with sp := { s.ctx.sp with recs := r :: s.ctx.sp.recs },
                                  sibs := { s.ctx.sp with recs := r :: s.ctx.sp.recs } :: s.ctx.sibs } : Watch).spillFits = true) →
     let w := s.ctx
     let T := w.gov k
     let E := w.k0 &&& ~~~T
     let there := w.sp.pc + 8 * disp.signExtend 64
     s.word8 there = .ok v →
     (T ≠ 0 → E ≠ 0 → w.splits.length < 4 → ∀ start, (majOf v = 0x16 ∧ start = there + 8) ∨ (majOf v = 0x17 ∧ start = there) →
       ∃ t r c, exec (.ifs k disp) s = .next t ∧ t.ctx.sibs = c :: w.sibs ∧
         t.ctx.sp.recs = r :: w.sp.recs ∧ c.recs = r :: w.sp.recs ∧ r.kind = .ifs ∧ r.resume = there ∧
         r.arm0 = T ∧ r.arm1 = E ∧ r.marks = w.heads ∧ r.scalar = w.sp.swake ∧ r.n = w.sp.id ∧ r.x = c.id ∧
         c.swake = w.sp.swake ∧ c.frames = w.sp.frames ∧ c.depth = w.sp.depth ∧ c.caddy = w.sp.caddy ∧ c.pc = start ∧
         c.since = s.time ∧ c.id < 4 ∧ (∀ p ∈ w.splits, p.id ≠ c.id) ∧
         t.ctx.sp.pc = w.sp.pc + 8 ∧
         (∀ l < 64, t.ctx.lane l = { w.lane l with split := if has E l then c.id else (w.lane l).split }) ∧
         { t with ctx := w, fresh := s.fresh } = s) ∧
     (majOf v ≠ 0x16 → majOf v ≠ 0x17 → exec (.ifs k disp) s = .next (s.takeTrap 0x14 w.k0 0x0A))) ∧
  (∀ (s : State) (disp : BitVec 24), s.admits none →
     let w := s.ctx
     let there := w.sp.pc + 8 * disp.signExtend 64
     (∀ r rs, w.sp.recs = r :: rs → r.kind = .ifr → r.phase = false → w.nestFull r.arm0 = 0 →
       ∃ v, exec (.elseArm disp) s = .next (({ s with ctx := v } : State).settle) ∧
         v.sp = { w.sp with recs := { r with phase := true, resume := there } :: rs, swake := r.scalar, wait := .none,
                            pc := if r.arm1 = 0 then there else w.sp.pc + 8 } ∧
         { v with sp := w.sp, lanes := w.lanes } = w ∧
         ∀ l, l < w.lanes.length →
           let n := (w.lane l).wake.nest + (if has r.arm0 l then 1 else 0)
           v.lane l = { w.lane l with wake := { (w.lane l).wake with nest := if has r.arm1 l ∧ n ≠ 0 then n - 1 else n } }) ∧
     (∀ r rs, w.sp.recs = r :: rs → r.kind = .ifr → r.phase = false → w.nestFull r.arm0 ≠ 0 →
       exec (.elseArm disp) s = .next (s.takeTrapFree 0x04 (w.nestFull r.arm0))) ∧
     (∀ r rs, w.sp.recs = r :: rs → r.kind = .ifs → r.phase = false → exec (.elseArm disp) s = .next (s.setPc there)) ∧
     (w.sp.recs = [] ∨ (∃ r rs, w.sp.recs = r :: rs ∧ (r.kind = .loop ∨ r.phase = true)) →
       exec (.elseArm disp) s = .next (s.takeTrap 0x14 w.k0 1)))

/-- The layout of one lane (R72): the values at the ages L, oldest first, end at ages k - 1 to 0, and the value that stood at position
mark - q before the record stands at age k + q if q plus the depth is at most 31, and is void otherwise. REJOIN on an IF record,
with its entry read and nothing in flight (R76): each lane of an arm is laid out by its arm's list, the lanes that the record
excludes come back, the scalar wake is that of the IF, the record goes, and the split goes on behind. An entry whose parity fails
ends the gang (R384). REJOIN on an IFS record (R81): the split waits until the other holder of the record has arrived; then the two
are one split, with the parent's identity and the earlier ready-since time, behind the parent's REJOIN. -/
def Obligations.Rejoins : Prop :=
  (∀ (v : VWake) (mark : BitVec 5) (depth : Nat) (L : List Nat), v.ring.length = 32 → L.length ≤ 8 →
     let u := v.layout mark depth L
     u.head = mark + BitVec.ofNat 5 L.length ∧ u.nest = v.nest ∧
     (∀ i (h : i < L.length), u.get (L.length - 1 - i) = v.get L[i]) ∧
     ∀ q, L.length + q ≤ 31 →
       u.get (L.length + q) = if q + depth ≤ 31 then v.ring.getD (mark - BitVec.ofNat 5 q).toNat .void else .void) ∧
  (∀ (s : State) (x : BitVec 16) (e : RejoinEntry) (r : Region) (rs : List Region), s.admits none → s.ctx.sound →
     s.ctx.sp.recs = r :: rs → r.kind ≠ .loop → s.rejoinEntry x = .ok e →
     let w := s.ctx
     (e.l0.length ≠ e.l1.length → exec (.rejoin x) s = .next (s.takeTrap 0x14 w.k0 2)) ∧
     (e.l0.length = e.l1.length → w.layoutBad r.arm0 e.l0 = true ∨ w.layoutBad r.arm1 e.l1 = true →
       exec (.rejoin x) s = .next s.parityKill) ∧
     (e.l0.length = e.l1.length → w.laysOut r.arm0 e.l0 → w.laysOut r.arm1 e.l1 → r.kind = .ifr →
       ∃ v, exec (.rejoin x) s = .next (({ s with ctx := v } : State).settle) ∧
         v.sp.pc = w.sp.pc + 8 ∧ v.sp.recs.length = rs.length ∧ v.sp.swake = r.scalar ∧ v.sp.wait = .none ∧
         v.sp.frames = w.sp.frames ∧ v.sibs = w.sibs ∧ v.ks = w.ks ∧ v.caddies = w.caddies ∧
         ∀ l < 64,
           let m := r.marks.getD l 0
           let d := r.depths.getD l 0
           let back := fun (u : VWake) => if u.nest = 0 then u else { u with nest := u.nest - 1 }
           (has r.arm0 l = true → has r.arm1 l = false →
             v.lane l = { w.lane l with wake := back ((w.lane l).wake.layout m d e.l0) }) ∧
           (has r.arm1 l = true → has r.arm0 l = false →
             v.lane l = { w.lane l with wake := back ((w.lane l).wake.layout m d e.l1) }) ∧
           (has r.arm0 l = false → has r.arm1 l = false → v.lane l = w.lane l))) ∧
  (∀ (s : State) (x : BitVec 16) (e : RejoinEntry) (r : Region) (rs : List Region), s.admits none →
     s.ctx.sp.recs = r :: rs → r.kind = .ifs → s.rejoinEntry x = .ok e → e.l0.length = e.l1.length →
     s.ctx.laysOut r.arm0 e.l0 → s.ctx.laysOut r.arm1 e.l1 →
     (s.ctx.twin r.rid = none →
       exec (.rejoin x) s = .next ((s.hold (.rejoin e.l0 e.l1)).pollGang s.ctx.ref)) ∧
     (∀ q a b, s.ctx.twin r.rid = some (q, a, b) →
       ∃ v, exec (.rejoin x) s = .next (({ s with ctx := v } : State).settle) ∧
         v.sp.id = (if s.ctx.sp.id = r.n then s.ctx.sp.id else q.id) ∧
         v.sp.pc = (if s.ctx.sp.id = r.n then s.ctx.sp.pc else q.pc) + 8 ∧
         v.sp.since = min s.ctx.sp.since q.since ∧ v.sp.wait = .none ∧ v.sp.recs.length = rs.length ∧
         v.sibs = s.ctx.sibs.filter (fun p => p.id != q.id) ∧
         ∀ l < 64, l < s.ctx.lanes.length → (v.lane l).split =
           if (s.ctx.lane l).split = s.ctx.sp.id ∨ (s.ctx.lane l).split = q.id then v.sp.id else (s.ctx.lane l).split))

/-- LOOP, and where an empty split goes from it (R82, R83), and ENDLOOP with its entry read and nothing in flight (R84). BRK and CONT
with their entry read and nothing in flight (R85): the departing lanes are laid out against the innermost loop, leave the arms of
the records above it, and are parked in its broken or continued mask. EXIT (R82, R86): the selected lanes exit, lose their
reservations and leave the masks of every record of the split; and a lane that has exited never becomes active. -/
def Obligations.LoopsAndDepartures : Prop :=
  (∀ (s : State), s.admits none → s.ctx.sound →
     let w := s.ctx
     (∀ (n : BitVec 7) (disp : BitVec 24) (x : BitVec 16), x.toNat < 256 →
       (∀ r : Region, ({ w with sp := { w.sp with recs := r :: w.sp.recs } } : Watch).spillFits = true) →
       ∃ r, exec (.loop n disp x) s =
           .next ({ s with fresh := s.fresh + 1,
                           ctx := { w with sp := { w.sp with recs := r :: w.sp.recs, wait := .none,
                                                             pc := if w.k0 = 0 then r.resume - 8 else w.sp.pc + 8 } } } : State) ∧
         r.kind = .loop ∧ r.n = n.toNat ∧ r.x = x.toNat ∧ r.resume = w.sp.pc + 8 * disp.signExtend 64 ∧
         r.arm0 = 0 ∧ r.arm1 = 0 ∧
         ∀ l < 64, r.marks.getD l 0 = (w.lane l).wake.head - BitVec.ofNat 5 n.toNat ∧ r.depths.getD l 0 = n.toNat) ∧
     (∀ (k : BitVec 3) (disp : BitVec 24) (x : BitVec 16) (e : RejoinEntry) (r : Region) (rs : List Region),
       w.sp.recs = r :: rs → r.kind = .loop → s.rejoinEntry x = .ok e → e.l0.length = r.n → e.l1.length = r.x →
       w.laysOut (w.gov k) e.l0 → w.laysOut (w.k0 &&& ~~~(w.gov k)) e.l1 →
       let C := w.gov k
       let X := w.k0 &&& ~~~C
       ∃ v, exec (.endloop k disp x) s = .next (({ s with ctx := v } : State).settle) ∧
         v.sp.pc = (if C ||| r.arm1 ≠ 0 then w.sp.pc + 8 * disp.signExtend 64 else r.resume) ∧
         (C ||| r.arm1 ≠ 0 → ∃ r', v.sp.recs.head? = some r' ∧ r'.arm0 = r.arm0 ||| X ∧ r'.arm1 = 0 ∧
           v.sp.recs.length = rs.length + 1) ∧
         (C ||| r.arm1 = 0 → v.sp.recs.length = rs.length) ∧
         ∀ l < 64,
           let m := r.marks.getD l 0
           let d := r.depths.getD l 0
           (has C l = true → (v.lane l).wake.ring = ((w.lane l).wake.layout m d e.l0).ring ∧
             (v.lane l).wake.head = m + BitVec.ofNat 5 r.n) ∧
           (has X l = true → (v.lane l).wake.ring = ((w.lane l).wake.layout m d e.l1).ring ∧
             (v.lane l).wake.head = m + BitVec.ofNat 5 r.x) ∧
           (has w.k0 l = false → (v.lane l).wake.ring = (w.lane l).wake.ring))) ∧
  (∀ (s : State) (k : BitVec 3) (x : BitVec 16) (above below : List Region) (r : Region) (e : RejoinEntry),
     s.admits none → s.ctx.sound → splitAtLoop s.ctx.sp.recs = some (above, r, below) → s.rejoinEntry x = .ok e →
     let w := s.ctx
     let D := w.gov k
     let departs := fun (i : Instr) (L : List Nat) (brk : Bool) =>
       w.laysOut D L →
       ∃ v, exec i s = .next ((({ s with ctx := v } : State).advance 8).settle) ∧ v.sp.pc = w.sp.pc ∧
         v.sp.recs.length = w.sp.recs.length ∧
         (∀ i < above.length, ∃ q q', w.sp.recs[i]? = some q ∧ v.sp.recs[i]? = some q' ∧
           q'.arm0 = q.arm0 &&& ~~~D ∧ q'.arm1 = q.arm1 &&& ~~~D) ∧
         (∃ q, v.sp.recs[above.length]? = some q ∧ q.arm0 = (if brk then r.arm0 ||| D else r.arm0) ∧
           q.arm1 = (if brk then r.arm1 else r.arm1 ||| D)) ∧
         ∀ l < 64, (has D l = true →
             (v.lane l).wake = { (w.lane l).wake.layout (r.marks.getD l 0) (r.depths.getD l 0) L with nest := 1 }) ∧
           (has D l = false → v.lane l = w.lane l)
     (e.l1.length = r.x → departs (.brk k x) e.l1 true) ∧ (e.l0.length = r.n → departs (.cont k x) e.l0 false)) ∧
  (∀ (s : State) (k : BitVec 3), s.admits none →
     let w := s.ctx
     let D := w.gov k
     ∃ v, exec (.exit k) s = .next ((({ s with ctx := v } : State).advance 8).settle) ∧
       (∀ l < w.lanes.length, v.lane l =
         if has D l then { w.lane l with exited := true, resv := none } else w.lane l) ∧
       v.k0 = w.k0 &&& ~~~D ∧ v.sibs = w.sibs ∧ v.sp.pc = w.sp.pc ∧
       (∀ r ∈ v.sp.recs, r.arm0 &&& D = 0 ∧ r.arm1 &&& D = 0) ∧
       (∀ f ∈ v.sp.frames, ∀ r ∈ f.recs, r.arm0 &&& D = 0 ∧ r.arm1 &&& D = 0) ∧
       v.sp.recs.length = w.sp.recs.length ∧ v.sp.frames.length = w.sp.frames.length)

/-- CALL and CALLI with nothing in flight in their arguments and with blocks at once (R60, R87, R118): the caller's frame is kept, and
the callee has N vector and M scalar arguments, b blocks of zeros, no record, one more level; a lane that has exited keeps its wake.
What CALL and CALLI check, in order (R87): the depth, a void, pending or misaligned target, and more blocks than the pool can ever
grant; arguments in flight (R60), and a request that must wait, leave the PC where it is; one whose parity fails ends the gang
(R384). RET (R88) with nothing in flight: results go to the caller's wakes, the callee's age 0 at age 0, void ones as void; and
where it is no return. -/
def Obligations.CallsAndReturns : Prop :=
  (∀ (s : State) (n : BitVec 7) (m b : BitVec 8) (disp : BitVec 24) (age : BitVec 4), s.admits none → s.ctx.sound →
     let w := s.ctx
     w.sp.depth ≠ 255 → w.blocksHeld w.pool + b.toNat ≤ s.poolSize w.core w.pool →
     (∀ fid blks target, (w.call fid w.pool blks n.toNat m.toNat b.toNat target).spillFits = true) →
     w.topsRead n.toNat m.toNat → (b = 0 ∨ s.grantNow w.core w.pool b.toNat = true) →
     let entered := fun (i : Instr) (target : DWord) =>
       ∃ t, exec i s = .next t ∧ { t with ctx := w, fresh := s.fresh } = s ∧
         t.ctx.sp.pc = target ∧ t.ctx.sp.depth = w.sp.depth + 1 ∧ t.ctx.sp.recs = [] ∧ t.ctx.sp.wait = .none ∧
         t.ctx.caddy.slots = zeroBlocks b.toNat ∧ t.ctx.caddy.blks = (s.freeBlocks w.core w.pool).take b.toNat ∧ t.ctx.k0 = w.k0 ∧
         (∃ f, t.ctx.sp.frames = f :: w.sp.frames ∧ f.kind = .call ∧ f.retPc = w.sp.pc + 8 ∧ f.retNext = w.sp.pc + 8 ∧
           f.swake = w.sp.swake ∧ f.caddy = w.sp.caddy ∧ f.recs = w.sp.recs) ∧
         (∀ a < 16, t.ctx.sp.swake.get a = if a < m.toNat then w.sp.swake.get a else .void) ∧
         (∀ l < 64, (w.lane l).split = w.sp.id → (t.ctx.lane l).saved = (w.lane l).wake :: (w.lane l).saved ∧
           (t.ctx.lane l).wake.nest = (w.lane l).wake.nest ∧
           ∀ a < 32, (t.ctx.lane l).wake.get a =
             if (w.lane l).exited = true ∨ (a < n.toNat ∧ has w.k0 l = true) then (w.lane l).wake.get a else .void) ∧
         (∀ l < 64, (w.lane l).split ≠ w.sp.id → t.ctx.lane l = w.lane l)
     entered (.call n disp m b) (w.sp.pc + 8 * disp.signExtend 64) ∧
     (∀ t, w.sp.swake.get age.toNat = .val t → t.toNat % 8 = 0 → entered (.calli n age m b) t)) ∧
  (∀ (s : State) (n : BitVec 7) (m b : BitVec 8) (disp : BitVec 24) (age : BitVec 4), s.admits none →
     let w := s.ctx
     let fits := w.blocksHeld w.pool + b.toNat ≤ s.poolSize w.core w.pool
     let room := ∀ fid blks target, (w.call fid w.pool blks n.toNat m.toNat b.toNat target).spillFits = true
     (w.sp.depth = 255 →
       exec (.call n disp m b) s = .next (s.takeTrapFree 0x05 w.k0) ∧
       exec (.calli n age m b) s = .next (s.takeTrapFree 0x05 w.k0)) ∧
     (w.sp.depth ≠ 255 → w.sp.swake.get age.toNat = .void →
       exec (.calli n age m b) s = .next (s.takeTrapFree 0x03 w.k0)) ∧
     (w.sp.depth ≠ 255 → (w.sp.swake.get age.toNat).isPend = true → exec (.calli n age m b) s = .next (s.hold .operand)) ∧
     (w.sp.depth ≠ 255 → ∀ t, w.sp.swake.get age.toNat = .val t → t.toNat % 8 ≠ 0 →
       exec (.calli n age m b) s = .next (s.takeTrapFree 0x0B w.k0)) ∧
     (w.sp.depth ≠ 255 → ¬ fits → exec (.call n disp m b) s = .next (s.takeTrap 0x13 w.k0 4)) ∧
     (w.sp.depth ≠ 255 → fits → room → w.topBad n.toNat m.toNat = true → exec (.call n disp m b) s = .next s.parityKill) ∧
     (w.sp.depth ≠ 255 → fits → room → w.topBad n.toNat m.toNat = false → w.topPends n.toNat m.toNat = true →
       exec (.call n disp m b) s = .next (s.hold .operand)) ∧
     (w.sp.depth ≠ 255 → fits → room → w.topsRead n.toNat m.toNat → b ≠ 0 → s.grantNow w.core w.pool b.toNat = false →
       ∃ t, exec (.call n disp m b) s = .next t ∧ t.ctx.sp.pc = w.sp.pc ∧ t.ctx.sp.wait = .caddy b.toNat ∧
         t.caddyQ.length = s.caddyQ.length + 1)) ∧
  (∀ (s : State) (n : BitVec 7) (m : BitVec 8), s.admits none → s.ctx.sound → n.toNat ≤ 32 → m.toNat ≤ 16 →
     let w := s.ctx
     (∀ f below, w.sp.frames = f :: below → f.kind = .call → w.sp.recs = [] → w.topsRead n.toNat m.toNat →
       ∃ v, exec (.ret n m) s = .next (({ s with ctx := v } : State).settle) ∧ v.sp.pc = f.retNext ∧ v.sp.frames = below ∧
         v.sp.depth = w.sp.depth - 1 ∧ v.sp.caddy = f.caddy ∧ v.sp.recs.length = f.recs.length ∧ v.ks = w.ks ∧
         (∀ a < 16, v.sp.swake.get a = if a < m.toNat then w.sp.swake.get a else f.swake.get (a - m.toNat)) ∧
         ∀ l < 64, (w.lane l).split = w.sp.id → ∀ a < 32,
           (has w.k0 l = true → (v.lane l).wake.get a =
             if a < n.toNat then (w.lane l).wake.get a
             else ((w.lane l).saved.headD VWake.empty).get (a - n.toNat)) ∧
           (has w.k0 l = false → (v.lane l).wake = (w.lane l).saved.headD VWake.empty)) ∧
     (w.sp.frames = [] ∨ (∃ f below, w.sp.frames = f :: below ∧ f.kind ≠ .call) →
       exec (.ret n m) s = .next (s.takeTrap 0x14 w.k0 8)) ∧
     (∀ f below, w.sp.frames = f :: below → f.kind = .call → w.sp.recs ≠ [] →
       exec (.ret n m) s = .next (s.takeTrap 0x14 w.k0 7)))

/-! ### System -/

/-- SRD pushes the register's value as R326's table lays it out, for every row of it; a read of SATF, whose bits at and beyond EWIDTH
are 0, waits until every earlier instruction of the watch has completed (R166, R326). SWR writes NTID, clears BOVF by a 1, and
writes CTRCFG of a counter that the executing domain owns; a counter that it does not own stays (R326, R327). CTRRD reads a counter
that its domain owns, or the device time for n = 15; FEATQ the enabled groups, or those this part implements (R328, R335). -/
def Obligations.SpecialRegisters : Prop :=
  (∀ (s : State) (r : BitVec 12), s.admits none → let w := s.ctx
     let settled := w.flights = [] ∧ ∀ p ∈ w.sibs, p.record.done = 0
     (r ≠ 8 ∨ settled → exec (.srd r) s = .next (s.pushScalar (BitVec.ofNat 64 (s.special r.toNat)))) ∧
     (¬ settled → exec (.srd 8) s = .next (s.hold .operand)) ∧
     s.special 0x000 = w.ewidth * 2 ^ 8 + 64 ∧ s.special 0x001 = 0x0100 ∧
     s.special 0x002 = w.sp.id * 2 ^ 8 + w.splits.length ∧ s.special 0x003 = w.sp.depth.toNat ∧
     s.special 0x004 = w.caddy.slots.length / 8 ∧ s.special 0x009 = (if w.bovf then 1 else 0) ∧
     s.special 0x00A = w.ntid.toNat ∧
     s.special 0x00B = s.regField (.dpol w.dom) 1 1 * 2 + s.regField (.dstat w.dom) 0 1 ∧
     s.special 0x00C = s.regField (.dstat w.dom) 32 32 ∧ s.special 0x00D = s.regField (.debt w.core w.dom) 0 32 ∧
     s.special 0x010 = w.slot * 2 ^ 10 + placeBits w.core ∧ s.special 0x015 = s.engineCount w.ref * 2 ^ 8 + w.loadCount ∧
     s.special 0x011 = w.ref.gang ∧ s.special 0x012 = w.ref.watch * 4 + w.ref.block ∧
     s.special 0x013 = w.dom ∧ s.special 0x014 = w.cls ∧
     (∀ l < 64, l < w.lanes.length → (s.special 0x008).testBit l = (decide (l < w.ewidth) && (w.lane l).satf)) ∧
     (∀ i < 16, s.special (0x20 + 2 * i) + s.special (0x21 + 2 * i) * 2 ^ 64 = (w.segs.getD i 0).toNat) ∧
     (∀ n < 8, s.special (0x60 + n) = if s.regField (.ctrown w.core) (5 * n) 5 = w.dom then (s.reg (.ctrcfg w.core n)).toNat else 0)) ∧
  (∀ (s : State) (a : Opnd), s.uniOk [⟨0, a, 1⟩] →
     let w := s.ctx
     let v := w.uni a
     exec (.swr 0x00A a) s = .next ((s.mapCtx (fun w => { w with ntid := v.setWidth 12 })).advance 8) ∧
     exec (.swr 0x009 a) s = .next ((s.mapCtx (fun w => { w with bovf := w.bovf && !v.getLsbD 0 })).advance 8) ∧
     ∀ n : BitVec 12, n.toNat < 8 →
       (s.ownsCounter n.toNat = false → exec (.swr (0x060 + n) a) s = .next (s.advance 8)) ∧
       (s.ownsCounter n.toNat = true → ∃ c, exec (.swr (0x060 + n) a) s = .next (({ s with cfg := c } : State).advance 8) ∧
         let t : State := { s with cfg := c }
         t.regField (.ctrcfg w.core n.toNat) 0 8 = v.toNat % 256 ∧
         t.regField (.ctrcfg w.core n.toNat) 13 1 = v.toNat / 2 ^ 13 % 2 ∧
         t.regField (.ctrcfg w.core n.toNat) 15 1 = v.toNat / 2 ^ 15 % 2 ∧
         (t.regField (.ctrcfg w.core n.toNat) 14 1 = 1 ↔
           s.regField (.ctrcfg w.core n.toNat) 14 1 = 1 ∧ v.getLsbD 14 = false) ∧
         t.reg (.ctrcount w.core n.toNat) = (if v.getLsbD 16 then 0 else s.reg (.ctrcount w.core n.toNat)) ∧
         ∀ r, r ≠ .ctrcfg w.core n.toNat → r ≠ .ctrcount w.core n.toNat → t.reg r = s.reg r)) ∧
  (∀ (s : State) (n : BitVec 4),
     (s.admits (some 10) →
       exec (.ctrrd 15) s = .next (s.pushScalar (BitVec.ofNat 64 (s.time % 2 ^ 48))) ∧
       (n ≠ 15 → exec (.ctrrd n) s = .next (s.pushScalar
         (if s.regField (.ctrown s.ctx.core) (5 * n.toNat) 5 = s.ctx.dom then
           BitVec.ofNat 64 (s.regField (.ctrcount s.ctx.core n.toNat) 0 48) else 0)))) ∧
     (s.admits none →
       exec (.featq false) s = .next (s.pushScalar (s.ctx.feat &&& 0x1FFF)) ∧
       exec (.featq true) s = .next (s.pushScalar 0x1FFF)))

/-- NOP, SLEEP with the end of its count, YIELD, and a YIELDB with no request: each lets the split go on, now or after its cycles, and
changes nothing else (R343, R344, R345, R351). CGROW and CSHRINK (R118 to R121), with n = opA and f the blocks of the frame: what
each grants, waits for, refuses or traps on; and what a grant from the queue completes. New blocks read zero. A grant from a pool's
queue (R118, R119): requests of halted splits, and of splits that wait no longer, are withdrawn; the first of the others waits while
its blocks are not free; when they are, it leaves the queue and its instruction completes. That a request which the checks of its
instruction would refuse by then is withdrawn is the model's choice (log 97). -/
def Obligations.YieldsAndCaddies : Prop :=
  (∀ (s : State) (a : Opnd) (r : WatchRef) (id : Nat),
     (s.admits none → exec .nop s = .next (s.advance 8)) ∧
     (s.uniOk [⟨0, a, 1⟩] →
       let n := min (s.ctx.uni a).toNat (2 ^ 20)
       (n = 0 → exec (.sleep a) s = .next (s.advance 8)) ∧
       (n ≠ 0 → exec (.sleep a) s = .next ((s.advance 8).hold (.sleep (s.time + n))))) ∧
     (s.admits none → s.ctx.cls ≠ 2 →
       exec .yield s = .next ((s.mapCtx (fun w => { w with sp := { w.sp with since := s.time, held := 0, defer := false } })).advance 8) ∧
       (∀ g, s.gangOf s.ctx.ref.launch s.ctx.ref.gang = some g →
         (s.requested g s.ctx.home = false → exec .yieldb s = .next (s.advance 8)) ∧
         (s.requested g s.ctx.home = true →
           exec .yieldb s = .next (((s.advance 8).hold .yieldb).pollGang s.ctx.ref)))) ∧
     (s.admits none → s.ctx.cls = 2 → exec .yield s = .next (s.advance 8) ∧ exec .yieldb s = .next (s.advance 8)) ∧
     exec (.sleepEnd r id) s = .next (s.modSplit r id (fun p =>
       match p.wait with
       | .sleep x => if x ≤ s.time then { p with wait := .none, since := s.time } else p
       | _ => p))) ∧
  (∀ (s : State) (a : Opnd), s.uniOk [⟨0, a, 1⟩] →
     let w := s.ctx
     let n := (w.uni a).toNat
     let f := w.caddy.slots.length / 8
     -- more than the pool's blocks less those that the watch holds, a number that may be below 0
     let tooMany := s.poolSize w.core w.pool < w.blocksHeld w.pool + n
     let grown := fun (w : Watch) => w.mapCaddy (fun f =>
       { f with blks := f.blks ++ (s.freeBlocks w.core w.pool).take n, slots := f.slots ++ zeroBlocks n })
     (8 - f < n → exec (.cgrowWait a) s = .next (s.takeTrap 0x13 w.k0 3) ∧ exec (.cgrowTry a) s = .next (s.pushScalar 0)) ∧
     (n ≤ 8 - f → tooMany →
       exec (.cgrowWait a) s = .next (s.takeTrap 0x13 w.k0 4) ∧ exec (.cgrowTry a) s = .next (s.pushScalar 0)) ∧
     (n = 0 → ¬ tooMany → exec (.cgrowWait a) s = .next (s.advance 8) ∧
       exec (.cgrowTry a) s = .next (s.pushScalar 1)) ∧
     (n ≤ 8 - f → ¬ tooMany → n ≠ 0 → s.grantNow w.core w.pool n = true →
       exec (.cgrowWait a) s = .next ((s.mapCtx grown).advance 8) ∧
       exec (.cgrowTry a) s = .next ((s.mapCtx grown).pushScalar 1)) ∧
     (n ≤ 8 - f → ¬ tooMany → n ≠ 0 → s.grantNow w.core w.pool n = false →
       exec (.cgrowTry a) s = .next (s.pushScalar 0) ∧
       ∃ t, exec (.cgrowWait a) s = .next t ∧ t.ctx.sp.pc = w.sp.pc ∧ t.ctx.sp.wait = .caddy n ∧ t.ctx.caddy = w.caddy ∧
         t.caddyQ = s.caddyQ ++ [{ core := w.core, pool := w.pool, watch := w.ref, split := w.sp.id, blocks := n, use := .grow }]) ∧
     (f < n → exec (.cshrink a) s = .next (s.takeTrap 0x13 w.k0 5)) ∧
     (n ≤ f → exec (.cshrink a) s = .next ((s.mapCtx (fun w => w.mapCaddy (fun f =>
       let k := f.slots.length / 8 - n
       { f with blks := f.blks.take k, slots := f.slots.take (8 * k), bad := f.bad.filter (fun b => decide (b.1 < 8 * k)) }))).advance 8))) ∧
  (∀ (s : State) (core pool : Nat) (r : CaddyReq),
     let u := s.withdrawReqs
     u.caddyQ = s.caddyQ.filter s.reqLive ∧
     (u.caddyQ.find? (fun q => q.core == core && q.pool == pool) = some r →
       (u.poolFree core pool < r.blocks → exec (.caddyGrant core pool) s = .next u) ∧
       (r.blocks ≤ u.poolFree core pool → u.ctx.resident = true → u.ctx.ref = r.watch → u.ctx.sp.id = r.split →
         let v : State := { u with caddyQ := u.caddyQ.erase r }
         let blks := (u.freeBlocks core pool).take r.blocks
         (r.use = .grow →
           (8 - u.ctx.caddy.slots.length / 8 < r.blocks → exec (.caddyGrant core pool) s = .next (v.hold .none)) ∧
           (r.blocks ≤ 8 - u.ctx.caddy.slots.length / 8 →
             exec (.caddyGrant core pool) s = .next ((v.mapCtx (fun w => w.mapCaddy (fun f =>
               { f with blks := f.blks ++ blks, slots := f.slots ++ zeroBlocks r.blocks }))).advance 8))) ∧
         (∀ n m target, r.use = .call n m target →
           let w := u.ctx.call u.fresh pool blks n m r.blocks target
           (w.spillFits = false → exec (.caddyGrant core pool) s = .next (v.hold .none)) ∧
           (w.spillFits = true →
             exec (.caddyGrant core pool) s = .next ({ v with fresh := u.fresh + 1, ctx := w } : State))))))

/-- GATE (R336, R337, R339): the checks in order, with their details, the wait for arguments and results in flight (R60), and the entry
into the target domain. That bits [2:0] of the entry address are taken as zero is the model's reading (log 31), and the detail of
CALLDEPTH is a free value (log 2). GRET (R338): results as RET returns them, with the caller's bank and domain; the counts that the
descriptor allows; and where it is no return. -/
def Obligations.GatesAndReturns : Prop :=
  (∀ (s : State) (x : BitVec 16), s.admits (some 11) →
     let w := s.ctx
     let k := devKey 0 (s.regField .gtbase 6 46 * 64 + 64 * x.toNat)
     let d := parseGate x.toNat (s.bytes k 64)
     let trap := fun (n : DWord) => (Host.Outcome.next (s.takeTrap 0x12 w.k0 n) : Out)
     (w.cls = 2 → exec (.gate x) s = .next (s.takeTrap 0x16 w.k0 5)) ∧
     (w.cls ≠ 2 → s.regField .gtcount 0 16 ≤ x.toNat → exec (.gate x) s = trap 1) ∧
     (w.cls ≠ 2 → x.toNat < s.regField .gtcount 0 16 → s.mediaOk k = true → s.poisoned k 64 = false →
       (gateSound d (s.bytes k 64) = false → exec (.gate x) s = trap 3) ∧
       (gateSound d (s.bytes k 64) = true →
         (d.allow.getLsbD w.dom = false → exec (.gate x) s = trap 2) ∧
         (d.allow.getLsbD w.dom = true →
           (s.mayRun w.core d.tdom = false ∨ s.poolFree w.core d.tdom < d.caddy → exec (.gate x) s = trap 4) ∧
           (s.mayRun w.core d.tdom = true → d.caddy ≤ s.poolFree w.core d.tdom → w.sp.depth = 255 →
             exec (.gate x) s = .next (s.takeTrapFree 0x05 w.k0)) ∧
           (s.mayRun w.core d.tdom = true → d.caddy ≤ s.poolFree w.core d.tdom → w.sp.depth ≠ 255 →
             (∀ segs, s.gateSegs d = .ok segs → w.topBad d.nv d.ns = false →
               w.topPends d.nv d.ns = true ∨ w.flights.any Flight.inUnit = true → exec (.gate x) s = .next (s.hold .operand)) ∧
             (∀ segs, s.gateSegs d = .ok segs → w.topsRead d.nv d.ns → w.flights.any Flight.inUnit = false →
               (w.enterGate s.fresh ((s.freeBlocks w.core d.tdom).take d.caddy) d segs (s.reg (.featmask d.tdom))).spillFits = true →
               ∃ t, exec (.gate x) s = .next t ∧ { t with ctx := w, fresh := s.fresh } = s ∧
                 t.ctx.sp.pc = d.code &&& ~~~7 ∧ t.ctx.dom = d.tdom ∧ t.ctx.home = w.home ∧ t.ctx.segs = segs ∧
                 t.ctx.ks = List.replicate 7 0 ∧ t.ctx.bears = List.replicate 8 Bearing.zero ∧
                 t.ctx.shapes = List.replicate 16 0 ∧ t.ctx.bovf = false ∧ t.ctx.ntid = 0 ∧
                 t.ctx.sp.depth = w.sp.depth + 1 ∧ t.ctx.sp.recs = [] ∧ t.ctx.caddy.slots = zeroBlocks d.caddy ∧
                 t.ctx.caddy.pool = d.tdom ∧
                 t.ctx.sibs = w.sibs.map (fun q => { q with stops := q.stops + 1 }) ∧
                 (∃ f, t.ctx.sp.frames = f :: w.sp.frames ∧ f.kind = .gate ∧ f.retPc = w.sp.pc ∧ f.retNext = w.sp.pc + 8 ∧
                   f.ks = w.ks ∧ f.desc = some d ∧ f.swake = w.sp.swake ∧ f.recs = w.sp.recs ∧ f.caddy = w.sp.caddy ∧
                   f.bank = some { bears := w.bears, shapes := w.shapes, segs := w.segs, satf := w.lanes.map (·.satf),
                                   bovf := w.bovf, ntid := w.ntid, dom := w.dom, feat := w.feat }))))))) ∧
  (∀ (s : State) (n : BitVec 7) (m : BitVec 8), s.admits none → s.ctx.sound → n.toNat ≤ 32 → m.toNat ≤ 16 →
     let w := s.ctx
     (∀ f below d b, w.sp.frames = f :: below → f.kind = .gate → f.desc = some d → f.bank = some b →
       (w.sp.recs ≠ [] → exec (.gret n m) s = .next (s.takeTrap 0x14 w.k0 7)) ∧
       (w.sp.recs = [] → d.rv < n.toNat ∨ d.rs < m.toNat → exec (.gret n m) s = .next (s.takeTrap 0x12 w.k0 5)) ∧
       (w.sp.recs = [] → n.toNat ≤ d.rv → m.toNat ≤ d.rs → w.topsRead n.toNat m.toNat →
         ∃ v, exec (.gret n m) s = .next (({ s with ctx := v } : State).settle) ∧ v.sp.pc = f.retNext ∧ v.sp.frames = below ∧
           v.sp.depth = w.sp.depth - 1 ∧ v.ks = f.ks ∧ v.bears = b.bears ∧ v.shapes = b.shapes ∧ v.segs = b.segs ∧
           v.bovf = b.bovf ∧ v.ntid = b.ntid ∧ v.dom = b.dom ∧ v.feat = b.feat ∧
           v.sibs = w.sibs.map (fun q => { q with stops := q.stops - 1 }) ∧
           (∀ a < 16, v.sp.swake.get a = if a < m.toNat then w.sp.swake.get a else f.swake.get (a - m.toNat)) ∧
           ∀ l < 64, (v.lane l).satf = b.satf.getD l false ∧
             ((w.lane l).split = w.sp.id → ∀ a < 32, has w.k0 l = true →
               (v.lane l).wake.get a = if a < n.toNat then (w.lane l).wake.get a
                 else ((w.lane l).saved.headD VWake.empty).get (a - n.toNat)))) ∧
     (w.sp.frames = [] ∨ (∃ f below, w.sp.frames = f :: below ∧ f.kind ≠ .gate) →
       exec (.gret n m) s = .next (s.takeTrap 0x01 w.k0 3)))

/-! ### Integer and masks -/

/-- The scalar instructions of R99: x in 64 bits for .I64, or in 32 bits extended for .I32 and .N32 (R94), wrapping without a flag; and
a void source raises VOIDREAD with k0. SCMP with each condition of R98, SSEL, and the constants (R98, R100, R101). SLANE and SPICK
(R102, R103): the entry of the lane where it may be read, and the fill otherwise. -/
def Obligations.ScalarOperations : Prop :=
  (∀ f : FmtA, f.ty = .i64 ∨ f.ty = .i32 ∨ f.ty = .n32 →
     let ab : List Src := [⟨0, f.a, 1⟩, ⟨1, f.b, 1⟩]
     let is := fun (i : Instr) (g64 : BitVec 64 → BitVec 64 → BitVec 64) (g32 : BitVec 32 → BitVec 32 → BitVec 32) =>
       pushesScalar i ab (fun w v =>
         v = scalarOf f.ty (g64 (w.uni f.a) (w.uni f.b)) (g32 ((w.uni f.a).setWidth 32) ((w.uni f.b).setWidth 32)))
     is (.sadd f) (· + ·) (· + ·) ∧ is (.ssub f) (· - ·) (· - ·) ∧ is (.smul f) (· * ·) (· * ·) ∧
     is (.smulh f) (fun a b => ((a.signExtend 128 * b.signExtend 128).extractLsb' 64 64))
       (fun a b => if f.ty = .i32 then ((a.signExtend 64 * b.signExtend 64).extractLsb' 32 32)
                   else ((a.zeroExtend 64 * b.zeroExtend 64).extractLsb' 32 32)) ∧
     (f.ty = .i64 → is (.sand f) (· &&& ·) (· &&& ·) ∧ is (.sor f) (· ||| ·) (· ||| ·) ∧ is (.sxor f) (· ^^^ ·) (· ^^^ ·) ∧
       pushesScalar (.snot f) [⟨0, f.a, 1⟩] (fun w v => v = ~~~(w.uni f.a))) ∧
     is (.sshl f) (fun a b => a <<< (b.toNat % 64)) (fun a b => a <<< (b.toNat % 32)) ∧
     is (.sshr f) (fun a b => a >>> (b.toNat % 64)) (fun a b => a >>> (b.toNat % 32)) ∧
     is (.ssar f) (fun a b => a.sshiftRight (b.toNat % 64)) (fun a b => a.sshiftRight (b.toNat % 32)) ∧
     is (.smin f) (fun a b => if a.sle b then a else b) (fun a b => if a.sle b then a else b) ∧
     is (.smax f) (fun a b => if a.sle b then b else a) (fun a b => if a.sle b then b else a) ∧
     is (.snmin f) (fun a b => if a.ule b then a else b) (fun a b => if a.ule b then a else b) ∧
     is (.snmax f) (fun a b => if a.ule b then b else a) (fun a b => if a.ule b then b else a) ∧
     ∀ (s : State) (x : BitVec 4), s.admits none → f.a = .s x → s.ctx.sp.swake.get x.toNat = .void →
       ∀ i ∈ [Instr.sadd f, .ssub f, .smul f, .smulh f, .sand f, .sor f, .sxor f, .snot f, .sshl f, .sshr f, .ssar f, .smin f,
           .smax f, .snmin f, .snmax f],
         exec i s = .next (s.takeTrap 0x03 s.ctx.k0 (BitVec.ofNat 64 f.a.code.toNat))) ∧
  (∀ (f : FmtA) (a : Opnd) (x : BitVec 16) (l : BitVec 48), f.ty = .i64 ∨ f.ty = .i32 ∨ f.ty = .n32 →
     let cmp := fun (c : Cond) (g64 : BitVec 64 → BitVec 64 → Bool) (g32 : BitVec 32 → BitVec 32 → Bool) =>
       pushesScalar (.scmp c f) [⟨0, f.a, 1⟩, ⟨1, f.b, 1⟩] (fun w v =>
         v = if (if f.ty = .i64 then g64 (w.uni f.a) (w.uni f.b)
                 else g32 ((w.uni f.a).setWidth 32) ((w.uni f.b).setWidth 32)) then 1 else 0)
     cmp .eq (fun a b => a == b) (fun a b => a == b) ∧ cmp .ne (fun a b => a != b) (fun a b => a != b) ∧
     cmp .lt (fun a b => a.slt b) (fun a b => a.slt b) ∧ cmp .le (fun a b => a.sle b) (fun a b => a.sle b) ∧
     cmp .gt (fun a b => b.slt a) (fun a b => b.slt a) ∧ cmp .ge (fun a b => b.sle a) (fun a b => b.sle a) ∧
     cmp .ltu (fun a b => a.ult b) (fun a b => a.ult b) ∧ cmp .leu (fun a b => a.ule b) (fun a b => a.ule b) ∧
     cmp .gtu (fun a b => b.ult a) (fun a b => b.ult a) ∧ cmp .geu (fun a b => b.ule a) (fun a b => b.ule a) ∧
     pushesScalar (.ssel f) [⟨0, f.a, 1⟩, ⟨1, f.b, 1⟩, ⟨2, f.c, 1⟩]
       (fun w v => v = if w.uni f.c ≠ 0 then w.uni f.a else w.uni f.b) ∧
     pushesScalar (.sldi x) [] (fun _ v => v.toInt = x.toInt) ∧
     pushesScalar (.sldiHi a x) [⟨0, a, 1⟩]
       (fun w v => v.extractLsb' 48 16 = x ∧ v.extractLsb' 0 48 = (w.uni a).extractLsb' 0 48) ∧
     ∀ s : State, s.admits none →
       ∃ v : DWord, v.toInt = l.toInt ∧ exec (.ldil l) s = .next ((s.mapCtx (·.pushUni v)).advance 16)) ∧
  (∀ (f : FmtA) (s : State), f.ty = .i64 ∨ f.ty = .i32 ∨ f.ty = .n32 →
     let w := s.ctx
     let fill := if f.c.si then (w.uni f.c).toNat else 0
     let fills : List Src := if f.c.si then [⟨2, f.c, 1⟩] else []
     let src := Src.of 0 f.ty f.a
     let none_pends := ∀ l < 64, src.pendIn w (lane1 l) = 0 ∧ src.badIn w (lane1 l) = 0
     let takes := fun (i : Instr) (l : Option Nat) =>
       exec i s = .next (s.pushScalar (scalarExt f.ty (match l with
         | none => fill
         | some l => if has (src.voidIn w (lane1 l)) l then fill else w.opnd f.ty f.a l)))
     none_pends → w.ewidth ≤ 64 →
     (s.uniOk (⟨1, f.b, 1⟩ :: fills) →
       let j := (w.uni f.b).toNat
       -- a lane of the split, not exited, and not parked by a record that stands for a split
       (j < w.ewidth → (w.lane j).split = w.sp.id → (w.lane j).exited = false →
         ((w.lane j).wake.nest = 0 ∨ w.originExcludes j = false) → takes (.slane f) (some j)) ∧
       (w.ewidth ≤ j ∨ (w.lane j).split ≠ w.sp.id ∨ (w.lane j).exited = true ∨
         ((w.lane j).wake.nest ≠ 0 ∧ w.originExcludes j = true) → takes (.slane f) none)) ∧
     (s.uniOk fills →
       let m := w.gov (f.ext.setWidth 3)
       (m = 0 → takes (.spick f) none) ∧
       ∀ l < 64, has m l = true → (∀ j < l, has m j = false) → takes (.spick f) (some l)))

/-- The element arithmetic of R104 with SAT = 0: for each element of width n, by wrapping, on signed or unsigned values. The element
arithmetic of R104 with SAT = 1 (R95): the exact result, IMAD's too, is clamped once. -/
def Obligations.IntegerArithmetic : Prop :=
  (∀ f : FmtA, f.sat = false →
     let n := f.ty.width
     let A := fun (w : Watch) l e => w.el f f.a l e
     let B := fun (w : Watch) l e => w.el f f.b l e
     let C := fun (w : Watch) l e => w.el f f.c l e
     pushesElems (.iadd f) f (srcAB f) (fun w l e => (A w l e + B w l e) % 2 ^ n) ∧
     pushesElems (.isub f) f (srcAB f) (fun w l e => (A w l e + (2 ^ n - B w l e)) % 2 ^ n) ∧
     pushesElems (.imul f) f (srcAB f) (fun w l e => A w l e * B w l e % 2 ^ n) ∧
     pushesElems (.imad f) f (srcABC f) (fun w l e => (A w l e * B w l e + C w l e) % 2 ^ n) ∧
     pushesElems (.ineg f) f (srcA f) (fun w l e => (2 ^ n - A w l e) % 2 ^ n) ∧
     pushesElems (.iabs f) f (srcA f) (fun w l e => if A w l e < 2 ^ (n - 1) then A w l e else 2 ^ n - A w l e) ∧
     pushesElems (.imin f) f (srcAB f) (fun w l e => if signed n (A w l e) ≤ signed n (B w l e) then A w l e else B w l e) ∧
     pushesElems (.imax f) f (srcAB f) (fun w l e => if signed n (A w l e) ≤ signed n (B w l e) then B w l e else A w l e) ∧
     pushesElems (.nmin f) f (srcAB f) (fun w l e => min (A w l e) (B w l e)) ∧
     pushesElems (.nmax f) f (srcAB f) (fun w l e => max (A w l e) (B w l e))) ∧
  (∀ f : FmtA, f.sat = true →
     pushesClamped (.iadd f) f (srcAB f) (fun w l e => w.eli f f.a l e + w.eli f f.b l e) ∧
     pushesClamped (.isub f) f (srcAB f) (fun w l e => w.eli f f.a l e - w.eli f f.b l e) ∧
     pushesClamped (.imul f) f (srcAB f) (fun w l e => w.eli f f.a l e * w.eli f f.b l e) ∧
     pushesClamped (.imad f) f (srcABC f) (fun w l e => w.eli f f.a l e * w.eli f f.b l e + w.eli f f.c l e) ∧
     (f.ty.isSigned = true →
       pushesClamped (.ineg f) f (srcA f) (fun w l e => -w.eli f f.a l e) ∧
       pushesClamped (.iabs f) f (srcA f) (fun w l e => ((w.eli f f.a l e).natAbs : Int))))

/-- Carries, high halves, logic and shifts (R94, R105, R106, R107): the carry or borrow goes first, so that it ends at age 1; counts are
taken modulo the width. Bit fields, counts and reversal (R108, R109): POPC and CLZ push one N32 entry for either type. -/
def Obligations.ShiftsAndBits : Prop :=
  (∀ f : FmtA,
     let n := f.ty.width
     let A := fun (w : Watch) l => w.opnd f.ty f.a l
     let B := fun (w : Watch) l => w.opnd f.ty f.b l
     let shifts := fun (i : Instr) (r : Nat → Nat → Nat → Bool) =>
       pushesLanes i f (srcAB f) f.ty (fun w l x => ∀ e < f.ty.count, ∀ b < n,
         x.testBit (n * e + b) = r (w.el f f.a l e) (w.el f f.b l e % n) b)
     (f.ty = .n32 → ∀ s : State, s.vecOk f (srcABC f) →
       let ci := fun l => s.ctx.opnd f.ty f.c l % 2
       (∃ co x, exec (.iadc f) s = .next (s.pushPair (s.ctx.gov f.k) co x) ∧
         ∀ l, x l < 2 ^ 32 ∧ co l < 2 ∧ x l + co l * 2 ^ 32 = A s.ctx l + B s.ctx l + ci l) ∧
       (∃ co x, exec (.isbb f) s = .next (s.pushPair (s.ctx.gov f.k) co x) ∧
         ∀ l, x l < 2 ^ 32 ∧ co l < 2 ∧ x l + B s.ctx l + ci l = A s.ctx l + co l * 2 ^ 32)) ∧
     (f.ty = .i32 ∨ f.ty = .n32 → pushesLanes (.imulh f) f (srcAB f) f.ty (fun w l x =>
       BitVec.ofNat 32 x =
         if f.ty = .i32 then
           (((BitVec.ofNat 32 (A w l)).signExtend 64 * (BitVec.ofNat 32 (B w l)).signExtend 64).extractLsb' 32 32)
         else (((BitVec.ofNat 32 (A w l)).zeroExtend 64 * (BitVec.ofNat 32 (B w l)).zeroExtend 64).extractLsb' 32 32))) ∧
     (f.ty = .b32 ∨ f.ty = .i64 →
       pushesBits (.andv f) f (srcAB f) (fun w l b => (A w l).testBit b && (B w l).testBit b) ∧
       pushesBits (.orv f) f (srcAB f) (fun w l b => (A w l).testBit b || (B w l).testBit b) ∧
       pushesBits (.xorv f) f (srcAB f) (fun w l b => (A w l).testBit b != (B w l).testBit b) ∧
       pushesBits (.notv f) f (srcA f) (fun w l b => !(A w l).testBit b) ∧
       pushesBits (.andnv f) f (srcAB f) (fun w l b => (A w l).testBit b && !(B w l).testBit b)) ∧
     shifts (.shl f) (fun a c b => decide (c ≤ b) && a.testBit (b - c)) ∧
     shifts (.shr f) (fun a c b => a.testBit (b + c)) ∧
     shifts (.sar f) (fun a c b => a.testBit (min (b + c) (n - 1))) ∧
     shifts (.rot f) (fun a c b => a.testBit ((b + (n - c)) % n))) ∧
  (∀ f : FmtA,
     let A := fun (w : Watch) l => w.opnd f.ty f.a l
     let B := fun (w : Watch) l => w.opnd f.ty f.b l
     let p := (f.ext.extractLsb' 0 5).toNat
     let n := (f.ext.extractLsb' 8 6).toNat
     (f.ty = .i32 ∨ f.ty = .n32 ∨ f.ty = .b32 → f.ext &&& 0xC0E0 = 0 → p + n ≤ 32 →
       pushesBits (.bfx f) f (srcA f) (fun w l b =>
         if b < n then (A w l).testBit (p + b) else decide (f.ty = .i32 ∧ 0 < n) && (A w l).testBit (p + n - 1)) ∧
       pushesBits (.bfi f) f (srcAB f) (fun w l b =>
         if p ≤ b ∧ b < p + n then (A w l).testBit (b - p) else (B w l).testBit b)) ∧
     (f.ty = .b32 ∨ f.ty = .i64 →
       pushesLanes (.popc f) f (srcA f) .n32 (fun w l x =>
         x = ((List.range f.ty.width).filter (fun b => (A w l).testBit b)).length) ∧
       pushesLanes (.clz f) f (srcA f) .n32 (fun w l x =>
         x ≤ f.ty.width ∧ (∀ b, f.ty.width - x ≤ b → b < f.ty.width → (A w l).testBit b = false) ∧
           (x < f.ty.width → (A w l).testBit (f.ty.width - 1 - x) = true)) ∧
       pushesBits (.brev f) f (srcA f) (fun w l b => (A w l).testBit (f.ty.width - 1 - b))))

/-- Compare, select, copy, constants and caddy transfers (R110, R111, R112, R116). -/
def Obligations.IntegerMoves : Prop :=
  ∀ f : FmtA,
    let n := f.ty.width
    let A := fun (w : Watch) l => w.opnd f.ty f.a l
    let B := fun (w : Watch) l => w.opnd f.ty f.b l
    (∀ (c : Cond) (s : State), s.vecOk f (srcAB f) →
      ∃ k : Mask, exec (.icmp c f) s = .next ((s.mapCtx (·.setK f.ext.toNat k)).advance 8) ∧
        ∀ l < 64, has k l =
          if has (s.ctx.gov f.k) l then condHolds c n (A s.ctx l) (B s.ctx l) else has (s.ctx.kreg f.ext.toNat) l) ∧
    pushesLanes (.sel f) f (srcAB f) f.ty (fun w l x => x = if has (w.kreg f.ext.toNat) l then A w l else B w l) ∧
    pushesLanes (.pick f) f (srcA f) f.ty (fun w l x => x = A w l) ∧
    pushesLanes (.unstash f) f (srcA f) f.ty (fun w l x => x = A w l) ∧
    (f.ty = .i32 ∨ f.ty = .n32 ∨ f.ty = .b32 ∨ f.ty = .i64 →
      pushesLanes (.ldi f) f [] f.ty (fun _ _ x => BitVec.ofNat n x = f.ext.signExtend n)) ∧
    pushesLanes (.ldiHi f) f (srcA f) f.ty (fun w l x => x = f.ext.toNat * 2 ^ 16 + A w l % 2 ^ 16) ∧
    (f.ty = .b32 ∨ f.ty = .i64 → ∀ s : State, s.vecOk f (srcA f) →
      let m := s.ctx.gov f.k
      let c := f.ext.toNat
      let span := if f.ty = .i64 then 2 else 1
      (m ≠ 0 → s.ctx.caddy.slots.length < c + span → exec (.stash f) s = .next (s.takeTrap 0x13 m 2)) ∧
      (m = 0 ∨ c + span ≤ s.ctx.caddy.slots.length → s.ctx.sound →
        ∃ v, exec (.stash f) s = .next (({ s with ctx := v } : State).advance 8) ∧
          { v with caddies := s.ctx.caddies } = s.ctx ∧
          (∀ id, id ≠ s.ctx.sp.caddy → v.frameOf id = s.ctx.frameOf id) ∧
          (∀ x l, v.slotAt x l =
            if has m l = true ∧ x = c ∧ l < 64 then (if f.ty = .i64 then A s.ctx l / 2 ^ 32 % 2 ^ 32 else A s.ctx l % 2 ^ 32)
            else if has m l = true ∧ x = c + 1 ∧ f.ty = .i64 ∧ l < 64 then A s.ctx l % 2 ^ 32
            else s.ctx.slotAt x l)))

/-- The mask registers (R113, R114): whole 64-bit masks, whatever the active mask; KPOP counts and KFIRST finds the lowest bit, or 64.
Writing register d changes no other register. -/
def Obligations.MaskOps : Prop :=
  ∀ (s : State) (d a b : BitVec 3) (o : Opnd), s.admits none →
    let k := fun (n : BitVec 3) => s.ctx.kreg n.toNat
    let sets := fun (i : Instr) (v : Mask) => exec i s = .next ((s.mapCtx (·.setK d.toNat v)).advance 8)
    sets (.kand d a b) (k a &&& k b) ∧ sets (.kor d a b) (k a ||| k b) ∧ sets (.kxor d a b) (k a ^^^ k b) ∧
    sets (.kandn d a b) (k a &&& ~~~(k b)) ∧ sets (.knot d a) (~~~(k a)) ∧ sets (.kmov d a) (k a) ∧
    (s.ctx.uniReads [⟨0, o, 1⟩] → sets (.kset d o) (s.ctx.uni o)) ∧
    (∃ n, exec (.kpop a) s = .next (s.pushScalar (BitVec.ofNat 64 n)) ∧
      n = ((List.range 64).filter (fun l => (k a).getLsbD l)).length) ∧
    (∃ n, exec (.kfirst a) s = .next (s.pushScalar (BitVec.ofNat 64 n)) ∧ n ≤ 64 ∧
      (∀ l < n, (k a).getLsbD l = false) ∧ (n < 64 → (k a).getLsbD n = true)) ∧
    (d ≠ 0 → s.ctx.sound → ∀ v : Mask, (s.ctx.setK d.toNat v).kreg d.toNat = v ∧
      ∀ e : BitVec 3, e ≠ d → (s.ctx.setK d.toNat v).kreg e.toNat = s.ctx.kreg e.toNat)

/-! ### Float -/

/-- The exact arithmetic under the one rounding (R129, R133): sums and products of finite values are exact, an exact zero sum has its
sign, invalid operations give NaN, and comparisons are those of the values. What a conversion to a format without infinities gives
at its edges, and the canonical NaN of each format (R123, R128): NaN's code, the largest finite value with saturation, and code 0
for a rounded zero of either sign. -/
def Obligations.FloatExact : Prop :=
  (let val := fun (n : Bool) (m : Nat) (e : Int) => (if n then -1 else 1 : ℚ) * (m : ℚ) * (2 : ℚ) ^ e
   ∀ (r : Rnd) (n n' : Bool) (m m' : Nat) (e e' : Int),
     (∃ k j q, FVal.add r (.num n m e) (.num n' m' e') = .num k j q ∧ val k j q = val n m e + val n' m' e' ∧
       (j = 0 → k = if n = n' then n else decide (r = .dn))) ∧
     (∃ k j q, FVal.mul (.num n m e) (.num n' m' e') = .num k j q ∧ val k j q = val n m e * val n' m' e' ∧ k = (n != n')) ∧
     FVal.add r (.inf n) (.inf (!n)) = .nan ∧ FVal.add r (.inf n) (.num n' m' e') = .inf n ∧
     FVal.mul (.inf n) (.num n' 0 e') = .nan ∧ (m' ≠ 0 → FVal.mul (.inf n) (.num n' m' e') = .inf (n != n')) ∧
     (∀ x, FVal.add r .nan x = .nan ∧ FVal.add r x .nan = .nan ∧ FVal.mul .nan x = .nan ∧ FVal.mul x .nan = .nan) ∧
     ((FVal.num n m e).lt (.num n' m' e') = true ↔ val n m e < val n' m' e') ∧
     ((FVal.num n m e).eqv (.num n' m' e') = true ↔ val n m e = val n' m' e') ∧
     -- a quotient is exact, or cut below with a lowest bit that says so
     (m' ≠ 0 → ∃ j q, FVal.div (.num n m e) (.num n' m' e') = .num (n != n') j q ∧
       val false (j / 2) (q + 1) ≤ val false m e / val false m' e' ∧
       val false m e / val false m' e' < val false (j / 2 + 1) (q + 1) ∧
       (j % 2 = 0 ↔ val false (j / 2) (q + 1) = val false m e / val false m' e')) ∧
     (m ≠ 0 → FVal.div (.num n m e) (.num n' 0 e') = .inf (n != n')) ∧ FVal.div (.num n 0 e) (.num n' 0 e') = .nan ∧
     FVal.div (.inf n) (.inf n') = .nan ∧ FVal.div (.num n m e) (.inf n') = .num (n != n') 0 0 ∧
     FVal.sqrt (.num n 0 e) = .num n 0 e ∧ FVal.sqrt (.inf false) = .inf false ∧ (m ≠ 0 → FVal.sqrt (.num true m e) = .nan)) ∧
  (∀ (r : Rnd) (n : Bool) (m : Nat) (e : Int),
     (Ty.f32.ffmt.round r .nan).1 = 0x7FC00000 ∧ (Ty.f16.ffmt.round r .nan).1 = 0x7E00 ∧
     (Ty.bf16.ffmt.round r .nan).1 = 0x7FC0 ∧ (Ty.f8a.ffmt.round r .nan).1 = 0x80 ∧
     (Ty.f8b.ffmt.round r .nan).1 = 0x80 ∧ (Ty.f4.ffmt.round r .nan).1 = 0x8 ∧
     (∀ t ∈ [Ty.f8a, .f8b, .f4],
       let top := 2 ^ (t.width - 1) - 1
       let sign := if n then 2 ^ (t.width - 1) else 0
       t.ffmt.round r (.inf n) = (sign + top, true) ∧
       t.ffmt.round r (.num n 0 e) = (0, false) ∧
       ((t.ffmt.round r (.num n m e)).2 = true → (t.ffmt.round r (.num n m e)).1 = sign + top) ∧
       (t.ffmt.round r (.num n m e)).1 ≠ 2 ^ (t.width - 1)) ∧
     Ty.f8a.ffmt.round r (.num n 490 0) = ((if n then 0x80 else 0) + 0x7F, false) ∧
     Ty.f8a.ffmt.round r (.num n 496 0) = ((if n then 0x80 else 0) + 0x7F, true))

/-- Rounding to each float format (R44, R122 to R126, R128): a finite result is a nearest one to nearest, and the nearest one on its
side under the directed modes, among all finite codes of the format. -/
def Obligations.FloatRounding : Prop :=
  let val := fun (n : Bool) (m : Nat) (e : Int) => (if n then -1 else 1 : ℚ) * (m : ℚ) * (2 : ℚ) ^ e
  ∀ (t : Ty) (r : Rnd) (n k : Bool) (m j : Nat) (e q : Int), t.isFloat = true → t.ffmt.ieee = true ∨ r = .ne →
    t.ffmt.decode (t.ffmt.round r (.num n m e)).1 = .num k j q →
    ∀ (code : Nat) (k' : Bool) (j' : Nat) (q' : Int), t.ffmt.decode code = .num k' j' q' →
      let x := val n m e
      let y := val k j q
      let z := val k' j' q'
      (r = .ne → |y - x| ≤ |z - x|) ∧ (r = .tz → |y| ≤ |x| ∧ (|z| ≤ |x| → |z| ≤ |y|)) ∧
      (r = .up → x ≤ y ∧ (x ≤ z → y ≤ z)) ∧ (r = .dn → y ≤ x ∧ (z ≤ x → z ≤ y))

/-- The float instructions of the fused datapath (R130, R132, R133, R135, R138, R141): in each enabled lane and element the exact result
on the modified sources, rounded once; and one NaN produced for each lane in which a NaN came from sources that hold none (R151).
The modifiers act on the sign bit of a float source: bit 15 clears the signs of A and B, and bits 12, 13 and 14 then invert those of
A, B and C (R130). -/
def Obligations.FloatArithmetic : Prop :=
  (∀ f : FmtA, f.ty.isFloat = true →
     let is := fun (i : Instr) (srcs : List Src) (of : Watch → Nat → Nat → List FVal) (x : Watch → Nat → Nat → FVal) =>
       ∀ s : State, s.vecOk f srcs → ∃ v made, exec i s = .next ((s.countNans (s.ctx.gov f.k) made).pushLanes (s.ctx.gov f.k) f.ty v) ∧
         ∀ l, (∀ e < f.ty.count, bitsAt (v l) (f.ty.width * e) f.ty.width = (f.ty.ffmt.round f.rnd (x s.ctx l e)).1) ∧
           (made l = true ↔ ∃ e < f.ty.count, x s.ctx l e = .nan ∧ ∀ y ∈ of s.ctx l e, y ≠ .nan)
     let A := fun (w : Watch) (l e : Nat) => w.fA f l e
     let B := fun (w : Watch) (l e : Nat) => w.fB f l e
     let C := fun (w : Watch) (l e : Nat) => w.fC f l e
     let two := fun (w : Watch) (l e : Nat) => [A w l e, B w l e]
     let three := fun (w : Watch) (l e : Nat) => [A w l e, B w l e, C w l e]
     is (.fadd f) (srcAB f) two (fun w l e => (A w l e).add f.rnd (B w l e)) ∧
     is (.fsub f) (srcAB f) two (fun w l e => (A w l e).add f.rnd (B w l e).neg) ∧
     is (.fmul f) (srcAB f) two (fun w l e => (A w l e).mul (B w l e)) ∧
     is (.ffma f) (srcABC f) three (fun w l e => ((A w l e).mul (B w l e)).add f.rnd (C w l e)) ∧
     is (.ffms f) (srcABC f) three (fun w l e => ((A w l e).mul (B w l e)).add f.rnd (C w l e).neg) ∧
     is (.hadd2 f) (srcAB f) two (fun w l e => (A w l e).add f.rnd (B w l e)) ∧
     is (.hmul2 f) (srcAB f) two (fun w l e => (A w l e).mul (B w l e)) ∧
     is (.hfma2 f) (srcABC f) three (fun w l e => ((A w l e).mul (B w l e)).add f.rnd (C w l e)) ∧
     -- minimumNumber and maximumNumber, with -0 below +0
     is (.fmin f) (srcAB f) two (fun w l e => if (A w l e).isNan then B w l e else if (B w l e).isNan then A w l e
       else if (A w l e).lt (B w l e) || ((A w l e).eqv (B w l e) && (A w l e).isNeg) then A w l e else B w l e) ∧
     is (.fmax f) (srcAB f) two (fun w l e => if (A w l e).isNan then B w l e else if (B w l e).isNan then A w l e
       else if (B w l e).lt (A w l e) || ((A w l e).eqv (B w l e) && !(A w l e).isNeg) then A w l e else B w l e) ∧
     is (.frnd f) (srcA f) (fun w l e => [A w l e]) (fun w l e =>
       match A w l e with
       | .num n m q => .num n (roundAt f.rnd n m q 0) 0
       | v => v)) ∧
  (∀ (w : Watch) (f : FmtA) (l e : Nat), f.ty.isFloat = true →
     let top := 2 ^ (f.ty.width - 1)
     let sign := fun (abs neg : Bool) (c : Nat) => (if (if abs then false else decide (top ≤ c)) != neg then top else 0) + c % top
     let same := fun (x : FVal) (c : Nat) => f.ty.ffmt.ieee = true → x = f.ty.ffmt.decode c
     let a := bitsAt (w.word f.ty f.a l) (f.ty.width * e) f.ty.width
     let b := bitsAt (w.word f.ty f.b l) (f.ty.width * e) f.ty.width
     let c := bitsAt (w.word f.ty f.c l) (f.ty.width * e) f.ty.width
     same (w.fA f l e) (sign (f.ext.getLsbD 15) (f.ext.getLsbD 12) a) ∧
     same (w.fB f l e) (sign (f.ext.getLsbD 15) (f.ext.getLsbD 13) b) ∧
     same (w.fC f l e) (sign false (f.ext.getLsbD 14) c))

/-- FCMP, FCLASS and the scalar float instructions (R131, R136, R137, R146): the condition of enabled lanes into a mask, the one class
bit, and one scalar result for each split, whatever its mask. -/
def Obligations.FloatCompareAndScalar : Prop :=
  ∀ (f : FmtA) (s : State), f.ty = .f32 →
    let w := s.ctx
    let A := w.fA f 0 0
    let B := w.fB f 0 0
    let C := w.fC f 0 0
    let scalar := fun (i : Instr) (srcs : List Src) (of : List FVal) (x : FVal) => s.uniOk srcs →
      exec i s = .next ((s.numeric 2 (if x = .nan ∧ ∀ y ∈ of, y ≠ .nan then 1 else 0)).pushScalar
        (BitVec.ofNat 64 (Ty.f32.ffmt.round f.rnd x).1))
    (∀ c : FCond, s.vecOk f (srcAB f) →
      ∃ k : Mask, exec (.fcmp c f) s = .next ((s.mapCtx (·.setK (f.ext.toNat % 8) k)).advance 8) ∧
        ∀ l < 64, has k l = if has (w.gov f.k) l then
            (match c with
            | .eq => (w.fA f l 0).eqv (w.fB f l 0)
            | .ne => !((w.fA f l 0).eqv (w.fB f l 0))
            | .lt => (w.fA f l 0).lt (w.fB f l 0)
            | .le => (w.fA f l 0).lt (w.fB f l 0) || (w.fA f l 0).eqv (w.fB f l 0)
            | .gt => (w.fB f l 0).lt (w.fA f l 0)
            | .ge => (w.fB f l 0).lt (w.fA f l 0) || (w.fA f l 0).eqv (w.fB f l 0)
            | .un => (w.fA f l 0).isNan || (w.fB f l 0).isNan
            | .ord => !(w.fA f l 0).isNan && !(w.fB f l 0).isNan)
          else has (w.kreg (f.ext.toNat % 8)) l) ∧
    pushesLanes (.fclass f) f (srcA f) .n32 (fun w l x =>
      let v := w.opnd f.ty f.a l
      let neg := decide (2 ^ 31 ≤ v)
      (v % 2 ^ 31 = 0 → x = if neg then 8 else 16) ∧
      (0 < v % 2 ^ 31 → v % 2 ^ 31 < 0x00800000 → x = if neg then 4 else 32) ∧
      (0x00800000 ≤ v % 2 ^ 31 → v % 2 ^ 31 < 0x7F800000 → x = if neg then 2 else 64) ∧
      (v % 2 ^ 31 = 0x7F800000 → x = if neg then 1 else 128) ∧
      (0x7F800000 < v % 2 ^ 31 → v % 2 ^ 31 < 0x7FC00000 → x = 256) ∧ (0x7FC00000 ≤ v % 2 ^ 31 → x = 512)) ∧
    scalar (.sfadd f) (srcAB f) [A, B] (A.add f.rnd B) ∧ scalar (.sfmul f) (srcAB f) [A, B] (A.mul B) ∧
    scalar (.sffma f) (srcABC f) [A, B, C] ((A.mul B).add f.rnd C) ∧
    (∀ c : FCond, c.code = (f.ext.extractLsb' 0 3).zeroExtend 6 → s.uniOk (srcAB f) →
      exec (.sfcmp f) s = .next (s.pushScalar (if fcondHolds c A B then 1 else 0)))

/-- Operations in flight (R34, R147, R149, R166, R197): one that starts takes an entry of its unit's queue, leaves its results pending
at their ages and goes on; when the operation that a unit has next ends (the oldest ordinary one of its core, or with none the
oldest leeway one, and leeway first while leeway contexts are revoked), or a load or atomic answers, its values become valid
wherever they stand, in wakes and in saved wakes, SATF rises in the lanes where it saturated, its entry is free, and nothing else
changes; and a value that arrives for a saved watch, no gate of which is open, stands in its image's bytes too, at the lane's and
entry's place (R342, R348). That a unit's operations of one class end oldest first is the model's reading (Log 100, DEDUCED). The
special functions, and division and square root, as operations of the SFU (R134, R139, R147): the correctly rounded result on the
modified sources; nothing under an empty mask; a wait when the queue is full. FEXP2, FLOG2, FSIN, FCOS and FTANH are the model's own
correctly rounded functions (Log 87, PRESUMED): besides the rounding of their values, what is pinned of those values is the special
cases at the end and the powers of two. -/
def Obligations.UnitOperations : Prop :=
  ((∀ (s : State) (u : UnitKind) (m sat : Mask) (t : Ty) (v : Nat → Nat), s.ctx.sound → t ≠ .i64 →
     let a := s.startUnit u m t v sat
     a.ctx.sp.pc = s.ctx.sp.pc + 8 ∧ a.fresh = s.fresh + 1 ∧
     (∃ x, a.ctx.flights = s.ctx.flights ++ [x] ∧ x.id = s.fresh ∧ x.unit = u ∧ x.satf = sat) ∧
     (∀ l < 64, has m l = true → (a.ctx.lane l).wake.get 0 = .pend (BitVec.ofNat 32 (v l)) s.fresh ∧
       ∀ n < 31, (a.ctx.lane l).wake.get (n + 1) = (s.ctx.lane l).wake.get n) ∧
     (∀ l < 64, has m l = false → a.ctx.lane l = s.ctx.lane l)) ∧
   (∀ (s : State) (r : WatchRef) (id : Nat) (w : Watch) (x : Flight) (i : Instr),
     s.findWatch r = some w → x ∈ w.flights → x.id = id → (∀ y ∈ w.flights, y.id = id → y = x) →
     let queued := fun (v : Watch) (f : Flight) => v ∈ s.watches ∧ v.core = w.core ∧ f ∈ v.flights ∧ f.unit = x.unit
     let first := ∃ b, (w.core, b) ∈ s.recalls
     let next := (∀ v f, queued v f → (v.cls = 2 ↔ w.cls = 2) → id ≤ f.id) ∧
       ((w.cls = 2 ↔ first) ∨ ∀ v f, queued v f → (v.cls = 2 ↔ w.cls = 2))
     (x.inUnit = true ∧ w ∈ s.watches ∧ next ∧ i = .unitOperationComplete r id) ∨ (x.inUnit = false ∧ i = .pendingValueArrival r id) →
     ∃ t v, exec i s = .next t ∧ t.findWatch r = some v ∧ (∀ y, y ∈ v.flights ↔ y ∈ w.flights ∧ y.id ≠ id) ∧
       v.sp.pc = w.sp.pc ∧ v.ks = w.ks ∧ v.bears = w.bears ∧ v.shapes = w.shapes ∧ v.caddies = w.caddies ∧
       (∀ l < w.lanes.length, (v.lane l).satf = ((w.lane l).satf || has x.satf l)) ∧
       (let arrived := fun (e : Entry Word) => match e with
         | .pend z j => if j = id then .val z else .pend z j
         | e => e
        ∀ l < 64, (v.lane l).saved.length = (w.lane l).saved.length ∧ ∀ a,
         (v.lane l).wake.get a = arrived ((w.lane l).wake.get a) ∧
         ∀ i < (w.lane l).saved.length,
           ((v.lane l).saved.getD i VWake.empty).get a = arrived (((w.lane l).saved.getD i VWake.empty).get a)) ∧
       (∀ a, v.sp.swake.get a = match w.sp.swake.get a with
         | .pend z j => if j = id then .val z else .pend z j
         | e => e) ∧
       ((i = .unitOperationComplete r id ∨ ∀ g, s.gangOf r.launch r.gang = some g → g.image = []) →
         (∀ a, t.byte a = s.byte a) ∧ { t with ctx := s.ctx, others := s.others, gangs := s.gangs } = s)) ∧
   (∀ (s : State) (r : WatchRef) (id : Nat) (w : Watch) (x : Flight) (g : Gang) (k : Launch),
     s.gangOf r.launch r.gang = some g → s.launchOf r.launch = some k → g.image ≠ [] → g.watches.find? (fun v => decide (v.ref = r)) = some w →
     x ∈ w.flights → x.id = id → x.inUnit = false → w.gateOpen = false →
     let place := fun l i j => keyIn (k.recd.imageAt g.watches r + (2048 + 128 * l + 4 * i) + j) g.image
     -- different bytes of the image have different keys, none on a zero-pending page
     (∀ o o' a, keyIn o g.image = some a → keyIn o' g.image = some a → o = o') → (∀ o a, keyIn o g.image = some a → s.isZp a = false) →
     ∃ t, exec (.pendingValueArrival r id) s = .next t ∧
       (∀ l < w.lanes.length, ∀ i z, (w.lane l).wake.ring.getD i .void = .pend z id → ∀ j < 4, ∀ a, place l i j = some a →
         t.byte a = z.extractLsb' (8 * j) 8) ∧
       ∀ a, (∀ l < w.lanes.length, ∀ i z j, (w.lane l).wake.ring.getD i .void = .pend z id → j < 4 → place l i j ≠ some a) →
         t.byte a = s.byte a)) ∧
  (∀ (f : FmtA) (s : State), f.ty = .f32 →
     let w := s.ctx
     let m := w.gov f.k
     let A := fun l => w.fA f l 0
     let B := fun l => w.fB f l 0
     let runs := fun (group : Option Nat) (i : Instr) (srcs : List Src) (of : Nat → List FVal) (x : Nat → FVal) =>
       s.admits group → w.vecReads m srcs →
         (m = 0 → exec i s = .next (s.advance 8)) ∧
         (m ≠ 0 → s.unitFull .sfu = true → exec i s = .next (s.hold .operand)) ∧
         (m ≠ 0 → s.unitFull .sfu = false → ∃ v made, exec i s = .next ((s.countNans m made).startUnit .sfu m .f32 v 0) ∧
           ∀ l, v l % 2 ^ 32 = (Ty.f32.ffmt.round f.rnd (x l)).1 ∧
             (made l = true ↔ x l = .nan ∧ ∀ y ∈ of l, y ≠ .nan))
     let one := fun l => [A l]
     runs none (.fdiv f) (srcAB f) (fun l => [A l, B l]) (fun l => (A l).div (B l)) ∧
     runs none (.fsqrt f) (srcA f) one (fun l => (A l).sqrt) ∧
     runs none (.frcp f) (srcA f) one (fun l => FVal.div (.num false 1 0) (A l)) ∧
     runs none (.frsq f) (srcA f) one (fun l => fRsq (A l)) ∧
     runs (some 12) (.fexp2 f) (srcA f) one (fun l => fExp2 (A l)) ∧
     runs (some 12) (.flog2 f) (srcA f) one (fun l => fLog2 (A l)) ∧
     runs (some 12) (.fsin f) (srcA f) one (fun l => fSin (A l)) ∧
     runs (some 12) (.fcos f) (srcA f) one (fun l => fCos (A l)) ∧
     runs (some 12) (.ftanh f) (srcA f) one (fun l => fTanh (A l)) ∧
     -- the special cases of R140
     (∀ n e, fRsq (.num n 0 e) = .inf n ∧ fExp2 (.num n 0 e) = .num false 1 0 ∧ fLog2 (.num n 0 e) = .inf true ∧
       fSin (.num n 0 e) = .num n 0 e ∧ fTanh (.num n 0 e) = .num n 0 e ∧
       (Ty.f32.ffmt.round .ne (fCos (.num n 0 e))).1 = 0x3F800000) ∧
     fRsq (.inf false) = .num false 0 0 ∧ fRsq (.inf true) = .nan ∧ fExp2 (.inf false) = .inf false ∧
     fExp2 (.inf true) = .num false 0 0 ∧ fLog2 (.inf false) = .inf false ∧ fLog2 (.inf true) = .nan ∧
     (∀ n, fSin (.inf n) = .nan ∧ fCos (.inf n) = .nan ∧ fTanh (.inf n) = .num n 1 0) ∧
     (∀ k e, k ≠ 0 → fRsq (.num true k e) = .nan ∧ fLog2 (.num true k e) = .nan) ∧
     (∀ n (k j : Nat), k * 2 ^ j < 150 → fExp2 (.num n k j) = .num false 1 (if n then -((k * 2 ^ j : Nat) : Int) else (k * 2 ^ j : Nat))) ∧
     (∀ n (k : Nat), 9 ≤ k → fTanh (.num n k 0) = .num n 1 0) ∧
     (∀ i : Int, -150 < i → i < 128 → fLog2 (.num false 1 i) = .num (decide (i < 0)) (i.natAbs * 2 ^ fxBits) (-(fxBits : Int))))

/-- The conversions (R128, R142 to R145, R147, R151, R166): element si of A is converted; a destination of one element takes it alone,
and of several takes it as element di of B's entry. Clamped and flushed lanes are counted as the operation starts, and SATF rises in
the clamped lanes as it ends. That every FCVT whose result is a zero of a value that is none counts as flushed is the model's
reading (Log 103, DEDUCED). -/
def Obligations.Conversions : Prop :=
  ∀ (f : FmtA) (s : State), s.admits none →
    let w := s.ctx
    let m := w.gov f.k
    let sf := Ty.ofCode (f.ext.extractLsb' 0 4)
    let si := (f.ext.extractLsb' 4 4).toNat
    let di := (f.ext.extractLsb' 8 4).toNat
    let n := f.ty.width
    let x := fun l => bitsAt (w.opnd sf f.a l) (sf.width * si) sf.width
    let srcs : List Src := Src.of 0 sf f.a :: (if f.ty.count = 1 then [] else [Src.of 1 f.ty f.b])
    let runs := fun (i : Instr) (y : Nat → Nat) (sat flush : Nat → Prop) => w.vecReads m srcs →
      (m = 0 → exec i s = .next (s.advance 8)) ∧
      (m ≠ 0 → s.unitFull .conv = true → exec i s = .next (s.hold .operand)) ∧
      (m ≠ 0 → s.unitFull .conv = false → ∃ c k v,
        exec i s = .next (((s.numeric 0 (laneCount c)).numeric 1 (laneCount k)).startUnit .conv m f.ty v c) ∧
        (∀ l < 64, (has c l = true ↔ has m l = true ∧ sat l) ∧ (has k l = true ↔ has m l = true ∧ flush l)) ∧
        (f.ty.count = 1 → ∀ l, v l % 2 ^ n = y l % 2 ^ n) ∧
        (f.ty.count ≠ 1 → di < f.ty.count → ∀ l, ∀ e < f.ty.count,
          bitsAt (v l) (n * e) n = if e = di then y l % 2 ^ n else bitsAt (w.word f.ty f.b l) (n * e) n))
    let floatSat := fun (v : FVal) => (f.ty.ffmt.round f.rnd v).2 = true
    let flushed := fun (v : FVal) => (∃ k j q, v = .num k j q ∧ j ≠ 0) ∧ (f.ty.ffmt.round f.rnd v).1 % 2 ^ (n - 1) = 0
    let source := fun l => sf.ffmt.decode (x l)
    let int := fun l => FVal.ofInt (elemInt sf.isSigned sf.width (x l))
    -- the integer that FICVT rounds to, where its source is a number
    let exact := fun l => match source l with
      | .num k j q => some ((if k then -1 else 1) * ((roundAt f.rnd k j q 0 : Nat) : Int))
      | .inf k => some (if k then -(2 ^ 80) else 2 ^ 80)
      | .nan => none
    runs (.fcvt f) (fun l => (f.ty.ffmt.round f.rnd (source l)).1) (fun l => floatSat (source l)) (fun l => flushed (source l)) ∧
    runs (.icvt f) (fun l => (f.ty.ffmt.round f.rnd (int l)).1) (fun l => floatSat (int l)) (fun l => flushed (int l)) ∧
    runs (.ficvt f)
      (fun l => match exact l with
        | none => 0
        | some z => wrap n (if z < lowOf f.ty then lowOf f.ty else if highOf f.ty < z then highOf f.ty else z))
      (fun l => ∀ z, exact l = some z → z < lowOf f.ty ∨ highOf f.ty < z) (fun _ => False)

/-! ### Packed, cross-lane and bearings -/

/-- The packed class (R156 to R165): dot products of the exact products with one narrowing, narrowing and widening of elements, shifts
that round once, scaling by an S8 code, and the clearing of SATF; with the lanes that set SATF (SAT = 1 and a result that was
clamped), and those that count a flush. That FSCL reads an immediate B as a 32-bit integer is the model's reading (Log 13, DEDUCED). -/
def Obligations.Packed : Prop :=
  let rat := fun (v : FVal) => match v with
    | .num n m e => (if n then -1 else 1 : ℚ) * (m : ℚ) * (2 : ℚ) ^ e
    | _ => 0
  let narrow := fun (t : Ty) (sat : Bool) (x : Int) =>
    wrap t.width (if sat then max (lowOf t) (min (highOf t) x) else x)
  let off := fun (t : Ty) (sat : Bool) (x : Int) => sat = true ∧ (x < lowOf t ∨ highOf t < x)
  let runs := fun (i : Instr) (f : FmtA) (srcs : List Src) (r : Watch → Nat → Nat → Prop) (sat flush : Watch → Nat → Prop) =>
    ∀ s : State, s.vecOk f srcs →
      ∃ c k v, exec i s = .next (((if c = 0 then s else s.saturate c).numeric 1 (laneCount k)).pushLanes (s.ctx.gov f.k) .b32 v) ∧
        (∀ l < 64, (has c l = true ↔ has (s.ctx.gov f.k) l = true ∧ sat s.ctx l) ∧
          (has k l = true ↔ has (s.ctx.gov f.k) l = true ∧ flush s.ctx l)) ∧
        ∀ l, r s.ctx l (v l)
  let never := fun (_ : Watch) (_ : Nat) => False
  ∀ f : FmtA,
    let n := f.ty.width
    let C := fun (w : Watch) l => signed 32 (w.word .i32 f.c l)
    let dot := fun (w : Watch) l => C w l + ∑ e ∈ Finset.range f.ty.count,
      w.eli f f.a l e * elemInt (f.ty.isSigned != f.ext.getLsbD 0) n (w.el f f.b l e)
    let mac := fun (w : Watch) l => C w l + ∑ e ∈ Finset.range 2, w.eli f f.a l e * w.eli f f.b l e
    let FA := fun (w : Watch) l e => w.felem f.ty f.a l e
    let FB := fun (w : Watch) l e => w.felem f.ty f.b l e
    let FC := fun (w : Watch) l => modified false (f.ext.getLsbD 14) (w.felem .f32 f.c l 0)
    let fdot := fun (w : Watch) l x =>
      ((FC w l = .nan ∨ ∃ e < f.ty.count, FA w l e = .nan ∨ FB w l e = .nan) → x = 0x7FC00000) ∧
      (FC w l ≠ .nan → (∀ e < f.ty.count, FA w l e ≠ .nan ∧ FB w l e ≠ .nan) →
        ∃ k j q, x = (Ty.f32.ffmt.round f.rnd ((FVal.num k j q).add f.rnd (FC w l))).1 ∧ (j = 0 → k = false) ∧
          rat (.num k j q) = (if f.ext.getLsbD 12 then -1 else 1) *
            ∑ e ∈ Finset.range f.ty.count, rat (FA w l e) * rat (FB w l e))
    (f.ty = .i8 ∨ f.ty = .n8 →
      runs (.dot4 f) f (srcABC f) (fun w l x => x = narrow .i32 f.sat (dot w l)) (fun w l => off .i32 f.sat (dot w l)) never) ∧
    (f.ty = .i4 ∨ f.ty = .n4 →
      runs (.dot8 f) f (srcABC f) (fun w l x => x = narrow .i32 f.sat (dot w l)) (fun w l => off .i32 f.sat (dot w l)) never) ∧
    (f.ty = .f8a ∨ f.ty = .f8b → runs (.fdot4 f) f (srcABC f) fdot never never) ∧
    (f.ty = .f4 → runs (.fdot8 f) f (srcABC f) fdot never never) ∧
    (f.ty = .i16 →
      runs (.mac2 f) f (srcABC f) (fun w l x => x = narrow .i32 true (mac w l)) (fun w l => off .i32 true (mac w l)) never) ∧
    (∀ st : Ty, (f.ty = .i16 ∨ f.ty = .n16) ∧ st = .i32 ∨ (f.ty = .i8 ∨ f.ty = .n8) ∧ st = .i16 ∨
        (f.ty = .i4 ∨ f.ty = .n4) ∧ st = .i8 →
      let y := fun (w : Watch) (l e : Nat) =>
        signed st.width (bitsAt (w.word st (if e < st.count then f.a else f.b) l) (st.width * (e % st.count)) st.width)
      runs (.pack f) f [Src.of 0 st f.a, Src.of 1 st f.b]
        (fun w l x => ∀ e < f.ty.count, bitsAt x (n * e) n = narrow f.ty f.sat (y w l e))
        (fun w l => ∃ e < f.ty.count, off f.ty f.sat (y w l e)) never) ∧
    (f.ty ∈ [.i16, .n16, .i8, .n8, .i4, .n4] →
      runs (.unpk f) f (srcA f) (fun w l x => ∀ e < f.ty.count / 2,
        bitsAt x (2 * n * e) (2 * n) = wrap (2 * n) (w.eli f f.a l (f.ty.count / 2 * f.ext.toNat + e))) never never) ∧
    (f.ty ∈ [.i32, .i16, .n16, .i8, .n8] →
      let x := fun (w : Watch) l => signed 32 (w.word .i32 f.a l)
      let y := fun (w : Watch) l =>
        let q : ℚ := (x w l : ℚ) / 2 ^ (f.ext.toNat % 32)
        let h := ⌊q + 1 / 2⌋
        if f.ext.getLsbD 5 = true ∧ q + 1 / 2 = h ∧ h % 2 = 1 then h - 1 else h
      runs (.shrr f) f (Src.of 0 .i32 f.a :: (if f.ty = .i32 then [] else [Src.of 1 f.ty f.b]))
        (fun w l v => (f.ty = .i32 → v = narrow f.ty f.sat (y w l)) ∧
          (f.ty ≠ .i32 → ∀ e < f.ty.count, bitsAt v (n * e) n =
            if e = f.ext.toNat / 256 then narrow f.ty f.sat (y w l) else bitsAt (w.word f.ty f.b l) (n * e) n))
        (fun w l => off f.ty f.sat (y w l)) (fun w l => x w l ≠ 0 ∧ narrow f.ty f.sat (y w l) = 0)) ∧
    (f.ty.isFloat = true →
      let code := fun (w : Watch) l => bitsAt (w.word .b32 f.b l) (8 * f.ext.toNat) 8
      let y := fun (w : Watch) l e => (FA w l e).mul (s8Value (code w l))
      runs (.fscl f) f [Src.of 0 f.ty f.a, Src.of 1 .b32 f.b]
        (fun w l v => ∀ e < f.ty.count, bitsAt v (n * e) n =
          if code w l = 0 then 0 else (f.ty.ffmt.round f.rnd (y w l e)).1)
        never
        (fun w l => ∃ e < f.ty.count, code w l ≠ 0 ∧ code w l ≠ 255 ∧ (∃ k j q, y w l e = .num k j q ∧ j ≠ 0) ∧
          (f.ty.ffmt.round f.rnd (y w l e)).1 % 2 ^ (n - 1) = 0)) ∧
    ∀ (s : State) (k : BitVec 3), s.admits none →
      (s.ctx.flights.any (fun x => x.unit == .conv) = true → exec (.satclr k) s = .next (s.hold .operand)) ∧
      (s.ctx.flights.any (fun x => x.unit == .conv) = false →
        ∃ v, exec (.satclr k) s = .next (({ s with ctx := v } : State).advance 8) ∧ { v with lanes := s.ctx.lanes } = s.ctx ∧
          ∀ l < s.ctx.lanes.length, v.lane l =
            { s.ctx.lane l with satf := (s.ctx.lane l).satf && !has (s.ctx.gov k) l })

/-- The exchanges and KBAL (R169 to R173, R176): what each reading lane obtains, from a readable lane whose entry is not void, or the
fill. A lane that can be read is one of the split, within EWIDTH, that has not exited and that no fallback record excludes (R170).
Every lane that is read is read before any is written. -/
def Obligations.Exchanges : Prop :=
  ∀ (f : FmtA) (s : State), s.admits none →
    let w := s.ctx
    let m := w.gov f.k
    let n := f.ty.width
    let fill := w.fillBits f.ty f.c
    let reach := fun (j : Nat) => j < w.ewidth ∧ (w.lane j).split = w.sp.id ∧ (w.lane j).exited = false ∧ w.originExcludes j = false
    let still := fun (o : Opnd) => ∀ j < 64, reach j → w.entryIs Entry.isPend f.ty o j = false ∧
      w.entryIs Entry.isBad f.ty o j = false
    let from_ := fun (o : Opnd) (j : Nat) => reach j ∧ w.entryIs Entry.isVoid f.ty o j = false
    let takes := fun (i : Instr) (j : Nat → Nat) => w.vecReads m (⟨1, f.b, 1⟩ :: fillSrc f.c) → still f.a → w.ewidth ≤ 64 →
      ∃ v, exec i s = .next (s.pushLanes m f.ty v) ∧
        ∀ l, (from_ f.a (j l) → v l = w.opnd f.ty f.a (j l)) ∧ (¬ from_ f.a (j l) → v l = fill)
    let B := fun l => w.word .b32 f.b l
    takes (.shfl f) B ∧ takes (.bcastl f) B ∧ takes (.shflx f) (fun l => (l ^^^ B l) % w.ewidth) ∧
    (f.ty ≠ .i64 → w.vecReads m (fillSrc f.c) → still f.a → still f.b → w.ewidth ≤ 64 →
      ∃ v, exec (.slide f) s = .next (s.pushLanes m f.ty v) ∧ ∀ l, ∀ e < f.ty.count,
        let c := f.ty.count
        let q : Int := (l * c + e : Nat) + (f.ext.extractLsb' 0 8).toInt
        let size : Int := (w.ewidth * c : Nat)
        let obtains := fun (o : Opnd) (p : Nat) =>
          (from_ o (p / c) → bitsAt (v l) (n * e) n = bitsAt (w.word f.ty o (p / c)) (n * (p % c)) n) ∧
          (¬ from_ o (p / c) → bitsAt (v l) (n * e) n = fill % 2 ^ n)
        (0 ≤ q → q < size → obtains f.a q.toNat) ∧
        (f.ext.getLsbD 8 = true → 0 ≤ (f.ext.extractLsb' 0 8).toInt → size ≤ q → q < 2 * size → obtains f.b (q - size).toNat) ∧
        (f.ext.getLsbD 8 = true → (f.ext.extractLsb' 0 8).toInt < 0 → q < 0 → -size ≤ q → obtains f.b (q + size).toNat) ∧
        (f.ext.getLsbD 8 = false → q < 0 ∨ size ≤ q → bitsAt (v l) (n * e) n = fill % 2 ^ n)) ∧
    (w.vecReads m (srcA f) →
      ∃ (k : Mask) (v : Nat → Nat), exec (.kbal f) s = .next ((s.mapCtx (·.setK f.ext.toNat k)).pushLanes m .n32 v) ∧
        (∀ l < 64, has k l = if has m l then decide (w.word f.ty f.a l ≠ 0) else has (w.kreg f.ext.toNat) l) ∧
        ∀ l < 64, v l = ((List.range l).filter (fun j => has m j && w.word f.ty f.a j != 0)).length)

/-- RED and SCAN (R174, R175): over the enabled lanes of the positions, in all of them, or up to each lane or before it; additions are
exact and narrowed once; the float operations combine in the fixed tree, rounding each time. -/
def Obligations.Reductions : Prop :=
  ∀ (f : FmtA) (s : State) (op : RedOp), s.vecOk f (srcA f ++ fillSrc f.c) → s.ctx.ewidth = 2 ^ s.ctx.levels → s.ctx.ewidth ≤ 64 →
    f.ty.count = 1 →
    let w := s.ctx
    let m := w.gov f.k
    let n := f.ty.width
    let A := fun l => w.opnd f.ty f.a l
    let upTo := fun (p : Nat) => (List.range (min p w.ewidth)).filter (fun l => has m l)
    -- x is the combination over the lanes of S, and c says that it was clamped
    let isWhole := fun (S : List Nat) (x : Nat) (c : Bool) =>
      let t := (S.map (fun l => w.eli f f.a l 0)).sum
      match op with
      | .add => x = wrap n (if f.sat then max (lowOf f.ty) (min (highOf f.ty) t) else t) ∧
          (c = true ↔ f.sat = true ∧ (t < lowOf f.ty ∨ highOf f.ty < t))
      | .min => c = false ∧ x ∈ S.map A ∧ ∀ l ∈ S, signed n x ≤ signed n (A l)
      | .max => c = false ∧ x ∈ S.map A ∧ ∀ l ∈ S, signed n (A l) ≤ signed n x
      | .nmin => c = false ∧ x ∈ S.map A ∧ ∀ l ∈ S, x ≤ A l
      | .nmax => c = false ∧ x ∈ S.map A ∧ ∀ l ∈ S, A l ≤ x
      | .and => c = false ∧ ∀ b, x.testBit b = S.all (fun l => (A l).testBit b)
      | .or => c = false ∧ ∀ b, x.testBit b = S.any (fun l => (A l).testBit b)
      | .xor => c = false ∧ ∀ b, x.testBit b = decide ((S.filter (fun l => (A l).testBit b)).length % 2 = 1)
      | _ => False
    let flagged := fun (c : Mask) => if c = 0 then s else s.saturate c
    let dec := fun (x : Nat) => Ty.f32.ffmt.decode x
    let g := fun (a b : Nat) => (Ty.f32.ffmt.round (if op = .fadd then f.rnd else .ne) (match op with
      | .fadd => (dec a).add f.rnd (dec b)
      | .fmin => fminimum (dec a) (dec b)
      | _ => fmaximum (dec a) (dec b))).1
    let vals := (List.range w.ewidth).map (fun l => if has m l then some (A l) else none)
    let made := fun (S : List Nat) (x : Nat) => (dec x).isNan && S.all (fun l => !(dec (A l)).isNan)
    (op ≠ .fadd → op ≠ .fmin → op ≠ .fmax →
      (upTo 64 = [] → exec (.red op f) s = .next (s.advance 8)) ∧
      (upTo 64 ≠ [] → ∃ x c, exec (.red op f) s = .next ((flagged (if c then m else 0)).pushLanes m f.ty (fun _ => x)) ∧
        isWhole (upTo 64) x c) ∧
      ∃ (c : Mask) (v : Nat → Nat), exec (.scan op f) s = .next ((flagged c).pushLanes m f.ty v) ∧ c &&& ~~~m = 0 ∧
        ∀ l < w.ewidth, has m l = true →
          let S := upTo (if f.ext.getLsbD 0 then l else l + 1)
          (S = [] → v l = w.fillBits f.ty f.c ∧ has c l = false) ∧ (S ≠ [] → isWhole S (v l) (has c l))) ∧
    (op = .fadd ∨ op = .fmin ∨ op = .fmax → f.ty = .f32 →
      (reduceTree g w.levels vals = none → exec (.red op f) s = .next (s.advance 8)) ∧
      (∀ x, reduceTree g w.levels vals = some x →
        exec (.red op f) s = .next ((s.countNans m (fun _ => made (upTo 64) x)).pushLanes m f.ty (fun _ => x))) ∧
      ∃ made' v, exec (.scan op f) s = .next ((s.countNans m made').pushLanes m f.ty v) ∧
        ∀ l < w.ewidth, has m l = true →
          let S := upTo (if f.ext.getLsbD 0 then l else l + 1)
          (S = [] → v l = w.fillBits f.ty f.c ∧ made' l = false) ∧
          (S ≠ [] → (scanSteps g w.levels 1 vals)[if f.ext.getLsbD 0 then l - 1 else l]? = some (some (v l)) ∧
            made' l = made S (v l)))

/-- The bearing class (R181 to R193, R197, R200), each instruction under its own conditions: its scalar sources can be read, the bearing
registers that it names are not in flight, and, for those that use the unit, its queue has room; else it waits. Reads and simple
writes act at once; the others leave their results pending. normT is T and normalise is N of R182 and R183. BMIX's immediates as
F32, BMATCH's best score as the low 32 bits of its scalar, and which NaN codes count are the model's readings (Log 120, DEDUCED). -/
def Obligations.Bearings : Prop :=
  let rat := fun (n : Bool) (m : Nat) (e : Int) => (if n then -1 else 1 : ℚ) * (m : ℚ) * (2 : ℚ) ^ e
  let near := fun (y : ℚ) (d : BitVec 16) => ∃ z : Int, |y - z| ≤ 1 / 2 ∧ (|y - z| = 1 / 2 → z % 2 = 0) ∧ d = BitVec.ofInt 16 (min z 32767)
  let G := fun (v : Int) => (normT (v % 256).toNat : ℚ) * (2 : ℚ) ^ (v / 256 - 47)
  (∀ n < 256, (2 * normT n - 1) ^ 256 ≤ 2 ^ (48 * 256 + n) ∧ 2 ^ (48 * 256 + n) ≤ (2 * normT n + 1) ^ 256) ∧
  (∀ (us : List Int) (e m : Int),
    ((∀ u ∈ us, u = 0) → normalise us e m = { b := Bearing.zero, above := false, below := false }) ∧
    ((∃ u ∈ us, u ≠ 0) → ∃ (k : Nat) (x c : Int), 2 ^ 47 ≤ k ∧ k < 2 ^ 48 ∧
      let q := (us.map (fun u => ((u : ℚ) * (2 : ℚ) ^ e) ^ 2)).sum
      let r := (k : ℚ) * (2 : ℚ) ^ x
      r ^ 2 ≤ q ∧ q < ((k + 1 : ℚ) * (2 : ℚ) ^ x) ^ 2 ∧
      (2 : ℚ) ^ (2 * (c - m) - 1) ≤ r ^ 512 ∧ r ^ 512 ≤ (2 : ℚ) ^ (2 * (c - m) + 1) ∧
      (c < -32767 → normalise us e m = { b := Bearing.zero, above := false, below := true }) ∧
      (-32767 ≤ c → ∃ ds : List (BitVec 16), ds.length = us.length ∧
        (∀ i < us.length, near ((us.getD i 0 : ℚ) * (2 : ℚ) ^ e / r * 2 ^ 15) (ds.getD i 0)) ∧
        normalise us e m =
          { b := { comps := ds, norm := if 32766 < c then 0x7FFE else BitVec.ofInt 16 c }, above := decide (32766 < c), below := false }))) ∧
  ∀ (f : FmtA) (s : State), s.admits (some 2) →
    let w := s.ctx
    let E := w.ewidth
    let m := w.gov f.k
    let D := bearD f
    let a := w.bear (bearA f)
    let b := w.bear (bearB f)
    let id := s.fresh
    let scalars : List Src := [⟨0, f.a, 1⟩, ⟨1, f.b, 1⟩, ⟨2, f.c, 1⟩]
    let idle := fun (rs : List (BitVec 3)) => ∀ r ∈ rs, w.bearPends r = false
    -- what an instruction needs besides: scalar sources, registers, and room in the unit's queue
    let needs := fun (i : Instr) (srcs : List Src) (rs : List (BitVec 3)) (unit : Bool) (does : Prop) =>
      w.uniReads srcs → (idle rs → (unit = true → s.bearFull = false) → does) ∧
        (¬ idle rs ∨ (unit = true ∧ s.bearFull = true) → exec i s = .next (s.hold .operand))
    let sets := fun (t : State) (x : Bearing) => (Host.Outcome.next ((t.mapCtx (·.setBear D x)).advance 8) : Out)
    -- an operation of the unit starts, for the register it will write, and the watch holds what `g` writes
    let starts := fun (t : State) (bd : Option (BitVec 3)) (g : Watch → Watch) =>
      (Host.Outcome.next (({ t with
        fresh := t.fresh + 1,
        ctx := { g t.ctx with flights := (g t.ctx).flights ++ [{ id := t.fresh, unit := .bear, path := .local, bear := bd }] } } :
          State).advance 8) : Out)
    let writes := fun (t : State) (x : Bearing) => starts t (some D) (·.setBear D x)
    let clamped := (s.mapCtx (fun w => { w with bovf := true })).numeric 0 1
    let norms := fun (i : Instr) (us : List Int) (e n : Int) =>
      let N := normalise us e n
      exec i s = writes ((if N.above then clamped else s).numeric 1 (if N.below then 1 else 0)) N.b
    let makesNan := fun (i : Instr) (made : Nat) => exec i s = writes (s.numeric 2 made) { comps := List.replicate 256 0, norm := 0x7FFF }
    let c := a.norm.toInt + ((w.uni f.a).setWidth 16).toInt
    needs (.bzero f) [] [D] false (exec (.bzero f) s = sets s { comps := List.replicate 256 0, norm := 0x8000 }) ∧
    needs (.bnorm f) [] [bearA f] false (exec (.bnorm f) s = .next (s.pushScalar (a.norm.zeroExtend 64))) ∧
    needs (.btest f) [] [bearA f] false
      (exec (.btest f) s = .next (s.pushScalar (if a.norm = 0x8000 then 0 else if a.norm = 0x7FFF then 2 else 1))) ∧
    needs (.bmov f) [] [bearA f, D] false (exec (.bmov f) s = sets s a) ∧
    needs (.bneg f) [] [bearA f, D] false
      (exec (.bneg f) s = sets s { a with comps := a.comps.map (fun d => if d = 0x8000 then 0x7FFF else -d) }) ∧
    needs (.bscl f) [⟨0, f.a, 1⟩] [bearA f, D] false
      ((a.norm = 0x8000 ∨ a.norm = 0x7FFF → exec (.bscl f) s = sets s a) ∧
       (a.norm ≠ 0x8000 → a.norm ≠ 0x7FFF →
        (-32767 ≤ c → c ≤ 32766 → exec (.bscl f) s = sets s { a with norm := BitVec.ofInt 16 c }) ∧
        (32766 < c → exec (.bscl f) s = sets clamped { a with norm := 0x7FFE }) ∧
        (c < -32767 → exec (.bscl f) s = sets (s.numeric 1 1) { comps := List.replicate 256 0, norm := 0x8000 }))) ∧
    -- components into the wakes, entry 0 first, component p E + l at position p of lane l
    (let pushes := fun (i : Instr) (code : Nat → Nat) =>
      needs i [] [bearA f] true (∃ x : Nat → Nat → Word,
        exec i s = starts s none (fun v => v.pushEach m ((List.range (256 / E / f.ty.count)).map (fun i l => .pend (x i l) id))) ∧
        ∀ i l e, e < f.ty.count →
          bitsAt (x i l).toNat (f.ty.width * e) f.ty.width = code ((f.ty.count * i + e) * E + l) % 2 ^ f.ty.width)
     let n := a.norm.toInt
     let d := fun (j : Nat) => (a.comps.getD j 0).toInt
     (f.ty = .f32 ∨ f.ty = .bf16 → pushes (.bget f) (fun j =>
       if a.norm = 0x7FFF then f.ty.ffmt.nanCode
       else if a.norm = 0x8000 then 0
       else (f.ty.ffmt.round .ne (.num (decide (d j < 0)) ((d j).natAbs * normT (n % 256).toNat) (n / 256 - 47 - 15))).1)) ∧
     (f.ty = .i16 → pushes (.bdir f) (fun j => (a.comps.getD j 0).toNat))) ∧
    -- the cosine, and the running best match
    (∃ x : Nat,
      (a.norm = 0x7FFF ∨ b.norm = 0x7FFF → x = 0x7FC00000) ∧
      (a.norm ≠ 0x7FFF → b.norm ≠ 0x7FFF → a.norm = 0x8000 ∨ b.norm = 0x8000 → x = 0) ∧
      (a.norm ≠ 0x7FFF → b.norm ≠ 0x7FFF → a.norm ≠ 0x8000 → b.norm ≠ 0x8000 →
        let t := (List.zipWith (fun (p q : BitVec 16) => p.toInt * q.toInt) a.comps b.comps).sum
        x = if t = 0 then 0 else (Ty.f32.ffmt.round .ne (.num (decide (t < 0)) (min t.natAbs (2 ^ 30)) (-30))).1) ∧
      needs (.bdot f) [] [bearA f, bearB f] true
        (exec (.bdot f) s = starts s none (·.spush (.pend (BitVec.ofNat 64 x) id))) ∧
      needs (.bmatch f) scalars [bearA f, bearB f] true
        (let cv := Ty.f32.ffmt.decode x
         let best := Ty.f32.ffmt.decode ((w.uni f.a).toNat % 2 ^ 32)
         let better := cv ≠ .nan ∧ (best = .nan ∨ best.lt cv = true)
         (better → exec (.bmatch f) s = starts s none (fun v =>
           (v.spush (.pend (w.uni f.c) id)).spush (.pend (BitVec.ofNat 64 x) id))) ∧
         (¬ better → exec (.bmatch f) s = starts s none (fun v =>
           (v.spush (.pend (w.uni f.b) id)).spush (.pend (w.uni f.a) id))))) ∧
    -- sums of weighted bearings
    (let mixes := fun (i : Instr) (srcs : List Src) (p q : FVal) => needs i srcs [bearA f, bearB f] true
      (let nan := a.norm = 0x7FFF ∨ b.norm = 0x7FFF ∨ p = .nan ∨ q = .nan
       let term := fun (x : FVal) (y : Bearing) => (∃ g k e, x = .num g k e ∧ k ≠ 0) ∧ y.norm ≠ 0x8000
       let weight := fun (x : FVal) => match x with
         | .num g k e => rat g k e
         | _ => 0
       (nan → makesNan i 0) ∧
       (¬ nan → (∃ g, p = .inf g) ∨ (∃ g, q = .inf g) → makesNan i 1) ∧
       (¬ nan → (∀ g, p ≠ .inf g) → (∀ g, q ≠ .inf g) →
        (¬ term p a → ¬ term q b → exec i s = writes s { comps := List.replicate 256 0, norm := 0x8000 }) ∧
        (term p a ∨ term q b → ∃ (us : List Int) (e n : Int), us.length = 256 ∧ norms i us e n ∧
          (term p a → a.norm.toInt ≤ n) ∧ (term q b → b.norm.toInt ≤ n) ∧
          (term p a ∧ a.norm.toInt = n ∨ term q b ∧ b.norm.toInt = n) ∧
          ∀ j < 256, ∃ x y : ℚ, (us.getD j 0 : ℚ) * (2 : ℚ) ^ e = x + y ∧
            (term p a → x = weight p * G (a.norm.toInt - n) * ((a.comps.getD j 0).toInt : ℚ) / 2 ^ 15) ∧ (¬ term p a → x = 0) ∧
            (term q b → y = weight q * G (b.norm.toInt - n) * ((b.comps.getD j 0).toInt : ℚ) / 2 ^ 15) ∧ (¬ term q b → y = 0))))
     mixes (.badd f) [] (.num false 1 0) (.num false 1 0) ∧
     mixes (.bmix f) [⟨0, f.a, 1⟩, ⟨1, f.b, 1⟩] (Ty.f32.ffmt.decode (w.word .f32 f.a 0)) (Ty.f32.ffmt.decode (w.word .f32 f.b 0))) ∧
    -- a vector from the wakes
    ∀ age : BitVec 5, f.a = .w age →
      let n := 256 / E / f.ty.count
      let u := fun (j : Nat) =>
        if has m (j % E) then f.ty.ffmt.decode (bitsAt
          ((w.lane (j % E)).wake.get (age.toNat + n - 1 - j / E / f.ty.count)).bits (f.ty.width * (j / E % f.ty.count)) f.ty.width)
        else .num false 0 0
      (32 < age.toNat + n → exec (.bset f) s = .next (s.takeTrapFree 0x02 w.k0)) ∧
      (age.toNat + n ≤ 32 → w.vecReads m [⟨0, f.a, n⟩] →
        (s.bearFull = true → exec (.bset f) s = .next (s.hold .operand)) ∧
        (s.bearFull = false →
          ((∃ j < 256, u j = .nan) → makesNan (.bset f) 0) ∧
          ((∀ j < 256, u j ≠ .nan) → (∃ j < 256, ∃ g, u j = .inf g) → makesNan (.bset f) 1) ∧
          ((∀ j < 256, ∃ g k e, u j = .num g k e) → ∃ (us : List Int) (e : Int), us.length = 256 ∧ norms (.bset f) us e 0 ∧
            ∀ j < 256, ∀ g k q, u j = .num g k q → (us.getD j 0 : ℚ) * (2 : ℚ) ^ e = rat g k q)))

/-! ### Memory -/

/-- LD, LDS, LDW and LDU (R207, R208, R211 to R214), with sources to read, room for a load and every access led to storage without
poison: the bytes, lowest first, widened as the type says, stay in flight at their ages; nothing is stored. And wherever accesses
that pass their checks lead, in host pages, fabric windows or across pages, the load completes; memory is then as `meetLate` leaves
it: with acquire ordering, outside writes still late that precede what the load finds have entered it (R228). -/
def Obligations.Loads : Prop :=
  ∀ (s : State) (m : FmtM), s.admits none → s.ctx.sound → (m.ord ≠ 0 → s.clamps m.scope = false) → s.ctx.loadsFull = false →
    let w := s.ctx
    -- no outside write has to enter memory first
    let still := m.ord.getLsbD 0 = false ∨ s.late = []
    let word := fun (k i : Nat) => BitVec.ofNat 32 (s.load (k + 4 * i) 4)
    let value := fun (k n : Nat) => if m.ty.isSigned then wrap n (signed m.ty.width (s.load k m.ty.bytes)) else s.load k m.ty.bytes
    let loads := fun (i : Instr) (spad : Bool) (n : Nat) (vs : Nat → List Word) =>
      w.vecReads w.k0 (addrSrcs spad m true) →
      (w.k0 = 0 → exec i s = .next (s.advance 8)) ∧
      (w.k0 ≠ 0 → still → ∀ key : Nat → Nat,
        (∀ l < 64, has w.k0 l = true → s.poisoned (key l) n = false ∧
          s.leads { size := n, rd := true, wr := false, peer := decide (n ≤ 8) } spad m.seg (w.offset spad m m.disp.toInt true l) (key l)) →
        ∃ t, exec i s = .next t ∧ s.loaded t .load ∧ t.ctx.sp.swake = w.sp.swake ∧
          ∀ l < 64, (has w.k0 l = true → (w.lane l).pushed (t.ctx.lane l) s.fresh (vs (key l))) ∧
            (has w.k0 l = false → t.ctx.lane l = w.lane l)) ∧
      (w.k0 ≠ 0 → ∀ led : Nat → Target,
        (∀ l < 64, has w.k0 l = true →
          s.passes { size := n, rd := true, wr := false, peer := decide (n ≤ 8) } spad m.seg (w.offset spad m m.disp.toInt true l) (led l)) →
        ∃ t x, exec i s = .next t ∧ t.ctx.sp.pc = w.sp.pc + 8 ∧ t.ctx.flights = w.flights ++ [x] ∧ x.unit = .load ∧
          ((∀ l < 64, (led l).inPeer = none) →
            (∀ l < 64, has w.k0 l = false → (t.ctx.lane l).wake = (w.lane l).wake ∧ (still → t.ctx.lane l = w.lane l)) ∧
            ∀ a, t.byte a = (s.meetLate (m.ord.getLsbD 0) m.scope.toNat
              (((List.range 64).filter (fun l => has w.k0 l)).flatMap (fun l => (led l).parts))).byte a))
    let one := fun (k : Nat) => if m.ty = .i64 then [word k 0, word k 1] else [BitVec.ofNat 32 (value k 32)]
    loads (.ld m) false m.ty.bytes one ∧ loads (.lds m) true m.ty.bytes one ∧
    loads (.ldw m) false 16 (fun k => [word k 0, word k 1, word k 2, word k 3]) ∧
    (w.uniReads [⟨0, m.a, 1⟩, ⟨1, m.b, 1⟩] → still → ∀ key, s.poisoned key m.ty.bytes = false →
      s.leads { size := m.ty.bytes, rd := true, wr := false } false m.seg (w.offset false m m.disp.toInt true 0) key →
      ∃ t, exec (.ldu m) s = .next t ∧ s.loaded t .load ∧ t.ctx.lanes = w.lanes ∧
        t.ctx.sp.swake = w.sp.swake.push (.pend (BitVec.ofNat 64 (value key 64)) s.fresh)) ∧
    (w.uniReads [⟨0, m.a, 1⟩, ⟨1, m.b, 1⟩] → ∀ led,
      s.passes { size := m.ty.bytes, rd := true, wr := false } false m.seg (w.offset false m m.disp.toInt true 0) led →
      ∃ t x, exec (.ldu m) s = .next t ∧ t.ctx.sp.pc = w.sp.pc + 8 ∧ t.ctx.flights = w.flights ++ [x] ∧ x.unit = .load ∧
        (led.inPeer = none → (∀ l, (t.ctx.lane l).wake = (w.lane l).wake) ∧ (still → t.ctx.lanes = w.lanes) ∧
          ∀ a, t.byte a = (s.meetLate (m.ord.getLsbD 0) m.scope.toNat led.parts).byte a))

/-- ST, STS, STW and STU (R207, R208, R211 to R214, R239): the low bytes of the operand, lane by lane in ascending order, at the
addresses that the checks lead to; every other byte is unchanged; a storing lane loses its reservation, and so does every lane with
one on a sector that is written. And wherever accesses that pass their checks lead, the store completes and changes no other byte. -/
def Obligations.Stores : Prop :=
  ∀ (s : State) (m : FmtM), s.admits none → s.ctx.sound → Memory.wf s.mem = true → (m.ord ≠ 0 → s.clamps m.scope = false) →
    let w := s.ctx
    let lanes := (List.range 64).filter (fun l => has w.k0 l)
    let four := fun (l i : Nat) => match m.c with
      | .w a => ((w.lane l).wake.get (a.toNat + 3 - i)).bits
      | .c c => w.slotAt (c.toNat + i) l
      | _ => 0
    let hits := fun (k n r : Nat) => k / 128 ≤ r ∧ r ≤ (k + n - 1) / 128
    let stores := fun (i : Instr) (spad : Bool) (n : Nat) (data : Nat → List Byte) => 0 < n →
      w.vecReads w.k0 (addrSrcs spad m true ++ [⟨2, m.c, if n = 16 then 4 else if n = 8 then 2 else 1⟩]) →
      (w.k0 = 0 → exec i s = .next (s.advance 8)) ∧
      (w.k0 ≠ 0 → ∀ key : Nat → Nat,
        (∀ l ∈ lanes,
          s.leads { size := n, rd := false, wr := true, peer := decide (n ≤ 8) } spad m.seg (w.offset spad m m.disp.toInt true l) (key l)) →
        ∃ t, exec i s = .next t ∧ s.stored t ∧
          (∀ a, t.byte a = written (lanes.map (fun l => (key l, data l))) s.byte a) ∧
          ∀ l < 64, ∀ r, ((t.ctx.lane l).resv = some r ↔
            (w.lane l).resv = some r ∧ l ∉ lanes ∧ ∀ j ∈ lanes, ¬ hits (key j) n r)) ∧
      (w.k0 ≠ 0 → ∀ led : Nat → Target,
        (∀ l ∈ lanes, (∀ p ∈ (led l).parts, s.mediaOk p.key = true) ∧ s.judge { size := n, rd := false, wr := true, peer := decide (n ≤ 8) }
          spad m.seg (w.offset spad m m.disp.toInt true l) = .ok (led l)) →
        ∃ t, exec i s = .next t ∧ t.ctx.sp.pc = w.sp.pc + 8 ∧ t.ctx.flights = w.flights ∧
          ((∀ l ∈ lanes, (led l).inPeer = none) →
            ∀ a, (∀ l ∈ lanes, ∀ p ∈ (led l).parts, a < p.key ∨ p.key + p.n ≤ a) → t.byte a = s.byte a))
    stores (.st m) false m.ty.bytes (fun l => leBytes m.ty.bytes (w.opnd m.ty m.c l)) ∧
    stores (.sts m) true m.ty.bytes (fun l => leBytes m.ty.bytes (w.opnd m.ty m.c l)) ∧
    stores (.stw m) false 16 (fun l => (List.range 4).flatMap (fun i => leBytes 4 (four l i))) ∧
    (0 < m.ty.bytes → w.uniReads [⟨0, m.a, 1⟩, ⟨1, m.b, 1⟩, ⟨2, m.c, 1⟩] → ∀ key,
      s.leads { size := m.ty.bytes, rd := false, wr := true } false m.seg (w.offset false m m.disp.toInt true 0) key →
      ∃ t, exec (.stu m) s = .next t ∧ s.stored t ∧
        (∀ a, t.byte a = written [(key, leBytes m.ty.bytes (w.opnd m.ty m.c 0))] s.byte a) ∧
        ∀ l < 64, ∀ r, ((t.ctx.lane l).resv = some r ↔ (w.lane l).resv = some r ∧ ¬ hits key m.ty.bytes r)) ∧
    (w.uniReads [⟨0, m.a, 1⟩, ⟨1, m.b, 1⟩, ⟨2, m.c, 1⟩] → ∀ led, (∀ p ∈ led.parts, s.mediaOk p.key = true) →
      s.judge { size := m.ty.bytes, rd := false, wr := true } false m.seg (w.offset false m m.disp.toInt true 0) = .ok led →
      ∃ t, exec (.stu m) s = .next t ∧ t.ctx.sp.pc = w.sp.pc + 8 ∧ t.ctx.flights = w.flights ∧
        (led.inPeer = none → ∀ a, (∀ p ∈ led.parts, a < p.key ∨ p.key + p.n ≤ a) → t.byte a = s.byte a))

/-- Bearing records (R194 to R196, R223) with their checks, in one issue or in parts, and shape records (R251, R256); and the field that
SHSET replaces. That the parts of a record take place in ascending order, and that an issue performs some of a bearing record's 33
and the next goes on with the rest, its checks made once, at the first, is the model's choice (Log 119, DESIGN CHOICE). LEA, PREF,
CWB and CINV (R203, R207, R215 to R217): what each does with the addresses of the active lanes. No value of memory changes. -/
def Obligations.RecordsAndAddresses : Prop :=
  (∀ (s : State), s.ctx.sound → Memory.wf s.mem = true →
     let w := s.ctx
     let go := { w.sp with pc := w.sp.pc + 8, wait := Wait.none }
     let rd : Access := { size := 16, rd := true, wr := false, peer := false }
     let wr : Access := { size := 16, rd := false, wr := true, peer := false }
     (∀ (r : BitVec 3) (m : FmtM) (key : Nat → Nat), s.admits (some 2) →
       let x := w.sp.record
       -- the events of this issue
       let from_ := x.done
       let till := if x.goal = 0 then 33 else min 33 (x.done + x.goal)
       -- where the 33 events lead
       let at_ := fun (ps : List (List Part)) => ps.length = 33 ∧ ∀ i < 33, ∃ h, ps.getD i [] = [⟨key i, 16, h, false⟩]
       let ended := fun (v : Watch) => ({ v with sp := { go with record := {} } } : Watch)
       let held := fun (y : RecordPart) => ({ w with sp := { w.sp with wait := .record, record := { y with done := till, goal := 0 } } } : Watch)
       let got := fun (a b : Nat) => (List.range (b - a)).flatMap (fun i => bytesOf s.byte (key (a + i)) 16)
       let trap := fun (n : DWord) => ∃ l, exec (.bld r m) s = .next
         (({ s with late := l, ctx := { w with sp := { w.sp with record := {} } } } : State).takeTrap 0x17 w.k0 n)
       -- a fill may be counted and retain a line, with EVICT 4 (R220)
       let goesOn := fun (i : Instr) (fresh : Nat) (v : Watch) => ∃ c d l,
         exec i s = .next { s with samples := c, retained := d, late := l, fresh := fresh, ctx := v } ∧
         (m.evict ≠ 4 → c = s.samples ∧ d = s.retained) ∧ l.map LateWrite.gist = s.late.map LateWrite.gist
       -- what BLD does with what has been read so far
       let reads := fun (bs : List Byte) (y : List (List Part) → RecordPart → Prop) =>
         let num := fun (i n : Nat) => leNat ((bs.drop i).take n)
         let norm := BitVec.ofNat 16 (num 0 2)
         let comp := fun (j : Nat) => BitVec.ofNat 16 (num (16 + 2 * j) 2)
         let comps := (List.range 256).map comp
         let len := (comps.map (fun d => d.toInt * d.toInt)).sum
         let zeros := ∀ i < 14, bs.getD (2 + i) 0 = 0
         let finite := norm ≠ 0x8000 ∧ norm ≠ 0x7FFF
         let sound := (finite → 2 ^ 30 - 2 ^ 19 ≤ len ∧ len ≤ 2 ^ 30 + 2 ^ 19) ∧ (norm = 0x8000 → ∀ j < 256, comp j = 0)
         (till < 33 → ∃ ps p, at_ ps ∧ y ps p ∧ goesOn (.bld r m) s.fresh (held { p with bytes := bs })) ∧
         (33 ≤ till →
           (¬ zeros → trap 1) ∧
           (zeros → finite → ¬ (2 ^ 30 - 2 ^ 19 ≤ len ∧ len ≤ 2 ^ 30 + 2 ^ 19) → trap 2) ∧
           (zeros → norm = 0x8000 → (∃ j < 256, comp j ≠ 0) → trap 3) ∧
           (zeros → sound → goesOn (.bld r m) (s.fresh + 1)
             (ended (w.setBear r { comps := if norm = 0x7FFF then List.replicate 256 0 else comps, norm := norm }))))
       let clean := ∀ i < 33, from_ ≤ i → i < till → s.poisoned (key i) 16 = false
       -- what BST does with the bytes of the record
       let writes := fun (bs : List Byte) (y : List (List Part) → RecordPart → Prop) => ∃ t, exec (.bst r m) s = .next t ∧
         (∀ a, t.byte a = written ((List.range (till - from_)).map
           (fun i => (key (from_ + i), (bs.drop (16 * (from_ + i))).take 16))) s.byte a) ∧
         t.others.map Watch.unreserved = s.others.map Watch.unreserved ∧
         (till < 33 → ∃ ps p, at_ ps ∧ y ps p ∧ t.ctx.unreserved = (held { p with bytes := bs }).unreserved) ∧
         (33 ≤ till → t.ctx.unreserved = (ended w).unreserved)
       -- the first issue: the checks, once
       (from_ = 0 → (m.ord ≠ 0 → s.clamps m.scope = false) → w.uniReads (bearSrcs m) → w.bearPends r = false →
         (w.loadsFull = false → m.ord.getLsbD 0 = false ∨ s.late = [] → s.leadsRecord rd m.seg (w.bearOffset m) 16 528 key → clean →
           reads (got 0 till) (fun ps p => p = { x with parts := ps, write := false })) ∧
         (s.leadsRecord wr m.seg (w.bearOffset m) 16 528 key →
           let b := w.bear r
           writes (leBytes 2 b.norm.toNat ++ List.replicate 14 0 ++
               b.comps.flatMap (fun d => leBytes 2 (if b.norm = 0x8000 ∨ b.norm = 0x7FFF then 0 else d.toNat)))
             (fun ps p => p = { x with parts := ps, write := true }))) ∧
       -- a later one
       (0 < from_ → from_ ≤ 33 → at_ x.parts →
         (clean → (x.bytes.length = 16 * from_) → reads (x.bytes ++ got from_ till) (fun ps p => ps = x.parts ∧ p = x)) ∧
         writes x.bytes (fun ps p => ps = x.parts ∧ p = x))) ∧
     (∀ (e : FmtE) (key : Nat → Nat), s.admits none → w.uniReads [⟨0, e.a, 1⟩] →
       let o := w.shapeOffset e
       let seg := e.ext.extractLsb' 12 4
       let v := w.uni e.a
       (s.leadsRecord rd seg o 64 64 key → (∀ i < 4, s.poisoned (key i) 16 = false) →
         let x := s.load (key 0) 16 + s.load (key 1) 16 * 2 ^ 128 + s.load (key 2) 16 * 2 ^ 256 + s.load (key 3) 16 * 2 ^ 384
         let h : Shape := BitVec.ofNat 512 (x % 2 ^ 509)
         (20 ≤ x / 2 ^ 412 % 32 → exec (.shld e) s = .next (s.takeTrap 0x02 w.k0 0x0110)) ∧
         (x / 2 ^ 412 % 32 < 20 → ∃ l, l.map LateWrite.gist = s.late.map LateWrite.gist ∧
           exec (.shld e) s = .next { s with fresh := s.fresh + 1, late := l, ctx := { w.setShape e.sha h with sp := go } })) ∧
       (s.leadsRecord wr seg o 64 64 key →
         let bytes := leBytes 64 ((w.shape e.sha).toNat % 2 ^ 509)
         ∃ t, exec (.shst e) s = .next t ∧ s.stored t ∧
           ∀ a, t.byte a = written ((List.range 4).map (fun i => (key i, (bytes.drop (16 * i)).take 16))) s.byte a) ∧
       (let sel := (e.ext.extractLsb' 0 5).toNat
        -- BASE; EXT; STEP; BOX; ORG; FMT, LAYOUT, BLK; SCOFF; FILL; TID; OOB; SPACE: low bit and width
        let places : List (Nat × Nat) := [(0, 64), (64, 24), (88, 24), (112, 24), (136, 24), (160, 36), (196, 36), (232, 36), (268, 12),
          (280, 12), (292, 12), (304, 12), (316, 24), (340, 24), (364, 24), (388, 24), (412, 5), (417, 3), (420, 2), (422, 40), (462, 32),
          (494, 12), (506, 2), (508, 1)]
        let lo := (places.getD sel (0, 0)).1
        let n := (places.getD sel (0, 0)).2
        (sel = 16 → 20 ≤ v.toNat % 32 → exec (.shset e) s = .next (s.takeTrap 0x02 w.k0 0x0110)) ∧
        (sel < 24 → sel ≠ 16 ∨ v.toNat % 32 < 20 →
         ∃ h : Shape, exec (.shset e) s = .next { s with ctx := { w.setShape e.sha h with sp := go } } ∧
           ∀ b < 512, h.getLsbD b = if lo ≤ b ∧ b < lo + n then v.getLsbD (b - lo) else (w.shape e.sha).getLsbD b)))) ∧
  (∀ (s : State) (m : FmtM), s.admits none →
     let w := s.ctx
     let o := fun (l : Nat) => w.offset false m m.disp.toInt true l
     (w.vecReads w.k0 (addrSrcs false m true) →
       ((∀ l < 64, has w.k0 l = true → o l + m.ty.bytes ≤ bitsAt (w.seg m.seg).toNat 64 56) →
         exec (.lea m) s = .next (s.pushLanes w.k0 .i64 (fun l => bitsAt (w.seg m.seg).toNat 0 55 + o l))) ∧
       (∀ first < 64, has w.k0 first = true → bitsAt (w.seg m.seg).toNat 64 56 < o first + m.ty.bytes →
         (∀ l < first, has w.k0 l = true → o l + m.ty.bytes ≤ bitsAt (w.seg m.seg).toNat 64 56) →
         ∃ k : Mask, exec (.lea m) s = .next (s.takeTrap 0x07 k (BitVec.ofNat 64 (o first))) ∧
           ∀ l < 64, has k l = true ↔ has w.k0 l = true ∧ bitsAt (w.seg m.seg).toNat 64 56 < o l + m.ty.bytes)) ∧
     (∃ t : State, exec (.pref m) s = .next (t.advance 8) ∧
       { t with copies := s.copies, samples := s.samples, retained := s.retained, fresh := s.fresh } = s) ∧
     (w.vecReads w.k0 (addrSrcs false m true) → ∀ key : Nat → Nat,
       (∀ l < 64, has w.k0 l = true → s.mediaOk (key l) = true ∧
         ∃ h c, s.judge { size := 1, rd := true, wr := true, either := true } false m.seg (o l) = .ok (.store [⟨key l, 1, h, c⟩])) →
       exec (.cwb m) s = .next (s.advance 8) ∧
       ∃ c d, exec (.cinv m) s = .next (({ s with copies := c, retained := d } : State).advance 8) ∧
         (∀ x, x ∈ c ↔ x ∈ s.copies ∧
           ∀ l < 64, has w.k0 l = true → (x.1 ≠ w.core ∧ x.1 ≠ 640) ∨ x.2.1 / 128 ≠ key l / 128) ∧
         ∀ r, r ∈ d ↔ r ∈ s.retained ∧ ∀ l < 64, has w.k0 l = true → r.line ≠ key l / 512))

/-- The checks on an access of the core path (R202, R203, R209, R210): alignment, limit, permission of a segment; the scratchpad's rank,
size and domain; and, whatever the lane checks answered, the first check in order that some lane fails ends the instruction, for the
lanes that fail it, with the offset of the lowest of them. That the scratchpad cannot be reached from gate code, as from another
domain, is the model's reading (Log 42, DEDUCED). Part 3 is shown for LD. -/
def Obligations.AccessChecks : Prop :=
  ∀ (s : State) (a : Access) (m : FmtM), s.admits none → (m.ord ≠ 0 → s.clamps m.scope = false) → s.ctx.loadsFull = false →
    let w := s.ctx
    (∀ (n : BitVec 4) (o : Nat), a.aligned = true → 0 < a.size →
      let g := w.seg n
      let ok := fun (r w : Bool) => if a.either then r || w else (!a.rd || r) && (!a.wr || w)
      s.judge a false n o =
        if o % a.size ≠ 0 then .fail 1
        else if bitsAt g.toNat 64 56 < o + a.size then .fail 2
        else if ok (g.getLsbD 120) (g.getLsbD 121) = false then .fail 3
        else s.judgePage a (bitsAt g.toNat 0 55 + o)) ∧
    (∀ addr, a.aligned = true → 0 < a.size →
      s.judge a true 0 addr =
        if addr % a.size ≠ 0 then .fail 1
        else if addr / 2 ^ 19 % 2 ^ 11 ≠ 0 ∨ (addr / 2 ^ 30 < w.blocks ∧ 128 * w.spadRows < addr % 2 ^ 19 + a.size) then .fail 2
        else if w.blocks ≤ addr / 2 ^ 30 ∨ w.dom ≠ w.home then .fail 4
        else .ok (.store [⟨s.rankKey w (addr / 2 ^ 30) + addr % 2 ^ 19, a.size, false, false⟩])) ∧
    (w.k0 ≠ 0 → w.vecReads w.k0 (addrSrcs false m true) →
      let declined := w.sp.wait.isDeclined = true
      let v := fun (l : Nat) => s.judge { size := m.ty.bytes, rd := true, wr := false, peer := decide (m.ty.bytes ≤ 8) } false m.seg
        (w.offset false m m.disp.toInt true l)
      ∀ (first n : Nat), has w.k0 first = true → first < 64 → (v first).order = n → n < 8 →
        ((∀ l < 64, has w.k0 l = true → n ≤ (v l).order) ∧ (n = 5 → declined → ∀ l < 64, has w.k0 l = true → (v l).order ≠ 6) ∨
          -- a lane that meets a page whose request was declined raises PAGEFAULT, whatever other pages are awaited (R221, R364)
          n = 6 ∧ declined ∧ ∀ l < 64, has w.k0 l = true → 5 ≤ (v l).order) →
        (∀ l < first, has w.k0 l = true → (v l).order ≠ n) →
        ∃ k : Mask, (∀ l < 64, has k l = true ↔ has w.k0 l = true ∧ (v l).order = n) ∧
          let off := BitVec.ofNat 64 (w.offset false m m.disp.toInt true first)
          (n = 1 → exec (.ld m) s = .next (s.takeTrap 0x0B k off)) ∧
          (n = 2 → exec (.ld m) s = .next (s.takeTrap 0x07 k off)) ∧
          (n = 3 ∨ n = 7 → exec (.ld m) s = .next (s.takeTrap 0x09 k off)) ∧
          (n = 6 → exec (.ld m) s = .next (s.takeTrap 0x08 k off)) ∧
          (∀ p, v first = .hold p → exec (.ld m) s = .next (s.holdPage w.dom p false)))

/-- The atomics (R223, R234 to R239), with sources to read, room for a load and every access led to storage without poison: lane by lane
in ascending order, each reads its bytes as the lanes before it left them and writes the new value; the old values stay in flight. M
l is memory before lane l; with acquire ordering, no outside write is still late. And wherever accesses that pass their checks lead,
the atomic completes. Adding a finite value to an anchored cell (R236, R237): INT takes the value on its grid, rounded to nearest
even, modulo 2^94; AEXC is set when the value is not below 2^(anchor + 1), and nothing else changes. NaN and infinities are
remembered and leave INT. Load reservations (R238, R239): LRES reserves the sector that each lane loads from; SCND stores in a lane
that still holds its sector, in ascending order, so that a lane above it on the same sector fails, pushes 1 or 0, and ends the
reservation either way. That one whose reservation stands always stores is the model's choice (Log 131, DESIGN CHOICE; R240 leaves
it open outside constrained sequences). -/
def Obligations.AtomicOperations : Prop :=
  (∀ (s : State) (m : FmtM), s.ctx.sound → Memory.wf s.mem = true → (m.ord ≠ 0 → s.clamps m.scope = false) →
     let w := s.ctx
     let spad := m.evict == 1
     -- an atomic of n bytes; `g l old` is what lane l writes, if it writes
     let runs := fun (i : Instr) (group : Option Nat) (n : Nat) (host peer index : Bool) (srcs : List Src) (pushes : Bool)
         (g : Nat → Nat → Option Nat) (vs : List Byte → List Word) =>
       s.admits group → (pushes = true → w.loadsFull = false) → w.vecReads w.k0 (addrSrcs spad m index ++ srcs) →
       (w.k0 = 0 → exec i s = .next (s.advance 8)) ∧
       (w.k0 ≠ 0 → m.ord.getLsbD 0 = false ∨ s.late = [] → ∀ key : Nat → Nat,
         (∀ l < 64, has w.k0 l = true → s.poisoned (key l) n = false ∧
           s.leads { size := n, rd := true, wr := true, host := host, peer := peer } spad m.seg
             (w.offset spad m m.disp.toInt index l) (key l)) →
         ∃ (t : State) (M : Nat → Nat → Byte), exec i s = .next t ∧ M 0 = s.byte ∧ M 64 = t.byte ∧
           { t with ctx := s.ctx, others := s.others, mem := s.mem, poison := s.poison, idt := s.idt, copies := s.copies,
                    late := s.late, behind := s.behind, fresh := s.fresh } = s ∧
           t.late.map LateWrite.gist = s.late.map LateWrite.gist ∧
           t.ctx.sp.pc = w.sp.pc + 8 ∧ t.ctx.sp.swake = w.sp.swake ∧ t.ctx.ks = w.ks ∧
           (if pushes then ∃ x, t.ctx.flights = w.flights ++ [x] ∧ x.id = s.fresh ∧ x.unit = .atomic else t.ctx.flights = w.flights) ∧
           ∀ l < 64,
             let old := bytesOf (M l) (key l) n
             (has w.k0 l = true →
               M (l + 1) = (match g l (leNat old) with
                 | some v => written [(key l, leBytes n v)] (M l)
                 | none => M l) ∧
               (t.ctx.lane l).resv = none ∧
               (if pushes then (w.lane l).pushed (t.ctx.lane l) s.fresh (vs old) else (t.ctx.lane l).wake = (w.lane l).wake)) ∧
             (has w.k0 l = false → M (l + 1) = M l ∧ (t.ctx.lane l).wake = (w.lane l).wake)) ∧
       (w.k0 ≠ 0 → ∀ led : Nat → Target,
         (∀ l < 64, has w.k0 l = true → s.passes { size := n, rd := true, wr := true, host := host, peer := peer } spad m.seg
           (w.offset spad m m.disp.toInt index l) (led l)) →
         ∃ t, exec i s = .next t ∧ t.ctx.sp.pc = w.sp.pc + 8 ∧ t.ctx.sp.swake = w.sp.swake ∧ t.ctx.ks = w.ks ∧
           (if pushes then ∃ x, t.ctx.flights = w.flights ++ [x] ∧ x.unit = .atomic else t.ctx.flights = w.flights) ∧
           ∀ l < 64, has w.k0 l = false → (t.ctx.lane l).wake = (w.lane l).wake)
     let n := m.ty.bytes
     let C := fun (l : Nat) => w.opnd m.ty m.c l
     let word := fun (bs : List Byte) (i : Nat) => BitVec.ofNat 32 (leNat ((bs.drop (4 * i)).take 4))
     let olds := fun (bs : List Byte) =>
       if m.ty = .i64 then [word bs 0, word bs 1]
       else [BitVec.ofNat 32 (if m.ty.isSigned then wrap 32 (signed m.ty.width (leNat bs)) else leNat bs)]
     let atom := fun (i : Instr) (host : Bool) (g : Nat → Nat → Nat) =>
       runs i none n host true true [Src.of 2 m.ty m.c] true (fun l old => some (g old (C l))) olds
     let S := fun (x : Nat) => signed (8 * n) x
     let f := Ty.f32.ffmt
     0 < n →
     atom (.atomAdd m) true (fun a b => (a + b) % 2 ^ (8 * n)) ∧
     atom (.atomAnd m) false (fun a b => a &&& b) ∧ atom (.atomOr m) false (fun a b => a ||| b) ∧
     atom (.atomXor m) false (fun a b => a ^^^ b) ∧
     atom (.atomMin m) false (fun a b => if S a ≤ S b then a else b) ∧
     atom (.atomMax m) false (fun a b => if S a ≤ S b then b else a) ∧
     atom (.atomNmin m) false (fun a b => min a b) ∧ atom (.atomNmax m) false (fun a b => max a b) ∧
     atom (.atomXchg m) true (fun _ b => b) ∧
     runs (.acas m) none n true true false [Src.of 1 m.ty m.b, Src.of 2 m.ty m.c] true
       (fun l old => if old = w.opnd m.ty m.b l % 2 ^ (8 * n) then some (C l) else none) olds ∧
     runs (.afadd m) (some 5) 4 false false true [⟨2, m.c, 1⟩] true
       (fun l old => some (f.round .ne (FVal.add .ne (f.decode old) (f.decode (w.word .f32 m.c l)))).1) (fun bs => [word bs 0]) ∧
     runs (.axadd m) (some 6) 16 false false true [⟨2, m.c, 1⟩] (decide (m.ty = .b32))
       (fun l old => some (addToCell old (f.decode (w.word .f32 m.c l)))) (fun bs => [word bs 0, word bs 1, word bs 2, word bs 3])) ∧
  (∀ (cell : Nat) (n : Bool) (m : Nat) (e : Int), cell < 2 ^ 128 →
     let anchor := signed 10 (bitsAt cell 96 10)
     let t := addToCell cell (.num n m e)
     let x : ℚ := (m : ℚ) * (2 : ℚ) ^ e
     let grid : ℚ := x * (2 : ℚ) ^ (62 - anchor)
     (∃ r : Int, |(r : ℚ) - grid| ≤ 1 / 2 ∧ (|(r : ℚ) - grid| = 1 / 2 → r % 2 = 0) ∧
       (bitsAt t 0 94 : Int) % 2 ^ 94 = (bitsAt cell 0 94 + (if n then -r else r)) % 2 ^ 94) ∧
     bitsAt t 94 2 = bitsAt cell 94 2 ∧ bitsAt t 96 10 = bitsAt cell 96 10 ∧
     (bitsAt t 106 1 = 1 ↔ bitsAt cell 106 1 = 1 ∨ (2 : ℚ) ^ (anchor + 1) ≤ x) ∧ bitsAt t 107 2 = bitsAt cell 107 2 ∧
     (let u := addToCell cell .nan
      bitsAt u 0 94 = bitsAt cell 0 94 ∧ bitsAt u 94 2 = 3 ∧ bitsAt u 106 3 = bitsAt cell 106 3 ||| 2) ∧
     (let u := addToCell cell (.inf n)
      let k := if n then 2 else 1
      bitsAt u 0 94 = bitsAt cell 0 94 ∧ bitsAt u 106 3 = bitsAt cell 106 3 ||| 4 ∧
      bitsAt u 94 2 = (if bitsAt cell 94 2 = 0 ∨ bitsAt cell 94 2 = k then k else 3))) ∧
  (∀ (s : State) (m : FmtM), s.admits none → s.ctx.sound → Memory.wf s.mem = true → (m.ord ≠ 0 → s.clamps m.scope = false) →
     s.ctx.loadsFull = false →
     let w := s.ctx
     let spad := m.evict == 1
     let n := m.ty.bytes
     let leads := fun (wr : Bool) (key : Nat → Nat) => ∀ l < 64, has w.k0 l = true → (wr = false → s.poisoned (key l) n = false) ∧
       s.leads { size := n, rd := true, wr := wr, host := false, peer := false } spad m.seg (w.offset spad m m.disp.toInt true l) (key l)
     let word := fun (k i : Nat) => BitVec.ofNat 32 (s.load (k + 4 * i) 4)
     let value := fun (k : Nat) => if m.ty.isSigned then wrap 32 (signed m.ty.width (s.load k n)) else s.load k n
     (w.k0 = 0 → exec (.lres m) s = .next (s.advance 8) ∧ exec (.scnd m) s = .next (s.advance 8)) ∧
     (w.k0 ≠ 0 → w.vecReads w.k0 (addrSrcs spad m true) → m.ord.getLsbD 0 = false ∨ s.late = [] → ∀ key, leads false key →
       ∃ t, exec (.lres m) s = .next t ∧ (∀ a, t.byte a = s.byte a) ∧ t.others = s.others ∧ t.ctx.sp.pc = w.sp.pc + 8 ∧
         ∀ l < 64, (has w.k0 l = true → (t.ctx.lane l).resv = some (key l / 128) ∧
             (w.lane l).pushed (t.ctx.lane l) s.fresh
               (if m.ty = .i64 then [word (key l) 0, word (key l) 1] else [BitVec.ofNat 32 (value (key l))])) ∧
           (has w.k0 l = false → t.ctx.lane l = w.lane l)) ∧
     (w.k0 ≠ 0 → 0 < n → w.vecReads w.k0 (addrSrcs spad m true ++ [Src.of 2 m.ty m.c]) → ∀ key, leads true key →
       (∀ l < 64, has w.k0 l = true → key l % 128 + n ≤ 128) →
       ∀ ok : Nat → Bool,
         (∀ l < 64, ok l = true ↔ has w.k0 l = true ∧ (w.lane l).resv = some (key l / 128) ∧
           ∀ j < l, ok j = true → key j / 128 ≠ key l / 128) →
       ∃ t, exec (.scnd m) s = .next t ∧ t.ctx.sp.pc = w.sp.pc + 8 ∧
         (∀ a, t.byte a = written (((List.range 64).filter ok).map (fun l => (key l, leBytes n (w.opnd m.ty m.c l)))) s.byte a) ∧
         ∀ l < 64, has w.k0 l = true → (t.ctx.lane l).resv = none ∧
           (w.lane l).pushed (t.ctx.lane l) s.fresh [if ok l then 1 else 0]))

/-- Fences, WAITC and the block and gang barriers (R227 to R232, R248, R249). A fence lets the split go on, with a clamp counted when
the domain may not have its scope; the clamp is a trap where DPOL asks for it; FENCEX waits for the split's commands of its first
path. Acquire ordering brings into memory the outside writes that precede one the split has met; release ordering marks what outside
readers may find as it stood, for the split's next write to end; FENCEX x, y brings in the writes of path x before it, and bars path
y after it from older bytes; WAITC.ENG.ACQ brings in the writes of commands that have completed. How late writes are held is the
model's (Log 15, DESIGN CHOICE). A barrier's split waits behind it until every watch has arrived, and then all go on in a new
generation. -/
def Obligations.Ordering : Prop :=
  ∀ (s : State) (scope : BitVec 3) (ord : BitVec 2) (x y : BitVec 4) (limit : BitVec 6) (acq : Bool), s.admits none →
    let w := s.ctx
    let me := (w.ref, w.sp.id)
    let clamped := scope = 7 ∧ s.regField (.dpol w.dom) 0 1 = 1
    let traps := clamped ∧ s.regField (.dpol w.dom) 1 1 = 1
    let counted := fun (u : State) =>
      (u.setRegField (.dstat w.dom) 0 1 1).setRegField (.dstat w.dom) 32 32 (u.regField (.dstat w.dom) 32 32 + 1)
    let counts := fun (u : State) => if scope == 7 && s.regField (.dpol w.dom) 0 1 == 1 then counted u else u
    (¬ clamped → exec (.fence ord scope) s = .next ((s.fenceAt ord scope.toNat).advance 8)) ∧
    (clamped → ¬ traps → exec (.fence ord scope) s = .next ((counted (s.fenceAt ord 6)).advance 8)) ∧
    (traps → exec (.fence ord scope) s = .next (s.takeTrap 0x11 w.k0 2) ∧
      exec (.fencex scope x y) s = .next (s.takeTrap 0x11 w.k0 3)) ∧
    (clamped → ¬ traps → x = 5 ∨ y = 5 → exec (.fencex scope x y) s = .next ((counted (s.fenceAt 3 6)).advance 8)) ∧
    (let crosses := s.crossPaths w.ref w.sp.id (·.before w.ref w.sp.id x.toNat) y.toNat
     (¬ traps → ¬ (clamped ∧ (x = 5 ∨ y = 5)) →
      ((x = 0 ∨ 5 ≤ x.toNat) ∨ s.pathBusy x.toNat = false → exec (.fencex scope x y) s = .next ((counts crosses).advance 8)) ∧
      (1 ≤ x.toNat → x.toNat ≤ 4 → s.pathBusy x.toNat = true → exec (.fencex scope x y) s = .next (s.hold (.fencex x.toNat)))) ∧
     -- what a crossing point from x to y leaves
     (s.late = [] → s.behind = [] → crosses = s) ∧
     (∀ e ∈ crosses.late, e.trail.before w.ref w.sp.id x.toNat = false) ∧
     (∀ e ∈ crosses.behind, e.reader = y.toNat → e.writes.any (fun t => t.before w.ref w.sp.id x.toNat) = true →
       y.toNat < 5 ∧ ∃ n ≤ s.fresh, (w.ref, w.sp.id, n) ∈ e.barred)) ∧
    -- what a fence at a scope leaves
    (∀ n, let u := s.fenceAt ord n
      let outside := fun (p : Nat) => p = 6 ∧ (n = 6 ∨ n = 7) ∨ p = 5 ∧ n = 7
      (s.late = [] → s.behind = [] → u = s) ∧ (ord = 0 → u = s) ∧
      (ord.getLsbD 0 = false → u.late = s.late ∧ u.mem = s.mem) ∧
      (ord.getLsbD 0 = true → ∀ e ∈ u.late, outside e.trail.path → me ∉ e.met) ∧
      (ord.getLsbD 1 = false → u.behind.map (·.fenced) = s.behind.map (·.fenced)) ∧
      (ord.getLsbD 1 = true → ∀ e ∈ u.behind, outside e.reader → e.writes ≠ [] → me ∈ e.fenced)) ∧
    (w.loadCount ≤ limit.toNat → exec (.waitcLd limit) s = .next (s.advance 8)) ∧
    (limit.toNat < w.loadCount → exec (.waitcLd limit) s = .next (s.hold (.waitc false limit.toNat))) ∧
    (s.engineCount w.ref ≤ limit.toNat → ∃ u, exec (.waitcEng acq limit) s = .next (u.advance 8) ∧ u.ctx.sp = w.sp ∧
      (acq = false ∨ s.late = [] ∧ s.behind = [] → u = s) ∧
      (acq = true → ∀ e ∈ u.late, e.trail.watch = w.ref → ∀ id, e.trail.cmd = some id →
        s.cmds.any (fun c => c.id == id) = true ∨ s.mats.any (fun c => c.id == id) = true)) ∧
    (limit.toNat < s.engineCount w.ref → exec (.waitcEng acq limit) s = .next (s.hold (.waitc true limit.toNat))) ∧
    -- the barriers
    (let at_ := fun (gang : Bool) => (s.advance 8).hold (.barrier gang)
     let mine := fun (gang : Bool) (v : Watch) => v.ref.launch = w.ref.launch ∧ v.ref.gang = w.ref.gang ∧
       (gang = false → v.ref.block = w.ref.block)
     let arrives := fun (gang : Bool) (i : Instr) =>
       exec i s = .next ((at_ gang).pollGang w.ref) ∧
       -- some watch of it is not there yet: the split waits behind the barrier, and memory and registers stand
       ((∃ v ∈ s.others, v.resident = true ∧ mine gang v ∧ ∃ q ∈ v.splits, q.wait = .none ∧ v.splitEnded q = false) →
         (∀ v ∈ s.ctx :: s.others, v.splits.all (fun q => q.wait == .none) = true) →
         exec i s = .next (at_ gang)) ∧
       -- all have arrived: every one goes on
       ((∀ v ∈ s.others, v.resident = true → mine gang v → v.splits.all (fun q => q.wait == .barrier gang) = true) →
         w.sibs = [] → w.k0 ≠ 0 →
         ∃ t, exec i s = .next t ∧ t.ctx.sp.wait = .none ∧ t.ctx.sp.pc = w.sp.pc + 8 ∧ t.mem = s.mem ∧ t.cfg = s.cfg ∧
           ∀ v ∈ t.others, v.resident = true → mine gang v → v.splits.all (fun q => q.wait == .none) = true)
     arrives false .barrierBlock ∧ arrives true .barrierGang)

/-- Barrier objects (R227, R241, R243, R245 to R247): the fields that BINIT, BARM and BARRIVE leave, and what WAITB and TESTB see, for
an object that the checks of a 16-byte access lead to; and what a phase that is seen complete with acquire ordering brings into
memory: the writes counted into it (Log 15, DESIGN CHOICE). -/
def Obligations.BarrierObjects : Prop :=
  ∀ (s : State) (e : FmtE) (key : Nat), s.admits none → s.ctx.sound → Memory.wf s.mem = true →
    s.ctx.uniReads [⟨0, e.a, 1⟩, ⟨1, e.b, 1⟩] →
    let w := s.ctx
    let addr := (w.uni e.b).toNat % 2 ^ 32
    s.judgeSpad { size := 16, rd := true, wr := false } addr = .ok (.store [⟨key, 16, false, false⟩]) →
    s.holds key 16 →
    let v := (w.uni e.a).toNat
    let x := s.load key 16
    let pending := x % 2 ^ 48
    let phase := x / 2 ^ 48 % 2
    let expected := x / 2 ^ 64 % 2 ^ 48
    let faulted := 2 ^ 47 ≤ pending
    let fault := 2 ^ 48 - 1
    -- the object afterwards, whose reserved bits are those of r; the split counts as one that has updated it (R242)
    let leaves := fun (i : Instr) (pending phase expected r : Nat) =>
      ∃ t, exec i s = .next t ∧ s.stored { t with objUses := s.objUses } ∧
        t.objUses.any (fun u => u.key == key && decide (u.watch = w.ref) && u.split == w.sp.id) = true ∧
        (∀ u ∈ s.objUses, u.key ≠ key → u ∈ t.objUses) ∧
        ∀ a, t.byte a = written [(key, leBytes 16
          (pending + phase * 2 ^ 48 + r / 2 ^ 49 % 2 ^ 15 * 2 ^ 49 + expected * 2 ^ 64 + r / 2 ^ 112 % 2 ^ 16 * 2 ^ 112))] s.byte a
    -- the phase is seen complete
    let seen := s.phaseSeen (e.flags.getLsbD 0) key
    (s.late = [] → s.behind = [] → seen = s) ∧ (e.flags.getLsbD 0 = false → seen.mem = s.mem) ∧
    (e.flags.getLsbD 0 = true → ∀ z ∈ seen.late, z.trail.obj ≠ some (key, 1)) ∧
    (v < 2 ^ 47 → leaves (.binit e) v 0 v 0) ∧
    (2 ^ 47 ≤ v → leaves (.binit e) fault 0 (v % 2 ^ 48) 0) ∧
    (s.poisoned key 16 = false →
     (faulted → leaves (.barm e) pending phase expected x ∧ leaves (.barrive e) pending phase expected x ∧
       exec (.waitb e) s = .next (s.takeTrap 0x0E w.k0 (BitVec.ofNat 64 addr)) ∧
       exec (.testb e) s = .next (s.takeTrap 0x0E w.k0 (BitVec.ofNat 64 addr))) ∧
     (¬ faulted →
       (pending + v < 2 ^ 47 → leaves (.barm e) (pending + v) phase expected x) ∧
       (2 ^ 47 ≤ pending + v → leaves (.barm e) fault phase expected x) ∧
       (v = 0 ∨ v < pending → leaves (.barrive e) (pending - v) phase expected x) ∧
       (0 < v → v = pending → leaves (.barrive e) expected (1 - phase) expected x) ∧
       (pending < v → leaves (.barrive e) fault phase expected x) ∧
       (phase ≠ v % 2 → exec (.waitb e) s = .next (seen.advance 8) ∧ exec (.testb e) s = .next (seen.pushScalar 1)) ∧
       (phase = v % 2 → exec (.waitb e) s = .next (s.hold (.waitb key (decide (v % 2 = 1)))) ∧
         exec (.testb e) s = .next (s.pushScalar 0))))

/-! ### Engines -/

/-- CPY, CPYS, CPYP, GTHR, SCAT and COLL at issue (R257 to R267, R269): nothing under an empty mask; with the object and the shapes as
R259 asks and room in the queue, the command joins its engine's queue with what it will copy and count, and the split goes on;
without room it waits. COLL takes its group's SEQ and leaves it one higher, or waits at its page; another COLL on the group waits
meanwhile. With ORD the engine reads what the split's accesses before it wrote. That a CPYS goes to the message window as it stands
at issue is the model's choice (Log 108). The checks at issue (R244, R259, R263 to R266, R277, R281, R284, R285, R289 to R296): the
first condition, in the order of the rules, that a command fails raises its trap, and nothing is queued. The checks of the object,
of each shape, and then of the command. That a GTHR or SCAT whose boxes do not fit raises 0x0A naming SHB (Log 124), and a LIST that
cannot be read 0x0E (Log 126), are the model's readings (DEDUCED). -/
def Obligations.EngineIssue : Prop :=
  (∀ (s : State) (e : FmtE), s.ctx.resident = true →
     let w := s.ctx
     let a := w.shape e.sha
     let b := w.shape e.shb
     let c := w.shape e.shc
     let obj := (w.uni e.b).toNat % 2 ^ 32
     let n := (w.uni e.a).toNat
     let objOk := fun (o : Nat) => ∃ t, s.judgeSpad { size := 16, rd := true, wr := false } o = .ok t
     let fits := fun (r : BitVec 4) (h : Shape) => s.shapeFault r h false = none
     let boxes := ∀ k < 4, shBox a k = shBox b k
     -- equal formats, or a conversion to an element format without scales
     let pairs := (shFmt a = shFmt b ∧ shBlk a = shBlk b) ∨ (shFmt a ≤ 13 ∧ shFmt b ≤ 13 ∧ shBlk b = 0)
     let object := w.uniReads [⟨1, e.b, 1⟩]
     let reads := w.uniReads [⟨0, e.a, 1⟩, ⟨1, e.b, 1⟩]
     let cluster := w.core / 4
     let queues := fun (i : Instr) (kind : EngKind) (place path bytes total : Nat) (g : Option Group) (message : Option (Nat × Nat × Nat)) =>
       let full := 63 ≤ s.engineCount w.ref ∨
         (if path = 1 then 32 else if path = 2 then 16 else 64) ≤ (s.cmds.filter (fun x => x.place == place && x.path == path)).length
       let x : EngCmd :=
         { id := s.fresh, kind := kind, place := place, watch := w.ref, split := w.sp.id, core := w.core, dom := w.dom, cls := w.cls,
           path := path, a := a, b := b, c := c, obj := obj, bytes := bytes, group := g, total := total, done := 0,
           wclass := e.flags.extractLsb' 1 2, stall := none, paused := false, message := message,
           sent := decide (g = none ∧ message = none), seqDue := g.isSome }
       let u := if e.flags.getLsbD 0 then s.crossPaths w.ref w.sp.id (·.before w.ref w.sp.id 0) path else s
       (full → exec i s = .next (s.hold .operand)) ∧
       (¬ full → g = none → exec i s = .next (({ u with cmds := s.cmds ++ [x], fresh := s.fresh + 1 } : State).advance 8)) ∧
       -- a collective's engine writes SEQ, at a key of storage, or waits for the page
       (¬ full → s.settled → (∀ z ∈ s.cmds, z.id ≠ s.fresh) → ∀ y, g = some y →
         (∀ k, s.agentRuns x.agent false true (y.va.toNat + 16) 8 = .ok [(k, 8)] →
           ∃ t, exec i s = .next t ∧ { t with cmds := s.cmds } = { s with
               ctx := t.ctx, others := t.others, mem := t.mem, poison := t.poison, idt := t.idt, copies := t.copies, fresh := t.fresh } ∧
             t.cmds.map (fun (z : EngCmd) => { z with overlaid := [] }) =
               (s.cmds ++ [{ x with seqDue := false }]).map (fun (z : EngCmd) => { z with overlaid := [] }) ∧
             t.ctx.unreserved = { w.unreserved with sp := { w.sp with pc := w.sp.pc + 8, wait := .none } } ∧
             ∀ a, t.byte a = written [(k, leBytes 8 ((y.seq.toNat + 1) % 2 ^ 64))] s.byte a) ∧
         (∀ p, s.agentRuns x.agent false true (y.va.toNat + 16) 8 = .hold p true →
           ∃ t, exec i s = .next t ∧ t.ctx.sp.pc = w.sp.pc + 8 ∧ t.cmds = s.cmds ++ [{ x with stall := some p }]))
     (s.admits none → w.k0 = 0 → ∀ i ∈ [Instr.cpy e, .cpys e, .cpyp e], exec i s = .next (s.advance 8)) ∧
     (s.admits (some 4) → w.k0 = 0 → exec (.gthr e) s = .next (s.advance 8) ∧ exec (.scat e) s = .next (s.advance 8)) ∧
     (s.admits (some 3) → w.k0 = 0 →
       ∀ i ∈ [Instr.collRed e, .collBcast e, .collGath e, .collAllred e], exec i s = .next (s.advance 8)) ∧
     (w.k0 ≠ 0 →
       (object → objOk obj → fits e.sha a → fits e.shb b → pairs → boxes →
         queues (.cpy e) .cpy cluster 1 (tileBytes b) (shCount a) none none) ∧
       (reads → objOk obj → s.cpysFault e.sha a n = none → s.cpysFault e.shb b n = none → n ≤ 2 ^ 40 →
         shSpad a = true ∨ shSpad b = true ∨ shBase b + n ≤ shBase a ∨ shBase a + n ≤ shBase b ∨ n = 0 →
         ∀ msg, (shSpad b = true ∨ s.messageWindow w.dom (shBase b) = none → msg = none) →
           (∀ k, shSpad b = false → s.messageWindow w.dom (shBase b) = some k →
             msg = some (s.regField (.fwtgt w.dom k) 0 16, s.regField (.fwtgt w.dom k) 16 5, s.regField (.fwbase w.dom k) 16 39 * 2 ^ 16)) →
           queues (.cpys e) .cpys cluster 1 n (if msg.isSome then 1 else if n = 0 then 0 else (shBase b % 16 + n + 15) / 16) none msg) ∧
       (object → let ranks := (List.range 4).filter (fun r => e.ext.getLsbD r)
        ranks ≠ [] → (∀ r ∈ ranks, objOk (obj % 2 ^ 30 + r * 2 ^ 30)) → fits e.sha a →
         s.shapeFault e.shb (if shSpad b then putShape b 30 2 (ranks.headD 0) else b) true = none → pairs → boxes →
         queues (.cpyp e) (.cpyp (e.ext.toNat % 16)) cluster 1 (tileBytes b) (ranks.length * shCount a) none none) ∧
       (object → s.admits (some 4) → objOk obj → fits e.sha a → fits e.shb b → fits e.shc c →
         (shFmt c = 6 ∨ shFmt c = 7) → shBox c 1 = 1 → shBox c 2 = 1 → shBox c 3 = 1 → shBlk c = 0 → tileInside c = true → pairs →
         let match_ := fun (table other : Shape) => shBox table 2 = 1 ∧ shBox table 3 = 1 ∧ shBox other 0 = shBox table 0 ∧
           shBox other 1 = shBox c 0 ∧ shBox other 2 = 1 ∧ shBox other 3 = 1
         (match_ a b → queues (.gthr e) .gthr cluster 2 (tileBytes b) (shBox c 0 * shBox a 0) none none) ∧
         (match_ b a → queues (.scat e) .scat cluster 2 (tileBytes a) (shBox c 0 * shBox b 0) none none)) ∧
       (reads → s.admits (some 3) → objOk obj → fits e.sha a → fits e.shb b → shFmt a = shFmt b → shBlk a = 0 → shBlk b = 0 →
         ∀ (kind : BitVec 2) (g : Group) (i : Instr),
           (kind = 0 ∧ i = .collRed e) ∨ (kind = 1 ∧ i = .collBcast e) ∨ (kind = 2 ∧ i = .collGath e) ∨ (kind = 3 ∧ i = .collAllred e) →
           let root := e.ext.toNat / 16
           let m := g.members.length
           let op := e.ext.toNat % 4
           let seqDue := s.cmds.any (fun z => z.seqDue && z.group.any (fun y => y.va.toNat == n))
           (kind = 1 ∨ kind = 2 ∨ shFmt a = 0 ∨ shFmt a = 6 ∨ shFmt a = 7 ∨ (shFmt a = 17 ∧ op = 0)) →
           (kind = 2 ∨ shCount b = shCount a) →
           (seqDue = true → exec i s = .next (s.hold .operand)) ∧
           (seqDue = false →
             s.readGroup n (if kind = 0 ∨ kind = 1 then root else 0) (fun m => kind != 2 || decide (shCount b = m * shCount a)) = .ok g →
             queues i (.coll kind (BitVec.ofNat 2 op) root) (160 + (if w.core < 320 then 0 else 2) + n / 64 % 2) 4
               ((if kind = 2 then m else 1) * tileBytes a)
               (if kind = 0 ∧ g.rank ≠ root then 1 else if kind = 2 then m * shCount a else shCount a) (some g) none)))) ∧
  (∀ (s : State) (e : FmtE), s.ctx.resident = true → s.ctx.k0 ≠ 0 →
     let w := s.ctx
     let a := w.shape e.sha
     let b := w.shape e.shb
     let c := w.shape e.shc
     let obj := (w.uni e.b).toNat % 2 ^ 32
     let n := (w.uni e.a).toNat
     let differ := ∃ k < 4, shBox a k ≠ shBox b k
     let pairs := (shFmt a = shFmt b ∧ shBlk a = shBlk b) ∨ (shFmt a ≤ 13 ∧ shFmt b ≤ 13 ∧ shBlk b = 0)
     let one := fun (r : BitVec 4) (h : Shape) => s.shapeConds r h false
     let sha := some e.sha
     let shb := some e.shb
     let object := w.uniReads [⟨1, e.b, 1⟩]
     let reads := w.uniReads [⟨0, e.a, 1⟩, ⟨1, e.b, 1⟩]
     (object →
       stopsAtFirst (.cpy e) s (s.spadConds 16 obj ++ one e.sha a ++ one e.shb b ++
         [(¬ pairs, s.shapeStop 0x02 shb), (differ, s.shapeStop 0x0A shb)]) ∧
       (let ranks := (List.range 4).filter (fun r => e.ext.getLsbD r)
        stopsAtFirst (.cpyp e) s (ranks.flatMap (fun r => s.spadConds 16 (obj % 2 ^ 30 + r * 2 ^ 30)) ++ one e.sha a ++
         s.shapeConds e.shb (if shSpad b then putShape b 30 2 (ranks.headD 0) else b) true ++
         [(¬ pairs, s.shapeStop 0x02 shb), (differ, s.shapeStop 0x0A shb)])) ∧
       (s.admits (some 4) →
         let rows := fun (i : Instr) (table other : Shape) =>
           stopsAtFirst i s (s.spadConds 16 obj ++ one e.sha a ++ one e.shb b ++ one e.shc c ++
             [(¬ ((shFmt c = 6 ∨ shFmt c = 7) ∧ shBox c 1 = 1 ∧ shBox c 2 = 1 ∧ shBox c 3 = 1 ∧ shBlk c = 0 ∧
                 ∀ k < 4, 0 ≤ shOrg c k ∧ shOrg c k + shBox c k ≤ shExt c k), s.shapeStop 0x0D (some e.shc)),
              (¬ pairs, s.shapeStop 0x02 shb),
              (¬ (shBox table 2 = 1 ∧ shBox table 3 = 1 ∧ shBox other 0 = shBox table 0 ∧ shBox other 1 = shBox c 0 ∧
                 shBox other 2 = 1 ∧ shBox other 3 = 1), s.shapeStop 0x0A shb)])
         rows (.gthr e) a b ∧ rows (.scat e) b a)) ∧
     (reads →
       (let ends := fun (r : BitVec 4) (h : Shape) =>
         [(shSpad h = true ∧ (w.blocks ≤ shBase h % 2 ^ 32 / 2 ^ 30 ∨ w.dom ≠ w.home),
             s.domainTrap w.k0 (BitVec.ofNat 64 (shBase h % 2 ^ 32))),
          (shSpad h = true ∧ (2 ^ 32 ≤ shBase h ∨ (n ≠ 0 ∧ 128 * w.spadRows < shBase h % 2 ^ 30 + n)), s.shapeStop 0x08 (some r)),
          (shSpad h = false ∧ n ≠ 0 ∧ 2 ^ 55 < shBase h + n, s.shapeStop 0x09 (some r))]
        stopsAtFirst (.cpys e) s (s.spadConds 16 obj ++ ends e.sha a ++ ends e.shb b ++
         [(2 ^ 40 < n, s.shapeStop 0x0C none),
          (shSpad a = false ∧ shSpad b = false ∧ n ≠ 0 ∧ shBase a < shBase b + n ∧ shBase b < shBase a + n, s.shapeStop 0x0C shb)])) ∧
       (s.admits (some 3) → ∀ (kind : BitVec 2) (i : Instr),
         (kind = 0 ∧ i = .collRed e) ∨ (kind = 1 ∧ i = .collBcast e) ∨ (kind = 2 ∧ i = .collGath e) ∨ (kind = 3 ∧ i = .collAllred e) →
         let op := e.ext.toNat % 4
         let takes := kind = 1 ∨ kind = 2 ∨ shFmt a = 0 ∨ shFmt a = 6 ∨ shFmt a = 7 ∨ (shFmt a = 17 ∧ op = 0)
         let before := s.spadConds 16 obj ++ one e.sha a ++ one e.shb b ++
           [(shFmt a ≠ shFmt b ∨ ¬ takes, s.shapeStop 0x02 shb), (shBlk a ≠ 0, s.shapeStop 0x06 sha), (shBlk b ≠ 0, s.shapeStop 0x06 shb),
            (kind ≠ 2 ∧ shCount b ≠ shCount a, s.shapeStop 0x0A shb)]
         let root := if kind = 0 ∨ kind = 1 then e.ext.toNat / 16 else 0
         let go := fun m => kind != 2 || decide (shCount b = m * shCount a)
         stopsAtFirst i s before ∧
         -- the group: an entry out of place, with no number of members, or with one and something else that R266 forbids
         ((∀ x ∈ before, ¬ x.1) → s.cmds.any (fun z => z.seqDue && z.group.any (fun y => y.va.toNat == n)) = false →
           ∀ m, s.readGroup n root go = .bad m →
             exec i s = .next (if kind = 2 ∧ m.any (fun m => decide (shCount b ≠ m * shCount a)) = true then s.shapeStop 0x0A shb
               else s.shapeStop 0x0E none)) ∧
         (n % 64 ≠ 0 → s.readGroup n root go = .bad none) ∧
         ∀ bs, n % 64 = 0 → s.groupBytes n 64 = .ok bs →
           let m := leNat (bs.take 4)
           let rank := leNat ((bs.drop 4).take 4)
           (m = 0 ∨ 1024 < m → s.readGroup n root go = .bad none) ∧
           (0 < m → m ≤ 1024 → m ≤ rank ∨ m ≤ root ∨ (∃ x ∈ bs.drop 32, x ≠ 0) ∨ go m = false →
             s.readGroup n root go = .bad (some m)))) ∧
     -- matrix commands
     (w.cls ≠ 2 →
       let row := e.ext.toNat % 256
       let rows := e.ext.toNat / 256 + 1
       let pair := e.flags.getLsbD 4 = true
       let rowConds := fun (k : Nat) (partner : Prop) => [(s.ownRows < row + k, s.shapeStop 0x10 none),
         (partner ∧ s.partnerRank = none, s.shapeStop 0x11 none)]
       (w.uniReads [⟨0, e.a, 1⟩] → stopsAtFirst (.accinit e) s (rowConds rows pair)) ∧
       (reads →
         (let product := fun (i : Instr) (sparse paired : Bool) =>
           let fa := shFmt a
           let fb := shFmt b
           let okPair := if sparse then (fa ∈ [14, 15] ∧ fb ∈ [3, 4]) ∨ (fa = 16 ∧ fb ∈ [10, 11])
             else (fa ∈ [3, 4] ∧ fb ∈ [3, 4]) ∨ (fa ∈ [10, 11] ∧ fb ∈ [10, 11]) ∨ (fa = fb ∧ fa ∈ [1, 2, 5])
           let limit := if paired then 512 else 256
           let k := if sparse then 192 * shBox a 0 else shBox a 0
           let side := fun (x limit : Nat) => x % 32 = 0 ∧ 32 ≤ x ∧ x ≤ limit
           stopsAtFirst i s (s.spadConds 16 obj ++ one e.sha a ++ one e.shb b ++
             [(¬ okPair, s.shapeStop 0x02 shb),
              (shBox a 2 ≠ 1 ∨ shBox a 3 ≠ 1, s.shapeStop 0x0F sha), (shBox b 2 ≠ 1 ∨ shBox b 3 ≠ 1, s.shapeStop 0x0F shb),
              (¬ side (shBox a 1) 256 ∨ k % 32 ≠ 0 ∨ k = 0 ∨ 4064 < k, s.shapeStop 0x0F sha),
              (¬ side (shBox b 1) limit ∨ shBox b 0 ≠ k, s.shapeStop 0x0F shb),
              (n % 32 ≠ 0 ∨ limit < n + shBox b 1, s.shapeStop 0x0F none)] ++
             rowConds (shBox a 1) (paired = true ∧ 256 < n + shBox b 1))
          (s.admits (some 0) → product (.mma e) false false ∧ product (.mmap e) false true) ∧
          (s.admits (some 1) → product (.mmas e) true false ∧ product (.mmasp e) true true)) ∧
         (let tile := fun (i : Instr) (format : List (Prop × State)) =>
           stopsAtFirst i s (s.spadConds 16 obj ++ one e.sha a ++ format ++
             [(shBox a 2 ≠ 1 ∨ shBox a 3 ≠ 1 ∨ (if e.flags.getLsbD 4 then 512 else 256) < n + shBox a 0, s.shapeStop 0x0F sha)] ++
             rowConds (shBox a 1) pair)
          tile (.accrd e) [(¬ (shFmt a ≤ 13 ∨ shFmt a = 17), s.shapeStop 0x02 sha), (shBlk a ≠ 0, s.shapeStop 0x06 sha)] ∧
          tile (.accrdw e) [(shBlk a = 0, s.shapeStop 0x06 sha)] ∧
          (s.admits (some 0) →
           tile (.accadd e) [(shFmt a ≠ 0 ∧ shFmt a ≠ 17, s.shapeStop 0x02 sha), (shBlk a ≠ 0, s.shapeStop 0x06 sha)])) ∧
         stopsAtFirst (.accstat e) s (s.spadConds 16 obj ++ rowConds rows pair ++
           (List.range (if e.flags.getLsbD 4 then 2 * rows else rows)).flatMap (fun i => s.spadConds 8 ((n % 2 ^ 32 + 8 * i) % 2 ^ 32))))))

/-- Delivery and completion (R242, R243, R248, R254, R255, R260 to R270): what an engine reads of an element; one unit of CPY, CPYP,
GTHR and SCAT, converted where the formats differ, of CPYS and of the collectives, written where it belongs, its bytes subtracted
from its object; an index outside a table that may not be left ends the command; a command that has delivered everything stops being
outstanding; an aborted collective leaves STATUS 1, or 2 for a mismatch, and counts all its bytes. A destination element of a byte
or more, on one page. -/
def Obligations.EngineWork : Prop :=
  ∀ (s : State) (id : Nat) (c : EngCmd) (pieces : List (List Byte)), Memory.wf s.mem = true → s.settled →
    s.cmds.find? (fun x => x.id == id) = some c → s.mats.find? (fun x => x.id == id) = none →
    let ready := c.done < c.total ∧ c.stall = none ∧ c.paused = false ∧ c.seqDue = false ∧ c.sent = true ∧ c.ended = none ∧ c.overlaid = [] ∧
      s.throttled (s.payer c.watch c.dom) = false ∧ (∀ x ∈ s.cmds, x.place = c.place → x.path = c.path → x = c)
    let next := s.cmds.map (fun x => if x.id = id then { x with done := c.done + 1 } else x)
    let leaves := fun (data : List (Nat × List Byte)) (obj counted : Nat) =>
      ∃ t, exec (.engineDelivery id 1 pieces) s = .next t ∧ t.cmds = next ∧ s.delivered t (written data s.byte) obj counted ∧ t.mats = s.mats
    -- where element j of a shape is written, if it is
    let place := fun (h : Shape) (j : Pos) (code : Nat) (data : List (Nat × List Byte)) =>
      (inBounds h j = false ∧ data = []) ∨ (inBounds h j = true ∧ 8 ≤ shBits h ∧ ∃ k, data = [(k, leBytes (elemBytes h) code)] ∧
        s.agentRuns c.agent (shSpad h) true (elemByte h j) (elemBytes h) = .ok [(k, elemBytes h)] ∧ s.holds k (elemBytes h))
    -- an element as it is read
    (∀ (h : Shape) (i : Pos), shBlk h = 0 →
      (∀ k, inBounds h i = true → s.agentRuns c.agent (shSpad h) false (elemByte h i) (elemBytes h) = .ok [(k, elemBytes h)] →
        s.poisoned k (elemBytes h) = false →
        s.readElem c.agent h i = .ok (leNat (bytesOf s.byte k (elemBytes h)) / 2 ^ elemBit h i % 2 ^ shBits h, 0x80)) ∧
      (inBounds h i = false → shOob h = 0 → s.readElem c.agent h i = .ok (shFill h % 2 ^ shBits h, 0x80))) ∧
    -- one element of CPY, CPYP, GTHR or SCAT: from position i of A to position j of B
    (∀ (A B : Shape) (i j : Pos) (x scale code o obj per d : Nat) (data scales : List (Nat × List Byte)), ready →
      c.group = none → c.message = none → 0 < per →
      let ranks := fun (m : Nat) => (List.range 4).filter (fun r => m.testBit r)
      let row := fun (h : Shape) (z : Int) (t : Nat) => (fun k => if k = 0 then shOrg h 0 + t else if k = 1 then z else shOrg h k : Pos)
      let far := fun (h : Shape) (k t : Nat) => elemAt h (fun q => if q = 0 then (t : Int) else if q = 1 then (k : Int) else 0)
      let index := fun (table : Shape) (z : Int) => ∃ y v, s.readElem c.agent c.c (elemAt c.c (tileAt c.c (c.done / shBox table 0))) = .ok (y, v) ∧
        z = (if shFmt c.c = 6 then signed 32 y else (y : Int)) ∧ (shOob table = 1 → 0 ≤ z ∧ z < shExt table 1)
      (c.kind = .cpy ∧ A = c.a ∧ B = c.b ∧ i = elemAt A (tileAt A c.done) ∧ j = elemAt B (tileAt A c.done) ∧ shCount A = shCount B ∧
          (∀ k < 4, shBox A k = shBox B k) ∨
        (∃ m, c.kind = .cpyp m ∧ A = c.a ∧ per = shCount A ∧ c.total = (ranks m).length * per ∧
          (let r := (ranks m).getD (c.done / per) 0
           (∀ b : Nat, B.getLsbD b = if b = 30 then r.testBit 0 else if b = 31 then r.testBit 1 else c.b.getLsbD b) ∧
           o = c.obj % 2 ^ 30 + r * 2 ^ 30 + c.obj / 2 ^ 32 * 2 ^ 32) ∧
          i = elemAt A (tileAt A (c.done % per)) ∧ j = elemAt B (tileAt A (c.done % per)) ∧ d = c.done % per) ∨
        (c.kind = .gthr ∧ A = c.a ∧ B = c.b ∧ ∃ z, index A z ∧ i = row A z (c.done % shBox A 0) ∧
          j = far B (c.done / shBox A 0) (c.done % shBox A 0)) ∨
        (c.kind = .scat ∧ A = c.a ∧ B = c.b ∧ ∃ z, index B z ∧ i = far A (c.done / shBox B 0) (c.done % shBox B 0) ∧
          j = row B z (c.done % shBox B 0))) →
      ((∀ m, c.kind ≠ .cpyp m) → o = c.obj ∧ per = c.total ∧ d = c.done) →
      s.readElem c.agent A i = .ok (x, scale) →
      (shFmt A = shFmt B ∧ shBlk A = shBlk B → code = x) →
      (¬ (shFmt A = shFmt B ∧ shBlk A = shBlk B) → shFmt A ≤ 13 ∧ shFmt B ≤ 13 ∧ shBlk B = 0 ∧
        convertsTo (shFmt B) (scaledValue (shFmt A) x scale) code) →
      place B j code data →
      -- the scale of the block, if it is copied
      ((shBlk B = 0 ∨ scaleByte B j = none) ∧ scales = [] ∨ (∃ y k u, shBlk B ≠ 0 ∧ scaleByte B j = some y ∧
        s.writeElem c.agent B j code = .ok u ∧ u.agentRuns c.agent false true y.toNat 1 = .ok [(k, 1)] ∧ u.holds k 1 ∧
        scales = [(k, leBytes 1 scale)])) →
      s.agentKey c.agent true true o = .ok obj → s.holds obj 16 →
      leaves (data ++ scales) obj (c.bytes * (d + 1) / per - c.bytes * d / per)) ∧
    -- one aligned part of CPYS
    (∀ (n src dst p obj : Nat), ready → c.group = none → c.message = none → c.kind = .cpys →
      c.total = (shBase c.b % 16 + c.bytes + 15) / 16 → p = min c.bytes (16 * c.done - shBase c.b % 16) →
      p + n = min c.bytes (16 * (c.done + 1) - shBase c.b % 16) → 0 < n →
      s.agentRuns c.agent (shSpad c.a) false (shBase c.a + p) n = .ok [(src, n)] → s.poisoned src n = false →
      s.agentRuns c.agent (shSpad c.b) true (shBase c.b + p) n = .ok [(dst, n)] → s.holds dst n →
      s.agentKey c.agent true true c.obj = .ok obj → s.holds obj 16 →
      leaves [(dst, bytesOf s.byte src n)] obj n) ∧
    -- the collectives, with the members' pieces
    (∀ (kind op : BitVec 2) (root : Nat) (g : Group) (x scale code obj : Nat) (data : List (Nat × List Byte)), ready →
      c.kind = .coll kind op root → c.group = some g → s.collReady c g kind root pieces = true →
      s.agentKey c.agent true true c.obj = .ok obj → s.holds obj 16 →
      (let f := shFmt c.a
       let cnt := shCount c.a
       let src := if kind = 2 then c.done % cnt else c.done
       let piece := fun (r : Nat) => if r = g.rank then x else bitsAt (leNat (pieces.getD r [])) (shBits c.a * src) (shBits c.a)
       let dec := fun (x : Nat) => Ty.f32.ffmt.decode x
       let step := fun (p q : Nat) =>
        if f = 17 then (p % 2 ^ 94 + q % 2 ^ 94) % 2 ^ 94 + joinSpecial (p / 2 ^ 94 % 4) (q / 2 ^ 94 % 4) * 2 ^ 94
        else if f = 0 then (Ty.f32.ffmt.round .ne (if op = 0 then (dec p).add .ne (dec q)
          else if op = 1 then fminimum (dec p) (dec q) else fmaximum (dec p) (dec q))).1
        else if op = 0 then (p + q) % 2 ^ 32
        else if f = 6 then
          if op = 1 then (if signed 32 p ≤ signed 32 q then p else q) else (if signed 32 p ≤ signed 32 q then q else p)
        else if op = 1 then min p q else max p q
       (kind = 0 → g.rank = root) → c.done + 1 < c.total →
       (kind ≠ 1 ∨ g.rank = root → s.readElem c.agent c.a (elemAt c.a (tileAt c.a src)) = .ok (x, scale)) →
       (kind = 1 → code = piece root) → (kind = 2 → code = piece (c.done / cnt)) →
       (kind = 0 ∨ kind = 3 → reduceTree step (Nat.log2 g.members.length + 1) ((List.range g.members.length).map (fun r => some (piece r))) = some code) →
       place c.b (elemAt c.b (tileAt c.b c.done)) code data →
       leaves data obj (c.bytes * (c.done + 1) / c.total - c.bytes * c.done / c.total)) ∧
      -- a member of RED that is not its root has one unit: STATUS, and all bytes
      (∀ k, kind = 0 → g.rank ≠ root → c.total = 1 → s.agentRuns c.agent false true (g.va.toNat + 24) 8 = .ok [(k, 8)] → s.holds k 8 →
        leaves [(k, leBytes 8 0)] obj c.bytes)) ∧
    (∀ (table : Shape) (y v : Nat), ready → c.group = none → (∀ x ∈ s.cmds, x.id = id → x = c) →
      c.kind = .gthr ∧ table = c.a ∨ c.kind = .scat ∧ table = c.b → shOob table = 1 →
      s.readElem c.agent c.c (elemAt c.c (tileAt c.c (c.done / shBox table 0))) = .ok (y, v) →
      (let z : Int := if shFmt c.c = 6 then signed 32 y else y
       z < 0 ∨ shExt table 1 ≤ z) →
      exec (.engineDelivery id 1 pieces) s = .next ((s.engFault c 3 0).portDeliver id 1)) ∧
    (c.total ≤ c.done → exec (.engineCommandComplete id) s = .next (s.dropCmd c)) ∧
    (c.done < c.total → exec (.engineCommandComplete id) s = .next s) ∧
    (∀ (kind op : BitVec 2) (root : Nat) (mismatch : Bool), c.kind = .coll kind op root →
      let u := s.freeTile c (shCount c.b)
      (c.total ≤ c.done ∨ c.ended ≠ none → exec (.collAbort id mismatch) s = .next s) ∧
      (∀ g k, c.done < c.total → c.ended = none → c.group = some g → c.overlaid = [] →
        (∀ x ∈ s.cmds, x.place = c.place → x.path = c.path → x = c) → u.agentRuns c.agent false true (g.va.toNat + 24) 8 = .ok [(k, 8)] →
        ∃ t : State, exec (.collAbort id mismatch) s = .next ((t.countUnits c c.done c.total).dropCmd c) ∧
          ∀ a, t.byte a = written [(k, leBytes 8 (if mismatch then 2 else 1))] u.byte a))

/-- The matrix class at issue (R20, R273, R276, R282 to R286, R289 to R296, R298): LEEWAY for a leeway watch, nothing under an empty
mask, and otherwise an entry of the cluster's reservation table for a command that meets the conditions of R259 and R285, or a wait
when the table is full; and what ANCHOR computes. That commands of a restored gang enter the table before new ones is the model's
reading (Log 110, DEDUCED). With ORD the tile fetch unit reads what P0 or a crossing point has brought into memory. -/
def Obligations.MatrixIssue : Prop :=
  ∀ (s : State) (e : FmtE), s.ctx.resident = true →
    let w := s.ctx
    let a := w.shape e.sha
    let b := w.shape e.shb
    let obj := (w.uni e.b).toNat % 2 ^ 32
    let v := (w.uni e.a).toNat
    let row := e.ext.toNat % 256
    let rows := e.ext.toNat / 256 + 1
    let pair := e.flags.getLsbD 4
    let clear := e.flags.getLsbD 3
    let objOk := ∃ t, s.judgeSpad { size := 16, rd := true, wr := false } obj = .ok t
    let fits := fun (r : BitVec 4) (h : Shape) => s.shapeFault r h false = none
    let reads := w.uniReads [⟨0, e.a, 1⟩, ⟨1, e.b, 1⟩]
    let rowsOk := fun (n : Nat) (pair : Bool) => row + n ≤ s.ownRows ∧ (pair = true → s.partnerRank ≠ none)
    let table := s.mats.filter (fun c => !c.saved && c.core / 4 == w.core / 4)
    -- no room, or commands of a restored gang are to enter before it
    let full := 63 ≤ s.engineCount w.ref ∨ 16 ≤ table.length ∨ 8 ≤ (table.filter (fun c => c.core == w.core)).length ∨
      s.mats.any (fun c => s.reenters c && c.core / 4 == w.core / 4) = true
    -- x holds the columns, rows, address, object, bytes and units of the command
    let queues := fun (i : Instr) (op : MatOp) (maj : Nat) (col rows addr obj bytes total : Nat) (pair clear : Bool) =>
      (full → exec i s = .next (s.hold .operand)) ∧
      (¬ full → ∃ x : MatCmd, exec i s = .next (({ (if e.flags.getLsbD 0 then
            s.barStale w.ref w.sp.id (fun t => t.path == 0 || t.crossed) 3 else s) with
          mats := s.mats ++ [x], fresh := s.fresh + 1 } : State).advance 8) ∧
        x.id = s.fresh ∧ x.core = w.core ∧ x.watch = w.ref ∧ x.split = w.sp.id ∧ x.dom = w.dom ∧ x.op = op ∧ x.major = maj ∧
        x.a = a ∧ x.b = b ∧ x.obj = obj ∧ x.row = row ∧ x.col = col ∧ x.rows = rows ∧ x.addr = addr ∧ x.bytes = bytes ∧
        x.total = total ∧ x.clear = clear ∧ x.pair = (if pair then s.partnerRank else none) ∧
        x.done = 0 ∧ x.left = 0 ∧ x.right = 0 ∧ x.running = [] ∧ x.stall = none ∧ x.saved = false ∧
        (x.isProduct = true → x.nopre = e.flags.getLsbD 3 ∧
          x.prio = min (e.flags.extractLsb' 1 2).toNat (s.regField (.quotaCtl w.core w.dom) 4 2)))
    let all : List (Instr × Option Nat × DWord) :=
      [(.mma e, some 0, 0xB0), (.mmap e, some 0, 0xB1), (.mmas e, some 1, 0xB2), (.mmasp e, some 1, 0xB2), (.accinit e, none, 0xB3),
       (.accrd e, none, 0xB5), (.accrdw e, none, 0xB6), (.accadd e, some 0, 0xB7), (.accstat e, none, 0xB8)]
    (∀ i ∈ all, s.admits i.2.1 → w.cls = 2 → exec i.1 s = .next (s.takeTrap 0x16 w.k0 i.2.2)) ∧
    (∀ i ∈ all, s.admits i.2.1 → w.cls ≠ 2 → w.k0 = 0 → exec i.1 s = .next (s.advance 8)) ∧
    (w.cls ≠ 2 → w.k0 ≠ 0 →
      -- products
      (reads → let fa := shFmt a
       let fb := shFmt b
       let dense := (fa ∈ [3, 4] ∧ fb ∈ [3, 4]) ∨ (fa ∈ [10, 11] ∧ fb ∈ [10, 11]) ∨ (fa = fb ∧ fa ∈ [1, 2, 5])
       let sparse := (fa ∈ [14, 15] ∧ fb ∈ [3, 4]) ∨ (fa = 16 ∧ fb ∈ [10, 11])
       let side := fun (x limit : Nat) => x % 32 = 0 ∧ 32 ≤ x ∧ x ≤ limit
       let k := fun (per : Nat) => if per = 192 then 192 * shBox a 0 else shBox a 0
       let product := fun (i : Instr) (maj : Nat) (isSparse_ paired : Bool) =>
         let per := if isSparse_ then 192 else 32
         let limit := if paired then 512 else 256
         let wide := paired && decide (256 < v + shBox b 1)
         s.admits (some (if isSparse_ then 1 else 0)) → objOk → fits e.sha a → fits e.shb b →
         (if isSparse_ then sparse else dense) → shBox a 2 = 1 → shBox a 3 = 1 → shBox b 2 = 1 → shBox b 3 = 1 →
         side (shBox a 1) 256 → side (shBox b 1) limit → k per % per = 0 → k per ≠ 0 → k per ≤ 4064 → shBox b 0 = k per →
         v % 32 = 0 → v + shBox b 1 ≤ limit → rowsOk (shBox a 1) wide → (isSparse_ = true → s.headerFault a = none) →
         queues i (.product paired) maj v 0 0 obj (shCount a * shBits a / 8 + shCount b * shBits b / 8) 0 wide false
       product (.mma e) 0xB0 false false ∧ product (.mmap e) 0xB1 false true ∧
       product (.mmas e) 0xB2 true false ∧ product (.mmasp e) 0xB2 true true) ∧
      -- accumulator commands
      (w.uniReads [⟨0, e.a, 1⟩] → s.admits none → rowsOk rows pair →
        queues (.accinit e) (.accinit ((w.uni e.a).setWidth 10)) 0xB3 0 rows 0 0 0 (if pair then 2 * rows else rows) pair false) ∧
      (reads → objOk → fits e.sha a → shBox a 2 = 1 → shBox a 3 = 1 → v + shBox a 0 ≤ (if pair then 512 else 256) →
        rowsOk (shBox a 1) pair →
        (s.admits none → shFmt a ≤ 13 ∨ shFmt a = 17 → shBlk a = 0 →
          queues (.accrd e) .accrd 0xB5 v 0 0 obj (tileBytes a) (shCount a) pair clear) ∧
        (s.admits none → shBlk a ≠ 0 →
          queues (.accrdw e) .accrdw 0xB6 v 0 0 obj (tileBytes a) (shCount a / (8 * 2 ^ shBlk a)) pair clear) ∧
        (s.admits (some 0) → shFmt a = 0 ∨ shFmt a = 17 → shBlk a = 0 →
          queues (.accadd e) .accadd 0xB7 v 0 0 obj (tileBytes a) (shCount a) pair false)) ∧
      (let n := if pair then 2 * rows else rows
       reads → s.admits none → objOk → rowsOk rows pair →
       (∀ i < n, ∃ t, s.judgeSpad { size := 8, rd := false, wr := true } ((v % 2 ^ 32 + 8 * i) % 2 ^ 32) = .ok t) →
        queues (.accstat e) .accstat 0xB8 0 rows (v % 2 ^ 32) obj (8 * n) n pair clear)) ∧
    -- ANCHOR: floor(log2) of the greatest product of two elements, clamped to 10 bits
    (s.admits none →
      (w.cls = 2 → exec (.anchor e) s = .next (s.takeTrap 0x16 w.k0 0xB4)) ∧
      (w.cls ≠ 2 → (productPair false (shFmt a) (shFmt b) || productPair true (shFmt a) (shFmt b)) = false →
        exec (.anchor e) s = .next (s.takeTrap 0x0C w.k0 (BitVec.ofNat 64 (0x1002 + 256 * e.shb.toNat)))) ∧
      (w.cls ≠ 2 → (productPair false (shFmt a) (shFmt b) || productPair true (shFmt a) (shFmt b)) = true →
        -- the greatest finite magnitude of the element format, and the scale bound, an S8 code
        let top := fun (f : Nat) => (if f = 3 ∨ f = 14 then 480 else if f = 4 ∨ f = 15 then 114688 else if f = 5 then 6
          else if f = 10 ∨ f = 16 then 128 else if f = 11 then 255 else if f = 1 then 65504 else 255 * 2 ^ 120 : ℚ)
        let code := e.ext.toNat % 256
        let scaled := fun (h : Shape) => shBlk h ≠ 0 ∨ 14 ≤ shFmt h ∧ shFmt h ≤ 16
        let sigma : ℚ := if code = 0 then 0 else (1 + (code % 8 : Nat) / 8) * (2 : ℚ) ^ ((code / 8 : Nat) - 16 : Int)
        ∃ x : DWord, exec (.anchor e) s = .next (s.pushScalar x) ∧ -512 ≤ x.toInt ∧ x.toInt ≤ 511 ∧
          ∀ ca cb : ℚ, (scaled a → ca = sigma) → (¬ scaled a → ca = 1) → (scaled b → cb = sigma) → (¬ scaled b → cb = 1) →
            (scaled a ∨ scaled b → code ≠ 255) →
            let p := top (shFmt a) * ca * (top (shFmt b) * cb)
            0 < p → (-512 < x.toInt → (2 : ℚ) ^ x.toInt ≤ p) ∧ (x.toInt < 511 → p < (2 : ℚ) ^ (x.toInt + 1))))

/-- Passes and the accumulator port (R272, R274, R275, R277, R286 to R297, R299): the terms that a pass adds to a cell, in order; a
grant, whose sums stand in the rows from then on, while the array stays busy until the pass ends (Log 53, DEDUCED); the end of a
pass, when the gang may be saved at its YIELDBs (R343); the holding of arrays by a paired request that has waited through 64 grants;
the initialised row; what the port reads of a cell for ACCRD and ACCRDW and where it writes it, what ACCADD adds, the record of
ACCSTAT, and what ZERO and CLR leave. Elements of a byte or more. -/
def Obligations.MatrixWork : Prop :=
  ∀ (s : State), Memory.wf s.mem = true →
    -- terms: the products of present elements with their partners, in order
    (∀ (xs : List (Option FVal)) (ys : List FVal),
      (termsOf xs ys).1 = (List.zip xs ys).filterMap (fun p => p.1.map (fun x => x.mul p.2))) ∧
    (∀ (k col : Nat) (ps : List FVal), ps ≠ [] →
      let t := s.addTerms k col ps
      let sum := ps.foldl addToCell (s.anchored k col)
      t.accCell k col = sum % 2 ^ 96 ∧ (t.accRow k).anchor = (s.accRow k).anchor ∧
      ((t.accRow k).aexc = true ↔ bitsAt sum 106 1 = 1) ∧ ((t.accRow k).nan = true ↔ bitsAt sum 107 1 = 1) ∧
      ((t.accRow k).inf = true ↔ bitsAt sum 108 1 = 1) ∧
      ∀ k' col', (k' ≠ k ∨ col' ≠ col) → col < 256 → col' < 256 → t.accCell k' col' = s.accCell k' col') ∧
    -- ACCINIT
    (∀ (k : Nat) (anchor : BitVec 10),
      let t := s.initRow k anchor
      t.accRow k = { anchor := anchor, aexc := false, nan := false, inf := false } ∧ (∀ col < 256, t.accCell k col = 0) ∧
      ∀ k', k' ≠ k → t.accRow k' = s.accRow k' ∧ ∀ col < 256, t.accCell k' col = s.accCell k' col) ∧
    -- the scale of a block of ACCRDW, and its elements
    (∀ f ∈ [3, 4, 5, 10, 12], ∀ vs : List FVal,
      let y := scaleBlock f vs
      let rat := fun (v : FVal) => match v with
        | .num n m e => (if n then -1 else 1 : ℚ) * (m : ℚ) * (2 : ℚ) ^ e
        | _ => 0
      let top : ℚ := if f = 3 then 480 else if f = 4 then 114688 else if f = 5 then 6 else if f = 10 then 127 else 7
      let value := fun (c : Nat) => (1 + (c % 8 : Nat) / 8 : ℚ) * (2 : ℚ) ^ ((c / 8 : Nat) - 16 : Int)
      let zero := fun (v : FVal) => ∃ n e, v = .num n 0 e
      let finite := fun (v : FVal) => ∃ n m e, v = .num n m e
      y.2.length = vs.length ∧
      (FVal.nan ∈ vs → y.1 = 255 ∧ ∀ c ∈ y.2, c.bits = (if f = 3 ∨ f = 4 then 0x80 else if f = 5 then 8 else 0) ∧ c.sat = decide (10 ≤ f)) ∧
      (FVal.nan ∉ vs → (∀ v ∈ vs, zero v) → y.1 = 0 ∧ ∀ c ∈ y.2, c.bits = 0 ∧ c.sat = false) ∧
      (FVal.nan ∉ vs → (∃ v ∈ vs, ¬ zero v) → ∃ mu : ℚ,
        ((∃ v ∈ vs, finite v ∧ ¬ zero v) → (∃ v ∈ vs, |rat v| = mu) ∧ ∀ v ∈ vs, |rat v| ≤ mu) ∧
        ((∀ v ∈ vs, finite v → zero v) → mu = top) ∧
        1 ≤ y.1 ∧ y.1 ≤ 254 ∧ (∀ c, 1 ≤ c → c < y.1 → value c * top < mu) ∧ (mu ≤ value y.1 * top ∨ y.1 = 254) ∧
        ∀ i (h : i < vs.length) (h' : i < y.2.length), convertsTo f ((vs[i]).div (s8Value y.1)) (y.2[i]).bits)) ∧
    (∀ (id : Nat) (c : MatCmd), s.mats.find? (fun x => x.id == id) = some c → s.cmds.find? (fun x => x.id == id) = none →
      let ready := s.settled ∧ c.saved = false ∧ c.stall = none ∧ s.inOrder c = true ∧ c.done < c.total ∧ s.readsBadRow c = false
      let counted := c.bytes * (c.done + 1) / c.total - c.bytes * c.done / c.total
      let next := s.mats.map (fun x => if x.id = id then { x with done := c.done + 1 } else x)
      -- the row and column of the accumulators that row i and column col of the command are
      let cell := fun (i col : Nat) => if 256 ≤ col then (s.accKey c.watch (c.pair.getD c.watch.block) (c.row + i), col - 256)
        else (s.accKey c.watch c.watch.block (c.row + i), col)
      let value := fun (p : Nat × Nat) =>
        let v := s.accCell p.1 p.2
        let z := signed 94 (v % 2 ^ 94)
        if v / 2 ^ 94 % 4 = 0 then FVal.num (decide (z < 0)) z.natAbs ((s.accRow p.1).anchor.toInt - 62)
        else if v / 2 ^ 94 % 4 = 1 then .inf false else if v / 2 ^ 94 % 4 = 2 then .inf true else .nan
      let flagless := fun (r : AccRow) => { r with aexc := false, nan := false, inf := false }
      -- what a readout leaves of the accumulators
      let zeroes := fun (t : State) =>
        (¬ (c.clear = true ∧ c.done + 1 = c.total) → t.accCells = s.accCells ∧ t.accRows = s.accRows) ∧
        (c.clear = true → c.done + 1 = c.total → c.col + shBox c.a 0 ≤ 512 → ∀ i < shBox c.a 1, ∀ j < shBox c.a 0,
          let p := cell i (c.col + j)
          t.accCell p.1 p.2 = 0 ∧ t.accRow p.1 = flagless (s.accRow p.1))
      -- the port works on one unit
      (∀ anchor, c.op = .accinit anchor → ready → c.bytes = 0 →
        exec (.engineDelivery id 1 []) s = .next ((s.initRow (s.statRow c c.done) anchor).modMat id (fun x => { x with done := c.done + 1 }))) ∧
      (∀ obj, ready → s.agentKey c.agent true true c.obj = .ok obj → s.holds obj 16 →
        let t0 := (tileAt c.a c.done 0).toNat
        let t1 := (tileAt c.a c.done 1).toNat
        let pos := elemAt c.a (tileAt c.a c.done)
        let p := cell t1 (c.col + t0)
        (∀ (code : Nat) (data : List (Nat × List Byte)), c.op = .accrd →
          (shFmt c.a = 17 → code = s.accCell p.1 p.2) → (shFmt c.a ≠ 17 → convertsTo (shFmt c.a) (value p) code) →
          (inBounds c.a pos = false ∧ data = [] ∨ inBounds c.a pos = true ∧ 8 ≤ shBits c.a ∧ ∃ k,
            data = [(k, leBytes (elemBytes c.a) code)] ∧ s.holds k (elemBytes c.a) ∧
            s.agentRuns c.agent (shSpad c.a) true (elemByte c.a pos) (elemBytes c.a) = .ok [(k, elemBytes c.a)]) →
          ∃ t, exec (.engineDelivery id 1 []) s = .next t ∧ s.delivered t (written data s.byte) obj counted ∧ t.mats = next ∧ zeroes t) ∧
        -- a block of ACCRDW, all of it in bounds: its elements and then its scale, each in the state that those before it left
        (c.op = .accrdw → shBlk c.a ≠ 0 → shBits c.a = 8 →
          let l := 8 * 2 ^ shBlk c.a
          let per := shBox c.a 0 / l
          let at_ := fun (j : Nat) => elemAt c.a (fun k => if k = 0 then ((c.done % per * l + j : Nat) : Int) else if k = 1 then ((c.done / per : Nat) : Int) else 0)
          let y := scaleBlock (shFmt c.a) ((List.range l).map (fun j => value (cell (c.done / per) (c.col + c.done % per * l + j))))
          ∀ (u : Nat → State) (k : Nat → Nat) (z : Int) (q : Nat), u 0 = s →
            (∀ j < l, ∃ x, y.2[j]? = some x ∧ inBounds c.a (at_ j) = true ∧ (u j).holds (k j) 1 ∧
              (u j).agentRuns c.agent (shSpad c.a) true (elemByte c.a (at_ j)) 1 = .ok [(k j, 1)] ∧
              u (j + 1) = ((u j).writeRuns c.agent [(k j, 1)] (leBytes 1 x.bits)).countConverted c.watch (shTid c.a) x) →
            scaleByte c.a (at_ 0) = some z → (u l).agentRuns c.agent false true z.toNat 1 = .ok [(q, 1)] → (u l).holds q 1 →
            ∃ t, exec (.engineDelivery id 1 []) s = .next t ∧ t.mats = next ∧ zeroes t ∧
              s.delivered t (written ((List.range l).map (fun j => (k j, leBytes 1 ((y.2[j]?).map (·.bits)).get!)) ++ [(q, leBytes 1 y.1)]) s.byte)
                obj counted) ∧
        (∀ x scale, c.op = .accadd → p.2 < 256 → s.readElem c.agent c.a pos = .ok (x, scale) →
          ∃ t, exec (.engineDelivery id 1 []) s = .next t ∧ s.delivered t s.byte obj counted ∧ t.mats = next ∧
            (shFmt c.a ≠ 17 → t.accCell p.1 p.2 = addToCell (s.anchored p.1 p.2) (Ty.f32.ffmt.decode x) % 2 ^ 96) ∧
            (shFmt c.a = 17 →
              let old := s.accCell p.1 p.2
              t.accCell p.1 p.2 = (old % 2 ^ 94 + x % 2 ^ 94) % 2 ^ 94 + joinSpecial (old / 2 ^ 94 % 4) (x / 2 ^ 94 % 4) * 2 ^ 94) ∧
            ∀ k col, (k ≠ p.1 ∨ col ≠ p.2) → col < 256 → t.accCell k col = s.accCell k col) ∧
        (∀ k, c.op = .accstat → s.agentRuns c.agent true true ((c.addr + 8 * c.done) % 2 ^ 32) 8 = .ok [(k, 8)] → s.holds k 8 →
          let row := if c.done < c.rows then s.accKey c.watch c.watch.block (c.row + c.done)
            else s.accKey c.watch (c.pair.getD 0) (c.row + c.done - c.rows)
          let r := s.accRow row
          ∃ t, exec (.engineDelivery id 1 []) s = .next t ∧ t.mats = next ∧ t.accCells = s.accCells ∧
            s.delivered t (written [(k, leBytes 8 (r.anchor.toNat + (if r.aexc then 2 ^ 10 else 0) + (if r.nan then 2 ^ 11 else 0) +
              (if r.inf then 2 ^ 12 else 0)))] s.byte) obj counted ∧
            (c.clear = true → t.accRow row = flagless r) ∧ (c.clear = false → t.accRows = s.accRows))) ∧
      (c.isProduct = false → c.total ≤ c.done → exec (.engineCommandComplete id) s = .next (s.dropMat c)) ∧
      (c.isProduct = true → exec (.engineCommandComplete id) s = .next s)) ∧
    -- passes
    (∀ (array : Nat),
      let h := s.markHolds (array / 4)
      (s.arrayBusy array = true → exec (.passGrant array) s = .next h) ∧
      (h.arrayBusy array = false → h.chosen array = none → exec (.passGrant array) s = .next h) ∧
      -- a request whose operands can be read: M rows and N columns, or in column mode the leader's columns and the partner's
      (∀ (c : MatCmd) (xs xs' : Nat → List (Option FVal)) (ys ys' : Nat → List FVal),
        h.arrayBusy array = false → h.chosen array = some c → h.readsBadRow c = false →
        let g := h.nextGranules c
        let gs := if c.column then g.1 else g.1 ++ g.2
        let cols := if c.column then 256 - c.col else c.n
        let key := fun (i : Nat) => h.accKey c.watch c.watch.block (c.row + i)
        let key' := fun (i : Nat) => h.accKey c.watch (c.pair.getD 0) (c.row + i)
        let sum := fun (k col : Nat) (x : List (Option FVal)) (y : List FVal) =>
          let terms := (List.zip x y).filterMap (fun p => p.1.map (fun z => z.mul p.2))
          if terms = [] then s.accCell k col else terms.foldl addToCell (s.anchored k col) % 2 ^ 96
        let to' := c.col + cols - 256
        cols = 0 ∨ (gs ≠ [] ∧ c.col + cols ≤ 256) → cols ≤ c.n →
        (∀ i < c.m, h.rowValues c.agent c.a i gs = .ok (xs i)) → (∀ j < cols, h.colValues c.agent c.a c.b j gs = .ok (ys j)) →
        (c.column = true → g.2 ≠ [] ∧ to' + (c.n - cols) ≤ 256 ∧ (∀ i < c.m, ∀ k < c.m, key i ≠ key' k) ∧
          (∀ i < c.m, h.rowValues c.agent c.a i g.2 = .ok (xs' i)) ∧
          ∀ j < c.n - cols, h.colValues c.agent c.a c.b (cols + j) g.2 = .ok (ys' j)) →
        ∃ t, exec (.passGrant array) s = .next t ∧ t.mem = s.mem ∧
          (∀ i < c.m, ∀ j < cols, t.accCell (key i) (c.col + j) = sum (key i) (c.col + j) (xs i) (ys j)) ∧
          (c.column = true → ∀ i < c.m, ∀ j < c.n - cols, t.accCell (key' i) (to' + j) = sum (key' i) (to' + j) (xs' i) (ys' j)) ∧
          (∀ k col, col < 256 → (∀ i < c.m, k = key i → col < c.col ∨ c.col + cols ≤ col) →
            (c.column = true → ∀ i < c.m, k = key' i → col < to' ∨ to' + (c.n - cols) ≤ col) → t.accCell k col = s.accCell k col) ∧
          ∃ d ∈ t.mats, d.id = c.id ∧ d.left = c.left + g.1.length ∧ d.right = c.right + g.2.length ∧ d.waited = 0 ∧
            d.running.map (·.array) = h.arraysOf c) ∧
      (s.mats.find? (fun x => x.running.any (fun r => r.array == array)) = none → exec (.passEnd array) s = .next s) ∧
      (∀ c, s.mats.find? (fun x => x.running.any (fun r => r.array == array)) = some c →
        let d := { c with running := c.running.filter (fun r => r.array != array) }
        let cycles := ((c.running.find? (fun r => r.array == array)).map (·.cycles)).getD 0
        let t := (s.modMat c.id (fun _ => d)).countEvent array c.dom 7 cycles
        (d.running ≠ [] → exec (.passEnd array) s = .next t) ∧
        (d.running = [] → c.finished = false → exec (.passEnd array) s = .next (t.pollYieldb c.watch)) ∧
        (d.running = [] → c.finished = true → exec (.passEnd array) s = .next ((t.countMat d c.bytes).dropMat d)))) ∧
    ∀ id, exec (.pairedHold id) s =
      .next { s with mats := s.mats.map (fun c => if c.id = id ∧ c.paired = true ∧ 64 ≤ c.waited then { c with holding := true } else c) }

/-! ### Tasks and gangs -/

/-- NODE and LAUNCHQ insert a node, NDEP and NREL change a node's counter (R306, R308, R312, R313): with what has been read from the
record of a node that is not active, with a launch queued at zero, with NODEFAULT's detail codes and DEPUNDER, which also meets an
NREL on a node that another change of the same cycle has fired (R319), and with nothing done under an empty mask. While no die's
counter file is full no counter goes back to its CUR. A node record that holds poison kills the gang (R384). That NDEP and NREL
answer without a read of the node's record is log 122 (DEDUCED), and that a declined page counts as one that cannot be read log 73. -/
def Obligations.TaskNodes : Prop :=
  ∀ (s : State) (a : Opnd) (n : BitVec 16),
    let dom := s.ctx.dom
    let idx := (s.ctx.uni a).toNat
    let next := s.ctx.sp.pc + 8
    let others := fun (t : State) => ∀ d i, (d, i) ≠ (dom, idx) → t.counterOf d i = s.counterOf d i
    let roomy := ∀ die, (s.file.filter (fun x => x.1 == die)).length < 16384
    (s.ctx.k0 = 0 →
      (s.admits (some 9) → exec (.node a) s = .next (s.advance 8) ∧ exec (.launchq a) s = .next (s.advance 8)) ∧
      (s.admits none → exec (.ndep a n) s = .next (s.advance 8) ∧ exec (.nrel a n) s = .next (s.advance 8))) ∧
    (s.ctx.k0 ≠ 0 → s.ctx.uniReads [⟨0, a, 1⟩] →
      (s.admits (some 9) → idx < s.regField (.ntcount dom) 0 24 → ∀ key, s.vbad s.ctx.core dom (s.nodeVa dom idx) 128 = some (key, true) →
        ∃ va, exec (.node a) s = .next (s.consumePoison s.ctx.home s.ctx.core s.ctx.ref 1 va)) ∧
      (s.admits (some 9) → s.regField (.ntcount dom) 0 24 ≤ idx → exec (.node a) s = .next (s.nodeTrap 1 0 idx)) ∧
      (s.admits (some 9) → s.cleanNode idx →
        (∀ nd, s.checkNodeHere idx = .ok nd →
          (∃ bs, s.vread s.ctx.core dom (s.nodeVa dom idx) 128 = .ok bs ∧ fieldOf bs 36 1 ∈ [0, 4, 5] ∧ nd.counter = fieldOf bs 32 2 ∧
            nd.dom = dom ∧ nd.idx = idx ∧ nd.prio = fieldOf bs 35 1 % 4 ∧ nd.succ.length = fieldOf bs 34 1) ∧
          (nd.counter ≠ 0 → ∃ t, exec (.node a) s = .next t ∧ nd ∈ t.nodes ∧
            t.counterOf dom idx = some nd.counter ∧ others t ∧ t.launches = s.launches ∧ t.ctx.sp.pc = next) ∧
          (nd.counter = 0 → ∃ t l, exec (.node a) s = .next t ∧ t.launches = s.launches ++ [l] ∧ l.dom = dom ∧ l.node = some idx ∧
            l.succ = nd.succ ∧ l.recd = nd.recd ∧ l.home = nd.home ∧ l.prio = nd.prio ∧ l.seq = s.seqs.getD nd.home 0 ∧
            l.phase = .ready ∧ t.ctx.sp.pc = next)) ∧
        (∀ p, s.checkNodeHere idx = .hold p → exec (.node a) s = .next (s.holdPage dom p false)) ∧
        (∀ c r, s.checkNodeHere idx = .bad c r → exec (.node a) s = .next (s.nodeTrap c r idx))) ∧
      (s.admits (some 9) → s.cleanLaunch idx →
        (∀ r, s.acceptLaunch s.ctx.core dom idx = .ok r →
          (s.anonymous (s.ctx.core / 160) < 4096 → ∃ t l, exec (.launchq a) s = .next t ∧ t.launches = s.launches ++ [l] ∧ l.dom = dom ∧
            l.node = none ∧ l.succ = [] ∧ l.recd = r ∧ l.home = s.ctx.core / 160 ∧ l.prio = r.prio ∧ l.phase = .ready ∧
            t.ctx.sp.pc = next ∧
            { t with ctx := s.ctx, launches := s.launches, seqs := s.seqs, fresh := s.fresh } = s) ∧
          (4096 ≤ s.anonymous (s.ctx.core / 160) → exec (.launchq a) s = .next (s.hold .operand))) ∧
        (∀ p sig, s.acceptLaunch s.ctx.core dom idx = .hold p sig →
          (s.ctx.sp.wait = .declined dom p → exec (.launchq a) s = .next (s.nodeTrap 4 11 0)) ∧
          (s.ctx.sp.wait ≠ .declined dom p → exec (.launchq a) s = .next (s.holdPage dom p false))) ∧
        (∀ r sig, s.acceptLaunch s.ctx.core dom idx = .refused r sig → exec (.launchq a) s = .next (s.nodeTrap 4 r 0))) ∧
      (s.admits none →
        (s.regField (.ntcount dom) 0 24 ≤ idx →
          exec (.ndep a n) s = .next (s.nodeTrap 1 0 idx) ∧ exec (.nrel a n) s = .next (s.nodeTrap 1 0 idx)) ∧
        (idx < s.regField (.ntcount dom) 0 24 →
          (s.counterOf dom idx = none →
            exec (.ndep a n) s = .next (s.nodeTrap 2 0 idx) ∧
            ((dom, idx) ∉ s.fired → exec (.nrel a n) s = .next (s.nodeTrap 2 0 idx)) ∧
            ((dom, idx) ∈ s.fired → exec (.nrel a n) s = .next (s.takeTrap 0x0F s.ctx.k0 (BitVec.ofNat 64 idx)))) ∧
          (∀ c, s.counterOf dom idx = some c →
            (c + n.toNat ≤ 65535 → ∃ t, exec (.ndep a n) s = .next t ∧ t.counterOf dom idx = some (c + n.toNat) ∧
              others t ∧ t.launches = s.launches ∧ t.ctx.sp.pc = next ∧
              (roomy → t.ctx = (s.advance 8).ctx ∧ { t with ctx := s.ctx, nodes := s.nodes, file := s.file } = s)) ∧
            (65535 < c + n.toNat → exec (.ndep a n) s = .next (s.nodeTrap 3 0 idx)) ∧
            (n.toNat < c → ∃ t, exec (.nrel a n) s = .next t ∧ t.counterOf dom idx = some (c - n.toNat) ∧
              others t ∧ t.launches = s.launches ∧ t.ctx.sp.pc = next ∧
              (roomy → t.ctx = (s.advance 8).ctx ∧ { t with ctx := s.ctx, nodes := s.nodes, file := s.file } = s)) ∧
            (c = n.toNat → ∃ t l, exec (.nrel a n) s = .next t ∧ t.launches = s.launches ++ [l] ∧ l.dom = dom ∧ l.node = some idx ∧
              l.phase = .ready ∧ t.counterOf dom idx = none ∧ others t ∧ (dom, idx) ∈ t.fired ∧ t.ctx.sp.pc = next) ∧
            (c < n.toNat → exec (.nrel a n) s = .next (s.takeTrap 0x0F s.ctx.k0 (BitVec.ofNat 64 idx)))))))

/-- FORK and JOIN (R316), and ARM and DISARM (R317): children are inserted together and counted; a gang that has arrived at a JOIN goes
on, or is swapped out while a child runs; a tag is armed for a node that waits and whose launch record is accepted (R302), and
disarmed under any mask. Leeway contexts do not fork or join. The order of FORK's checks is log 134 (DEDUCED), and that of ARM's log
entries 17 and 122 (DEDUCED). -/
def Obligations.ForksAndTags : Prop :=
  ∀ (s : State) (a : Opnd) (k : BitVec 8),
    let r := s.ctx.ref
    let dom := s.ctx.dom
    let v := (s.ctx.uni a).toNat
    let next := s.ctx.sp.pc + 8
    (s.admits (some 7) →
      (s.ctx.cls = 2 → exec (.fork a k) s = .next (s.takeTrap 0x16 s.ctx.k0 0xC3) ∧ exec .join s = .next (s.takeTrap 0x16 s.ctx.k0 0xC4)) ∧
      (s.ctx.cls ≠ 2 →
        (s.ctx.k0 = 0 → exec (.fork a k) s = .next (s.advance 8)) ∧
        (s.ctx.k0 ≠ 0 → s.ctx.uniReads [⟨0, a, 1⟩] → (∀ i ≤ k.toNat, s.cleanNode (v + i)) →
          (∀ ns g, s.checkNodes v (k.toNat + 1) = .inl ns → s.gangOf r.launch r.gang = some g →
            ns.length = k.toNat + 1 ∧
            (g.join + ns.length ≤ 65535 → ∃ t, exec (.fork a k) s = .next t ∧ t.ctx.sp.pc = next ∧
              (t.gangOf r.launch r.gang).map (·.join) = some (g.join + ns.length) ∧
              (∀ nd ∈ ns, nd.counter ≠ 0 → { nd with parent := some (r.launch, r.gang) } ∈ t.nodes) ∧
              (∀ nd ∈ ns, nd.counter = 0 → ∃ l ∈ t.launches, l.node = some nd.idx ∧ l.recd = nd.recd ∧ l.phase = .ready ∧
                l.parent = some (r.launch, r.gang))) ∧
            (65535 < g.join + ns.length → exec (.fork a k) s = .next (s.nodeTrap 3 0 v))) ∧
          (∀ i p, s.checkNodes v (k.toNat + 1) = .inr (i, .hold p) → exec (.fork a k) s = .next (s.holdPage dom p false)) ∧
          (∀ i c x, s.checkNodes v (k.toNat + 1) = .inr (i, .bad c x) → exec (.fork a k) s = .next (s.nodeTrap c x i))) ∧
        (s.ctx.splitEnded s.ctx.sp = false →
          let all := (s.hold .join).allArrived (fun w => w.of r.launch r.gang) (fun x => decide (x = .join))
          (all = false → ∃ t, exec .join s = .next t ∧ t.ctx.sp.pc = next ∧ t.ctx.sp.wait = .join ∧ t.ctx.ref = r) ∧
          (∀ g l, s.gangOf r.launch r.gang = some g → s.launchOf r.launch = some l → g.phase = .placed → all = true →
            (∀ c ∈ s.cmds, ¬ (c.watch.launch = r.launch ∧ c.watch.gang = r.gang)) →
            (∀ c ∈ s.mats, ¬ (c.watch.launch = r.launch ∧ c.watch.gang = r.gang)) →
            (g.join = 0 → ∃ t, exec .join s = .next t ∧ t.ctx.sp.pc = next ∧ t.ctx.sp.wait = .none ∧ t.ctx.ref = r ∧
              (t.gangOf r.launch r.gang).map (·.jgen) = some (g.jgen + 1)) ∧
            (g.join ≠ 0 → ∃ t, exec .join s = .next t ∧ (t.gangOf r.launch r.gang).map (·.phase) = some .swapped ∧
              ∀ w ∈ t.watches, w.of r.launch r.gang = false))))) ∧
    (s.admits (some 8) → s.ctx.uniReads [⟨0, a, 1⟩] →
      let tag := v % 2 ^ 32
      let idx := v / 2 ^ 32
      (s.ctx.k0 = 0 → exec (.arm a) s = .next (s.advance 8)) ∧
      (s.ctx.k0 ≠ 0 →
        (2 ^ 24 ≤ idx → exec (.arm a) s = .next (s.nodeTrap 5 0 idx)) ∧
        (idx < 2 ^ 24 → s.regField (.ntcount dom) 0 24 ≤ idx → exec (.arm a) s = .next (s.nodeTrap 1 0 idx)) ∧
        (idx < s.regField (.ntcount dom) 0 24 →
          (s.counterOf dom idx = none ∨ s.counterOf dom idx = some 0 → exec (.arm a) s = .next (s.nodeTrap 2 0 idx)) ∧
          (∀ n c, s.nodes.find? (fun x => x.dom == dom && x.idx == idx) = some n → n.counter = c + 1 → s.cleanLaunch n.recd.va.toNat →
            let full := (∃ x ∈ s.armed, x.dom = dom ∧ x.tag = tag) ∨ 1024 ≤ (s.armed.filter (fun x => x.dom == dom)).length
            let seen := s.acceptLaunch s.ctx.core dom n.recd.va.toNat
            (∀ r, seen = .ok r →
              (¬ full → exec (.arm a) s = .next (State.advance { s with armed := s.armed ++ [⟨dom, tag, idx⟩] } 8)) ∧
              (full → exec (.arm a) s = .next (s.nodeTrap 5 0 idx))) ∧
            (∀ r sig, seen = .refused r sig → exec (.arm a) s = .next (s.nodeTrap 4 r idx)) ∧
            (∀ p sig, seen = .hold p sig →
              (s.ctx.sp.wait = .declined dom p → exec (.arm a) s = .next (s.nodeTrap 4 11 idx)) ∧
              (s.ctx.sp.wait ≠ .declined dom p → exec (.arm a) s = .next (s.holdPage dom p false)))))) ∧
      (idx = 0 → ∃ t, exec (.disarm a) s = .next t ∧ t.ctx.sp.pc = next ∧
        t.ctx.sp.swake = s.ctx.sp.swake.push (.val (if ∃ x ∈ s.armed, x.dom = dom ∧ x.tag = tag then 1 else 0)) ∧
        (∀ x, x ∈ t.armed ↔ x ∈ s.armed ∧ ¬ (x.dom = dom ∧ x.tag = tag)) ∧
        { t with ctx := s.ctx, armed := s.armed } = s) ∧
      (idx ≠ 0 → exec (.disarm a) s = .next (s.nodeTrap 5 0 0)))

/-- A die dispatcher places the first candidate in running order that it can (R310): a gang that starts has one watch for each of its
record's watches on the offered cores, in the entry state of R18 and R39; a gang that returns, its image unaltered, goes on where it
stood (R340, R348), and a JOIN that its commands kept waiting is looked at again. A gang that consumes poison among its argument
words leaves no watch behind (R384, log entry 56, DEDUCED); nor does one that meets a page there that is not mapped (R357). -/
def Obligations.GangPlacement : Prop :=
  ∀ (s : State) (cores : List Nat) (c : Cand) (os : List (Nat × Offer)),
    let die := cores.headD 0 / 160
    let r := c.launch.recd
    s.nextCand die = some c →
    (s.dieTakes die c = true ∧ ∀ d ∈ s.returning ++ s.fresh1 die, d.before c = true → s.dieTakes die d = false) ∧
    (clusterOf cores r.blocks = true → s.offers c [] 0 cores = some os →
      ((∀ g, c.gang = some g → g.phase = .relaunch) → s.argHold (cores.headD 0) c.launch.dom r = none →
        s.startBad (cores.headD 0) c.launch.dom r = none → ∃ t, exec (.gangPlace cores) s = .next t ∧
          (∃ g, t.gangOf c.launch.id c.idx = some g ∧ g.phase = .placed ∧ g.places.map (·.core) = cores ∧ g.join = 0 ∧ g.staging = []) ∧
          (∀ w ∈ s.watches, w ∈ t.watches) ∧
          (∀ b < r.blocks, ∀ v < r.watches, ∃ w ∈ t.watches, w.ref = ⟨c.launch.id, c.idx, b, v⟩ ∧ w.core = cores.getD b 0 ∧
            w.home = c.launch.dom ∧ w.dom = c.launch.dom ∧ w.cls = r.cls ∧ w.sp.pc = r.code + r.entry ∧ w.sp.recs = [] ∧
            w.sp.frames = [] ∧ w.sibs = [] ∧ w.sp.id = 0 ∧ w.flights = [] ∧ w.segs = r.segs ∧ w.ntid = 0 ∧ w.bovf = false ∧
            w.feat = s.reg (.featmask c.launch.dom) ∧ w.spill = r.spill / r.watches ∧ w.caddy.slots = zeroBlocks r.caddy ∧
            (∀ n, 1 ≤ n → n ≤ 7 → w.kreg n = 0) ∧ (∀ n < 8, w.bears.getD n Bearing.zero = Bearing.zero) ∧
            (∀ n < 16, w.shapes.getD n 1 = 0) ∧
            (∀ l < 64, (w.lane l).exited = decide (r.ewidth ≤ l) ∧ (w.lane l).split = 0 ∧ (w.lane l).satf = false ∧
              (w.lane l).wake.nest = 0 ∧
              (w.lane l).wake.get 0 = .val (BitVec.ofNat 32 (((c.idx * r.blocks + b) * r.watches + v) * r.ewidth + l)) ∧
              ∀ a, 1 ≤ a → a < 32 → (w.lane l).wake.get a = .void))) ∧
      ((∀ g, c.gang = some g → g.phase = .relaunch) → s.argHold (cores.headD 0) c.launch.dom r = none →
        s.startBad (cores.headD 0) c.launch.dom r ≠ none →
        ∃ t, exec (.gangPlace cores) s = .next t ∧ ∀ w ∈ t.watches, w.of c.launch.id c.idx = false) ∧
      (∀ g, c.gang = some g → g.phase = .saved → g.intact = true → s.gangOf c.launch.id c.idx = some g →
        ∃ t : State, exec (.gangPlace cores) s = .next (t.pollJoin ⟨c.launch.id, c.idx, 0, 0⟩) ∧
          (∃ h, t.gangOf c.launch.id c.idx = some h ∧ h.phase = .placed ∧ h.places.map (·.core) = cores ∧ h.join = g.join ∧
            h.staging = g.staging ∧ h.bgen = g.bgen) ∧
          ∀ w ∈ g.watches, w.resident = true → w.ref.block < r.blocks → ∃ v ∈ t.watches, v.ref = w.ref ∧
            v.core = cores.getD w.ref.block 0 ∧ v.sp.pc = w.sp.pc ∧ v.sp.swake = w.sp.swake ∧ v.sp.recs = w.sp.recs ∧ v.lanes = w.lanes ∧
            v.ks = w.ks ∧ v.bears = w.bears ∧ v.shapes = w.shapes ∧ v.segs = w.segs ∧
            v.caddies.map (fun f => (f.id, f.slots)) = w.caddies.map (fun f => (f.id, f.slots)) ∧ v.ntid = w.ntid ∧
            v.bovf = w.bovf))

/-- A gang whose watches, engine commands and matrix commands have ended leaves the machine; with the last one of a launch the launch
completes, and its successors' counters fall by one (R309, R314). A die that leaves service keeps no gang of a running launch and no
node's counter (R307, R318). -/
def Obligations.GangEnds : Prop :=
  (∀ (s : State) (launch gang : Nat) (g : Gang) (l : Launch), s.gangOf launch gang = some g → s.launchOf launch = some l →
    (g.phase = .placed → (∀ w ∈ s.watches, w.of launch gang = false) →
      (∀ c ∈ s.cmds, ¬ (c.watch.launch = launch ∧ c.watch.gang = gang)) →
      (∀ c ∈ s.mats, ¬ (c.watch.launch = launch ∧ c.watch.gang = gang)) →
      ∃ t, exec (.gangEnd launch gang) s = .next t ∧ t.gangOf launch gang = none ∧
        ((∃ h ∈ s.gangs, h.launch = launch ∧ h.idx ≠ gang) → t.launches = s.launches ∧ t.nodes = s.nodes) ∧
        ((∀ h ∈ s.gangs, h.launch = launch → h.idx = gang) → l.phase = .running → l.faulted = false → l.recd.gangs ≤ l.handed →
          (∀ b ∈ l.batches, b.stop ≤ b.next) →
          (t.launchOf launch).map (·.phase) = some .doneUnvouched ∧
          ∀ i c, l.succ = [i] → s.counterOf l.dom i = some (c + 2) → t.counterOf l.dom i = some (c + 1))) ∧
    ((∃ w ∈ s.watches, w.of launch gang = true) → exec (.gangEnd launch gang) s = .next s)) ∧
  (∀ (s : State) (die : Nat), die < 4 →
    (die ∈ s.deadDies → exec (.pilotDieLoss die) s = .next s) ∧
    (die ∉ s.deadDies → (∃ d < 4, d ≠ die ∧ d ∉ s.deadDies) →
      ∃ t, exec (.pilotDieLoss die) s = .next t ∧ t.deadDies = die :: s.deadDies ∧ (∀ n ∈ t.nodes, n.home ≠ die) ∧
        ∀ g ∈ t.gangs, g.phase = .placed → (∃ l ∈ s.launches, l.id = g.launch ∧ l.phase = .running) →
          ∀ p ∈ g.places, p.core / 160 ≠ die))

/-! ### Outside the cores -/

/-- Queues (R372, R374): a notify marks an enabled queue once; a command processor reads the next packet of the queue whose turn it is,
rereads a slot that is not valid once, and stops a queue whose slot cannot be read; EN clears RDIDX and STOP. Registers take nothing
in while the module is not up (R407). That a slot's page is asked for, and a declined one stops the queue, is log 73 (DEDUCED).
Packets (R373, R375): each does its work, frees its slot, advances RDIDX and leaves the command processor free; a NOP does nothing
else, and a LAUNCH or a RELEASE that is refused changes no launch and no node. A RELEASE reads the record of every listed node: it
is refused where one cannot be read, and waits for a page that is not mapped (R305); what it checks is log 122, and the wait of a
command processor log 73 (both DEDUCED). -/
def Obligations.QueuesAndPackets : Prop :=
  (∀ (s : State) (q cp dom : Nat),
     (s.isUp = false → exec (.queueEnable q) s = .next s ∧ exec (.queueNotify q) s = .next s) ∧
     (s.isUp = true → s.regField (.qctl q) 63 1 = 0 → ∃ t, exec (.queueEnable q) s = .next t ∧ t.reg (.qrd q) = 0 ∧ t.regField (.qctl q) 6 1 = 0 ∧
       t.regField (.qctl q) 63 1 = 1 ∧ t.regField (.qctl q) 0 5 = s.regField (.qctl q) 0 5 ∧ { t with cfg := s.cfg } = s) ∧
     (s.regField (.qctl q) 63 1 = 1 → exec (.queueEnable q) s = .next s) ∧
     (s.queueDomain q = some dom → s.regField (.qctl q) 63 1 = 1 →
       (s.isUp = true → (∀ x ∈ s.served, x.queue ≠ q) →
         exec (.queueNotify q) s = .next { s with served := s.served ++ [⟨q, false, none, none⟩] }) ∧
       ((∃ x ∈ s.served, x.queue = q) → exec (.queueNotify q) s = .next s) ∧
       (s.nextQueue cp = some q → (∃ last, s.cps[cp]? = some ⟨last, none⟩) →
         (∀ bs, s.vread ioUnit dom (s.slotVa q) 64 = .ok bs →
           (fieldOf bs 0 1 % 2 = 1 → packetReason bs = 0 → ∃ t, exec (.queueServe cp) s = .next t ∧
             t.cps[cp]? = some ⟨some q, some (q, s.slotVa q, bs)⟩ ∧ { t with cps := s.cps } = s) ∧
           (fieldOf bs 0 1 % 2 = 0 → ∃ t, exec (.queueServe cp) s = .next t ∧ t.cps[cp]? = some ⟨some q, none⟩ ∧
             (∀ x ∈ t.served, x.queue = q → x.reread = true) ∧ { t with cps := s.cps, served := s.served } = s) ∧
           (fieldOf bs 0 1 % 2 = 1 → packetReason bs ≠ 0 → ∃ t, exec (.queueServe cp) s = .next t ∧ t.cps[cp]? = some ⟨some q, none⟩ ∧
             t.regField (.qrd q) 0 32 = (s.regField (.qrd q) 0 32 + 1) % 2 ^ 32 ∧ t.launches = s.launches ∧ t.nodes = s.nodes)) ∧
         (∀ b, s.vread ioUnit dom (s.slotVa q) 64 = .refused b → ∃ t, exec (.queueServe cp) s = .next t ∧
           t.regField (.qctl q) 6 1 = 1 ∧ t.regField (.qctl q) 63 1 = 0 ∧ ∀ x ∈ t.served, x.queue ≠ q)) ∧
       ((∃ x ∈ s.served, x.queue = q ∧ x.reread = true) → ∀ b, s.vread ioUnit dom (s.slotVa q) 1 = .ok [b] →
         (b.getLsbD 0 = true → ∃ t, exec (.queueReread q) s = .next t ∧ (∀ x ∈ t.served, x.queue = q → x.reread = false) ∧
           t.served.map (·.queue) = s.served.map (·.queue) ∧ { t with served := s.served } = s) ∧
         (b.getLsbD 0 = false → ∃ t, exec (.queueReread q) s = .next t ∧ (∀ x, x ∈ t.served ↔ x ∈ s.served ∧ x.queue ≠ q) ∧
           { t with served := s.served } = s)))) ∧
  (∀ (s : State) (cp q dom slot ty : Nat) (last : Option Nat) (bs : List Byte), cp = q % 2 →
     s.cps[cp]? = some ⟨last, some (q, slot, bs)⟩ →
     s.queueDomain q = some dom → (∀ x ∈ s.served, x.queue = q → x.stall = none) → pktType bs = ty →
     let done := fun (t : State) =>
       t.cps[cp]? = some ⟨last, none⟩ ∧ t.regField (.qrd q) 0 32 = (s.regField (.qrd q) 0 32 + 1) % 2 ^ 32
     let runs := fun (i : Instr) (p : State → Prop) => ∃ t, exec i s = .next t ∧ done t ∧ p t
     let idle := fun (t : State) => t.launches = s.launches ∧ t.nodes = s.nodes ∧ t.signals = s.signals
     (ty = 0 → runs (.nopPacket cp) fun t => idle t ∧
       ∀ k, Memory.wf s.mem = true → s.reachAt ioUnit dom slot true = .ok k → t.byte k = 0 ∧ ∀ a, a ≠ k → t.byte a = s.byte a) ∧
     (ty = 1 →
       (∀ r, (∀ i ∈ pktNodes bs, i < s.regField (.ntcount dom) 0 24) → s.acceptLaunch ioUnit dom (pktLaunch bs) = .ok r →
         (s.anonymous (s.packetHome q) < 4096 → runs (.launchPacket cp) fun t => ∃ l, t.launches = s.launches ++ [l] ∧ l.dom = dom ∧
           l.node = none ∧ l.succ = pktNodes bs ∧ l.home = s.packetHome q ∧ l.prio = r.prio ∧ l.phase = .ready ∧
           l.recd = (if pktSignal bs = 0 then r else { r with signal := BitVec.ofNat 64 (pktSignal bs) })) ∧
         (4096 ≤ s.anonymous (s.packetHome q) → exec (.launchPacket cp) s = .next s)) ∧
       (∀ v sig, (∀ i ∈ pktNodes bs, i < s.regField (.ntcount dom) 0 24) → s.acceptLaunch ioUnit dom (pktLaunch bs) = .hold v sig →
         s.ioDeclined q v = false → exec (.launchPacket cp) s = .next (s.ioHold dom q v)) ∧
       (∀ e sig, s.acceptLaunch ioUnit dom (pktLaunch bs) = .refused e sig → runs (.launchPacket cp) fun t =>
         t.launches = s.launches ∧ t.nodes = s.nodes) ∧
       ((∃ i ∈ pktNodes bs, s.regField (.ntcount dom) 0 24 ≤ i) → runs (.launchPacket cp) fun t =>
         t.launches = s.launches ∧ t.nodes = s.nodes)) ∧
     (ty = 2 →
       (pktNodes bs = [] → runs (.insertPacket cp) fun t => t.launches = s.launches ∧ t.nodes = s.nodes) ∧
       (∀ i nd, pktNodes bs = [i] → s.checkNode ioUnit dom i = .ok nd →
         (nd.counter ≠ 0 → runs (.insertPacket cp) fun t => nd ∈ t.nodes ∧
           t.counterOf dom i = some nd.counter ∧ (∀ d j, (d, j) ≠ (dom, i) → t.counterOf d j = s.counterOf d j) ∧
           t.launches = s.launches) ∧
         (nd.counter = 0 → runs (.insertPacket cp) fun t => ∃ l, t.launches = s.launches ++ [l] ∧ l.node = some i ∧ l.phase = .ready ∧
           l.succ = nd.succ ∧ l.recd = nd.recd))) ∧
     (ty = 3 →
       let record := fun i => s.vread ioUnit dom (s.nodeVa dom i) 128
       (∀ c : Nat → Nat, (pktNodes bs).Nodup →
         (∀ i ∈ pktNodes bs, i < s.regField (.ntcount dom) 0 24 ∧ (∃ r, record i = .ok r) ∧ s.counterOf dom i = some (c i + 2)) →
         runs (.releasePacket cp) fun t => (∀ i ∈ pktNodes bs, t.counterOf dom i = some (c i + 1)) ∧ t.launches = s.launches) ∧
       ((∀ i ∈ pktNodes bs, ∀ v, record i ≠ .hold v) →
         (∃ i ∈ pktNodes bs, s.regField (.ntcount dom) 0 24 ≤ i ∨ (∃ b, record i = .refused b) ∨ s.counterOf dom i = none) →
         runs (.releasePacket cp) fun t => t.launches = s.launches ∧ t.nodes = s.nodes) ∧
       (∀ i is v, pktNodes bs = i :: is → i < s.regField (.ntcount dom) 0 24 → record i = .hold v → s.ioDeclined q v = false →
         exec (.releasePacket cp) s = .next (s.ioHold dom q v))))

/-- Completion signals (R376, R436): a change is made once, by the compare that succeeds; a word that shows an error keeps it; a
decrement of 0 shows an error; NOTIFY raises vector 0. A VOUCHED decrement of a launch waits for its DONE change. Accesses from
outside: the host's (R226), and those of Exvor peers that a domain's accept list admits (R378, R379): a read is answered, a write is
made, an atomic does both, but on host memory only one that PCIe has (R370); others are refused to their sender, through the port of
its node (R377). This is for a machine in which nothing is late; the host's access through a domain's tables is log 74, an atomic's
check of both permissions log 75, the decline of an access log 76 (all DEDUCED). Tagged messages (R317, R380): an accepted one takes
the next slot of the ring and fires the tag it matches; one that finds the ring full waits, and is delivered when MSGHEAD frees a
slot; one that the accept list does not admit is refused to its sender. How a message is checked before it is stored is log 77
(DEDUCED). -/
def Obligations.SignalsAndTraffic : Prop :=
  ((∀ (s : State) (id : Nat) (x : SigOp), s.signals.find? (fun y => y.id == id) = some x →
     exec (.signalAtomicCompletion id false) s = .next s ∧
     (s.signalWaits x = true → exec (.signalAtomicCompletion id true) s = .next s) ∧
     (s.signalWaits x = false → ∀ k, x.key = k → 2 ^ 58 ≤ k → Memory.wf s.mem = true →
       ∃ t, exec (.signalAtomicCompletion id true) s = .next t ∧
         t.load k 8 = (if x.change.touches false = true then x.change.word (s.load k 8) % 2 ^ 64 else s.load k 8) ∧
         t.load (k + 8) 8 = (if x.change.touches true = true then x.change.word (s.load (k + 8) 8) % 2 ^ 64 else s.load (k + 8) 8) ∧
         (∀ a, a < k ∨ k + 16 ≤ a → t.byte a = s.byte a) ∧
         (∀ y, y ∈ t.signals ↔ y ∈ s.signals ∧ y.id ≠ id) ∧
         t.msix = (if x.notify = true then (x.dom, 0) :: s.msix else s.msix))) ∧
   (∀ (w cls reason : Nat) (v d : Bool),
     (w / 2 ^ 60 % 16 = 0xE → (SigChange.dec v).word w = w ∧ (SigChange.err d v cls reason).word w = w) ∧
     (w / 2 ^ 60 % 16 ≠ 0xE → (w ≠ 0 → (SigChange.dec v).word w = w - 1) ∧
       (SigChange.err d v cls reason).word w = 0xE000000000000000 + cls * 256 + reason) ∧
     (SigChange.dec v).word 0 = 0xE000000000000500)) ∧
  (∀ (s : State) (dom node peer addr k : Nat) (own : Bool) (data : List Byte) (b : Byte), Memory.wf s.mem = true → s.settled →
     exec (.hostAccess dom own false addr data) s = .next s ∧
     (∃ t, exec (.hostAccess dom true true addr data) s = .next t ∧
       (∀ i < data.length, t.byte (hostKey dom addr + i) = data.getD i 0) ∧
       ∀ a, a < hostKey dom addr ∨ hostKey dom addr + data.length ≤ a → t.byte a = s.byte a) ∧
     (s.reachAt ioUnit dom addr true = .ok k →
       (∃ t, exec (.hostAccess dom false true addr [b]) s = .next t ∧ t.byte k = b ∧ ∀ a, a ≠ k → t.byte a = s.byte a) ∧
       (s.accepts dom node peer 25 = true →
         ∃ t, exec (.fabricMemoryAccess dom node peer .write addr [b]) s = .next t ∧ t.byte k = b ∧ (∀ a, a ≠ k → t.byte a = s.byte a) ∧
           t.outgoing = s.outgoing)) ∧
     (∀ p, s.reachAt ioUnit dom addr true = .refused p → exec (.hostAccess dom false true addr [b]) s = .next s) ∧
     (s.accepts dom node peer 24 = true → ∀ old, s.vread ioUnit dom addr data.length = .ok old →
       exec (.fabricMemoryAccess dom node peer .read addr data) s = .next (s.send (.reply node peer old))) ∧
     (s.accepts dom node peer 24 = true → s.accepts dom node peer 25 = true → ∀ old,
       data.length = 4 ∨ data.length = 8 → s.vread ioUnit dom addr data.length = .ok old →
       s.vwritable ioUnit dom addr data.length = .ok () → s.reachAt ioUnit dom addr true = .ok k → addr % data.length = 0 →
       ∃ t, exec (.fabricMemoryAccess dom node peer (.atomic 0) addr data) s = .next t ∧
         t.outgoing = s.outgoing ++ [(s.portTo node, .reply node peer old)] ∧
         (∀ i < data.length, t.byte (k + i) = (leBytes data.length ((leNat old + leNat data) % 2 ^ (8 * data.length))).getD i 0) ∧
         ∀ a, a < k ∨ k + data.length ≤ a → t.byte a = s.byte a) ∧
     (∀ o, s.onHost dom addr = true → hostAtomic o.toNat = false →
       ∃ t, exec (.fabricMemoryAccess dom node peer (.atomic o) addr data) s = .next t ∧
         t.outgoing = s.outgoing ++ [(s.portTo node, .refusal node peer)]) ∧
     (∀ op, (match op with
         | .read => s.accepts dom node peer 24 = false
         | .write => s.accepts dom node peer 25 = false
         | .atomic _ => s.accepts dom node peer 24 = false ∨ s.accepts dom node peer 25 = false) →
       ∃ t, exec (.fabricMemoryAccess dom node peer op addr data) s = .next t ∧
         t.outgoing = s.outgoing ++ [(s.portTo node, .refusal node peer)])) ∧
  (∀ (s : State) (dom node peer tag : Nat) (data : List Byte) (v : DWord),
     let tail := s.regField (.msgtail dom) 0 16
     let n := (tail + 2 ^ 16 - s.regField (.msghead dom) 0 16) % 2 ^ 16
     let m : Message := ⟨dom, node, peer, tag % 2 ^ 32, data⟩
     let fits := s.vwritable ioUnit dom (s.msgVa dom) (64 + data.length) = .ok ()
     let came := fun (t : State) (u : State) =>
       t.regField (.msgtail dom) 0 16 = (tail + 1) % 2 ^ 16 ∧ t.waiting = u.waiting ∧
       (∀ x, x ∈ t.armed ↔ x ∈ s.armed ∧ ¬ (x.dom = dom ∧ x.tag = tag % 2 ^ 32)) ∧
       (∀ x c, s.armed.find? (fun y => y.dom == dom && y.tag == tag % 2 ^ 32) = some x → s.counterOf dom x.node = some (c + 2) →
         t.counterOf dom x.node = some (c + 1))
     (∀ x ∈ s.waiting, x.dom ≠ dom) →
     (s.accepts dom node peer 26 = true → n < s.msgSlots dom → fits →
       ∃ t, exec (.taggedMessage dom node peer tag data) s = .next t ∧ came t s) ∧
     (s.accepts dom node peer 26 = true → s.msgSlots dom ≤ n →
       exec (.taggedMessage dom node peer tag data) s = .next { s with waiting := s.waiting ++ [m] }) ∧
     (s.accepts dom node peer 26 = false → ∃ t, exec (.taggedMessage dom node peer tag data) s = .next t ∧
       t.outgoing = s.outgoing ++ [(s.portTo node, .refusal node peer)] ∧ t.waiting = s.waiting) ∧
     (s.isUp = false → exec (.msgheadWrite dom v) s = .next s) ∧
     (s.isUp = true → exec (.msgheadWrite dom v) s = .next (s.setReg (.msghead dom) (v &&& 0xFFFF#64))) ∧
     (s.isUp = true → (tail + 2 ^ 16 - (v &&& 0xFFFF#64).toNat) % 2 ^ 16 < s.msgSlots dom → fits →
       ∃ t, exec (.msgheadWrite dom v) { s with waiting := s.waiting ++ [m] } = .next t ∧ came t s ∧
         t.reg (.msghead dom) = v &&& 0xFFFF#64))

/-- Walks and invalidations (R12, R355, R356, R369): a walk fills an entry of its unit's TLB, and for a core of its cluster's, which
then translates, and entries of its die's walk cache, which it fills also where it finds no mapping; no TLB grows beyond its size,
and no other changes; an invalidation holds back the walks of its pages, and when it completes no unit and no walk cache holds a
translation of them; it waits for completion signals on their way; GO is ignored while BUSY. When a walk happens is log 25
(DEDUCED), what a fill replaces log 107 (DESIGN CHOICE), and when INVADDR and COUNT are read log 67 (DEDUCED). Page requests (R363,
R364): a response lets the splits that wait try again, a decline lets them meet the fault; faults that hold no entry are tried
again; PRQHEAD makes room for a record that the ring held back. Registers take nothing in while the module is not up (R407). -/
def Obligations.TranslationAndRequests : Prop :=
  (∀ (s : State) (tu dom vpage count : Nat) (out : Option (Nat × Nat)),
     (∀ m, s.walk tu dom vpage = .ok m → vpage < 2 ^ 39 → s.invalidating dom vpage = false → s.mediaOk (s.keyAt dom m 0) = true →
       ∃ t, exec (.pageTableWalk tu dom vpage out) s = .next t ∧ t.translate tu dom vpage = .ok m ∧
         (∀ u ∈ tlbsOf tu, (∃ e ∈ t.tlb, e.unit = u ∧ e.dom = dom ∧ e.vpage = vpage ∧ e.page = m.page) ∧
           (t.tlb.filter (fun e => e.unit == u)).length ≤ tlbSize u ∧
           (∀ e ∈ t.tlb, e.unit = u → (e.dom, e.vpage) ≠ (dom, vpage) → e ∈ s.tlb ∧ out ≠ some (e.dom, e.vpage))) ∧
         (∀ u, u ∉ tlbsOf tu → t.tlb.filter (fun e => e.unit == u) = s.tlb.filter (fun e => e.unit == u)) ∧
         (∀ e ∈ t.walks, e ∈ s.walks ∨ (e.die = dieOfUnit tu ∧ e.dom = dom ∧ e.index = walkIndex e.level vpage)) ∧
         { t with tlb := s.tlb, walks := s.walks } = s) ∧
     ((∀ m, s.walk tu dom vpage ≠ .ok m) → vpage < 2 ^ 39 → s.invalidating dom vpage = false →
       ∃ t, exec (.pageTableWalk tu dom vpage out) s = .next t ∧ { t with walks := s.walks } = s ∧
         (∀ e ∈ t.walks, e ∈ s.walks ∨ (e.die = dieOfUnit tu ∧ e.dom = dom ∧ e.index = walkIndex e.level vpage)) ∧
         ∀ key e part, s.keyOf dom = some key → s.regField (.ptroot dom) 0 1 = 1 →
           s.entryOf (dieOfUnit tu) dom key 3 vpage (s.frameOf dom (s.regField (.ptroot dom) 16 36)) = .inl (e, part) →
           field e 0 1 = 1 → pteSound 3 e = true →
           ∃ x ∈ t.walks, x.die = dieOfUnit tu ∧ x.dom = dom ∧ x.level = 3 ∧ x.index = walkIndex 3 vpage ∧ x.entry = e ∧ x.part = part) ∧
     (2 ^ 39 ≤ vpage ∨ s.invalidating dom vpage = true → exec (.pageTableWalk tu dom vpage out) s = .next s) ∧
     (s.isUp = false → exec (.invalidatePage dom) s = .next s ∧ exec (.invalidateRange dom count) s = .next s ∧
       exec (.invalidateAll dom) s = .next s) ∧
     (s.regField (.invctl dom) 32 1 = 1 → exec (.invalidatePage dom) s = .next s ∧ exec (.invalidateRange dom count) s = .next s ∧
       exec (.invalidateAll dom) s = .next s) ∧
     (s.isUp = true → s.regField (.invctl dom) 32 1 = 0 →
       let first := s.regField (.invaddr dom) 16 39
       let busy := fun (i : Instr) (p : Nat → Prop) => ∃ t, exec i s = .next t ∧ t.regField (.invctl dom) 32 1 = 1 ∧
         (∀ v, p v → t.invalidating dom v = true) ∧ (∀ d v, d ≠ dom ∨ ¬ p v → t.invalidating d v = s.invalidating d v) ∧
         { t with cfg := s.cfg, invals := s.invals } = s
       busy (.invalidatePage dom) (fun v => v = first) ∧
       busy (.invalidateRange dom count) (fun v => first ≤ v ∧ v ≤ first + count) ∧
       busy (.invalidateAll dom) (fun v => v < 2 ^ 39)) ∧
     ((∃ x ∈ s.signals, x.dom = dom ∧ s.invalidating dom (x.va / 2 ^ 16) = true) → exec (.invalidationComplete dom) s = .next s) ∧
     (s.late = [] → (∀ x ∈ s.signals, x.dom = dom → s.invalidating dom (x.va / 2 ^ 16) = false) →
       ∃ t, exec (.invalidationComplete dom) s = .next t ∧ t.regField (.invctl dom) 32 1 = 0 ∧ (∀ v, t.invalidating dom v = false) ∧
       (∀ e, e ∈ t.tlb ↔ e ∈ s.tlb ∧ ¬ (e.dom = dom ∧ s.invalidating dom e.vpage = true)) ∧
       (∀ e, e ∈ t.walks ↔ e ∈ s.walks ∧ ¬ (e.dom = dom ∧ s.walkInvalid e = true)) ∧
       (∀ d v, d ≠ dom → t.invalidating d v = s.invalidating d v) ∧
       { t with cfg := s.cfg, invals := s.invals, tlb := s.tlb, walks := s.walks } = s)) ∧
  (∀ (s : State) (dom vpage tag id : Nat) (r : WatchRef) (w : Watch) (p : Split) (v : DWord),
     (s.isUp = false → exec (.prqResponse dom tag) s = .next s ∧ exec (.prqDecline dom tag) s = .next s ∧
       exec (.prqheadWrite dom v) s = .next s) ∧
     (∀ e, s.isUp = true → s.prq.find? (fun e => e.tag == tag && e.dom == dom) = some e → s.findSplit r id = some (w, p) →
       p.wait = .page dom e.vpage →
       (Waiter.split r id ∈ e.waiters → ∃ t, exec (.prqResponse dom tag) s = .next t ∧
         (∀ x, x ∈ t.prq ↔ x ∈ s.prq ∧ ¬ (x.tag = tag ∧ x.dom = dom)) ∧
         ∃ w' p', t.findSplit r id = some (w', p') ∧ p'.wait = .none ∧ p'.pc = p.pc) ∧
       (e.waiters = [.split r id] → ∃ t, exec (.prqDecline dom tag) s = .next t ∧
         (∀ x, x ∈ t.prq ↔ x ∈ s.prq ∧ ¬ (x.tag = tag ∧ x.dom = dom)) ∧
         ∃ w' p', t.findSplit r id = some (w', p') ∧ p'.wait = .declined dom e.vpage ∧ p'.pc = p.pc)) ∧
     ((∀ e ∈ s.prq, ¬ (e.tag = tag ∧ e.dom = dom)) → exec (.prqResponse dom tag) s = .next s ∧ exec (.prqDecline dom tag) s = .next s) ∧
     ((∃ e ∈ s.prq, e.dom = dom ∧ e.vpage = vpage) → exec (.pageRequestRetry dom vpage) s = .next s) ∧
     ((∀ e ∈ s.prq, ¬ (e.dom = dom ∧ e.vpage = vpage)) → ∃ t, exec (.pageRequestRetry dom vpage) s = .next t ∧
       (∀ x ∈ t.watches, ∀ q ∈ x.splits, q.wait ≠ .page dom vpage) ∧ (∀ c ∈ t.cmds, c.dom = dom → c.stall ≠ some vpage) ∧
       (∀ c ∈ t.mats, c.dom = dom → c.stall ≠ some vpage) ∧
       { t with ctx := s.ctx, others := s.others, cmds := s.cmds, mats := s.mats, served := s.served } = s) ∧
     (s.isUp = true → (∀ e ∈ s.prq, e.dom = dom → e.sent = true) →
       exec (.prqheadWrite dom v) s = .next (s.setReg (.prqhead dom) (v &&& 0xFFFF#64))) ∧
     (∀ e k, s.isUp = true → s.prq.filter (fun e => e.dom == dom && !e.sent) = [e] →
       let size := s.regField (.prqring dom) 0 4
       let tail := s.regField (.prqtail dom) 0 16
       let va := s.regField (.prqring dom) 12 43 * 2 ^ 12 + 32 * (tail % prqLen size)
       (tail + 2 ^ 16 - (v &&& 0xFFFF#64).toNat) % 2 ^ 16 < prqLen size → s.reach ioUnit dom va true = some k →
       Memory.wf s.mem = true → pageOf k = pageOf (k + 31) → k + 32 ≤ 2 ^ 58 ∨ 2 ^ 58 ≤ k →
       ∃ t, exec (.prqheadWrite dom v) s = .next t ∧ t.reg (.prqhead dom) = v &&& 0xFFFF#64 ∧
         t.regField (.prqtail dom) 0 16 = (tail + 1) % 2 ^ 16 ∧ (∀ x ∈ t.prq, x.tag = e.tag → x.sent = true) ∧
         (∀ i < 32, t.byte (k + i) = e.bytes.getD i 0) ∧ t.msix = (dom, 1) :: s.msix))

/-- The indirection table (R357, R358, R368) and page moves (R359, R360): a page is mapped zero-pending on a free frame, and reads zero;
moves and the background clearing of a zero-pending page change no byte that can be read; counts are halved at the end of a period,
and hot pages of the outer tier are chosen, as far as the module's 4,096 go (how they are shared out is log 115, DEDUCED). An
uncorrectable error abandons a move, which is one step (log 70, DEDUCED); SETPIN and CLRPIN of a page that is not mapped do nothing
(log 68, DEDUCED). Keys (R361, R362): LOAD fills a free slot and clears KEYDATA, and does nothing to another slot; what the pages of
another slot with the same key material hold reads the same under it; retiring frees a slot but slot 0, what other keys wrote stays,
and what pages held under the key is a free value in every byte (log entry 26). -/
def Obligations.PagesAndKeys : Prop :=
  (∀ (s : State) (page frame die : Nat) (outer : Bool),
     (s.isUp = false → ∀ i ∈ [Instr.idtMap outer page frame, .idtUnmap page, .idtSetpin page, .idtClrpin page], exec i s = .next s) ∧
     (s.isUp = true → s.idtOf page = none → page < (s.reg .idtcount).toNat → s.frameFree outer frame = true →
       ∃ t, exec (.idtMap outer page frame) s = .next t ∧ t.idtOf page = some ⟨page, frame, outer, false, false, true⟩ ∧
         (∀ p, p ≠ page → t.idtOf p = s.idtOf p) ∧ (∀ k, k < 2 ^ 58 → pageOf k = page → t.byte k = 0) ∧ { t with idt := s.idt } = s) ∧
     (s.isUp = true → s.idtOf page ≠ none → ∃ t, exec (.idtMap outer page frame) s = .next t ∧ t.regField .idtstat 1 1 = 1 ∧ { t with cfg := s.cfg } = s) ∧
     (s.isUp = true → s.idtOf page = none → ∃ t, exec (.idtUnmap page) s = .next t ∧ t.regField .idtstat 1 1 = 1 ∧ { t with cfg := s.cfg } = s) ∧
     (s.isUp = true → s.idtOf page ≠ none → s.late = [] →
       ∃ t, exec (.idtUnmap page) s = .next t ∧ t.idtOf page = none ∧ (∀ p, p ≠ page → t.idtOf p = s.idtOf p) ∧
       { t with idt := s.idt, behind := s.behind, objUses := s.objUses } = s) ∧
     (∀ i b, s.isUp = true → (i, b) = (Instr.idtSetpin page, true) ∨ (i, b) = (Instr.idtClrpin page, false) → ∃ t, exec i s = .next t ∧
       t.idtOf page = (s.idtOf page).map (fun e => { e with pin := b }) ∧ (∀ p, p ≠ page → t.idtOf p = s.idtOf p) ∧
       { t with idt := s.idt } = s) ∧
     ((page, outer) ∈ s.moves → s.pagePoisoned page = false → s.tracked page = true → s.frameFree outer frame = true →
       ∃ t, exec (.pageMove page outer frame) s = .next t ∧
         t.idtOf page = (s.idtOf page).map (fun e => { e with frame := frame, outer := outer }) ∧
         (∀ p, p ≠ page → t.idtOf p = s.idtOf p) ∧ (∀ a, t.byte a = s.byte a) ∧ t.moves = s.moves.erase (page, outer) ∧
         { t with idt := s.idt, moves := s.moves } = s) ∧
     ((page, outer) ∈ s.moves → s.pagePoisoned page = true → s.tracked page = true → s.frameFree outer frame = true →
       ∃ t, exec (.pageMove page outer frame) s = .next t ∧ t.idt = s.idt ∧ t.moves = s.moves.erase (page, outer)) ∧
     ((page, outer) ∉ s.moves → exec (.pageMove page outer frame) s = .next s) ∧
     (∀ e, Memory.wf s.mem = true → s.idtOf page = some e → e.zp = true → ∃ t, exec (.zpBackgroundClear page) s = .next t ∧ (∀ a, t.byte a = s.byte a) ∧
       (∀ c ∈ t.mem, ¬ (c.1 < 2 ^ 58 ∧ pageOf c.1 = page)) ∧ { t with mem := s.mem, poison := s.poison } = s) ∧
     (s.regField .hptctl 0 1 = 0 → exec (.trackingPeriodEnd die []) s = .next s) ∧
     (s.regField .hptctl 0 1 = 1 → ∃ t, exec (.trackingPeriodEnd die []) s = .next t ∧
       t.tracker = s.tracker.map (fun x => if x.1 = die then (die, x.2.1, x.2.2 / 2) else x) ∧ (∀ m ∈ s.moves, m ∈ t.moves) ∧
       (∀ x ∈ s.tracker, x.1 = die → s.regField .hptctl 48 16 ≤ x.2.2 → ((s.idtOf x.2.1).map (·.outer)) = some true →
         s.tracked x.2.1 = true → (∀ m ∈ s.moves, m.1 ≠ x.2.1) → s.tracker.length ≤ s.promotionsLeft die → (x.2.1, false) ∈ t.moves) ∧
       (∀ x ∈ t.promoted, x.1 = die → x.2 ≤ s.promotionsLeft die) ∧
       { t with tracker := s.tracker, moves := s.moves, promoted := s.promoted } = s)) ∧
  (∀ (s : State) (slot : Nat) (k : KeySlot), slot < 64 → s.keys[slot]? = some k →
     (s.isUp = false → exec (.keyLoad slot) s = .next s ∧ exec (.keyRetire slot) s = .next s) ∧
     (s.isUp = true → k.state = .free → Memory.wf s.mem = true →
       ∃ t, exec (.keyLoad slot) s = .next t ∧ t.keys[slot]? = some ⟨.loaded, s.keyData⟩ ∧
       (∀ n, n ≠ slot → t.keys[n]? = s.keys[n]?) ∧ (∀ i < 8, t.reg (.keydata i) = 0) ∧
       (∀ a, 2 ^ 58 ≤ a ∨ a / 2 ^ 52 ≠ slot → t.byte a = s.byte a) ∧
       (∀ p e src st, s.idtOf p = some e → e.zp = false → p < (s.reg .idtcount).toNat → p < 2 ^ 36 → s.pageSlot p = src → src ≠ slot →
         s.keys[src]? = some ⟨st, s.keyData⟩ → ∀ i < 2 ^ 16, t.byte (devKey slot (p * 2 ^ 16 + i)) = s.byte (devKey src (p * 2 ^ 16 + i))) ∧
       { t with cfg := s.cfg, keys := s.keys, mem := s.mem } = s) ∧
     (s.isUp = true → k.state ≠ .free → ∃ t, exec (.keyLoad slot) s = .next t ∧ t.keys = s.keys ∧ (∀ i, t.reg (.keydata i) = s.reg (.keydata i)) ∧
       { t with cfg := s.cfg } = s) ∧
     (s.isUp = true → slot ≠ 0 → k.state ≠ .free → s.late = [] → Memory.wf s.mem = true → (∀ e ∈ s.idt, e.page < 2 ^ 36) → ∃ t, exec (.keyRetire slot) s = .next t ∧
       t.keys[slot]? = some ⟨.free, 0⟩ ∧ (∀ n, n ≠ slot → t.keys[n]? = s.keys[n]?) ∧
       (∀ a, 2 ^ 58 ≤ a ∨ a / 2 ^ 52 ≠ slot → t.byte a = s.byte a) ∧
       (∀ p ∈ s.keyPages slot, (s.idtOf p).map (·.zp) = some false → ∀ i < 2 ^ 16, ∃ n,
         t.byte (devKey slot (p * 2 ^ 16 + i)) = Config.freeByte n) ∧
       { t with keys := s.keys, mem := s.mem, fresh := s.fresh, behind := s.behind, objUses := s.objUses } = s) ∧
     (slot = 0 ∨ k.state = .free → exec (.keyRetire slot) s = .next s))

/-- The ladder of pre-emption (R340, R342): requests at both levels, PSTAT with the domain of the last one and its state, the grace and
kill timers, of which the one of its kind that ends first on the core expires, the response window, and a response that fails to
come, for which a load yields zero in the lanes that wait for the host or a peer. What PSTAT shows is log 113 (DEDUCED), and that a
core's timer expires for one request at a time log 37 (DEDUCED). Slices and lending (R330, R346, R349, R350, R365): at the end of a
slice the overrun becomes debt and the outgoing domain is halted, but not while it runs NOPRE work, and the commands of its gangs on
the core pause (R271); lent rows that their owner needs are taken back, on every core where it needs them, from the gangs that have
them, which are saved as soon as they have nothing to wait for (R342), and the owner's gang is placed there, or when the last of
them has been saved; until then its request stands. That DEBT saturates is log 64, and the steps of a revocation log 114 (both
DESIGN CHOICE). The fairness switch (R66): after 512 cycles the run of a split ends, and of the other critical and normal splits
that wait for the port it holds the one that has been ready longest has the port next; a load reservation of the split defers it, to
768 cycles at most. -/
def Obligations.PreemptionAndSlices : Prop :=
  (∀ (s : State) (core dom id : Nat) (r : WatchRef),
     let stat := fun (t : State) (st : Nat) => t.reg (.pstat core) = BitVec.ofNat 64 (dom + st * 2 ^ 8)
     -- PSTAT follows the request while it names its domain
     let goes := fun (t : State) (st : Nat) => (s.regField (.pstat core) 0 5 = dom → stat t st) ∧
       (s.regField (.pstat core) 0 5 ≠ dom → t.reg (.pstat core) = s.reg (.pstat core))
     let fresh := fun (hard : Bool) => ({ core := core, dom := dom, hard := hard, window := true, begun := s.time } : Preempt)
     (s.isUp = false → ∀ i ∈ [Instr.preqSoft core dom, .preqHard core dom, .preqWithdraw core dom], exec i s = .next s) ∧
     (s.isUp = true → s.preemptOf core dom = none →
       (∃ t, exec (.preqSoft core dom) s = .next t ∧ t.preempts = s.preempts ++ [fresh false] ∧ stat t 1) ∧
       (∃ t, exec (.preqHard core dom) s = .next t ∧ t.preempts = s.preempts ++ [fresh true] ∧ stat t 2 ∧
         { t with preempts := s.preempts, cfg := s.cfg } = s) ∧
       exec (.preqWithdraw core dom) s = .next s) ∧
     (∀ p, s.isUp = true → s.preemptOf core dom = some p →
       exec (.preqSoft core dom) s = .next (s.setPstat core dom p.shown) ∧
       (p.hard = false →
         (∃ t, exec (.preqHard core dom) s = .next t ∧ (∀ q ∈ t.preempts, q.core = core → q.dom = dom → q.hard = true ∧ q.window = true) ∧
           stat t (if p.killed = true then 4 else 2) ∧ { t with preempts := s.preempts, cfg := s.cfg } = s) ∧
         (∃ t, exec (.preqWithdraw core dom) s = .next t ∧ t.preemptOf core dom = none ∧ goes t 0)) ∧
       (p.hard = true → exec (.preqHard core dom) s = .next (s.setPstat core dom p.shown) ∧ exec (.preqWithdraw core dom) s = .next s)) ∧
     -- GRACE and KILLT count microseconds at the present clock
     let grace := fun (p : Preempt) => p.begun + s.regField (.grace p.dom) 0 14 * s.clock
     let killt := fun (p : Preempt) => p.begun + s.regField (.killt p.dom) 0 16 * s.clock
     (∀ p ∈ s.preempts, p.core = core → p.hard = false → p.dom = dom → s.preemptOf core dom = some p →
       (∀ q ∈ s.preempts, q.core = core → q.hard = false → q ≠ p → grace p < grace q) →
       ∃ t, exec (.graceExpiry core) s = .next t ∧ goes t 2 ∧
         (t.preemptOf core dom).map (·.hard) = some true ∧ { t with preempts := s.preempts, cfg := s.cfg } = s) ∧
     (∀ p ∈ s.preempts, p.core = core → p.hard = true → p.killed = false → p.dom = dom →
       (∀ q ∈ s.preempts, q.core = core → q.hard = true → q.killed = false → q ≠ p → killt p < killt q) →
       let held := fun (t : State) => t.gangsOn core (fun _ l => l.dom == dom)
       (held s = [] → s.passOn core dom = false → exec (.killTimerExpiry core) s = .next s) ∧
       (held s ≠ [] ∨ s.passOn core dom = true → ∃ t, exec (.killTimerExpiry core) s = .next t ∧ held t = [] ∧ goes t 4 ∧
         ∀ q ∈ t.preempts, q.core = core → q.dom = dom → q.killed = true)) ∧
     (∃ t, exec (.responseWindowExpiry core dom) s = .next t ∧
       (∀ p ∈ t.preempts, p.core = core → p.dom = dom → p.window = false) ∧ (∀ x ∈ t.sights, x.next = some core → x.window = false) ∧
       (∀ x ∈ t.recalls, x.1 = core → x.2 = false) ∧
       t.preempts.map (fun p => (p.core, p.dom, p.hard, p.killed)) = s.preempts.map (fun p => (p.core, p.dom, p.hard, p.killed)) ∧
       { t with preempts := s.preempts, sights := s.sights, recalls := s.recalls } = s) ∧
     (∀ w f, s.findWatch r = some w → w.sound → w.flights.find? (fun f => f.id == id) = some f →
       (f.unit = .load ∨ f.unit = .atomic → f.path ≠ .local → ∃ t v, exec (.responseTimeout r id) s = .next t ∧ t.findWatch r = some v ∧
         (∀ l < 64, ∀ a x, (w.lane l).wake.get a = .pend x id → (v.lane l).wake.get a = .val (if has f.remote l = true then 0 else x)) ∧
         (∀ l < 64, ∀ a x j, j ≠ id → (w.lane l).wake.get a = .pend x j → (v.lane l).wake.get a = .pend x j) ∧
         (∀ g, g ∈ v.flights ↔ g ∈ w.flights ∧ g.id ≠ id)) ∧
       (f.path = .local → exec (.responseTimeout r id) s = .next s))) ∧
  (∀ (s : State) (core n d : Nat) (v : DWord),
     let x := s.sliceOf core
     (s.wsOn core = true → s.wsEntry core x.index = some d →
       (x.leaving = none → s.nopreOn core d = false → ∃ t, exec (.sliceEnd core n) s = .next t ∧
         t.regField (.debt core d) 0 32 = min (s.regField (.debt core d) 0 32 + n) (2 ^ 32 - 1) ∧
         (t.sliceOf core).leaving = some d ∧ (t.sliceOf core).index = x.index ∧
         (∃ p ∈ t.preempts, p.core = core ∧ p.dom = d ∧ p.hard = true) ∧
         t.cmds = s.cmds.map (fun (c : EngCmd) =>
           if ∃ g ∈ s.gangsOn core (fun _ l => l.dom == d), g.launch = c.watch.launch ∧ g.idx = c.watch.gang then { c with paused := true }
           else c) ∧
         { t with cfg := s.cfg, slices := s.slices, cmds := s.cmds, preempts := s.preempts } = s) ∧
       (x.leaving ≠ none ∨ s.nopreOn core d = true → exec (.sliceEnd core n) s = .next s)) ∧
     (s.ownerCand core = none → exec (.lendReclaim core) s = .next s) ∧
     (∀ c cs lent, s.ownerCand core = some (c, cs, lent) →
       let x : Reclaim := ⟨lent, c.launch.id, c.idx⟩
       let u := lent.foldl (fun (u : State) k => u.revokeLeeway k) { s with reclaims := s.reclaims.filter (· != x) ++ [x] }
       let k := lent.headD 0
       ((∃ y ∈ u.recalls, y.1 ∈ lent) → exec (.lendReclaim core) s = .next u) ∧
       ((∀ y ∈ u.recalls, y.1 ∉ lent) →
         ∀ c', (u.returning ++ u.fresh1 (k / 160)).find? (fun z => z.launch.id == c.launch.id && z.idx == c.idx) = some c' →
         ∀ os, (choose c'.launch.recd.blocks ((List.range 4).map (· + 4 * (k / 4)))).findSome?
             (fun cores => State.offers { u with reclaims := u.reclaims.filter (· != x) } c' [] 0 cores) = some os →
           u.argHold k c'.launch.dom c'.launch.recd = none →
           exec (.lendReclaim core) s = .next (State.placeCand { u with reclaims := u.reclaims.filter (· != x) } (k / 160) c' os))) ∧
     ((s.gangs.map (fun g => (g.launch, g.idx))).Nodup → (∀ y ∈ s.recalls, y.1 ≠ core) →
       ∀ g ∈ s.gangsOn core (fun _ l => l.recd.cls == 2), s.mustWait g.launch g.idx true = false →
       ((s.revokeLeeway core).gangOf g.launch g.idx).map (·.phase) = some .saved ∧
       ∀ w ∈ (s.revokeLeeway core).watches, w.of g.launch g.idx = false) ∧
     (s.isUp = false → ∀ b, exec (.lendConfigWrite core b v) s = .next s) ∧
     (s.isUp = true → s.gangsOn core (fun _ l => l.recd.cls == 2) = [] →
       exec (.lendConfigWrite core true v) s = .next (s.setReg (.lslot core) (v &&& 0x9F9F#64)) ∧
       ∃ t, exec (.lendConfigWrite core false v) s = .next t ∧ (t.reg (.lendrng core)) &&& ~~~0x40000000#64 = v &&& 0x9FFF0FFF#64 ∧
         t.regField (.lendrng core) 30 1 = (if t.lendOwner core = none then 1 else 0) ∧ { t with cfg := s.cfg } = s)) ∧
  (∀ (s : State) (r : WatchRef) (id : Nat) (w : Watch) (p : Split), s.findSplit r id = some (w, p) →
     let port := p.port
     let waits := fun (e : Watch × Split) => e ∈ s.eligible w.core port ∧ e.1.cls ≠ 2 ∧ ¬ (e.1.ref = w.ref ∧ e.2.id = p.id)
     let switched := fun (i : Instr) => ∃ t, exec i s = .next t ∧
       ((∃ e, waits e) → ∃ e, waits e ∧ (∀ d, waits d → e.2.since ≤ d.2.since) ∧ t.turns = (w.core, port, e.1.ref, e.2.id) :: s.turns) ∧
       ((¬ ∃ e, waits e) → t.turns = s.turns)
     (p.held < 512 → exec (.fairnessSwitch r id) s = .next s) ∧
     (512 ≤ p.held → w.holdsResv p.id = false ∨ 768 ≤ p.held → switched (.fairnessSwitch r id)) ∧
     (512 ≤ p.held → w.holdsResv p.id = true → p.held < 768 → ∃ t, exec (.fairnessSwitch r id) s = .next t ∧ t.turns = s.turns ∧
       ∃ v q, t.findSplit r id = some (v, q) ∧ q = { p with defer := true }) ∧
     (p.defer = true → w.holdsResv p.id = false ∨ 768 ≤ p.held → switched (.reservationDeferEnd r id)) ∧
     (p.defer = false → exec (.reservationDeferEnd r id) s = .next s))

/-- Sight passes (R376, R388, R389): a core is drained in its turn; a pass vouches for the blocks that ended before it began; a pass
that fails makes the blocks of the core suspect, but for those that its drain saved, and is repeated; the core is fenced when that
fails too. Which blocks those are is log 62 (DEDUCED). The life cycle of a domain (R367, R370): EN is set in states 0 and 3, and a
reset or a function-level reset leaves the domain with no work, its pages zero-pending and its error state clear. Domain 0 has no
function of its own to reset, and registers take nothing in while the module is not up (R407). The end state of a reset is log 72
(DEDUCED). -/
def Obligations.SightAndDomains : Prop :=
  (∀ (s : State) (die : Nat) (x : Sight), s.sights[die]? = some x →
     (∀ c, s.isUp = true → x.next = none → s.rotation die x.pos = some c → ¬ (x.testing = true ∧ c = x.pos) → ∃ t, exec (.sightDrain die) s = .next t ∧
       t.sights[die]? = some { x with next := some c, window := true } ∧ { t with sights := s.sights } = s) ∧
     (x.next ≠ none ∨ s.isUp = false → exec (.sightDrain die) s = .next s) ∧
     (∀ b, x.testing = false → exec (.sightPassEnd die b) s = .next s) ∧
     (x.testing = true → x.retry = false →
       (∃ t, exec (.sightPassEnd die true) s = .next t ∧
         (∀ l ∈ t.launches, ∀ v ∈ l.vouch, v.endAt < x.begun → v.suspect = false → x.pos ∉ v.cores) ∧
         t.launches.map (fun l => (l.id, l.phase)) = s.launches.map (fun l => (l.id, l.phase)) ∧
         t.regField (.csight x.pos) 32 32 = (s.regField (.csight x.pos) 32 32 + 1) % 2 ^ 32 ∧ t.regField (.csight x.pos) 0 3 = 0 ∧
         t.sights[die]? = some { x with testing := false, suspects := [] } ∧
         { t with cfg := s.cfg, launches := s.launches, sights := s.sights } = s) ∧
       (∃ t y, exec (.sightPassEnd die false) s = .next t ∧ t.sights[die]? = some y ∧ y.retry = true ∧ y.testing = true ∧
         y.pos = x.pos ∧ y.begun = s.time ∧ (∀ l ∈ t.launches, ∀ v ∈ l.vouch, x.pos ∈ v.cores → x.pos ∉ v.drained → v.suspect = true))) ∧
     (x.testing = true → x.retry = true → ∀ passed, ∃ t, exec (.sightPassEnd die passed) s = .next t ∧
       t.regField (.csight x.pos) 0 2 = 0 ∧ t.regField (.csight x.pos) 2 1 = (if passed = true then 0 else 1) ∧
       t.sights[die]? = some { x with testing := false, retry := false, suspects := [] })) ∧
  (∀ (s : State) (dom : Nat),
     let st := s.regField (.vfctl dom) 4 3
     (s.isUp = false → ∀ i ∈ [Instr.vfEnable dom, .vfReset dom, .functionLevelReset dom], exec i s = .next s) ∧
     (s.isUp = true → st = 0 ∨ st = 3 → exec (.vfEnable dom) s = .next (s.setReg (.vfctl dom) 0x11)) ∧
     (st ≠ 0 → st ≠ 3 → exec (.vfEnable dom) s = .next s) ∧
     (st ≠ 1 → exec (.vfReset dom) s = .next s ∧ exec (.functionLevelReset dom) s = .next s) ∧
     exec (.functionLevelReset 0) s = .next s ∧
     (dom ≠ 0 → exec (.functionLevelReset dom) s = exec (.vfReset dom) s) ∧
     (s.isUp = true → st = 1 → ∃ t, exec (.vfReset dom) s = .next t ∧ t.reg (.vfctl dom) = 0x30 ∧ t.regField (.dkey dom) 8 1 = 0 ∧
       t.regField (.dstat dom) 0 1 = 0 ∧ t.regField (.dstat dom) 32 32 = 0 ∧
       (∀ n ∈ t.nodes, n.dom ≠ dom) ∧ (∀ c ∈ t.cmds, c.dom ≠ dom) ∧ (∀ c ∈ t.mats, c.dom ≠ dom) ∧ (∀ x ∈ t.armed, x.dom ≠ dom) ∧
       (∀ e ∈ t.prq, e.dom ≠ dom) ∧ (∀ x ∈ t.shares, x.1 ≠ dom) ∧
       (∀ e ∈ t.idt, s.regField (.part dom) 0 36 ≤ e.page → e.page < s.regField (.part dom) 0 36 + s.regField (.part dom) 36 24 →
         e.zp = true)))

/-- Writes of configuration registers (R219, R220, R327, R329, R330, R332, R353, R372, R386, R387): ranges of domains never come to
overlap; a counter whose owner changes is cleared; a ring starts empty; fields have their ranges, and read-only registers keep their
values. A function writes only the registers of its page, a write where no register lies is ignored, and so is every write while the
module is not up (R304, R332, R370, R407). What CTROWN clears is log 79 (DEDUCED). The clock, temperature and power tokens (R288,
R366, R411, R412): a step down first lowers the pass limit, and the clock follows when no pass runs under a higher one; tokens that
domains have not spent are shared out and never multiplied; shutdown keeps flash and the host's memory only (log 80, DEDUCED).
Bring-up and the mailbox (R404 to R410), and links that fail (R383): after bring-up nothing is left but flash and the host's memory,
every register has its reset value, and the parts that failed or stand in the repair list are fenced; a firmware or a blob that is
not accepted, a compute die without a working HBM stack, or a failed I/O die 0, leads to recovery, where nothing but BOOTSTAT
answers. The banks of the flash and the versions in recovery are log 93, the layout of what is signed log 8, and the data that a
mesh link carried log 83 (93 and 83 DEDUCED, 8 DESIGN CHOICE); SHAKE256 is log 96 (PRESUMED). -/
def Obligations.RegistersAndPower : Prop :=
  (∀ (s : State) (kind : QuotaKind) (core dom n die : Nat) (v : DWord), dom < 32 → n < 8 →
     let shares := fun (a b : Nat × Nat) => ∃ x, a.1 ≤ x ∧ x < a.1 + a.2 ∧ b.1 ≤ x ∧ x < b.1 + b.2
     let meets := fun (f : Nat → DWord) (g : DWord → Nat × Nat) => ∃ d < 32, d ≠ dom ∧ shares (g v) (g (f d))
     -- i sets register r to x, and no other but `also`
     let sets := fun (i : Instr) (r also : Reg) (x : DWord) => ∃ t, exec i s = .next t ∧ t.reg r = x ∧
       (∀ q, q ≠ r → q ≠ also → t.reg q = s.reg q) ∧ { t with cfg := s.cfg } = s
     let q := quotaReg kind core dom
     let err := Reg.quotaCtl core dom
     (s.isUp = false → (∀ fn place, exec (.registerWrite ⟨fn, place⟩ v) s = .next s) ∧
       ∀ i ∈ [Instr.quotaWrite kind core dom v, .partWrite dom v, .qrangeWrite dom v, .ctrownWrite core v, .rsvctlWrite die dom n v,
         .eqringWrite (some dom) v, .eqringWrite none v], exec i s = .next s) ∧
     sets (.ctrcfgClear core n) (.ctrcount core n) (.ctrcount core n) 0 ∧
     (s.isUp = true →
     (¬ meets (fun d => s.reg (quotaReg kind core d)) (quotaRange kind) →
       sets (.quotaWrite kind core dom v) q (.lendrng core) (v &&& quotaBits kind)) ∧
     (meets (fun d => s.reg (quotaReg kind core d)) (quotaRange kind) → sets (.quotaWrite kind core dom v) err err (s.reg err ||| 0x100)) ∧
     (let part := fun (x : DWord) => (field x 0 36, field x 36 24)
      (¬ meets (fun d => s.reg (.part d)) part → ∃ t, exec (.partWrite dom v) s = .next t ∧
        (t.reg (.part dom)) &&& 0x7FFFFFFFFFFFFFFF = v &&& 0x0FFFFFFFFFFFFFFF ∧ { t with cfg := s.cfg } = s) ∧
      (meets (fun d => s.reg (.part d)) part → sets (.partWrite dom v) (.part dom) (.part dom) (s.reg (.part dom) ||| 0x8000000000000000))) ∧
     (let range := fun (x : DWord) => (field x 0 12, field x 16 12)
      (¬ meets (fun d => s.reg (.qrange d)) range → sets (.qrangeWrite dom v) (.qrange dom) (.qrange dom) (v &&& 0x0FFF0FFF)) ∧
      (meets (fun d => s.reg (.qrange d)) range → exec (.qrangeWrite dom v) s = .next s)) ∧
     (∃ t, exec (.ctrownWrite core v) s = .next t ∧ t.reg (.ctrown core) = v &&& 0xFFFFFFFFFF ∧
       (∀ i < 8, t.reg (.ctrcount core i) =
         if field (s.reg (.ctrown core)) (5 * i) 5 = field v (5 * i) 5 then s.reg (.ctrcount core i) else 0) ∧
       (∀ i, t.reg (.ctrcfg core i) = s.reg (.ctrcfg core i)) ∧ { t with cfg := s.cfg } = s) ∧
     (∃ t, exec (.rsvctlWrite die dom n v) s = .next t ∧ t.regField (.rsvctl die dom n) 15 1 = field v 15 1 ∧
       t.regField (.rsvctl die dom n) 8 4 = min 8 (field v 8 4) ∧ t.regField (.rsvctl die dom n) 0 5 = min 16 (field v 0 5) ∧
       (field v 15 1 = 0 → t.regField (.rsvctl die dom n) 14 1 = 0) ∧
       (t.regField (.rsvctl die dom n) 14 1 = 0 → field v 15 1 = 1 →
         ((List.range 32).map (fun d => t.reservation die d none 0)).foldl (· + ·) 0 ≤ 12) ∧
       (∀ x ∈ t.samples, ¬ (x.1 = die ∧ x.2.1 = dom ∧ x.2.2.1 = n)) ∧ { t with cfg := s.cfg, samples := s.samples, retained := s.retained } = s) ∧
     (∃ t, exec (.eqringWrite (some dom) v) s = .next t ∧ t.regField (.eqring dom) 12 43 = field v 12 43 ∧
       t.regField (.eqring dom) 0 4 = min 10 (field v 0 4) ∧ t.reg (.eqtail dom) = 0 ∧ t.reg (.eqhead dom) = 0 ∧
       { t with cfg := s.cfg } = s) ∧
     (∃ t, exec (.eqringWrite none v) s = .next t ∧ t.regField .plring 12 40 = field v 12 40 ∧
       t.regField .plring 0 4 = min 10 (field v 0 4) ∧ t.reg .pltail = 0 ∧ t.reg .plhead = 0 ∧ { t with cfg := s.cfg } = s)) ∧
     (s.isUp = true →
       let write := fun (r : Reg) => Instr.registerWrite ⟨s.pageOwner r, .named r⟩ v
       let rw := fun (r : Reg) (x : DWord) => sets (write r) r r x
       (∀ fn r, fn ≠ s.pageOwner r → exec (.registerWrite ⟨fn, .named r⟩ v) s = .next s) ∧
       (∀ fn place, s.regAt place = none → exec (.registerWrite ⟨fn, place⟩ v) s = .next s) ∧
       (∀ fn off r, s.regAt (.offset (.page dom) off) = some r → s.pageOwner r = fn → off < 0x10000 → fn = dom) ∧
       exec (.registerWrite ⟨0, .offset .control (0x400 * dom + 8)⟩ v) s = exec (write (.featmask dom)) s ∧
       exec (.registerWrite ⟨0, .offset (.core core) (0x40 * dom + 0x28)⟩ v) s = exec (write (.debt core dom)) s ∧
       rw (.featmask dom) v ∧ rw (.ntbase dom) (v &&& 0x007FFFFFFFFF0000) ∧ rw (.ntcount dom) (v &&& 0xFFFFFF) ∧
       rw (.ptroot dom) (v &&& 0x000FFFFFFFFF0001) ∧ rw (.debt core dom) (v &&& 0xFFFFFFFF) ∧
       rw (.grace dom) (BitVec.ofNat 64 (max 10 (min 10000 (field v 0 14)))) ∧
       rw (.killt dom) (BitVec.ofNat 64 (max 100 (min 60000 (field v 0 16)))) ∧
       rw (.eqlost dom) (s.reg (.eqlost dom) &&& ~~~(v &&& 0xFFFFFFFF)) ∧
       (∀ r ∈ [Reg.pstat core, .csight core, .ctrcount core n, .ptbal dom, .prqtail dom, .msgtail dom, .eqtail dom, .hashlo dom,
           .hashhi dom, .qrd n, .pltail, .bootstat], exec (write r) s = .next s) ∧
       exec (write (.part dom)) s = exec (.partWrite dom v) s ∧
       exec (write (.qrange dom)) s = exec (.qrangeWrite dom v) s ∧
       exec (write q) s = exec (.quotaWrite kind core dom v) s)) ∧
  ((∀ (s : State) (i : Instr) (mhz : Nat),
     (i, mhz) = (.clockStepDown, max 600 (s.clockTo - 50)) ∨ (i, mhz) = (.clockStepUp, min 1050 (s.clockTo + 50)) →
     ∃ t, exec i s = .next t ∧ t.clockTo = mhz ∧ t.passMax = 4096 * mhz / 1050 ∧
       ((∀ c ∈ s.mats, ∀ r ∈ c.running, r.limit ≤ 4096 * mhz / 1050) → t.clock = mhz) ∧
       ((∃ c ∈ s.mats, ∃ r ∈ c.running, 4096 * mhz / 1050 < r.limit) → t.clock = max s.clock mhz) ∧
       { t with clock := s.clock, clockTo := s.clockTo, passMax := s.passMax } = s) ∧
   (∀ (s : State) (die : Nat),
     (∃ t, exec (.thermalThrottle die) s = .next t ∧ t.clockTo = 600 ∧ t.passMax = 2340) ∧
     (∃ t, exec (.thermalShutdown die) s = .next t ∧ exec .undervoltage s = .next t ∧ t.powered = false ∧ t.ctx.resident = false ∧
       t.others = [] ∧ t.gangs = [] ∧ t.launches = [] ∧ t.nodes = [] ∧ t.flash = s.flash ∧
       (Memory.wf s.mem = true → ∀ a, t.byte a = if 2 ^ 58 ≤ a ∧ a < 2 ^ 60 then s.byte a else 0))) ∧
   (∀ s : State, ∃ t, exec .powerInterval s = .next t ∧
     (∀ d < 32, (t.tokens d).1 = field (s.reg (.ptcfg d)) 0 8 * 10 ^ 9 ∧
       (s.regField (.ptcfg d) 31 1 = 0 → (t.tokens d).2 = 0)) ∧
     ((List.range 32).map (fun d => (t.tokens d).2)).sum ≤ ((List.range 32).map (fun d => (s.tokens d).1)).sum ∧
     { t with shares := s.shares } = s)) ∧
  (∀ (s : State) (failed : List ModulePart) (port key : Nat) (nonce : List Byte) (img : FlashImage),
     (∀ i err, s.flash.bootImage = .inl (i, err) →
       let bad := (blobRepair i).map repairPart ++ failed
       let versions := fun (t : State) => t.regField .bootstat 48 16 = i.version.toNat ∧ t.regField .bootstat 32 16 = blobCfgver i
       (ModulePart.ioDie0 ∉ failed → dieWithoutStack failed = false → ∃ t, exec (.powerOn failed) s = .next t ∧
         t.flash.running = i ∧ t.flash.pending = none ∧ t.flash.report = s.flash.report ∧ t.isUp = true ∧ versions t ∧
         t.regField .bootstat 0 8 = 6 ∧ (err ≤ 1 → t.regField .bootstat 8 8 = err) ∧
         (∀ c, t.regField (.csight c) 2 1 = if ModulePart.core c ∈ bad ∧ c < 640 then 1 else 0) ∧
         (∀ x, x ∈ t.fenced ↔ x ∈ bad ∧ ∀ c, x ≠ .core c) ∧
         (∀ r, r ≠ .bootstat → (∀ c, r ≠ .csight c) → t.reg r = resetVal r) ∧
         { t with sched := [], fresh := 0, mem := [], cfg := State.reset.cfg, outgoing := [], msix := [], flash := State.reset.flash,
                  fenced := [] } = State.reset) ∧
       (ModulePart.ioDie0 ∈ failed ∨ dieWithoutStack failed = true → ∃ t, exec (.powerOn failed) s = .next t ∧ t.isUp = false ∧
         versions t ∧ t.regField .bootstat 7 1 = 1 ∧ t.regField .bootstat 0 4 = 2 ∧
         t.regField .bootstat 8 8 = (if ModulePart.ioDie0 ∈ failed then 6 else 5) ∧
         (∀ r, r ≠ .bootstat → t.readReg r = 0) ∧ t.ctx.resident = false ∧ t.launches = [])) ∧
     (∀ code, s.flash.bootImage = .inr code → ∃ t, exec (.powerOn failed) s = .next t ∧ t.isUp = false ∧ t.regField .bootstat 7 1 = 1 ∧
       t.regField .bootstat 8 8 = code % 256 ∧ (∀ r, r ≠ .bootstat → t.readReg r = 0) ∧ t.ctx.resident = false ∧ t.launches = []) ∧
     (s.powered = true → exec (.fundamentalReset failed) s = exec (.powerOn failed) s) ∧
     (s.powered = false → exec (.fundamentalReset failed) s = .next s) ∧
     (s.powered = true → exec (.flashImageWrite img) s = .next { s with flash := { s.flash with pending := some img } }) ∧
     (s.powered = false → exec (.flashImageWrite img) s = .next s) ∧
     (s.isUp = true → ∃ t, exec (.attestationRequest nonce) s = .next t ∧ t.flash.report.length = 1654 ∧
       t.flash.report.take 8 = leBytes 8 (blobSerial s.flash.running) ∧
       (t.flash.report.drop 24).take 64 = leBytes 64 (Keccak.shake256 (signedBytes s.flash.running)).toNat ∧
       (t.flash.report.drop 88).take 64 = leBytes 64 (Keccak.shake256 (blobBytes s.flash.running)).toNat ∧
       (nonce.length = 32 → (t.flash.report.drop 152).take 32 = nonce) ∧
       (t.flash.report.drop 184).take 8 = leBytes 8 (s.time % 2 ^ 48) ∧
       { t with flash := s.flash, fresh := s.fresh } = s ∧ { t.flash with report := s.flash.report } = s.flash) ∧
     (s.isUp = false → exec (.attestationRequest nonce) s = .next s) ∧
     (∃ t, exec (.linkError .pcie port) s = .next t ∧ 0 ∈ t.down ∧ ∀ x ∈ s.down, x ∈ t.down) ∧
     (port < 18 → ∃ t, exec (.linkError .exvor port) s = .next t ∧ 1 + port ∈ t.down ∧ ∀ x ∈ s.down, x ∈ t.down) ∧
     (18 ≤ port → exec (.linkError .exvor port) s = .next s) ∧
     (let k := key / codeWord key * codeWord key
      exec (.linkError (.mesh key) port) s = .next (State.physRecord { s with poison := k :: s.poison.filter (· != k) }
       { kind := 0x26, sub := 3, detail := port, addr := if k < 2 ^ 58 then k % 2 ^ 52 else 0 } false)))
end

