-- ==== Sys2Proof/Laws/Front.lean ====
section
/-!
SUPPORT. What the checks before a meaning do when they pass: `enter`, `vecFront`, `uniFront`.
-/
namespace Sys2Proof.Machine

theorem State.enter_eq {s : State} {g : Option Nat} (h : s.admits g) (maj : Nat) (k : State → Out) : s.enter g maj k = k s := by
  obtain ⟨h1, h2⟩ := h
  cases g with
  | none => simp [State.enter, h1]
  | some n => simp [State.enter, h1, h2 n rfl]

/-- The front of a vector instruction passes exactly when every source can be read. -/
theorem State.vecFront_eq_none (s : State) (m : Mask) (srcs : List Src) :
    s.vecFront m srcs = none ↔ s.ctx.vecReads m srcs := by
  unfold State.vecFront Watch.vecReads
  by_cases hm : m = 0
  · simp [hm]
  · simp only [hm, if_false, false_or]
    constructor
    · intro h x hx
      split at h
      · simp at h
      · rename_i hb
        split at h
        · simp at h
        · rename_i hv
          split at h
          · simp at h
          · rename_i hq
            split at h
            · simp at h
            · rename_i hp
              simp only [List.any_eq_true, not_exists, not_and, List.find?_eq_none] at hb hv hq hp
              exact ⟨by simpa using hb x hx, by simpa using hv x hx, by simpa using hq x hx, by simpa using hp x hx⟩
    · intro h
      have hb : srcs.any (Src.beyond s.ctx) = false := by
        simp only [List.any_eq_false]; intro x hx; simp [(h x hx).1]
      have hv : srcs.find? (fun x => x.voidIn s.ctx m != 0) = none := by
        simp only [List.find?_eq_none]; intro x hx; simp [(h x hx).2.1]
      have hq : srcs.any (fun x => x.badIn s.ctx m != 0) = false := by
        simp only [List.any_eq_false]; intro x hx; simp [(h x hx).2.2.1]
      have hp : srcs.any (fun x => x.pendIn s.ctx m != 0) = false := by
        simp only [List.any_eq_false]; intro x hx; simp [(h x hx).2.2.2]
      rw [if_neg (by simp [hb]), hv]; simp only [hq, hp]; rfl

theorem State.uniFront_eq_none (s : State) (srcs : List Src) : s.uniFront srcs = none ↔ s.ctx.uniReads srcs := by
  unfold State.uniFront Watch.uniReads
  constructor
  · intro h x hx
    split at h
    · simp at h
    · rename_i hv
      split at h
      · simp at h
      · rename_i hq
        split at h
        · simp at h
        · rename_i hp
          simp only [List.any_eq_true, not_exists, not_and, List.find?_eq_none] at hv hq hp
          exact ⟨by simpa using hv x hx, by simpa using hq x hx, by simpa using hp x hx⟩
  · intro h
    have hv : srcs.find? (Src.uniIs s.ctx Entry.isVoid) = none := by
      simp only [List.find?_eq_none]; intro x hx; simp [(h x hx).1]
    have hq : srcs.any (Src.uniIs s.ctx Entry.isBad) = false := by
      simp only [List.any_eq_false]; intro x hx; simp [(h x hx).2.1]
    have hp : srcs.any (Src.uniIs s.ctx Entry.isPend) = false := by
      simp only [List.any_eq_false]; intro x hx; simp [(h x hx).2.2]
    simp [hv, hq, hp]

@[simp] theorem orElse_none (k : Out) : orElse none k = k := rfl
@[simp] theorem orElse_some (t : State) (k : Out) : orElse (some t) k = .next t := rfl

/-- A vector instruction whose sources can be read goes on under its mask. -/
theorem State.vector_eq {s : State} {f : FmtA} {srcs : List Src} (h : s.admits none)
    (hr : s.ctx.vecReads (s.ctx.gov f.k) srcs) (k : Mask → State → Out) :
    s.vector f srcs k = k (s.ctx.gov f.k) s := by
  rw [State.vector, State.enter_eq h, (State.vecFront_eq_none s _ _).2 hr, orElse_none]

end Sys2Proof.Machine
end

