-- ==== Sys2Proof/Laws/Lists.lean ====
section
/-!
SUPPORT. Lists by index, masks over lanes, wakes and their ages, bytes of numbers.
-/
namespace Sys2Proof.Machine

/-! ### Lists -/

@[simp] theorem mapFrom_length {α β : Type} (f : Nat → α → β) : ∀ (i : Nat) (l : List α), (mapFrom f i l).length = l.length
  | _, [] => rfl
  | i, a :: as => by simp [mapFrom, mapFrom_length f (i + 1) as]

theorem mapFrom_getElem? {α β : Type} (f : Nat → α → β) : ∀ (i : Nat) (l : List α) (n : Nat),
    (mapFrom f i l)[n]? = l[n]?.map (f (i + n))
  | _, [], _ => by simp [mapFrom]
  | i, a :: as, 0 => by simp [mapFrom]
  | i, a :: as, n + 1 => by simp [mapFrom, mapFrom_getElem? f (i + 1) as n, show i + (n + 1) = i + 1 + n by omega]

@[simp] theorem setAt_length {α : Type} (v : α) : ∀ (l : List α) (i : Nat), (setAt l i v).length = l.length
  | [], _ => rfl
  | _ :: _, 0 => rfl
  | _ :: as, i + 1 => by simp [setAt, setAt_length v as i]

theorem setAt_getD {α : Type} (v d : α) : ∀ (l : List α) (i n : Nat), i < l.length →
    (setAt l i v).getD n d = if n = i then v else l.getD n d
  | [], i, n, h => by simp at h
  | _ :: _, 0, 0, _ => by simp [setAt]
  | _ :: _, 0, n + 1, _ => by simp [setAt]
  | _ :: _, i + 1, 0, _ => by simp [setAt]
  | _ :: as, i + 1, n + 1, h => by simpa [setAt] using setAt_getD v d as i n (by simpa using h)

@[simp] theorem modAt_length {α : Type} (f : α → α) : ∀ (l : List α) (i : Nat), (modAt f l i).length = l.length
  | [], _ => rfl
  | _ :: _, 0 => rfl
  | _ :: as, i + 1 => by simp [modAt, modAt_length f as i]

theorem modAt_getElem? {α : Type} (f : α → α) : ∀ (l : List α) (i n : Nat),
    (modAt f l i)[n]? = if n = i then l[n]?.map f else l[n]?
  | [], _, _ => by simp [modAt]
  | _ :: _, 0, 0 => by simp [modAt]
  | _ :: _, 0, n + 1 => by simp [modAt]
  | _ :: _, i + 1, 0 => by simp [modAt]
  | _ :: as, i + 1, n + 1 => by simpa [modAt] using modAt_getElem? f as i n

/-! ### Masks -/

theorem testBit_bitsOf {α : Type} (p : α → Bool) : ∀ (ls : List α) (n : Nat), (bitsOf p ls).testBit n = (ls[n]?.map p).getD false
  | [], n => by simp [bitsOf]
  | a :: as, 0 => by cases h : p a <;> simp [bitsOf, h, Nat.testBit_zero, Nat.add_mod]
  | a :: as, n + 1 => by
    have e : ((if p a then 1 else 0) + 2 * bitsOf p as) / 2 = bitsOf p as := by split <;> omega
    simp [bitsOf, Nat.testBit_succ, e, testBit_bitsOf p as n]

/-- The lane l is in the mask of a predicate exactly when there is a lane l, below 64, that satisfies it. -/
theorem has_maskWhere {α : Type} (p : α → Bool) (ls : List α) (l : Nat) :
    has (maskWhere p ls) l = (decide (l < 64) && (ls[l]?.map p).getD false) := by
  simp [has, maskWhere, BitVec.getLsbD_ofNat, testBit_bitsOf]

theorem has_maskOf (p : Nat → Bool) (l : Nat) : has (maskOf p) l = (decide (l < 64) && p l) := by
  unfold maskOf
  rw [has_maskWhere]
  by_cases h : l < 64
  · simp [h]
  · simp [h]

/-- Two masks with the same lanes are equal. -/
theorem mask_ext {m n : Mask} (h : ∀ l < 64, has m l = has n l) : m = n := by
  apply BitVec.eq_of_getLsbD_eq
  intro i hi
  exact h i hi

/-! ### Wakes -/

@[simp] theorem VWake.push_length (v : VWake) (e : Entry Word) : (v.push e).ring.length = v.ring.length := by simp [VWake.push]
@[simp] theorem VWake.push_nest (v : VWake) (e : Entry Word) : (v.push e).nest = v.nest := rfl
@[simp] theorem SWake.push_length (v : SWake) (e : Entry DWord) : (v.push e).ring.length = v.ring.length := by simp [SWake.push]

/-- The new entry stands at age 0. -/
theorem VWake.get_push_zero (v : VWake) (e : Entry Word) (h : v.ring.length = 32) : (v.push e).get 0 = e := by
  unfold VWake.push VWake.get
  rw [setAt_getD _ _ _ _ _ (by omega)]
  simp

/-- Every entry that is not lost stands one age higher. -/
theorem VWake.get_push_succ (v : VWake) (e : Entry Word) (h : v.ring.length = 32) (a : Nat) (ha : a < 31) :
    (v.push e).get (a + 1) = v.get a := by
  unfold VWake.push VWake.get
  rw [setAt_getD _ _ _ _ _ (by omega)]
  have e0 : (1 : BitVec 5).toNat = 1 := rfl
  have e1 : v.head + 1 - BitVec.ofNat 5 (a + 1) = v.head - BitVec.ofNat 5 a := by
    apply BitVec.eq_of_toNat_eq; simp only [BitVec.toNat_sub, BitVec.toNat_add, BitVec.toNat_ofNat, e0, Nat.reducePow]; omega
  have e2 : ¬ (v.head - BitVec.ofNat 5 a).toNat = (v.head + 1).toNat := by
    simp only [BitVec.toNat_sub, BitVec.toNat_add, BitVec.toNat_ofNat, e0, Nat.reducePow]; omega
  simp only [e1, e2, if_false]

theorem SWake.get_push_zero (v : SWake) (e : Entry DWord) (h : v.ring.length = 16) : (v.push e).get 0 = e := by
  unfold SWake.push SWake.get
  rw [setAt_getD _ _ _ _ _ (by omega)]
  simp

theorem SWake.get_push_succ (v : SWake) (e : Entry DWord) (h : v.ring.length = 16) (a : Nat) (ha : a < 15) :
    (v.push e).get (a + 1) = v.get a := by
  unfold SWake.push SWake.get
  rw [setAt_getD _ _ _ _ _ (by omega)]
  have e0 : (1 : BitVec 4).toNat = 1 := rfl
  have e1 : v.head + 1 - BitVec.ofNat 4 (a + 1) = v.head - BitVec.ofNat 4 a := by
    apply BitVec.eq_of_toNat_eq; simp only [BitVec.toNat_sub, BitVec.toNat_add, BitVec.toNat_ofNat, e0, Nat.reducePow]; omega
  have e2 : ¬ (v.head - BitVec.ofNat 4 a).toNat = (v.head + 1).toNat := by
    simp only [BitVec.toNat_sub, BitVec.toNat_add, BitVec.toNat_ofNat, e0, Nat.reducePow]; omega
  simp only [e1, e2, if_false]

/-! ### Lanes of a watch -/

@[simp] theorem Watch.mapLanes_length (w : Watch) (f : Nat → Lane → Lane) : (w.mapLanes f).lanes.length = w.lanes.length := by
  simp [Watch.mapLanes]

theorem Watch.mapLanes_lane (w : Watch) (f : Nat → Lane → Lane) (l : Nat) (h : l < w.lanes.length) :
    (w.mapLanes f).lane l = f l (w.lane l) := by
  simp [Watch.mapLanes, Watch.lane, List.getD_eq_getElem?_getD, mapFrom_getElem?, List.getElem?_eq_getElem h]

/-- What a push leaves in a lane. -/
theorem Watch.push_lane (w : Watch) (m : Mask) (e : Nat → Entry Word) (l : Nat) (h : l < w.lanes.length) :
    (w.push m e).lane l = if has m l then { w.lane l with wake := (w.lane l).wake.push (e l) } else w.lane l := by
  simp [Watch.push, Watch.lane, List.getD_eq_getElem?_getD, mapFrom_getElem?, List.getElem?_eq_getElem h]

@[simp] theorem Watch.push_lanes_length (w : Watch) (m : Mask) (e : Nat → Entry Word) : (w.push m e).lanes.length = w.lanes.length := by
  simp [Watch.push]

/-! ### Bytes of numbers -/

@[simp] theorem leBytes_length : ∀ (n v : Nat), (leBytes n v).length = n
  | 0, _ => rfl
  | n + 1, v => by simp [leBytes, leBytes_length n (v / 256)]

/-- The bytes of a number give its low part back. -/
theorem leNat_leBytes : ∀ (n v : Nat), leNat (leBytes n v) = v % 256 ^ n
  | 0, v => by simp [leBytes, leNat, Nat.mod_one]
  | n + 1, v => by
    rw [leBytes, leNat, leNat_leBytes n (v / 256), BitVec.toNat_ofNat, Nat.pow_succ (n := 256), Nat.mul_comm (256 ^ n) 256, Nat.mod_mul]

theorem leBytes_getElem? : ∀ (n v i : Nat), i < n → (leBytes n v)[i]? = some (BitVec.ofNat 8 (v / 256 ^ i))
  | n + 1, v, 0, _ => by simp [leBytes]
  | n + 1, v, i + 1, h => by
    simp [leBytes, leBytes_getElem? n (v / 256) i (by omega), Nat.div_div_eq_div_mul, Nat.pow_succ, Nat.mul_comm]

end Sys2Proof.Machine
end

