-- ==== Sys2Proof/Laws/State.lean ====
section
/-!
SUPPORT. What the updates of the state leave: for each update and each field that it does not change, one lemma.
-/
namespace Sys2Proof.Machine

/-! ### mapCtx -/

@[simp] theorem State.mapCtx_others (s : State) (f : Watch → Watch) : (s.mapCtx f).others = s.others := rfl
@[simp] theorem State.mapCtx_sched (s : State) (f : Watch → Watch) : (s.mapCtx f).sched = s.sched := rfl
@[simp] theorem State.mapCtx_fresh (s : State) (f : Watch → Watch) : (s.mapCtx f).fresh = s.fresh := rfl
@[simp] theorem State.mapCtx_time (s : State) (f : Watch → Watch) : (s.mapCtx f).time = s.time := rfl
@[simp] theorem State.mapCtx_powered (s : State) (f : Watch → Watch) : (s.mapCtx f).powered = s.powered := rfl
@[simp] theorem State.mapCtx_clock (s : State) (f : Watch → Watch) : (s.mapCtx f).clock = s.clock := rfl
@[simp] theorem State.mapCtx_clockTo (s : State) (f : Watch → Watch) : (s.mapCtx f).clockTo = s.clockTo := rfl
@[simp] theorem State.mapCtx_passMax (s : State) (f : Watch → Watch) : (s.mapCtx f).passMax = s.passMax := rfl
@[simp] theorem State.mapCtx_mem (s : State) (f : Watch → Watch) : (s.mapCtx f).mem = s.mem := rfl
@[simp] theorem State.mapCtx_poison (s : State) (f : Watch → Watch) : (s.mapCtx f).poison = s.poison := rfl
@[simp] theorem State.mapCtx_late (s : State) (f : Watch → Watch) : (s.mapCtx f).late = s.late := rfl
@[simp] theorem State.mapCtx_behind (s : State) (f : Watch → Watch) : (s.mapCtx f).behind = s.behind := rfl
@[simp] theorem State.mapCtx_manner (s : State) (f : Watch → Watch) : (s.mapCtx f).manner = s.manner := rfl
@[simp] theorem State.mapCtx_objUses (s : State) (f : Watch → Watch) : (s.mapCtx f).objUses = s.objUses := rfl
@[simp] theorem State.mapCtx_copies (s : State) (f : Watch → Watch) : (s.mapCtx f).copies = s.copies := rfl
@[simp] theorem State.mapCtx_accRows (s : State) (f : Watch → Watch) : (s.mapCtx f).accRows = s.accRows := rfl
@[simp] theorem State.mapCtx_accCells (s : State) (f : Watch → Watch) : (s.mapCtx f).accCells = s.accCells := rfl
@[simp] theorem State.mapCtx_accPoison (s : State) (f : Watch → Watch) : (s.mapCtx f).accPoison = s.accPoison := rfl
@[simp] theorem State.mapCtx_cfg (s : State) (f : Watch → Watch) : (s.mapCtx f).cfg = s.cfg := rfl
@[simp] theorem State.mapCtx_counts (s : State) (f : Watch → Watch) : (s.mapCtx f).counts = s.counts := rfl
@[simp] theorem State.mapCtx_recalls (s : State) (f : Watch → Watch) : (s.mapCtx f).recalls = s.recalls := rfl
@[simp] theorem State.mapCtx_reclaims (s : State) (f : Watch → Watch) : (s.mapCtx f).reclaims = s.reclaims := rfl
@[simp] theorem State.mapCtx_tlb (s : State) (f : Watch → Watch) : (s.mapCtx f).tlb = s.tlb := rfl
@[simp] theorem State.mapCtx_walks (s : State) (f : Watch → Watch) : (s.mapCtx f).walks = s.walks := rfl
@[simp] theorem State.mapCtx_idt (s : State) (f : Watch → Watch) : (s.mapCtx f).idt = s.idt := rfl
@[simp] theorem State.mapCtx_keys (s : State) (f : Watch → Watch) : (s.mapCtx f).keys = s.keys := rfl
@[simp] theorem State.mapCtx_gangs (s : State) (f : Watch → Watch) : (s.mapCtx f).gangs = s.gangs := rfl
@[simp] theorem State.mapCtx_launches (s : State) (f : Watch → Watch) : (s.mapCtx f).launches = s.launches := rfl
@[simp] theorem State.mapCtx_nodes (s : State) (f : Watch → Watch) : (s.mapCtx f).nodes = s.nodes := rfl
@[simp] theorem State.mapCtx_file (s : State) (f : Watch → Watch) : (s.mapCtx f).file = s.file := rfl
@[simp] theorem State.mapCtx_fired (s : State) (f : Watch → Watch) : (s.mapCtx f).fired = s.fired := rfl
@[simp] theorem State.mapCtx_seqs (s : State) (f : Watch → Watch) : (s.mapCtx f).seqs = s.seqs := rfl
@[simp] theorem State.mapCtx_armed (s : State) (f : Watch → Watch) : (s.mapCtx f).armed = s.armed := rfl
@[simp] theorem State.mapCtx_caddyQ (s : State) (f : Watch → Watch) : (s.mapCtx f).caddyQ = s.caddyQ := rfl
@[simp] theorem State.mapCtx_cmds (s : State) (f : Watch → Watch) : (s.mapCtx f).cmds = s.cmds := rfl
@[simp] theorem State.mapCtx_mats (s : State) (f : Watch → Watch) : (s.mapCtx f).mats = s.mats := rfl
@[simp] theorem State.mapCtx_prq (s : State) (f : Watch → Watch) : (s.mapCtx f).prq = s.prq := rfl
@[simp] theorem State.mapCtx_served (s : State) (f : Watch → Watch) : (s.mapCtx f).served = s.served := rfl
@[simp] theorem State.mapCtx_cps (s : State) (f : Watch → Watch) : (s.mapCtx f).cps = s.cps := rfl
@[simp] theorem State.mapCtx_invals (s : State) (f : Watch → Watch) : (s.mapCtx f).invals = s.invals := rfl
@[simp] theorem State.mapCtx_preempts (s : State) (f : Watch → Watch) : (s.mapCtx f).preempts = s.preempts := rfl
@[simp] theorem State.mapCtx_turns (s : State) (f : Watch → Watch) : (s.mapCtx f).turns = s.turns := rfl
@[simp] theorem State.mapCtx_slices (s : State) (f : Watch → Watch) : (s.mapCtx f).slices = s.slices := rfl
@[simp] theorem State.mapCtx_sights (s : State) (f : Watch → Watch) : (s.mapCtx f).sights = s.sights := rfl
@[simp] theorem State.mapCtx_signals (s : State) (f : Watch → Watch) : (s.mapCtx f).signals = s.signals := rfl
@[simp] theorem State.mapCtx_waiting (s : State) (f : Watch → Watch) : (s.mapCtx f).waiting = s.waiting := rfl
@[simp] theorem State.mapCtx_outgoing (s : State) (f : Watch → Watch) : (s.mapCtx f).outgoing = s.outgoing := rfl
@[simp] theorem State.mapCtx_msix (s : State) (f : Watch → Watch) : (s.mapCtx f).msix = s.msix := rfl
@[simp] theorem State.mapCtx_tracker (s : State) (f : Watch → Watch) : (s.mapCtx f).tracker = s.tracker := rfl
@[simp] theorem State.mapCtx_promoted (s : State) (f : Watch → Watch) : (s.mapCtx f).promoted = s.promoted := rfl
@[simp] theorem State.mapCtx_moves (s : State) (f : Watch → Watch) : (s.mapCtx f).moves = s.moves := rfl
@[simp] theorem State.mapCtx_shares (s : State) (f : Watch → Watch) : (s.mapCtx f).shares = s.shares := rfl
@[simp] theorem State.mapCtx_samples (s : State) (f : Watch → Watch) : (s.mapCtx f).samples = s.samples := rfl
@[simp] theorem State.mapCtx_retained (s : State) (f : Watch → Watch) : (s.mapCtx f).retained = s.retained := rfl
@[simp] theorem State.mapCtx_down (s : State) (f : Watch → Watch) : (s.mapCtx f).down = s.down := rfl
@[simp] theorem State.mapCtx_deadDies (s : State) (f : Watch → Watch) : (s.mapCtx f).deadDies = s.deadDies := rfl
@[simp] theorem State.mapCtx_fenced (s : State) (f : Watch → Watch) : (s.mapCtx f).fenced = s.fenced := rfl
@[simp] theorem State.mapCtx_flash (s : State) (f : Watch → Watch) : (s.mapCtx f).flash = s.flash := rfl

/-! ### setPc -/

@[simp] theorem State.setPc_others (s : State) (pc : DWord) : (s.setPc pc).others = s.others := rfl
@[simp] theorem State.setPc_sched (s : State) (pc : DWord) : (s.setPc pc).sched = s.sched := rfl
@[simp] theorem State.setPc_fresh (s : State) (pc : DWord) : (s.setPc pc).fresh = s.fresh := rfl
@[simp] theorem State.setPc_time (s : State) (pc : DWord) : (s.setPc pc).time = s.time := rfl
@[simp] theorem State.setPc_powered (s : State) (pc : DWord) : (s.setPc pc).powered = s.powered := rfl
@[simp] theorem State.setPc_clock (s : State) (pc : DWord) : (s.setPc pc).clock = s.clock := rfl
@[simp] theorem State.setPc_clockTo (s : State) (pc : DWord) : (s.setPc pc).clockTo = s.clockTo := rfl
@[simp] theorem State.setPc_passMax (s : State) (pc : DWord) : (s.setPc pc).passMax = s.passMax := rfl
@[simp] theorem State.setPc_mem (s : State) (pc : DWord) : (s.setPc pc).mem = s.mem := rfl
@[simp] theorem State.setPc_poison (s : State) (pc : DWord) : (s.setPc pc).poison = s.poison := rfl
@[simp] theorem State.setPc_late (s : State) (pc : DWord) : (s.setPc pc).late = s.late := rfl
@[simp] theorem State.setPc_behind (s : State) (pc : DWord) : (s.setPc pc).behind = s.behind := rfl
@[simp] theorem State.setPc_manner (s : State) (pc : DWord) : (s.setPc pc).manner = s.manner := rfl
@[simp] theorem State.setPc_objUses (s : State) (pc : DWord) : (s.setPc pc).objUses = s.objUses := rfl
@[simp] theorem State.setPc_copies (s : State) (pc : DWord) : (s.setPc pc).copies = s.copies := rfl
@[simp] theorem State.setPc_accRows (s : State) (pc : DWord) : (s.setPc pc).accRows = s.accRows := rfl
@[simp] theorem State.setPc_accCells (s : State) (pc : DWord) : (s.setPc pc).accCells = s.accCells := rfl
@[simp] theorem State.setPc_accPoison (s : State) (pc : DWord) : (s.setPc pc).accPoison = s.accPoison := rfl
@[simp] theorem State.setPc_cfg (s : State) (pc : DWord) : (s.setPc pc).cfg = s.cfg := rfl
@[simp] theorem State.setPc_counts (s : State) (pc : DWord) : (s.setPc pc).counts = s.counts := rfl
@[simp] theorem State.setPc_recalls (s : State) (pc : DWord) : (s.setPc pc).recalls = s.recalls := rfl
@[simp] theorem State.setPc_reclaims (s : State) (pc : DWord) : (s.setPc pc).reclaims = s.reclaims := rfl
@[simp] theorem State.setPc_tlb (s : State) (pc : DWord) : (s.setPc pc).tlb = s.tlb := rfl
@[simp] theorem State.setPc_walks (s : State) (pc : DWord) : (s.setPc pc).walks = s.walks := rfl
@[simp] theorem State.setPc_idt (s : State) (pc : DWord) : (s.setPc pc).idt = s.idt := rfl
@[simp] theorem State.setPc_keys (s : State) (pc : DWord) : (s.setPc pc).keys = s.keys := rfl
@[simp] theorem State.setPc_gangs (s : State) (pc : DWord) : (s.setPc pc).gangs = s.gangs := rfl
@[simp] theorem State.setPc_launches (s : State) (pc : DWord) : (s.setPc pc).launches = s.launches := rfl
@[simp] theorem State.setPc_nodes (s : State) (pc : DWord) : (s.setPc pc).nodes = s.nodes := rfl
@[simp] theorem State.setPc_file (s : State) (pc : DWord) : (s.setPc pc).file = s.file := rfl
@[simp] theorem State.setPc_fired (s : State) (pc : DWord) : (s.setPc pc).fired = s.fired := rfl
@[simp] theorem State.setPc_seqs (s : State) (pc : DWord) : (s.setPc pc).seqs = s.seqs := rfl
@[simp] theorem State.setPc_armed (s : State) (pc : DWord) : (s.setPc pc).armed = s.armed := rfl
@[simp] theorem State.setPc_caddyQ (s : State) (pc : DWord) : (s.setPc pc).caddyQ = s.caddyQ := rfl
@[simp] theorem State.setPc_cmds (s : State) (pc : DWord) : (s.setPc pc).cmds = s.cmds := rfl
@[simp] theorem State.setPc_mats (s : State) (pc : DWord) : (s.setPc pc).mats = s.mats := rfl
@[simp] theorem State.setPc_prq (s : State) (pc : DWord) : (s.setPc pc).prq = s.prq := rfl
@[simp] theorem State.setPc_served (s : State) (pc : DWord) : (s.setPc pc).served = s.served := rfl
@[simp] theorem State.setPc_cps (s : State) (pc : DWord) : (s.setPc pc).cps = s.cps := rfl
@[simp] theorem State.setPc_invals (s : State) (pc : DWord) : (s.setPc pc).invals = s.invals := rfl
@[simp] theorem State.setPc_preempts (s : State) (pc : DWord) : (s.setPc pc).preempts = s.preempts := rfl
@[simp] theorem State.setPc_turns (s : State) (pc : DWord) : (s.setPc pc).turns = s.turns := rfl
@[simp] theorem State.setPc_slices (s : State) (pc : DWord) : (s.setPc pc).slices = s.slices := rfl
@[simp] theorem State.setPc_sights (s : State) (pc : DWord) : (s.setPc pc).sights = s.sights := rfl
@[simp] theorem State.setPc_signals (s : State) (pc : DWord) : (s.setPc pc).signals = s.signals := rfl
@[simp] theorem State.setPc_waiting (s : State) (pc : DWord) : (s.setPc pc).waiting = s.waiting := rfl
@[simp] theorem State.setPc_outgoing (s : State) (pc : DWord) : (s.setPc pc).outgoing = s.outgoing := rfl
@[simp] theorem State.setPc_msix (s : State) (pc : DWord) : (s.setPc pc).msix = s.msix := rfl
@[simp] theorem State.setPc_tracker (s : State) (pc : DWord) : (s.setPc pc).tracker = s.tracker := rfl
@[simp] theorem State.setPc_promoted (s : State) (pc : DWord) : (s.setPc pc).promoted = s.promoted := rfl
@[simp] theorem State.setPc_moves (s : State) (pc : DWord) : (s.setPc pc).moves = s.moves := rfl
@[simp] theorem State.setPc_shares (s : State) (pc : DWord) : (s.setPc pc).shares = s.shares := rfl
@[simp] theorem State.setPc_samples (s : State) (pc : DWord) : (s.setPc pc).samples = s.samples := rfl
@[simp] theorem State.setPc_retained (s : State) (pc : DWord) : (s.setPc pc).retained = s.retained := rfl
@[simp] theorem State.setPc_down (s : State) (pc : DWord) : (s.setPc pc).down = s.down := rfl
@[simp] theorem State.setPc_deadDies (s : State) (pc : DWord) : (s.setPc pc).deadDies = s.deadDies := rfl
@[simp] theorem State.setPc_fenced (s : State) (pc : DWord) : (s.setPc pc).fenced = s.fenced := rfl
@[simp] theorem State.setPc_flash (s : State) (pc : DWord) : (s.setPc pc).flash = s.flash := rfl

/-! ### advance -/

@[simp] theorem State.advance_others (s : State) (n : Nat) : (s.advance n).others = s.others := rfl
@[simp] theorem State.advance_sched (s : State) (n : Nat) : (s.advance n).sched = s.sched := rfl
@[simp] theorem State.advance_fresh (s : State) (n : Nat) : (s.advance n).fresh = s.fresh := rfl
@[simp] theorem State.advance_time (s : State) (n : Nat) : (s.advance n).time = s.time := rfl
@[simp] theorem State.advance_powered (s : State) (n : Nat) : (s.advance n).powered = s.powered := rfl
@[simp] theorem State.advance_clock (s : State) (n : Nat) : (s.advance n).clock = s.clock := rfl
@[simp] theorem State.advance_clockTo (s : State) (n : Nat) : (s.advance n).clockTo = s.clockTo := rfl
@[simp] theorem State.advance_passMax (s : State) (n : Nat) : (s.advance n).passMax = s.passMax := rfl
@[simp] theorem State.advance_mem (s : State) (n : Nat) : (s.advance n).mem = s.mem := rfl
@[simp] theorem State.advance_poison (s : State) (n : Nat) : (s.advance n).poison = s.poison := rfl
@[simp] theorem State.advance_late (s : State) (n : Nat) : (s.advance n).late = s.late := rfl
@[simp] theorem State.advance_behind (s : State) (n : Nat) : (s.advance n).behind = s.behind := rfl
@[simp] theorem State.advance_manner (s : State) (n : Nat) : (s.advance n).manner = s.manner := rfl
@[simp] theorem State.advance_objUses (s : State) (n : Nat) : (s.advance n).objUses = s.objUses := rfl
@[simp] theorem State.advance_copies (s : State) (n : Nat) : (s.advance n).copies = s.copies := rfl
@[simp] theorem State.advance_accRows (s : State) (n : Nat) : (s.advance n).accRows = s.accRows := rfl
@[simp] theorem State.advance_accCells (s : State) (n : Nat) : (s.advance n).accCells = s.accCells := rfl
@[simp] theorem State.advance_accPoison (s : State) (n : Nat) : (s.advance n).accPoison = s.accPoison := rfl
@[simp] theorem State.advance_cfg (s : State) (n : Nat) : (s.advance n).cfg = s.cfg := rfl
@[simp] theorem State.advance_counts (s : State) (n : Nat) : (s.advance n).counts = s.counts := rfl
@[simp] theorem State.advance_recalls (s : State) (n : Nat) : (s.advance n).recalls = s.recalls := rfl
@[simp] theorem State.advance_reclaims (s : State) (n : Nat) : (s.advance n).reclaims = s.reclaims := rfl
@[simp] theorem State.advance_tlb (s : State) (n : Nat) : (s.advance n).tlb = s.tlb := rfl
@[simp] theorem State.advance_walks (s : State) (n : Nat) : (s.advance n).walks = s.walks := rfl
@[simp] theorem State.advance_idt (s : State) (n : Nat) : (s.advance n).idt = s.idt := rfl
@[simp] theorem State.advance_keys (s : State) (n : Nat) : (s.advance n).keys = s.keys := rfl
@[simp] theorem State.advance_gangs (s : State) (n : Nat) : (s.advance n).gangs = s.gangs := rfl
@[simp] theorem State.advance_launches (s : State) (n : Nat) : (s.advance n).launches = s.launches := rfl
@[simp] theorem State.advance_nodes (s : State) (n : Nat) : (s.advance n).nodes = s.nodes := rfl
@[simp] theorem State.advance_file (s : State) (n : Nat) : (s.advance n).file = s.file := rfl
@[simp] theorem State.advance_fired (s : State) (n : Nat) : (s.advance n).fired = s.fired := rfl
@[simp] theorem State.advance_seqs (s : State) (n : Nat) : (s.advance n).seqs = s.seqs := rfl
@[simp] theorem State.advance_armed (s : State) (n : Nat) : (s.advance n).armed = s.armed := rfl
@[simp] theorem State.advance_caddyQ (s : State) (n : Nat) : (s.advance n).caddyQ = s.caddyQ := rfl
@[simp] theorem State.advance_cmds (s : State) (n : Nat) : (s.advance n).cmds = s.cmds := rfl
@[simp] theorem State.advance_mats (s : State) (n : Nat) : (s.advance n).mats = s.mats := rfl
@[simp] theorem State.advance_prq (s : State) (n : Nat) : (s.advance n).prq = s.prq := rfl
@[simp] theorem State.advance_served (s : State) (n : Nat) : (s.advance n).served = s.served := rfl
@[simp] theorem State.advance_cps (s : State) (n : Nat) : (s.advance n).cps = s.cps := rfl
@[simp] theorem State.advance_invals (s : State) (n : Nat) : (s.advance n).invals = s.invals := rfl
@[simp] theorem State.advance_preempts (s : State) (n : Nat) : (s.advance n).preempts = s.preempts := rfl
@[simp] theorem State.advance_turns (s : State) (n : Nat) : (s.advance n).turns = s.turns := rfl
@[simp] theorem State.advance_slices (s : State) (n : Nat) : (s.advance n).slices = s.slices := rfl
@[simp] theorem State.advance_sights (s : State) (n : Nat) : (s.advance n).sights = s.sights := rfl
@[simp] theorem State.advance_signals (s : State) (n : Nat) : (s.advance n).signals = s.signals := rfl
@[simp] theorem State.advance_waiting (s : State) (n : Nat) : (s.advance n).waiting = s.waiting := rfl
@[simp] theorem State.advance_outgoing (s : State) (n : Nat) : (s.advance n).outgoing = s.outgoing := rfl
@[simp] theorem State.advance_msix (s : State) (n : Nat) : (s.advance n).msix = s.msix := rfl
@[simp] theorem State.advance_tracker (s : State) (n : Nat) : (s.advance n).tracker = s.tracker := rfl
@[simp] theorem State.advance_promoted (s : State) (n : Nat) : (s.advance n).promoted = s.promoted := rfl
@[simp] theorem State.advance_moves (s : State) (n : Nat) : (s.advance n).moves = s.moves := rfl
@[simp] theorem State.advance_shares (s : State) (n : Nat) : (s.advance n).shares = s.shares := rfl
@[simp] theorem State.advance_samples (s : State) (n : Nat) : (s.advance n).samples = s.samples := rfl
@[simp] theorem State.advance_retained (s : State) (n : Nat) : (s.advance n).retained = s.retained := rfl
@[simp] theorem State.advance_down (s : State) (n : Nat) : (s.advance n).down = s.down := rfl
@[simp] theorem State.advance_deadDies (s : State) (n : Nat) : (s.advance n).deadDies = s.deadDies := rfl
@[simp] theorem State.advance_fenced (s : State) (n : Nat) : (s.advance n).fenced = s.fenced := rfl
@[simp] theorem State.advance_flash (s : State) (n : Nat) : (s.advance n).flash = s.flash := rfl

/-! ### hold -/

@[simp] theorem State.hold_others (s : State) (x : Wait) : (s.hold x).others = s.others := rfl
@[simp] theorem State.hold_sched (s : State) (x : Wait) : (s.hold x).sched = s.sched := rfl
@[simp] theorem State.hold_fresh (s : State) (x : Wait) : (s.hold x).fresh = s.fresh := rfl
@[simp] theorem State.hold_time (s : State) (x : Wait) : (s.hold x).time = s.time := rfl
@[simp] theorem State.hold_powered (s : State) (x : Wait) : (s.hold x).powered = s.powered := rfl
@[simp] theorem State.hold_clock (s : State) (x : Wait) : (s.hold x).clock = s.clock := rfl
@[simp] theorem State.hold_clockTo (s : State) (x : Wait) : (s.hold x).clockTo = s.clockTo := rfl
@[simp] theorem State.hold_passMax (s : State) (x : Wait) : (s.hold x).passMax = s.passMax := rfl
@[simp] theorem State.hold_mem (s : State) (x : Wait) : (s.hold x).mem = s.mem := rfl
@[simp] theorem State.hold_poison (s : State) (x : Wait) : (s.hold x).poison = s.poison := rfl
@[simp] theorem State.hold_late (s : State) (x : Wait) : (s.hold x).late = s.late := rfl
@[simp] theorem State.hold_behind (s : State) (x : Wait) : (s.hold x).behind = s.behind := rfl
@[simp] theorem State.hold_manner (s : State) (x : Wait) : (s.hold x).manner = s.manner := rfl
@[simp] theorem State.hold_objUses (s : State) (x : Wait) : (s.hold x).objUses = s.objUses := rfl
@[simp] theorem State.hold_copies (s : State) (x : Wait) : (s.hold x).copies = s.copies := rfl
@[simp] theorem State.hold_accRows (s : State) (x : Wait) : (s.hold x).accRows = s.accRows := rfl
@[simp] theorem State.hold_accCells (s : State) (x : Wait) : (s.hold x).accCells = s.accCells := rfl
@[simp] theorem State.hold_accPoison (s : State) (x : Wait) : (s.hold x).accPoison = s.accPoison := rfl
@[simp] theorem State.hold_cfg (s : State) (x : Wait) : (s.hold x).cfg = s.cfg := rfl
@[simp] theorem State.hold_counts (s : State) (x : Wait) : (s.hold x).counts = s.counts := rfl
@[simp] theorem State.hold_recalls (s : State) (x : Wait) : (s.hold x).recalls = s.recalls := rfl
@[simp] theorem State.hold_reclaims (s : State) (x : Wait) : (s.hold x).reclaims = s.reclaims := rfl
@[simp] theorem State.hold_tlb (s : State) (x : Wait) : (s.hold x).tlb = s.tlb := rfl
@[simp] theorem State.hold_walks (s : State) (x : Wait) : (s.hold x).walks = s.walks := rfl
@[simp] theorem State.hold_idt (s : State) (x : Wait) : (s.hold x).idt = s.idt := rfl
@[simp] theorem State.hold_keys (s : State) (x : Wait) : (s.hold x).keys = s.keys := rfl
@[simp] theorem State.hold_gangs (s : State) (x : Wait) : (s.hold x).gangs = s.gangs := rfl
@[simp] theorem State.hold_launches (s : State) (x : Wait) : (s.hold x).launches = s.launches := rfl
@[simp] theorem State.hold_nodes (s : State) (x : Wait) : (s.hold x).nodes = s.nodes := rfl
@[simp] theorem State.hold_file (s : State) (x : Wait) : (s.hold x).file = s.file := rfl
@[simp] theorem State.hold_fired (s : State) (x : Wait) : (s.hold x).fired = s.fired := rfl
@[simp] theorem State.hold_seqs (s : State) (x : Wait) : (s.hold x).seqs = s.seqs := rfl
@[simp] theorem State.hold_armed (s : State) (x : Wait) : (s.hold x).armed = s.armed := rfl
@[simp] theorem State.hold_caddyQ (s : State) (x : Wait) : (s.hold x).caddyQ = s.caddyQ := rfl
@[simp] theorem State.hold_cmds (s : State) (x : Wait) : (s.hold x).cmds = s.cmds := rfl
@[simp] theorem State.hold_mats (s : State) (x : Wait) : (s.hold x).mats = s.mats := rfl
@[simp] theorem State.hold_prq (s : State) (x : Wait) : (s.hold x).prq = s.prq := rfl
@[simp] theorem State.hold_served (s : State) (x : Wait) : (s.hold x).served = s.served := rfl
@[simp] theorem State.hold_cps (s : State) (x : Wait) : (s.hold x).cps = s.cps := rfl
@[simp] theorem State.hold_invals (s : State) (x : Wait) : (s.hold x).invals = s.invals := rfl
@[simp] theorem State.hold_preempts (s : State) (x : Wait) : (s.hold x).preempts = s.preempts := rfl
@[simp] theorem State.hold_turns (s : State) (x : Wait) : (s.hold x).turns = s.turns := rfl
@[simp] theorem State.hold_slices (s : State) (x : Wait) : (s.hold x).slices = s.slices := rfl
@[simp] theorem State.hold_sights (s : State) (x : Wait) : (s.hold x).sights = s.sights := rfl
@[simp] theorem State.hold_signals (s : State) (x : Wait) : (s.hold x).signals = s.signals := rfl
@[simp] theorem State.hold_waiting (s : State) (x : Wait) : (s.hold x).waiting = s.waiting := rfl
@[simp] theorem State.hold_outgoing (s : State) (x : Wait) : (s.hold x).outgoing = s.outgoing := rfl
@[simp] theorem State.hold_msix (s : State) (x : Wait) : (s.hold x).msix = s.msix := rfl
@[simp] theorem State.hold_tracker (s : State) (x : Wait) : (s.hold x).tracker = s.tracker := rfl
@[simp] theorem State.hold_promoted (s : State) (x : Wait) : (s.hold x).promoted = s.promoted := rfl
@[simp] theorem State.hold_moves (s : State) (x : Wait) : (s.hold x).moves = s.moves := rfl
@[simp] theorem State.hold_shares (s : State) (x : Wait) : (s.hold x).shares = s.shares := rfl
@[simp] theorem State.hold_samples (s : State) (x : Wait) : (s.hold x).samples = s.samples := rfl
@[simp] theorem State.hold_retained (s : State) (x : Wait) : (s.hold x).retained = s.retained := rfl
@[simp] theorem State.hold_down (s : State) (x : Wait) : (s.hold x).down = s.down := rfl
@[simp] theorem State.hold_deadDies (s : State) (x : Wait) : (s.hold x).deadDies = s.deadDies := rfl
@[simp] theorem State.hold_fenced (s : State) (x : Wait) : (s.hold x).fenced = s.fenced := rfl
@[simp] theorem State.hold_flash (s : State) (x : Wait) : (s.hold x).flash = s.flash := rfl

/-! ### setReg -/

@[simp] theorem State.setReg_ctx (s : State) (r : Reg) (v : DWord) : (s.setReg r v).ctx = s.ctx := rfl
@[simp] theorem State.setReg_others (s : State) (r : Reg) (v : DWord) : (s.setReg r v).others = s.others := rfl
@[simp] theorem State.setReg_sched (s : State) (r : Reg) (v : DWord) : (s.setReg r v).sched = s.sched := rfl
@[simp] theorem State.setReg_fresh (s : State) (r : Reg) (v : DWord) : (s.setReg r v).fresh = s.fresh := rfl
@[simp] theorem State.setReg_time (s : State) (r : Reg) (v : DWord) : (s.setReg r v).time = s.time := rfl
@[simp] theorem State.setReg_powered (s : State) (r : Reg) (v : DWord) : (s.setReg r v).powered = s.powered := rfl
@[simp] theorem State.setReg_clock (s : State) (r : Reg) (v : DWord) : (s.setReg r v).clock = s.clock := rfl
@[simp] theorem State.setReg_clockTo (s : State) (r : Reg) (v : DWord) : (s.setReg r v).clockTo = s.clockTo := rfl
@[simp] theorem State.setReg_passMax (s : State) (r : Reg) (v : DWord) : (s.setReg r v).passMax = s.passMax := rfl
@[simp] theorem State.setReg_mem (s : State) (r : Reg) (v : DWord) : (s.setReg r v).mem = s.mem := rfl
@[simp] theorem State.setReg_poison (s : State) (r : Reg) (v : DWord) : (s.setReg r v).poison = s.poison := rfl
@[simp] theorem State.setReg_late (s : State) (r : Reg) (v : DWord) : (s.setReg r v).late = s.late := rfl
@[simp] theorem State.setReg_behind (s : State) (r : Reg) (v : DWord) : (s.setReg r v).behind = s.behind := rfl
@[simp] theorem State.setReg_manner (s : State) (r : Reg) (v : DWord) : (s.setReg r v).manner = s.manner := rfl
@[simp] theorem State.setReg_objUses (s : State) (r : Reg) (v : DWord) : (s.setReg r v).objUses = s.objUses := rfl
@[simp] theorem State.setReg_copies (s : State) (r : Reg) (v : DWord) : (s.setReg r v).copies = s.copies := rfl
@[simp] theorem State.setReg_accRows (s : State) (r : Reg) (v : DWord) : (s.setReg r v).accRows = s.accRows := rfl
@[simp] theorem State.setReg_accCells (s : State) (r : Reg) (v : DWord) : (s.setReg r v).accCells = s.accCells := rfl
@[simp] theorem State.setReg_accPoison (s : State) (r : Reg) (v : DWord) : (s.setReg r v).accPoison = s.accPoison := rfl
@[simp] theorem State.setReg_counts (s : State) (r : Reg) (v : DWord) : (s.setReg r v).counts = s.counts := rfl
@[simp] theorem State.setReg_recalls (s : State) (r : Reg) (v : DWord) : (s.setReg r v).recalls = s.recalls := rfl
@[simp] theorem State.setReg_reclaims (s : State) (r : Reg) (v : DWord) : (s.setReg r v).reclaims = s.reclaims := rfl
@[simp] theorem State.setReg_tlb (s : State) (r : Reg) (v : DWord) : (s.setReg r v).tlb = s.tlb := rfl
@[simp] theorem State.setReg_walks (s : State) (r : Reg) (v : DWord) : (s.setReg r v).walks = s.walks := rfl
@[simp] theorem State.setReg_idt (s : State) (r : Reg) (v : DWord) : (s.setReg r v).idt = s.idt := rfl
@[simp] theorem State.setReg_keys (s : State) (r : Reg) (v : DWord) : (s.setReg r v).keys = s.keys := rfl
@[simp] theorem State.setReg_gangs (s : State) (r : Reg) (v : DWord) : (s.setReg r v).gangs = s.gangs := rfl
@[simp] theorem State.setReg_launches (s : State) (r : Reg) (v : DWord) : (s.setReg r v).launches = s.launches := rfl
@[simp] theorem State.setReg_nodes (s : State) (r : Reg) (v : DWord) : (s.setReg r v).nodes = s.nodes := rfl
@[simp] theorem State.setReg_file (s : State) (r : Reg) (v : DWord) : (s.setReg r v).file = s.file := rfl
@[simp] theorem State.setReg_fired (s : State) (r : Reg) (v : DWord) : (s.setReg r v).fired = s.fired := rfl
@[simp] theorem State.setReg_seqs (s : State) (r : Reg) (v : DWord) : (s.setReg r v).seqs = s.seqs := rfl
@[simp] theorem State.setReg_armed (s : State) (r : Reg) (v : DWord) : (s.setReg r v).armed = s.armed := rfl
@[simp] theorem State.setReg_caddyQ (s : State) (r : Reg) (v : DWord) : (s.setReg r v).caddyQ = s.caddyQ := rfl
@[simp] theorem State.setReg_cmds (s : State) (r : Reg) (v : DWord) : (s.setReg r v).cmds = s.cmds := rfl
@[simp] theorem State.setReg_mats (s : State) (r : Reg) (v : DWord) : (s.setReg r v).mats = s.mats := rfl
@[simp] theorem State.setReg_prq (s : State) (r : Reg) (v : DWord) : (s.setReg r v).prq = s.prq := rfl
@[simp] theorem State.setReg_served (s : State) (r : Reg) (v : DWord) : (s.setReg r v).served = s.served := rfl
@[simp] theorem State.setReg_cps (s : State) (r : Reg) (v : DWord) : (s.setReg r v).cps = s.cps := rfl
@[simp] theorem State.setReg_invals (s : State) (r : Reg) (v : DWord) : (s.setReg r v).invals = s.invals := rfl
@[simp] theorem State.setReg_preempts (s : State) (r : Reg) (v : DWord) : (s.setReg r v).preempts = s.preempts := rfl
@[simp] theorem State.setReg_turns (s : State) (r : Reg) (v : DWord) : (s.setReg r v).turns = s.turns := rfl
@[simp] theorem State.setReg_slices (s : State) (r : Reg) (v : DWord) : (s.setReg r v).slices = s.slices := rfl
@[simp] theorem State.setReg_sights (s : State) (r : Reg) (v : DWord) : (s.setReg r v).sights = s.sights := rfl
@[simp] theorem State.setReg_signals (s : State) (r : Reg) (v : DWord) : (s.setReg r v).signals = s.signals := rfl
@[simp] theorem State.setReg_waiting (s : State) (r : Reg) (v : DWord) : (s.setReg r v).waiting = s.waiting := rfl
@[simp] theorem State.setReg_outgoing (s : State) (r : Reg) (v : DWord) : (s.setReg r v).outgoing = s.outgoing := rfl
@[simp] theorem State.setReg_msix (s : State) (r : Reg) (v : DWord) : (s.setReg r v).msix = s.msix := rfl
@[simp] theorem State.setReg_tracker (s : State) (r : Reg) (v : DWord) : (s.setReg r v).tracker = s.tracker := rfl
@[simp] theorem State.setReg_promoted (s : State) (r : Reg) (v : DWord) : (s.setReg r v).promoted = s.promoted := rfl
@[simp] theorem State.setReg_moves (s : State) (r : Reg) (v : DWord) : (s.setReg r v).moves = s.moves := rfl
@[simp] theorem State.setReg_shares (s : State) (r : Reg) (v : DWord) : (s.setReg r v).shares = s.shares := rfl
@[simp] theorem State.setReg_samples (s : State) (r : Reg) (v : DWord) : (s.setReg r v).samples = s.samples := rfl
@[simp] theorem State.setReg_retained (s : State) (r : Reg) (v : DWord) : (s.setReg r v).retained = s.retained := rfl
@[simp] theorem State.setReg_down (s : State) (r : Reg) (v : DWord) : (s.setReg r v).down = s.down := rfl
@[simp] theorem State.setReg_deadDies (s : State) (r : Reg) (v : DWord) : (s.setReg r v).deadDies = s.deadDies := rfl
@[simp] theorem State.setReg_fenced (s : State) (r : Reg) (v : DWord) : (s.setReg r v).fenced = s.fenced := rfl
@[simp] theorem State.setReg_flash (s : State) (r : Reg) (v : DWord) : (s.setReg r v).flash = s.flash := rfl

/-! ### setRegField -/

@[simp] theorem State.setRegField_ctx (s : State) (r : Reg) (lo n v : Nat) : (s.setRegField r lo n v).ctx = s.ctx := rfl
@[simp] theorem State.setRegField_others (s : State) (r : Reg) (lo n v : Nat) : (s.setRegField r lo n v).others = s.others := rfl
@[simp] theorem State.setRegField_sched (s : State) (r : Reg) (lo n v : Nat) : (s.setRegField r lo n v).sched = s.sched := rfl
@[simp] theorem State.setRegField_fresh (s : State) (r : Reg) (lo n v : Nat) : (s.setRegField r lo n v).fresh = s.fresh := rfl
@[simp] theorem State.setRegField_time (s : State) (r : Reg) (lo n v : Nat) : (s.setRegField r lo n v).time = s.time := rfl
@[simp] theorem State.setRegField_powered (s : State) (r : Reg) (lo n v : Nat) : (s.setRegField r lo n v).powered = s.powered := rfl
@[simp] theorem State.setRegField_clock (s : State) (r : Reg) (lo n v : Nat) : (s.setRegField r lo n v).clock = s.clock := rfl
@[simp] theorem State.setRegField_clockTo (s : State) (r : Reg) (lo n v : Nat) : (s.setRegField r lo n v).clockTo = s.clockTo := rfl
@[simp] theorem State.setRegField_passMax (s : State) (r : Reg) (lo n v : Nat) : (s.setRegField r lo n v).passMax = s.passMax := rfl
@[simp] theorem State.setRegField_mem (s : State) (r : Reg) (lo n v : Nat) : (s.setRegField r lo n v).mem = s.mem := rfl
@[simp] theorem State.setRegField_poison (s : State) (r : Reg) (lo n v : Nat) : (s.setRegField r lo n v).poison = s.poison := rfl
@[simp] theorem State.setRegField_late (s : State) (r : Reg) (lo n v : Nat) : (s.setRegField r lo n v).late = s.late := rfl
@[simp] theorem State.setRegField_behind (s : State) (r : Reg) (lo n v : Nat) : (s.setRegField r lo n v).behind = s.behind := rfl
@[simp] theorem State.setRegField_manner (s : State) (r : Reg) (lo n v : Nat) : (s.setRegField r lo n v).manner = s.manner := rfl
@[simp] theorem State.setRegField_objUses (s : State) (r : Reg) (lo n v : Nat) : (s.setRegField r lo n v).objUses = s.objUses := rfl
@[simp] theorem State.setRegField_copies (s : State) (r : Reg) (lo n v : Nat) : (s.setRegField r lo n v).copies = s.copies := rfl
@[simp] theorem State.setRegField_accRows (s : State) (r : Reg) (lo n v : Nat) : (s.setRegField r lo n v).accRows = s.accRows := rfl
@[simp] theorem State.setRegField_accCells (s : State) (r : Reg) (lo n v : Nat) : (s.setRegField r lo n v).accCells = s.accCells := rfl
@[simp] theorem State.setRegField_accPoison (s : State) (r : Reg) (lo n v : Nat) : (s.setRegField r lo n v).accPoison = s.accPoison := rfl
@[simp] theorem State.setRegField_counts (s : State) (r : Reg) (lo n v : Nat) : (s.setRegField r lo n v).counts = s.counts := rfl
@[simp] theorem State.setRegField_recalls (s : State) (r : Reg) (lo n v : Nat) : (s.setRegField r lo n v).recalls = s.recalls := rfl
@[simp] theorem State.setRegField_reclaims (s : State) (r : Reg) (lo n v : Nat) : (s.setRegField r lo n v).reclaims = s.reclaims := rfl
@[simp] theorem State.setRegField_tlb (s : State) (r : Reg) (lo n v : Nat) : (s.setRegField r lo n v).tlb = s.tlb := rfl
@[simp] theorem State.setRegField_walks (s : State) (r : Reg) (lo n v : Nat) : (s.setRegField r lo n v).walks = s.walks := rfl
@[simp] theorem State.setRegField_idt (s : State) (r : Reg) (lo n v : Nat) : (s.setRegField r lo n v).idt = s.idt := rfl
@[simp] theorem State.setRegField_keys (s : State) (r : Reg) (lo n v : Nat) : (s.setRegField r lo n v).keys = s.keys := rfl
@[simp] theorem State.setRegField_gangs (s : State) (r : Reg) (lo n v : Nat) : (s.setRegField r lo n v).gangs = s.gangs := rfl
@[simp] theorem State.setRegField_launches (s : State) (r : Reg) (lo n v : Nat) : (s.setRegField r lo n v).launches = s.launches := rfl
@[simp] theorem State.setRegField_nodes (s : State) (r : Reg) (lo n v : Nat) : (s.setRegField r lo n v).nodes = s.nodes := rfl
@[simp] theorem State.setRegField_file (s : State) (r : Reg) (lo n v : Nat) : (s.setRegField r lo n v).file = s.file := rfl
@[simp] theorem State.setRegField_fired (s : State) (r : Reg) (lo n v : Nat) : (s.setRegField r lo n v).fired = s.fired := rfl
@[simp] theorem State.setRegField_seqs (s : State) (r : Reg) (lo n v : Nat) : (s.setRegField r lo n v).seqs = s.seqs := rfl
@[simp] theorem State.setRegField_armed (s : State) (r : Reg) (lo n v : Nat) : (s.setRegField r lo n v).armed = s.armed := rfl
@[simp] theorem State.setRegField_caddyQ (s : State) (r : Reg) (lo n v : Nat) : (s.setRegField r lo n v).caddyQ = s.caddyQ := rfl
@[simp] theorem State.setRegField_cmds (s : State) (r : Reg) (lo n v : Nat) : (s.setRegField r lo n v).cmds = s.cmds := rfl
@[simp] theorem State.setRegField_mats (s : State) (r : Reg) (lo n v : Nat) : (s.setRegField r lo n v).mats = s.mats := rfl
@[simp] theorem State.setRegField_prq (s : State) (r : Reg) (lo n v : Nat) : (s.setRegField r lo n v).prq = s.prq := rfl
@[simp] theorem State.setRegField_served (s : State) (r : Reg) (lo n v : Nat) : (s.setRegField r lo n v).served = s.served := rfl
@[simp] theorem State.setRegField_cps (s : State) (r : Reg) (lo n v : Nat) : (s.setRegField r lo n v).cps = s.cps := rfl
@[simp] theorem State.setRegField_invals (s : State) (r : Reg) (lo n v : Nat) : (s.setRegField r lo n v).invals = s.invals := rfl
@[simp] theorem State.setRegField_preempts (s : State) (r : Reg) (lo n v : Nat) : (s.setRegField r lo n v).preempts = s.preempts := rfl
@[simp] theorem State.setRegField_turns (s : State) (r : Reg) (lo n v : Nat) : (s.setRegField r lo n v).turns = s.turns := rfl
@[simp] theorem State.setRegField_slices (s : State) (r : Reg) (lo n v : Nat) : (s.setRegField r lo n v).slices = s.slices := rfl
@[simp] theorem State.setRegField_sights (s : State) (r : Reg) (lo n v : Nat) : (s.setRegField r lo n v).sights = s.sights := rfl
@[simp] theorem State.setRegField_signals (s : State) (r : Reg) (lo n v : Nat) : (s.setRegField r lo n v).signals = s.signals := rfl
@[simp] theorem State.setRegField_waiting (s : State) (r : Reg) (lo n v : Nat) : (s.setRegField r lo n v).waiting = s.waiting := rfl
@[simp] theorem State.setRegField_outgoing (s : State) (r : Reg) (lo n v : Nat) : (s.setRegField r lo n v).outgoing = s.outgoing := rfl
@[simp] theorem State.setRegField_msix (s : State) (r : Reg) (lo n v : Nat) : (s.setRegField r lo n v).msix = s.msix := rfl
@[simp] theorem State.setRegField_tracker (s : State) (r : Reg) (lo n v : Nat) : (s.setRegField r lo n v).tracker = s.tracker := rfl
@[simp] theorem State.setRegField_promoted (s : State) (r : Reg) (lo n v : Nat) : (s.setRegField r lo n v).promoted = s.promoted := rfl
@[simp] theorem State.setRegField_moves (s : State) (r : Reg) (lo n v : Nat) : (s.setRegField r lo n v).moves = s.moves := rfl
@[simp] theorem State.setRegField_shares (s : State) (r : Reg) (lo n v : Nat) : (s.setRegField r lo n v).shares = s.shares := rfl
@[simp] theorem State.setRegField_samples (s : State) (r : Reg) (lo n v : Nat) : (s.setRegField r lo n v).samples = s.samples := rfl
@[simp] theorem State.setRegField_retained (s : State) (r : Reg) (lo n v : Nat) : (s.setRegField r lo n v).retained = s.retained := rfl
@[simp] theorem State.setRegField_down (s : State) (r : Reg) (lo n v : Nat) : (s.setRegField r lo n v).down = s.down := rfl
@[simp] theorem State.setRegField_deadDies (s : State) (r : Reg) (lo n v : Nat) : (s.setRegField r lo n v).deadDies = s.deadDies := rfl
@[simp] theorem State.setRegField_fenced (s : State) (r : Reg) (lo n v : Nat) : (s.setRegField r lo n v).fenced = s.fenced := rfl
@[simp] theorem State.setRegField_flash (s : State) (r : Reg) (lo n v : Nat) : (s.setRegField r lo n v).flash = s.flash := rfl

/-! ### raiseMsix -/

@[simp] theorem State.raiseMsix_ctx (s : State) (f v : Nat) : (s.raiseMsix f v).ctx = s.ctx := rfl
@[simp] theorem State.raiseMsix_others (s : State) (f v : Nat) : (s.raiseMsix f v).others = s.others := rfl
@[simp] theorem State.raiseMsix_sched (s : State) (f v : Nat) : (s.raiseMsix f v).sched = s.sched := rfl
@[simp] theorem State.raiseMsix_fresh (s : State) (f v : Nat) : (s.raiseMsix f v).fresh = s.fresh := rfl
@[simp] theorem State.raiseMsix_time (s : State) (f v : Nat) : (s.raiseMsix f v).time = s.time := rfl
@[simp] theorem State.raiseMsix_powered (s : State) (f v : Nat) : (s.raiseMsix f v).powered = s.powered := rfl
@[simp] theorem State.raiseMsix_clock (s : State) (f v : Nat) : (s.raiseMsix f v).clock = s.clock := rfl
@[simp] theorem State.raiseMsix_clockTo (s : State) (f v : Nat) : (s.raiseMsix f v).clockTo = s.clockTo := rfl
@[simp] theorem State.raiseMsix_passMax (s : State) (f v : Nat) : (s.raiseMsix f v).passMax = s.passMax := rfl
@[simp] theorem State.raiseMsix_mem (s : State) (f v : Nat) : (s.raiseMsix f v).mem = s.mem := rfl
@[simp] theorem State.raiseMsix_poison (s : State) (f v : Nat) : (s.raiseMsix f v).poison = s.poison := rfl
@[simp] theorem State.raiseMsix_late (s : State) (f v : Nat) : (s.raiseMsix f v).late = s.late := rfl
@[simp] theorem State.raiseMsix_behind (s : State) (f v : Nat) : (s.raiseMsix f v).behind = s.behind := rfl
@[simp] theorem State.raiseMsix_manner (s : State) (f v : Nat) : (s.raiseMsix f v).manner = s.manner := rfl
@[simp] theorem State.raiseMsix_objUses (s : State) (f v : Nat) : (s.raiseMsix f v).objUses = s.objUses := rfl
@[simp] theorem State.raiseMsix_copies (s : State) (f v : Nat) : (s.raiseMsix f v).copies = s.copies := rfl
@[simp] theorem State.raiseMsix_accRows (s : State) (f v : Nat) : (s.raiseMsix f v).accRows = s.accRows := rfl
@[simp] theorem State.raiseMsix_accCells (s : State) (f v : Nat) : (s.raiseMsix f v).accCells = s.accCells := rfl
@[simp] theorem State.raiseMsix_accPoison (s : State) (f v : Nat) : (s.raiseMsix f v).accPoison = s.accPoison := rfl
@[simp] theorem State.raiseMsix_cfg (s : State) (f v : Nat) : (s.raiseMsix f v).cfg = s.cfg := rfl
@[simp] theorem State.raiseMsix_counts (s : State) (f v : Nat) : (s.raiseMsix f v).counts = s.counts := rfl
@[simp] theorem State.raiseMsix_recalls (s : State) (f v : Nat) : (s.raiseMsix f v).recalls = s.recalls := rfl
@[simp] theorem State.raiseMsix_reclaims (s : State) (f v : Nat) : (s.raiseMsix f v).reclaims = s.reclaims := rfl
@[simp] theorem State.raiseMsix_tlb (s : State) (f v : Nat) : (s.raiseMsix f v).tlb = s.tlb := rfl
@[simp] theorem State.raiseMsix_walks (s : State) (f v : Nat) : (s.raiseMsix f v).walks = s.walks := rfl
@[simp] theorem State.raiseMsix_idt (s : State) (f v : Nat) : (s.raiseMsix f v).idt = s.idt := rfl
@[simp] theorem State.raiseMsix_keys (s : State) (f v : Nat) : (s.raiseMsix f v).keys = s.keys := rfl
@[simp] theorem State.raiseMsix_gangs (s : State) (f v : Nat) : (s.raiseMsix f v).gangs = s.gangs := rfl
@[simp] theorem State.raiseMsix_launches (s : State) (f v : Nat) : (s.raiseMsix f v).launches = s.launches := rfl
@[simp] theorem State.raiseMsix_nodes (s : State) (f v : Nat) : (s.raiseMsix f v).nodes = s.nodes := rfl
@[simp] theorem State.raiseMsix_file (s : State) (f v : Nat) : (s.raiseMsix f v).file = s.file := rfl
@[simp] theorem State.raiseMsix_fired (s : State) (f v : Nat) : (s.raiseMsix f v).fired = s.fired := rfl
@[simp] theorem State.raiseMsix_seqs (s : State) (f v : Nat) : (s.raiseMsix f v).seqs = s.seqs := rfl
@[simp] theorem State.raiseMsix_armed (s : State) (f v : Nat) : (s.raiseMsix f v).armed = s.armed := rfl
@[simp] theorem State.raiseMsix_caddyQ (s : State) (f v : Nat) : (s.raiseMsix f v).caddyQ = s.caddyQ := rfl
@[simp] theorem State.raiseMsix_cmds (s : State) (f v : Nat) : (s.raiseMsix f v).cmds = s.cmds := rfl
@[simp] theorem State.raiseMsix_mats (s : State) (f v : Nat) : (s.raiseMsix f v).mats = s.mats := rfl
@[simp] theorem State.raiseMsix_prq (s : State) (f v : Nat) : (s.raiseMsix f v).prq = s.prq := rfl
@[simp] theorem State.raiseMsix_served (s : State) (f v : Nat) : (s.raiseMsix f v).served = s.served := rfl
@[simp] theorem State.raiseMsix_cps (s : State) (f v : Nat) : (s.raiseMsix f v).cps = s.cps := rfl
@[simp] theorem State.raiseMsix_invals (s : State) (f v : Nat) : (s.raiseMsix f v).invals = s.invals := rfl
@[simp] theorem State.raiseMsix_preempts (s : State) (f v : Nat) : (s.raiseMsix f v).preempts = s.preempts := rfl
@[simp] theorem State.raiseMsix_turns (s : State) (f v : Nat) : (s.raiseMsix f v).turns = s.turns := rfl
@[simp] theorem State.raiseMsix_slices (s : State) (f v : Nat) : (s.raiseMsix f v).slices = s.slices := rfl
@[simp] theorem State.raiseMsix_sights (s : State) (f v : Nat) : (s.raiseMsix f v).sights = s.sights := rfl
@[simp] theorem State.raiseMsix_signals (s : State) (f v : Nat) : (s.raiseMsix f v).signals = s.signals := rfl
@[simp] theorem State.raiseMsix_waiting (s : State) (f v : Nat) : (s.raiseMsix f v).waiting = s.waiting := rfl
@[simp] theorem State.raiseMsix_outgoing (s : State) (f v : Nat) : (s.raiseMsix f v).outgoing = s.outgoing := rfl
@[simp] theorem State.raiseMsix_tracker (s : State) (f v : Nat) : (s.raiseMsix f v).tracker = s.tracker := rfl
@[simp] theorem State.raiseMsix_promoted (s : State) (f v : Nat) : (s.raiseMsix f v).promoted = s.promoted := rfl
@[simp] theorem State.raiseMsix_moves (s : State) (f v : Nat) : (s.raiseMsix f v).moves = s.moves := rfl
@[simp] theorem State.raiseMsix_shares (s : State) (f v : Nat) : (s.raiseMsix f v).shares = s.shares := rfl
@[simp] theorem State.raiseMsix_samples (s : State) (f v : Nat) : (s.raiseMsix f v).samples = s.samples := rfl
@[simp] theorem State.raiseMsix_retained (s : State) (f v : Nat) : (s.raiseMsix f v).retained = s.retained := rfl
@[simp] theorem State.raiseMsix_down (s : State) (f v : Nat) : (s.raiseMsix f v).down = s.down := rfl
@[simp] theorem State.raiseMsix_deadDies (s : State) (f v : Nat) : (s.raiseMsix f v).deadDies = s.deadDies := rfl
@[simp] theorem State.raiseMsix_fenced (s : State) (f v : Nat) : (s.raiseMsix f v).fenced = s.fenced := rfl
@[simp] theorem State.raiseMsix_flash (s : State) (f v : Nat) : (s.raiseMsix f v).flash = s.flash := rfl

/-! ### tick -/

@[simp] theorem State.tick_ctx (s : State) : (s.tick).ctx = s.ctx := rfl
@[simp] theorem State.tick_others (s : State) : (s.tick).others = s.others := rfl
@[simp] theorem State.tick_sched (s : State) : (s.tick).sched = s.sched := rfl
@[simp] theorem State.tick_time (s : State) : (s.tick).time = s.time := rfl
@[simp] theorem State.tick_powered (s : State) : (s.tick).powered = s.powered := rfl
@[simp] theorem State.tick_clock (s : State) : (s.tick).clock = s.clock := rfl
@[simp] theorem State.tick_clockTo (s : State) : (s.tick).clockTo = s.clockTo := rfl
@[simp] theorem State.tick_passMax (s : State) : (s.tick).passMax = s.passMax := rfl
@[simp] theorem State.tick_mem (s : State) : (s.tick).mem = s.mem := rfl
@[simp] theorem State.tick_poison (s : State) : (s.tick).poison = s.poison := rfl
@[simp] theorem State.tick_late (s : State) : (s.tick).late = s.late := rfl
@[simp] theorem State.tick_behind (s : State) : (s.tick).behind = s.behind := rfl
@[simp] theorem State.tick_manner (s : State) : (s.tick).manner = s.manner := rfl
@[simp] theorem State.tick_objUses (s : State) : (s.tick).objUses = s.objUses := rfl
@[simp] theorem State.tick_copies (s : State) : (s.tick).copies = s.copies := rfl
@[simp] theorem State.tick_accRows (s : State) : (s.tick).accRows = s.accRows := rfl
@[simp] theorem State.tick_accCells (s : State) : (s.tick).accCells = s.accCells := rfl
@[simp] theorem State.tick_accPoison (s : State) : (s.tick).accPoison = s.accPoison := rfl
@[simp] theorem State.tick_cfg (s : State) : (s.tick).cfg = s.cfg := rfl
@[simp] theorem State.tick_counts (s : State) : (s.tick).counts = s.counts := rfl
@[simp] theorem State.tick_recalls (s : State) : (s.tick).recalls = s.recalls := rfl
@[simp] theorem State.tick_reclaims (s : State) : (s.tick).reclaims = s.reclaims := rfl
@[simp] theorem State.tick_tlb (s : State) : (s.tick).tlb = s.tlb := rfl
@[simp] theorem State.tick_walks (s : State) : (s.tick).walks = s.walks := rfl
@[simp] theorem State.tick_idt (s : State) : (s.tick).idt = s.idt := rfl
@[simp] theorem State.tick_keys (s : State) : (s.tick).keys = s.keys := rfl
@[simp] theorem State.tick_gangs (s : State) : (s.tick).gangs = s.gangs := rfl
@[simp] theorem State.tick_launches (s : State) : (s.tick).launches = s.launches := rfl
@[simp] theorem State.tick_nodes (s : State) : (s.tick).nodes = s.nodes := rfl
@[simp] theorem State.tick_file (s : State) : (s.tick).file = s.file := rfl
@[simp] theorem State.tick_fired (s : State) : (s.tick).fired = s.fired := rfl
@[simp] theorem State.tick_seqs (s : State) : (s.tick).seqs = s.seqs := rfl
@[simp] theorem State.tick_armed (s : State) : (s.tick).armed = s.armed := rfl
@[simp] theorem State.tick_caddyQ (s : State) : (s.tick).caddyQ = s.caddyQ := rfl
@[simp] theorem State.tick_cmds (s : State) : (s.tick).cmds = s.cmds := rfl
@[simp] theorem State.tick_mats (s : State) : (s.tick).mats = s.mats := rfl
@[simp] theorem State.tick_prq (s : State) : (s.tick).prq = s.prq := rfl
@[simp] theorem State.tick_served (s : State) : (s.tick).served = s.served := rfl
@[simp] theorem State.tick_cps (s : State) : (s.tick).cps = s.cps := rfl
@[simp] theorem State.tick_invals (s : State) : (s.tick).invals = s.invals := rfl
@[simp] theorem State.tick_preempts (s : State) : (s.tick).preempts = s.preempts := rfl
@[simp] theorem State.tick_turns (s : State) : (s.tick).turns = s.turns := rfl
@[simp] theorem State.tick_slices (s : State) : (s.tick).slices = s.slices := rfl
@[simp] theorem State.tick_sights (s : State) : (s.tick).sights = s.sights := rfl
@[simp] theorem State.tick_signals (s : State) : (s.tick).signals = s.signals := rfl
@[simp] theorem State.tick_waiting (s : State) : (s.tick).waiting = s.waiting := rfl
@[simp] theorem State.tick_outgoing (s : State) : (s.tick).outgoing = s.outgoing := rfl
@[simp] theorem State.tick_msix (s : State) : (s.tick).msix = s.msix := rfl
@[simp] theorem State.tick_tracker (s : State) : (s.tick).tracker = s.tracker := rfl
@[simp] theorem State.tick_promoted (s : State) : (s.tick).promoted = s.promoted := rfl
@[simp] theorem State.tick_moves (s : State) : (s.tick).moves = s.moves := rfl
@[simp] theorem State.tick_shares (s : State) : (s.tick).shares = s.shares := rfl
@[simp] theorem State.tick_samples (s : State) : (s.tick).samples = s.samples := rfl
@[simp] theorem State.tick_retained (s : State) : (s.tick).retained = s.retained := rfl
@[simp] theorem State.tick_down (s : State) : (s.tick).down = s.down := rfl
@[simp] theorem State.tick_deadDies (s : State) : (s.tick).deadDies = s.deadDies := rfl
@[simp] theorem State.tick_fenced (s : State) : (s.tick).fenced = s.fenced := rfl
@[simp] theorem State.tick_flash (s : State) : (s.tick).flash = s.flash := rfl

/-! ### modLaunch -/

@[simp] theorem State.modLaunch_ctx (s : State) (i : Nat) (f : Launch → Launch) : (s.modLaunch i f).ctx = s.ctx := rfl
@[simp] theorem State.modLaunch_others (s : State) (i : Nat) (f : Launch → Launch) : (s.modLaunch i f).others = s.others := rfl
@[simp] theorem State.modLaunch_sched (s : State) (i : Nat) (f : Launch → Launch) : (s.modLaunch i f).sched = s.sched := rfl
@[simp] theorem State.modLaunch_fresh (s : State) (i : Nat) (f : Launch → Launch) : (s.modLaunch i f).fresh = s.fresh := rfl
@[simp] theorem State.modLaunch_time (s : State) (i : Nat) (f : Launch → Launch) : (s.modLaunch i f).time = s.time := rfl
@[simp] theorem State.modLaunch_powered (s : State) (i : Nat) (f : Launch → Launch) : (s.modLaunch i f).powered = s.powered := rfl
@[simp] theorem State.modLaunch_clock (s : State) (i : Nat) (f : Launch → Launch) : (s.modLaunch i f).clock = s.clock := rfl
@[simp] theorem State.modLaunch_clockTo (s : State) (i : Nat) (f : Launch → Launch) : (s.modLaunch i f).clockTo = s.clockTo := rfl
@[simp] theorem State.modLaunch_passMax (s : State) (i : Nat) (f : Launch → Launch) : (s.modLaunch i f).passMax = s.passMax := rfl
@[simp] theorem State.modLaunch_mem (s : State) (i : Nat) (f : Launch → Launch) : (s.modLaunch i f).mem = s.mem := rfl
@[simp] theorem State.modLaunch_poison (s : State) (i : Nat) (f : Launch → Launch) : (s.modLaunch i f).poison = s.poison := rfl
@[simp] theorem State.modLaunch_late (s : State) (i : Nat) (f : Launch → Launch) : (s.modLaunch i f).late = s.late := rfl
@[simp] theorem State.modLaunch_behind (s : State) (i : Nat) (f : Launch → Launch) : (s.modLaunch i f).behind = s.behind := rfl
@[simp] theorem State.modLaunch_manner (s : State) (i : Nat) (f : Launch → Launch) : (s.modLaunch i f).manner = s.manner := rfl
@[simp] theorem State.modLaunch_objUses (s : State) (i : Nat) (f : Launch → Launch) : (s.modLaunch i f).objUses = s.objUses := rfl
@[simp] theorem State.modLaunch_copies (s : State) (i : Nat) (f : Launch → Launch) : (s.modLaunch i f).copies = s.copies := rfl
@[simp] theorem State.modLaunch_accRows (s : State) (i : Nat) (f : Launch → Launch) : (s.modLaunch i f).accRows = s.accRows := rfl
@[simp] theorem State.modLaunch_accCells (s : State) (i : Nat) (f : Launch → Launch) : (s.modLaunch i f).accCells = s.accCells := rfl
@[simp] theorem State.modLaunch_accPoison (s : State) (i : Nat) (f : Launch → Launch) : (s.modLaunch i f).accPoison = s.accPoison := rfl
@[simp] theorem State.modLaunch_cfg (s : State) (i : Nat) (f : Launch → Launch) : (s.modLaunch i f).cfg = s.cfg := rfl
@[simp] theorem State.modLaunch_counts (s : State) (i : Nat) (f : Launch → Launch) : (s.modLaunch i f).counts = s.counts := rfl
@[simp] theorem State.modLaunch_recalls (s : State) (i : Nat) (f : Launch → Launch) : (s.modLaunch i f).recalls = s.recalls := rfl
@[simp] theorem State.modLaunch_reclaims (s : State) (i : Nat) (f : Launch → Launch) : (s.modLaunch i f).reclaims = s.reclaims := rfl
@[simp] theorem State.modLaunch_tlb (s : State) (i : Nat) (f : Launch → Launch) : (s.modLaunch i f).tlb = s.tlb := rfl
@[simp] theorem State.modLaunch_walks (s : State) (i : Nat) (f : Launch → Launch) : (s.modLaunch i f).walks = s.walks := rfl
@[simp] theorem State.modLaunch_idt (s : State) (i : Nat) (f : Launch → Launch) : (s.modLaunch i f).idt = s.idt := rfl
@[simp] theorem State.modLaunch_keys (s : State) (i : Nat) (f : Launch → Launch) : (s.modLaunch i f).keys = s.keys := rfl
@[simp] theorem State.modLaunch_gangs (s : State) (i : Nat) (f : Launch → Launch) : (s.modLaunch i f).gangs = s.gangs := rfl
@[simp] theorem State.modLaunch_nodes (s : State) (i : Nat) (f : Launch → Launch) : (s.modLaunch i f).nodes = s.nodes := rfl
@[simp] theorem State.modLaunch_file (s : State) (i : Nat) (f : Launch → Launch) : (s.modLaunch i f).file = s.file := rfl
@[simp] theorem State.modLaunch_fired (s : State) (i : Nat) (f : Launch → Launch) : (s.modLaunch i f).fired = s.fired := rfl
@[simp] theorem State.modLaunch_seqs (s : State) (i : Nat) (f : Launch → Launch) : (s.modLaunch i f).seqs = s.seqs := rfl
@[simp] theorem State.modLaunch_armed (s : State) (i : Nat) (f : Launch → Launch) : (s.modLaunch i f).armed = s.armed := rfl
@[simp] theorem State.modLaunch_caddyQ (s : State) (i : Nat) (f : Launch → Launch) : (s.modLaunch i f).caddyQ = s.caddyQ := rfl
@[simp] theorem State.modLaunch_cmds (s : State) (i : Nat) (f : Launch → Launch) : (s.modLaunch i f).cmds = s.cmds := rfl
@[simp] theorem State.modLaunch_mats (s : State) (i : Nat) (f : Launch → Launch) : (s.modLaunch i f).mats = s.mats := rfl
@[simp] theorem State.modLaunch_prq (s : State) (i : Nat) (f : Launch → Launch) : (s.modLaunch i f).prq = s.prq := rfl
@[simp] theorem State.modLaunch_served (s : State) (i : Nat) (f : Launch → Launch) : (s.modLaunch i f).served = s.served := rfl
@[simp] theorem State.modLaunch_cps (s : State) (i : Nat) (f : Launch → Launch) : (s.modLaunch i f).cps = s.cps := rfl
@[simp] theorem State.modLaunch_invals (s : State) (i : Nat) (f : Launch → Launch) : (s.modLaunch i f).invals = s.invals := rfl
@[simp] theorem State.modLaunch_preempts (s : State) (i : Nat) (f : Launch → Launch) : (s.modLaunch i f).preempts = s.preempts := rfl
@[simp] theorem State.modLaunch_turns (s : State) (i : Nat) (f : Launch → Launch) : (s.modLaunch i f).turns = s.turns := rfl
@[simp] theorem State.modLaunch_slices (s : State) (i : Nat) (f : Launch → Launch) : (s.modLaunch i f).slices = s.slices := rfl
@[simp] theorem State.modLaunch_sights (s : State) (i : Nat) (f : Launch → Launch) : (s.modLaunch i f).sights = s.sights := rfl
@[simp] theorem State.modLaunch_signals (s : State) (i : Nat) (f : Launch → Launch) : (s.modLaunch i f).signals = s.signals := rfl
@[simp] theorem State.modLaunch_waiting (s : State) (i : Nat) (f : Launch → Launch) : (s.modLaunch i f).waiting = s.waiting := rfl
@[simp] theorem State.modLaunch_outgoing (s : State) (i : Nat) (f : Launch → Launch) : (s.modLaunch i f).outgoing = s.outgoing := rfl
@[simp] theorem State.modLaunch_msix (s : State) (i : Nat) (f : Launch → Launch) : (s.modLaunch i f).msix = s.msix := rfl
@[simp] theorem State.modLaunch_tracker (s : State) (i : Nat) (f : Launch → Launch) : (s.modLaunch i f).tracker = s.tracker := rfl
@[simp] theorem State.modLaunch_promoted (s : State) (i : Nat) (f : Launch → Launch) : (s.modLaunch i f).promoted = s.promoted := rfl
@[simp] theorem State.modLaunch_moves (s : State) (i : Nat) (f : Launch → Launch) : (s.modLaunch i f).moves = s.moves := rfl
@[simp] theorem State.modLaunch_shares (s : State) (i : Nat) (f : Launch → Launch) : (s.modLaunch i f).shares = s.shares := rfl
@[simp] theorem State.modLaunch_samples (s : State) (i : Nat) (f : Launch → Launch) : (s.modLaunch i f).samples = s.samples := rfl
@[simp] theorem State.modLaunch_retained (s : State) (i : Nat) (f : Launch → Launch) : (s.modLaunch i f).retained = s.retained := rfl
@[simp] theorem State.modLaunch_down (s : State) (i : Nat) (f : Launch → Launch) : (s.modLaunch i f).down = s.down := rfl
@[simp] theorem State.modLaunch_deadDies (s : State) (i : Nat) (f : Launch → Launch) : (s.modLaunch i f).deadDies = s.deadDies := rfl
@[simp] theorem State.modLaunch_fenced (s : State) (i : Nat) (f : Launch → Launch) : (s.modLaunch i f).fenced = s.fenced := rfl
@[simp] theorem State.modLaunch_flash (s : State) (i : Nat) (f : Launch → Launch) : (s.modLaunch i f).flash = s.flash := rfl

/-! ### modGang -/

@[simp] theorem State.modGang_ctx (s : State) (i j : Nat) (f : Gang → Gang) : (s.modGang i j f).ctx = s.ctx := rfl
@[simp] theorem State.modGang_others (s : State) (i j : Nat) (f : Gang → Gang) : (s.modGang i j f).others = s.others := rfl
@[simp] theorem State.modGang_sched (s : State) (i j : Nat) (f : Gang → Gang) : (s.modGang i j f).sched = s.sched := rfl
@[simp] theorem State.modGang_fresh (s : State) (i j : Nat) (f : Gang → Gang) : (s.modGang i j f).fresh = s.fresh := rfl
@[simp] theorem State.modGang_time (s : State) (i j : Nat) (f : Gang → Gang) : (s.modGang i j f).time = s.time := rfl
@[simp] theorem State.modGang_powered (s : State) (i j : Nat) (f : Gang → Gang) : (s.modGang i j f).powered = s.powered := rfl
@[simp] theorem State.modGang_clock (s : State) (i j : Nat) (f : Gang → Gang) : (s.modGang i j f).clock = s.clock := rfl
@[simp] theorem State.modGang_clockTo (s : State) (i j : Nat) (f : Gang → Gang) : (s.modGang i j f).clockTo = s.clockTo := rfl
@[simp] theorem State.modGang_passMax (s : State) (i j : Nat) (f : Gang → Gang) : (s.modGang i j f).passMax = s.passMax := rfl
@[simp] theorem State.modGang_mem (s : State) (i j : Nat) (f : Gang → Gang) : (s.modGang i j f).mem = s.mem := rfl
@[simp] theorem State.modGang_poison (s : State) (i j : Nat) (f : Gang → Gang) : (s.modGang i j f).poison = s.poison := rfl
@[simp] theorem State.modGang_late (s : State) (i j : Nat) (f : Gang → Gang) : (s.modGang i j f).late = s.late := rfl
@[simp] theorem State.modGang_behind (s : State) (i j : Nat) (f : Gang → Gang) : (s.modGang i j f).behind = s.behind := rfl
@[simp] theorem State.modGang_manner (s : State) (i j : Nat) (f : Gang → Gang) : (s.modGang i j f).manner = s.manner := rfl
@[simp] theorem State.modGang_objUses (s : State) (i j : Nat) (f : Gang → Gang) : (s.modGang i j f).objUses = s.objUses := rfl
@[simp] theorem State.modGang_copies (s : State) (i j : Nat) (f : Gang → Gang) : (s.modGang i j f).copies = s.copies := rfl
@[simp] theorem State.modGang_accRows (s : State) (i j : Nat) (f : Gang → Gang) : (s.modGang i j f).accRows = s.accRows := rfl
@[simp] theorem State.modGang_accCells (s : State) (i j : Nat) (f : Gang → Gang) : (s.modGang i j f).accCells = s.accCells := rfl
@[simp] theorem State.modGang_accPoison (s : State) (i j : Nat) (f : Gang → Gang) : (s.modGang i j f).accPoison = s.accPoison := rfl
@[simp] theorem State.modGang_cfg (s : State) (i j : Nat) (f : Gang → Gang) : (s.modGang i j f).cfg = s.cfg := rfl
@[simp] theorem State.modGang_counts (s : State) (i j : Nat) (f : Gang → Gang) : (s.modGang i j f).counts = s.counts := rfl
@[simp] theorem State.modGang_recalls (s : State) (i j : Nat) (f : Gang → Gang) : (s.modGang i j f).recalls = s.recalls := rfl
@[simp] theorem State.modGang_reclaims (s : State) (i j : Nat) (f : Gang → Gang) : (s.modGang i j f).reclaims = s.reclaims := rfl
@[simp] theorem State.modGang_tlb (s : State) (i j : Nat) (f : Gang → Gang) : (s.modGang i j f).tlb = s.tlb := rfl
@[simp] theorem State.modGang_walks (s : State) (i j : Nat) (f : Gang → Gang) : (s.modGang i j f).walks = s.walks := rfl
@[simp] theorem State.modGang_idt (s : State) (i j : Nat) (f : Gang → Gang) : (s.modGang i j f).idt = s.idt := rfl
@[simp] theorem State.modGang_keys (s : State) (i j : Nat) (f : Gang → Gang) : (s.modGang i j f).keys = s.keys := rfl
@[simp] theorem State.modGang_launches (s : State) (i j : Nat) (f : Gang → Gang) : (s.modGang i j f).launches = s.launches := rfl
@[simp] theorem State.modGang_nodes (s : State) (i j : Nat) (f : Gang → Gang) : (s.modGang i j f).nodes = s.nodes := rfl
@[simp] theorem State.modGang_file (s : State) (i j : Nat) (f : Gang → Gang) : (s.modGang i j f).file = s.file := rfl
@[simp] theorem State.modGang_fired (s : State) (i j : Nat) (f : Gang → Gang) : (s.modGang i j f).fired = s.fired := rfl
@[simp] theorem State.modGang_seqs (s : State) (i j : Nat) (f : Gang → Gang) : (s.modGang i j f).seqs = s.seqs := rfl
@[simp] theorem State.modGang_armed (s : State) (i j : Nat) (f : Gang → Gang) : (s.modGang i j f).armed = s.armed := rfl
@[simp] theorem State.modGang_caddyQ (s : State) (i j : Nat) (f : Gang → Gang) : (s.modGang i j f).caddyQ = s.caddyQ := rfl
@[simp] theorem State.modGang_cmds (s : State) (i j : Nat) (f : Gang → Gang) : (s.modGang i j f).cmds = s.cmds := rfl
@[simp] theorem State.modGang_mats (s : State) (i j : Nat) (f : Gang → Gang) : (s.modGang i j f).mats = s.mats := rfl
@[simp] theorem State.modGang_prq (s : State) (i j : Nat) (f : Gang → Gang) : (s.modGang i j f).prq = s.prq := rfl
@[simp] theorem State.modGang_served (s : State) (i j : Nat) (f : Gang → Gang) : (s.modGang i j f).served = s.served := rfl
@[simp] theorem State.modGang_cps (s : State) (i j : Nat) (f : Gang → Gang) : (s.modGang i j f).cps = s.cps := rfl
@[simp] theorem State.modGang_invals (s : State) (i j : Nat) (f : Gang → Gang) : (s.modGang i j f).invals = s.invals := rfl
@[simp] theorem State.modGang_preempts (s : State) (i j : Nat) (f : Gang → Gang) : (s.modGang i j f).preempts = s.preempts := rfl
@[simp] theorem State.modGang_turns (s : State) (i j : Nat) (f : Gang → Gang) : (s.modGang i j f).turns = s.turns := rfl
@[simp] theorem State.modGang_slices (s : State) (i j : Nat) (f : Gang → Gang) : (s.modGang i j f).slices = s.slices := rfl
@[simp] theorem State.modGang_sights (s : State) (i j : Nat) (f : Gang → Gang) : (s.modGang i j f).sights = s.sights := rfl
@[simp] theorem State.modGang_signals (s : State) (i j : Nat) (f : Gang → Gang) : (s.modGang i j f).signals = s.signals := rfl
@[simp] theorem State.modGang_waiting (s : State) (i j : Nat) (f : Gang → Gang) : (s.modGang i j f).waiting = s.waiting := rfl
@[simp] theorem State.modGang_outgoing (s : State) (i j : Nat) (f : Gang → Gang) : (s.modGang i j f).outgoing = s.outgoing := rfl
@[simp] theorem State.modGang_msix (s : State) (i j : Nat) (f : Gang → Gang) : (s.modGang i j f).msix = s.msix := rfl
@[simp] theorem State.modGang_tracker (s : State) (i j : Nat) (f : Gang → Gang) : (s.modGang i j f).tracker = s.tracker := rfl
@[simp] theorem State.modGang_promoted (s : State) (i j : Nat) (f : Gang → Gang) : (s.modGang i j f).promoted = s.promoted := rfl
@[simp] theorem State.modGang_moves (s : State) (i j : Nat) (f : Gang → Gang) : (s.modGang i j f).moves = s.moves := rfl
@[simp] theorem State.modGang_shares (s : State) (i j : Nat) (f : Gang → Gang) : (s.modGang i j f).shares = s.shares := rfl
@[simp] theorem State.modGang_samples (s : State) (i j : Nat) (f : Gang → Gang) : (s.modGang i j f).samples = s.samples := rfl
@[simp] theorem State.modGang_retained (s : State) (i j : Nat) (f : Gang → Gang) : (s.modGang i j f).retained = s.retained := rfl
@[simp] theorem State.modGang_down (s : State) (i j : Nat) (f : Gang → Gang) : (s.modGang i j f).down = s.down := rfl
@[simp] theorem State.modGang_deadDies (s : State) (i j : Nat) (f : Gang → Gang) : (s.modGang i j f).deadDies = s.deadDies := rfl
@[simp] theorem State.modGang_fenced (s : State) (i j : Nat) (f : Gang → Gang) : (s.modGang i j f).fenced = s.fenced := rfl
@[simp] theorem State.modGang_flash (s : State) (i j : Nat) (f : Gang → Gang) : (s.modGang i j f).flash = s.flash := rfl

/-! ### What they set -/

@[simp] theorem State.mapCtx_ctx (s : State) (f : Watch → Watch) : (s.mapCtx f).ctx = f s.ctx := rfl
@[simp] theorem State.setPc_ctx (s : State) (pc : DWord) :
    (s.setPc pc).ctx = { s.ctx with sp := { s.ctx.sp with pc := pc, wait := .none } } := rfl
@[simp] theorem State.advance_ctx (s : State) (n : Nat) :
    (s.advance n).ctx = { s.ctx with sp := { s.ctx.sp with pc := s.ctx.sp.pc + BitVec.ofNat 64 n, wait := .none } } := rfl
@[simp] theorem State.hold_ctx (s : State) (x : Wait) :
    (s.hold x).ctx = { s.ctx with sp := { s.ctx.sp with wait := x } } := rfl
@[simp] theorem State.raiseMsix_msix (s : State) (f v : Nat) : (s.raiseMsix f v).msix = (f, v) :: s.msix := rfl
@[simp] theorem State.tick_fresh (s : State) : s.tick.fresh = s.fresh + 1 := rfl

theorem getKey_putKey {κ ν : Type} [DecidableEq κ] (k j : κ) (v d : ν) (l : List (κ × ν)) :
    getKey j d (putKey k v l) = if j = k then v else getKey j d l := by
  induction l with
  | nil => by_cases h : k = j <;> simp [putKey, getKey, h, eq_comm]
  | cons p ps ih =>
    by_cases h : p.1 = k
    · by_cases e : j = k <;> simp [putKey, getKey, h, e, eq_comm (a := k)]
    · by_cases e : p.1 = j
      · have : j ≠ k := fun x => h (e.trans x)
        simp [putKey, getKey, e, this]
      · simp [putKey, getKey, h, e, ih]

/-- A register reads as it was set, and every other register as before. -/
@[simp] theorem State.setReg_reg (s : State) (r q : Reg) (v : DWord) : (s.setReg r v).reg q = if q = r then v else s.reg q := by
  unfold State.reg State.setReg
  rw [getKey_putKey]

end Sys2Proof.Machine
end

