-- ==== Sys2Proof/Laws/Memory.lean ====
section
/-!
SUPPORT. Memory: its canonical form is kept by every operation that changes it, and reads after writes.
-/
namespace Sys2Proof.Machine

/-! ### The list -/

theorem memWfFrom_mono : ∀ (m : Memory) (a b : Nat), b ≤ a → memWfFrom a m = true → memWfFrom b m = true
  | [], _, _, _, _ => rfl
  | (k, v) :: m, a, b, hab, h => by
    simp only [memWfFrom, Bool.and_eq_true, decide_eq_true_eq] at h ⊢
    exact ⟨⟨by omega, h.1.2⟩, h.2⟩

theorem memWfFrom_put : ∀ (m : Memory) (a k : Nat) (v : Byte), a ≤ k → memWfFrom a m = true → memWfFrom a (Memory.put m k v) = true
  | [], a, k, v, ha, _ => by
    by_cases hv : v = blank
    · simp [Memory.put, hv, memWfFrom]
    · simp [Memory.put, hv, memWfFrom, ha]
  | (c, w) :: m, a, k, v, ha, h => by
    simp only [memWfFrom, Bool.and_eq_true, decide_eq_true_eq] at h
    obtain ⟨⟨hac, hw⟩, hm⟩ := h
    unfold Memory.put
    split
    · rename_i hlt
      split
      · simp only [memWfFrom, Bool.and_eq_true, decide_eq_true_eq]; exact ⟨⟨hac, hw⟩, hm⟩
      · rename_i hv
        simp only [memWfFrom, Bool.and_eq_true, decide_eq_true_eq]
        exact ⟨⟨ha, by simpa using hv⟩, ⟨by omega, hw⟩, hm⟩
    · split
      · rename_i hlt heq
        subst heq
        split
        · exact memWfFrom_mono m _ _ (by omega) hm
        · rename_i hv
          simp only [memWfFrom, Bool.and_eq_true, decide_eq_true_eq]
          exact ⟨⟨hac, by simpa using hv⟩, hm⟩
      · rename_i hlt hne
        simp only [memWfFrom, Bool.and_eq_true, decide_eq_true_eq]
        exact ⟨⟨hac, hw⟩, memWfFrom_put m _ k v (by omega) hm⟩

theorem Memory.wf_put {m : Memory} (k : Nat) (v : Byte) (h : Memory.wf m = true) : Memory.wf (Memory.put m k v) = true :=
  memWfFrom_put m 0 k v (by omega) h

theorem Memory.wf_putAll : ∀ (bs : List Byte) {m : Memory} (k : Nat), Memory.wf m = true → Memory.wf (Memory.putAll m k bs) = true
  | [], _, _, h => h
  | b :: bs, _, k, h => Memory.wf_putAll bs (k + 1) (Memory.wf_put k b h)

theorem memWfFrom_filter (p : Nat × Byte → Bool) : ∀ (m : Memory) (a : Nat), memWfFrom a m = true → memWfFrom a (m.filter p) = true
  | [], _, _ => rfl
  | (k, v) :: m, a, h => by
    simp only [memWfFrom, Bool.and_eq_true, decide_eq_true_eq] at h
    have ih := memWfFrom_filter p m (k + 1) h.2
    by_cases hp : p (k, v) = true
    · rw [List.filter_cons_of_pos hp]
      simp only [memWfFrom, Bool.and_eq_true, decide_eq_true_eq]
      exact ⟨h.1, ih⟩
    · rw [List.filter_cons_of_neg hp]
      exact memWfFrom_mono _ _ _ (by omega) ih

theorem Memory.wf_filter {m : Memory} (p : Nat × Byte → Bool) (h : Memory.wf m = true) : Memory.wf (m.filter p) = true :=
  memWfFrom_filter p m 0 h

theorem Memory.wf_clear {m : Memory} (p : Nat → Bool) (h : Memory.wf m = true) : Memory.wf (Memory.clear m p) = true :=
  Memory.wf_filter _ h

/-- A key below every listed one reads blank. -/
theorem Memory.get_below : ∀ (m : Memory) (a k : Nat), k < a → memWfFrom a m = true → Memory.get m k = blank
  | [], _, _, _, _ => rfl
  | (c, v) :: m, a, k, hk, h => by
    simp only [memWfFrom, Bool.and_eq_true, decide_eq_true_eq] at h
    rw [Memory.get, if_pos (by omega)]

theorem memGet_put : ∀ (m : Memory) (a k j : Nat) (v : Byte), memWfFrom a m = true →
    Memory.get (Memory.put m k v) j = if j = k then v else Memory.get m j
  | [], a, k, j, v, _ => by
    by_cases hv : v = blank
    · simp [Memory.put, Memory.get, hv]
    · simp only [Memory.put, hv, if_false, Memory.get]
      split <;> split <;> simp_all
  | (c, w) :: m, a, k, j, v, h => by
    simp only [memWfFrom, Bool.and_eq_true, decide_eq_true_eq] at h
    obtain ⟨⟨hac, hw⟩, hm⟩ := h
    by_cases h1 : k < c
    · by_cases hv : v = blank
      · simp only [Memory.put, h1, hv, if_true]
        by_cases hj : j = k
        · subst hj; simp [Memory.get, h1]
        · simp [hj]
      · simp only [Memory.put, h1, hv, if_true, if_false]
        by_cases hj : j = k
        · subst hj; simp [Memory.get]
        · by_cases h2 : j < k
          · simp [Memory.get, h2, hj, show j < c by omega]
          · simp [Memory.get, h2, hj]
    · by_cases h2 : k = c
      · subst h2
        by_cases hv : v = blank
        · simp only [Memory.put, Nat.lt_irrefl, hv, if_true, if_false]
          by_cases hj : j = k
          · subst hj; simp [Memory.get_below m _ j (by omega) hm]
          · by_cases h3 : j < k
            · simp [Memory.get, h3, hj, Memory.get_below m _ j (by omega : j < k + 1) hm]
            · simp [Memory.get, h3, hj]
        · simp only [Memory.put, Nat.lt_irrefl, hv, if_true, if_false]
          by_cases hj : j = k
          · subst hj; simp [Memory.get]
          · simp [Memory.get, hj]
      · simp only [Memory.put, h1, h2, if_false]
        by_cases h3 : j < c
        · simp [Memory.get, h3, show j ≠ k by omega]
        · by_cases h4 : j = c
          · subst h4; simp [Memory.get, show j ≠ k from fun e => h2 e.symm]
          · simp [Memory.get, h3, h4, memGet_put m _ k j v hm]

/-- A put byte is read, and every other byte is as before. -/
theorem Memory.get_put {m : Memory} (h : Memory.wf m = true) (k j : Nat) (v : Byte) :
    Memory.get (Memory.put m k v) j = if j = k then v else Memory.get m j := memGet_put m 0 k j v h

theorem Memory.get_putAll : ∀ (bs : List Byte) {m : Memory} (k j : Nat), Memory.wf m = true →
    Memory.get (Memory.putAll m k bs) j = if k ≤ j ∧ j < k + bs.length then bs.getD (j - k) 0 else Memory.get m j
  | [], _, k, j, _ => by
    rw [if_neg (by simp only [List.length_nil]; omega), Memory.putAll]
  | b :: bs, m, k, j, h => by
    rw [Memory.putAll, Memory.get_putAll bs (k + 1) j (Memory.wf_put k b h), Memory.get_put h]
    simp only [List.length_cons]
    by_cases h1 : j = k
    · subst h1
      rw [if_neg (by omega), if_pos rfl, if_pos (by omega)]; simp
    · by_cases h2 : k + 1 ≤ j ∧ j < k + 1 + bs.length
      · rw [if_pos h2, if_pos (by omega)]
        have : j - k = (j - (k + 1)) + 1 := by omega
        rw [this]; simp
      · rw [if_neg h2, if_neg h1, if_neg (by omega)]

theorem memGet_clear (p : Nat → Bool) : ∀ (m : Memory) (a j : Nat), memWfFrom a m = true →
    Memory.get (Memory.clear m p) j = if p j then blank else Memory.get m j
  | [], _, j, _ => by simp [Memory.clear, Memory.get]
  | (c, w) :: m, a, j, h => by
    simp only [memWfFrom, Bool.and_eq_true, decide_eq_true_eq] at h
    have ih := memGet_clear p m (c + 1) j h.2
    unfold Memory.clear at ih ⊢
    by_cases hp : p c = true
    · rw [List.filter_cons_of_neg (by simp [hp]), ih]
      by_cases h1 : j < c
      · simp [Memory.get, h1, Memory.get_below m _ j (by omega : j < c + 1) h.2]
      · by_cases h2 : j = c
        · subst h2; simp [hp]
        · simp [Memory.get, h1, h2]
    · rw [List.filter_cons_of_pos (by simp [hp])]
      by_cases h1 : j < c
      · simp [Memory.get, h1]
      · by_cases h2 : j = c
        · subst h2; simp [Memory.get, hp]
        · simp only [Memory.get, h1, h2, if_false]; exact ih

/-- Cleared bytes read blank, and the others as before. -/
theorem Memory.get_clear {m : Memory} (h : Memory.wf m = true) (p : Nat → Bool) (j : Nat) :
    Memory.get (Memory.clear m p) j = if p j then blank else Memory.get m j := memGet_clear p m 0 j h

/-! ### The operations of the machine -/

theorem State.reset_wf : Memory.wf State.reset.mem = true := rfl

theorem State.wf_openPage {s : State} (k : Nat) (h : Memory.wf s.mem = true) : Memory.wf (s.openPage k).mem = true := by
  unfold State.openPage
  split
  · exact Memory.wf_filter _ h
  · exact h

@[simp] theorem State.dropResv_mem (s : State) (k n : Nat) : (s.dropResv k n).mem = s.mem := rfl

@[simp] theorem State.followed_mem (s : State) (t : Trail) (k n : Nat) : (s.followed t k n).mem = s.mem := by
  unfold State.followed; split <;> rfl

/-- The one way bytes change keeps the form. -/
theorem State.wf_put {s : State} (t : Trail) (k : Nat) (bs : List Byte) (h : Memory.wf s.mem = true) :
    Memory.wf (s.put t k bs).mem = true := by
  unfold State.put
  split
  · exact h
  · simpa using Memory.wf_putAll _ _ (State.wf_openPage _ h)

theorem State.wf_write {s : State} (k : Nat) (bs : List Byte) (h : Memory.wf s.mem = true) : Memory.wf (s.write k bs).mem = true :=
  State.wf_put _ _ _ h

theorem State.wf_putThrough {s : State} (t : Trail) (k : Nat) (bs : List Byte) (h : Memory.wf s.mem = true) :
    Memory.wf (s.putThrough t k bs).mem = true := by
  simp only [State.putThrough]; split <;> exact State.wf_put _ _ _ h

theorem State.wf_store {s : State} (k n v : Nat) (h : Memory.wf s.mem = true) : Memory.wf (s.store k n v).mem = true :=
  State.wf_write _ _ h

theorem State.wf_vwriteFuel (tu dom : Nat) : ∀ (n : Nat) (s : State) (va : Nat) (bs : List Byte), Memory.wf s.mem = true →
    Memory.wf (State.vwriteFuel n s tu dom va bs).mem = true
  | 0, _, _, _, h => h
  | n + 1, s, va, bs, h => by
    unfold State.vwriteFuel
    split
    · exact h
    · refine State.wf_vwriteFuel tu dom n _ _ _ ?_
      split
      · exact State.wf_write _ _ h
      · exact h

theorem State.wf_vwrite {s : State} (tu dom va : Nat) (bs : List Byte) (h : Memory.wf s.mem = true) :
    Memory.wf (s.vwrite tu dom va bs).mem = true := State.wf_vwriteFuel _ _ _ _ _ _ h

theorem Memory.wf_foldl_put : ∀ (cs : List (Nat × Byte)) (f : Nat × Byte → Nat × Byte) {m : Memory}, Memory.wf m = true →
    Memory.wf (cs.foldl (fun (m : Memory) c => Memory.put m (f c).1 (f c).2) m) = true
  | [], _, _, h => h
  | _ :: cs, f, _, h => Memory.wf_foldl_put cs f (Memory.wf_put _ _ h)

theorem State.wf_moveBytes {s : State} (src dst n : Nat) (h : Memory.wf s.mem = true) :
    Memory.wf (s.moveBytes src dst n).mem = true :=
  Memory.wf_foldl_put _ (fun c => (c.1 - src + dst, c.2)) (Memory.wf_clear _ (Memory.wf_clear _ h))

theorem State.wf_clearBytes {s : State} (k n : Nat) (h : Memory.wf s.mem = true) : Memory.wf (s.clearBytes k n).mem = true :=
  Memory.wf_filter _ h

theorem Memory.wf_foldl_put_at (f : Nat → Nat) (g : Nat → Byte) : ∀ (l : List Nat) {m : Memory}, Memory.wf m = true →
    Memory.wf (l.foldl (fun (m : Memory) i => Memory.put m (f i) (g i)) m) = true
  | [], _, h => h
  | _ :: l, _, h => Memory.wf_foldl_put_at f g l (Memory.wf_put _ _ h)

theorem State.wf_scramblePage {s : State} (slot p : Nat) (h : Memory.wf s.mem = true) :
    Memory.wf (s.scramblePage slot p).mem = true := by
  unfold State.scramblePage
  generalize List.range (2 ^ 16) = l
  exact Memory.wf_foldl_put_at (fun i => devKey slot (p * 2 ^ 16 + i)) (fun i => Config.freeByte (s.fresh + i)) l h

theorem State.wf_scramble {s : State} (slot : Nat) (h : Memory.wf s.mem = true) : Memory.wf (s.scramble slot).mem = true := by
  unfold State.scramble
  generalize s.keyPages slot = ps
  induction ps generalizing s with
  | nil => exact h
  | cons p ps ih => exact ih (State.wf_scramblePage slot p h)

theorem State.wf_enterOne {s : State} (e : LateWrite) (h : Memory.wf s.mem = true) : Memory.wf (s.enterOne e).mem = true := by
  have key : ∀ u : State, Memory.wf u.mem = true →
      Memory.wf (if u.late.any (fun x => x.num == e.num) then u else { u with poison := healPoison e.whole.1 e.whole.2 u.poison }).mem =
        true := by
    intro u hu
    split <;> exact hu
  unfold State.enterOne
  apply key
  split
  · exact State.wf_put _ _ _ h
  · exact State.wf_putThrough _ _ _ h

/-- Writes that enter T late keep the form (R226). -/
theorem State.wf_enterSome {s : State} (sel : Nat → LateWrite → Bool) (h : Memory.wf s.mem = true) :
    Memory.wf (s.enterSome sel).mem = true := by
  have key : ∀ (l : List LateWrite) {u : State}, Memory.wf u.mem = true → Memory.wf (l.foldl State.enterOne u).mem = true := by
    intro l
    induction l with
    | nil => intro u hu; exact hu
    | cons e l ih => intro u hu; exact ih (State.wf_enterOne e hu)
  simp only [State.enterSome]
  split
  · exact h
  · exact key _ h

theorem State.wf_enterAll {s : State} (h : Memory.wf s.mem = true) : Memory.wf s.enterAll.mem = true := State.wf_enterSome _ h

theorem State.wf_pathPut {s : State} (t : Trail) (num : Nat) (whole : Nat × Nat) (k : Nat) (bs : List Byte)
    (h : Memory.wf s.mem = true) : Memory.wf (s.pathPut t num whole k bs).mem = true := by
  simp only [State.pathPut]
  split
  · exact h
  · split
    · exact State.wf_put _ _ _ (State.wf_enterSome _ h)
    · exact State.wf_putThrough _ _ _ (State.wf_enterSome _ h)

theorem State.wf_halfPut {s : State} (t : Trail) (k : Nat) (high : Bool) (v : Nat) (h : Memory.wf s.mem = true) :
    Memory.wf (s.halfPut t k high v).mem = true := by
  simp only [State.halfPut]
  split
  · exact h
  · exact State.wf_putThrough _ _ _ (State.wf_enterSome _ h)

@[simp] theorem State.mapTrails_mem (s : State) (f : Trail → Trail) : (s.mapTrails f).mem = s.mem := by
  unfold State.mapTrails; split <;> rfl

/-- A crossing point keeps the form (R227). -/
theorem State.wf_crossPaths {s : State} (r : WatchRef) (split : Nat) (before : Trail → Bool) (y : Nat) (h : Memory.wf s.mem = true) :
    Memory.wf (s.crossPaths r split before y).mem = true := by
  have h1 : Memory.wf (s.crossSome before).mem = true := by simpa [State.crossSome] using State.wf_enterSome _ h
  simp only [State.crossPaths, State.barStale]
  split <;> exact h1

theorem State.wf_off {s : State} (h : Memory.wf s.mem = true) : Memory.wf s.off.mem = true := Memory.wf_filter _ h

theorem State.wf_placeWord {s : State} (w : Nat) (h : Memory.wf s.mem = true) : Memory.wf (s.placeWord w).mem = true := by
  unfold State.placeWord State.setRegField State.setReg
  exact Memory.wf_putAll _ _ h

/-! ### Reads after writes -/

/-- A byte reads the same after its page has been opened (R368). -/
theorem State.openPage_byte {s : State} (h : Memory.wf s.mem = true) (k a : Nat) : (s.openPage k).byte a = s.byte a := by
  unfold State.openPage
  split
  · rename_i hz
    unfold State.byte State.isZp State.idtOf at *
    simp only [Bool.and_eq_true, decide_eq_true_eq] at hz
    rw [Memory.get_clear h]
    have key : ∀ (q : Nat) (l : List IdtEntry),
        (((l.map (fun e => if e.page = pageOf k then { e with zp := false } else e)).find? (fun e => e.page == q)).map (·.zp)).getD false =
          if q = pageOf k then false else ((l.find? (fun e => e.page == q)).map (·.zp)).getD false := by
      intro q l
      induction l with
      | nil => simp
      | cons e l ih =>
        by_cases h1 : e.page = pageOf k
        · by_cases h2 : e.page = q
          · simp [h1, ← h2]
          · have h3 : ¬ pageOf k = q := fun x => h2 (h1.trans x)
            simpa [h1, h3, List.find?_cons, show (e.page == q) = false by simpa using h2] using ih
        · by_cases h2 : e.page = q
          · have h3 : ¬ q = pageOf k := fun x => h1 (h2.trans x)
            simp [h2, h3]
          · simpa [h1, List.find?_cons, show (e.page == q) = false by simpa using h2] using ih
    rw [key]
    by_cases h1 : a < 2 ^ 58
    · by_cases h2 : pageOf a = pageOf k
      · simp [h2, hz.2]
      · simp [h2]
    · simp only [decide_eq_false h1, Bool.false_and, Bool.false_eq_true, if_false]
  · rfl

theorem State.isZp_openPage (s : State) (k : Nat) : (s.openPage k).isZp k = false := by
  unfold State.openPage
  split
  · rename_i hz
    unfold State.isZp State.idtOf at *
    simp only [Bool.and_eq_true, decide_eq_true_eq] at hz
    have key : ∀ (l : List IdtEntry),
        (((l.map (fun e => if e.page = pageOf k then { e with zp := false } else e)).find? (fun e => e.page == pageOf k)).map (·.zp)).getD
          false = false := by
      intro l
      induction l with
      | nil => simp
      | cons e l ih =>
        by_cases h1 : e.page = pageOf k
        · simp [h1]
        · simpa [h1, List.find?_cons, show (e.page == pageOf k) = false by simpa using h1] using ih
    rw [key]; simp
  · rename_i h; simpa using h

@[simp] theorem State.followed_idt (s : State) (t : Trail) (k n : Nat) : (s.followed t k n).idt = s.idt := by
  unfold State.followed; split <;> rfl

@[simp] theorem State.dropResv_idt (s : State) (k n : Nat) : (s.dropResv k n).idt = s.idt := rfl

/-- A write of some bytes changes no other (R3). -/
theorem State.put_other {s : State} (h : Memory.wf s.mem = true) (t : Trail) (k : Nat) (bs : List Byte) (a : Nat)
    (ha : a < k ∨ k + bs.length ≤ a) : (s.put t k bs).byte a = s.byte a := by
  unfold State.put
  split
  · rfl
  · have hz : ∀ (u : State) (m : Memory) (p : List Nat),
        ({ u with mem := m, poison := p } : State).byte a = if u.isZp a then blank else Memory.get m a := fun _ _ _ => rfl
    have hn : ¬ (k ≤ a ∧ a < k + bs.length) := by omega
    have hi : (((s.openPage k).dropResv k bs.length).followed t k bs.length).isZp a = (s.openPage k).isZp a := by
      unfold State.isZp State.idtOf
      simp
    rw [hz, Memory.get_putAll _ _ _ (by simpa using State.wf_openPage _ h), if_neg hn, ← State.openPage_byte h k a, hi]
    simp [State.byte]

end Sys2Proof.Machine
end

