-- ==== Sys2Proof/Laws/PerInstr.lean ====
section
/-!
SUPPORT. One statement about every instruction as syntax: how many words it has.
-/
namespace Sys2Proof.Laws.WordCount

/-- An instruction has no word, one word, or a word and a literal (R43, R51). -/
def Statement (i : Instr) : Prop := encode i = [] ∨ (∃ w, encode i = [w]) ∨ ∃ w v, encode i = [w, v]

theorem trap x0 x1 : Statement (.trap x0 x1) := Or.inr (Or.inl ⟨_, rfl⟩)
theorem tret : Statement (.tret) := Or.inr (Or.inl ⟨_, rfl⟩)
theorem tretNext : Statement (.tretNext) := Or.inr (Or.inl ⟨_, rfl⟩)
theorem srd x0 : Statement (.srd x0) := Or.inr (Or.inl ⟨_, rfl⟩)
theorem swr x0 x1 : Statement (.swr x0 x1) := Or.inr (Or.inl ⟨_, rfl⟩)
theorem gate x0 : Statement (.gate x0) := Or.inr (Or.inl ⟨_, rfl⟩)
theorem gret x0 x1 : Statement (.gret x0 x1) := Or.inr (Or.inl ⟨_, rfl⟩)
theorem ctrrd x0 : Statement (.ctrrd x0) := Or.inr (Or.inl ⟨_, rfl⟩)
theorem sleep x0 : Statement (.sleep x0) := Or.inr (Or.inl ⟨_, rfl⟩)
theorem sleepEnd x0 x1 : Statement (.sleepEnd x0 x1) := Or.inl rfl
theorem yieldb : Statement (.yieldb) := Or.inr (Or.inl ⟨_, rfl⟩)
theorem yield : Statement (.yield) := Or.inr (Or.inl ⟨_, rfl⟩)
theorem nop : Statement (.nop) := Or.inr (Or.inl ⟨_, rfl⟩)
theorem cgrowWait x0 : Statement (.cgrowWait x0) := Or.inr (Or.inl ⟨_, rfl⟩)
theorem cgrowTry x0 : Statement (.cgrowTry x0) := Or.inr (Or.inl ⟨_, rfl⟩)
theorem caddyGrant x0 x1 : Statement (.caddyGrant x0 x1) := Or.inl rfl
theorem cshrink x0 : Statement (.cshrink x0) := Or.inr (Or.inl ⟨_, rfl⟩)
theorem featq x0 : Statement (.featq x0) := Or.inr (Or.inl ⟨_, rfl⟩)
theorem br x0 : Statement (.br x0) := Or.inr (Or.inl ⟨_, rfl⟩)
theorem bany x0 x1 : Statement (.bany x0 x1) := Or.inr (Or.inl ⟨_, rfl⟩)
theorem ball x0 x1 : Statement (.ball x0 x1) := Or.inr (Or.inl ⟨_, rfl⟩)
theorem bnone x0 x1 : Statement (.bnone x0 x1) := Or.inr (Or.inl ⟨_, rfl⟩)
theorem ifRegion x0 x1 : Statement (.ifRegion x0 x1) := Or.inr (Or.inl ⟨_, rfl⟩)
theorem ifs x0 x1 : Statement (.ifs x0 x1) := Or.inr (Or.inl ⟨_, rfl⟩)
theorem elseArm x0 : Statement (.elseArm x0) := Or.inr (Or.inl ⟨_, rfl⟩)
theorem rejoin x0 : Statement (.rejoin x0) := Or.inr (Or.inl ⟨_, rfl⟩)
theorem loop x0 x1 x2 : Statement (.loop x0 x1 x2) := Or.inr (Or.inl ⟨_, rfl⟩)
theorem endloop x0 x1 x2 : Statement (.endloop x0 x1 x2) := Or.inr (Or.inl ⟨_, rfl⟩)
theorem brk x0 x1 : Statement (.brk x0 x1) := Or.inr (Or.inl ⟨_, rfl⟩)
theorem cont x0 x1 : Statement (.cont x0 x1) := Or.inr (Or.inl ⟨_, rfl⟩)
theorem call x0 x1 x2 x3 : Statement (.call x0 x1 x2 x3) := Or.inr (Or.inl ⟨_, rfl⟩)
theorem calli x0 x1 x2 x3 : Statement (.calli x0 x1 x2 x3) := Or.inr (Or.inl ⟨_, rfl⟩)
theorem ret x0 x1 : Statement (.ret x0 x1) := Or.inr (Or.inl ⟨_, rfl⟩)
theorem exit x0 : Statement (.exit x0) := Or.inr (Or.inl ⟨_, rfl⟩)
theorem sadd x0 : Statement (.sadd x0) := Or.inr (Or.inl ⟨_, rfl⟩)
theorem ssub x0 : Statement (.ssub x0) := Or.inr (Or.inl ⟨_, rfl⟩)
theorem smul x0 : Statement (.smul x0) := Or.inr (Or.inl ⟨_, rfl⟩)
theorem smulh x0 : Statement (.smulh x0) := Or.inr (Or.inl ⟨_, rfl⟩)
theorem sand x0 : Statement (.sand x0) := Or.inr (Or.inl ⟨_, rfl⟩)
theorem sor x0 : Statement (.sor x0) := Or.inr (Or.inl ⟨_, rfl⟩)
theorem sxor x0 : Statement (.sxor x0) := Or.inr (Or.inl ⟨_, rfl⟩)
theorem snot x0 : Statement (.snot x0) := Or.inr (Or.inl ⟨_, rfl⟩)
theorem sshl x0 : Statement (.sshl x0) := Or.inr (Or.inl ⟨_, rfl⟩)
theorem sshr x0 : Statement (.sshr x0) := Or.inr (Or.inl ⟨_, rfl⟩)
theorem ssar x0 : Statement (.ssar x0) := Or.inr (Or.inl ⟨_, rfl⟩)
theorem smin x0 : Statement (.smin x0) := Or.inr (Or.inl ⟨_, rfl⟩)
theorem smax x0 : Statement (.smax x0) := Or.inr (Or.inl ⟨_, rfl⟩)
theorem snmin x0 : Statement (.snmin x0) := Or.inr (Or.inl ⟨_, rfl⟩)
theorem snmax x0 : Statement (.snmax x0) := Or.inr (Or.inl ⟨_, rfl⟩)
theorem scmp x0 x1 : Statement (.scmp x0 x1) := Or.inr (Or.inl ⟨_, rfl⟩)
theorem ssel x0 : Statement (.ssel x0) := Or.inr (Or.inl ⟨_, rfl⟩)
theorem sldi x0 : Statement (.sldi x0) := Or.inr (Or.inl ⟨_, rfl⟩)
theorem sldiHi x0 x1 : Statement (.sldiHi x0 x1) := Or.inr (Or.inl ⟨_, rfl⟩)
theorem ldil x0 : Statement (.ldil x0) := Or.inr (Or.inr ⟨_, _, rfl⟩)
theorem slane x0 : Statement (.slane x0) := Or.inr (Or.inl ⟨_, rfl⟩)
theorem spick x0 : Statement (.spick x0) := Or.inr (Or.inl ⟨_, rfl⟩)
theorem iadd x0 : Statement (.iadd x0) := Or.inr (Or.inl ⟨_, rfl⟩)
theorem isub x0 : Statement (.isub x0) := Or.inr (Or.inl ⟨_, rfl⟩)
theorem iadc x0 : Statement (.iadc x0) := Or.inr (Or.inl ⟨_, rfl⟩)
theorem isbb x0 : Statement (.isbb x0) := Or.inr (Or.inl ⟨_, rfl⟩)
theorem imul x0 : Statement (.imul x0) := Or.inr (Or.inl ⟨_, rfl⟩)
theorem imulh x0 : Statement (.imulh x0) := Or.inr (Or.inl ⟨_, rfl⟩)
theorem imad x0 : Statement (.imad x0) := Or.inr (Or.inl ⟨_, rfl⟩)
theorem ineg x0 : Statement (.ineg x0) := Or.inr (Or.inl ⟨_, rfl⟩)
theorem iabs x0 : Statement (.iabs x0) := Or.inr (Or.inl ⟨_, rfl⟩)
theorem imin x0 : Statement (.imin x0) := Or.inr (Or.inl ⟨_, rfl⟩)
theorem imax x0 : Statement (.imax x0) := Or.inr (Or.inl ⟨_, rfl⟩)
theorem nmin x0 : Statement (.nmin x0) := Or.inr (Or.inl ⟨_, rfl⟩)
theorem nmax x0 : Statement (.nmax x0) := Or.inr (Or.inl ⟨_, rfl⟩)
theorem andv x0 : Statement (.andv x0) := Or.inr (Or.inl ⟨_, rfl⟩)
theorem orv x0 : Statement (.orv x0) := Or.inr (Or.inl ⟨_, rfl⟩)
theorem xorv x0 : Statement (.xorv x0) := Or.inr (Or.inl ⟨_, rfl⟩)
theorem notv x0 : Statement (.notv x0) := Or.inr (Or.inl ⟨_, rfl⟩)
theorem andnv x0 : Statement (.andnv x0) := Or.inr (Or.inl ⟨_, rfl⟩)
theorem shl x0 : Statement (.shl x0) := Or.inr (Or.inl ⟨_, rfl⟩)
theorem shr x0 : Statement (.shr x0) := Or.inr (Or.inl ⟨_, rfl⟩)
theorem sar x0 : Statement (.sar x0) := Or.inr (Or.inl ⟨_, rfl⟩)
theorem rot x0 : Statement (.rot x0) := Or.inr (Or.inl ⟨_, rfl⟩)
theorem bfx x0 : Statement (.bfx x0) := Or.inr (Or.inl ⟨_, rfl⟩)
theorem bfi x0 : Statement (.bfi x0) := Or.inr (Or.inl ⟨_, rfl⟩)
theorem popc x0 : Statement (.popc x0) := Or.inr (Or.inl ⟨_, rfl⟩)
theorem clz x0 : Statement (.clz x0) := Or.inr (Or.inl ⟨_, rfl⟩)
theorem brev x0 : Statement (.brev x0) := Or.inr (Or.inl ⟨_, rfl⟩)
theorem icmp x0 x1 : Statement (.icmp x0 x1) := Or.inr (Or.inl ⟨_, rfl⟩)
theorem sel x0 : Statement (.sel x0) := Or.inr (Or.inl ⟨_, rfl⟩)
theorem pick x0 : Statement (.pick x0) := Or.inr (Or.inl ⟨_, rfl⟩)
theorem ldi x0 : Statement (.ldi x0) := Or.inr (Or.inl ⟨_, rfl⟩)
theorem ldiHi x0 : Statement (.ldiHi x0) := Or.inr (Or.inl ⟨_, rfl⟩)
theorem stash x0 : Statement (.stash x0) := Or.inr (Or.inl ⟨_, rfl⟩)
theorem unstash x0 : Statement (.unstash x0) := Or.inr (Or.inl ⟨_, rfl⟩)
theorem kand x0 x1 x2 : Statement (.kand x0 x1 x2) := Or.inr (Or.inl ⟨_, rfl⟩)
theorem kor x0 x1 x2 : Statement (.kor x0 x1 x2) := Or.inr (Or.inl ⟨_, rfl⟩)
theorem kxor x0 x1 x2 : Statement (.kxor x0 x1 x2) := Or.inr (Or.inl ⟨_, rfl⟩)
theorem kandn x0 x1 x2 : Statement (.kandn x0 x1 x2) := Or.inr (Or.inl ⟨_, rfl⟩)
theorem knot x0 x1 : Statement (.knot x0 x1) := Or.inr (Or.inl ⟨_, rfl⟩)
theorem kmov x0 x1 : Statement (.kmov x0 x1) := Or.inr (Or.inl ⟨_, rfl⟩)
theorem kset x0 x1 : Statement (.kset x0 x1) := Or.inr (Or.inl ⟨_, rfl⟩)
theorem kpop x0 : Statement (.kpop x0) := Or.inr (Or.inl ⟨_, rfl⟩)
theorem kfirst x0 : Statement (.kfirst x0) := Or.inr (Or.inl ⟨_, rfl⟩)
theorem fadd x0 : Statement (.fadd x0) := Or.inr (Or.inl ⟨_, rfl⟩)
theorem fsub x0 : Statement (.fsub x0) := Or.inr (Or.inl ⟨_, rfl⟩)
theorem fmul x0 : Statement (.fmul x0) := Or.inr (Or.inl ⟨_, rfl⟩)
theorem ffma x0 : Statement (.ffma x0) := Or.inr (Or.inl ⟨_, rfl⟩)
theorem ffms x0 : Statement (.ffms x0) := Or.inr (Or.inl ⟨_, rfl⟩)
theorem fmin x0 : Statement (.fmin x0) := Or.inr (Or.inl ⟨_, rfl⟩)
theorem fmax x0 : Statement (.fmax x0) := Or.inr (Or.inl ⟨_, rfl⟩)
theorem fcmp x0 x1 : Statement (.fcmp x0 x1) := Or.inr (Or.inl ⟨_, rfl⟩)
theorem fclass x0 : Statement (.fclass x0) := Or.inr (Or.inl ⟨_, rfl⟩)
theorem frnd x0 : Statement (.frnd x0) := Or.inr (Or.inl ⟨_, rfl⟩)
theorem fdiv x0 : Statement (.fdiv x0) := Or.inr (Or.inl ⟨_, rfl⟩)
theorem frcp x0 : Statement (.frcp x0) := Or.inr (Or.inl ⟨_, rfl⟩)
theorem frsq x0 : Statement (.frsq x0) := Or.inr (Or.inl ⟨_, rfl⟩)
theorem fsqrt x0 : Statement (.fsqrt x0) := Or.inr (Or.inl ⟨_, rfl⟩)
theorem fexp2 x0 : Statement (.fexp2 x0) := Or.inr (Or.inl ⟨_, rfl⟩)
theorem flog2 x0 : Statement (.flog2 x0) := Or.inr (Or.inl ⟨_, rfl⟩)
theorem fsin x0 : Statement (.fsin x0) := Or.inr (Or.inl ⟨_, rfl⟩)
theorem fcos x0 : Statement (.fcos x0) := Or.inr (Or.inl ⟨_, rfl⟩)
theorem ftanh x0 : Statement (.ftanh x0) := Or.inr (Or.inl ⟨_, rfl⟩)
theorem fcvt x0 : Statement (.fcvt x0) := Or.inr (Or.inl ⟨_, rfl⟩)
theorem icvt x0 : Statement (.icvt x0) := Or.inr (Or.inl ⟨_, rfl⟩)
theorem ficvt x0 : Statement (.ficvt x0) := Or.inr (Or.inl ⟨_, rfl⟩)
theorem hadd2 x0 : Statement (.hadd2 x0) := Or.inr (Or.inl ⟨_, rfl⟩)
theorem hmul2 x0 : Statement (.hmul2 x0) := Or.inr (Or.inl ⟨_, rfl⟩)
theorem hfma2 x0 : Statement (.hfma2 x0) := Or.inr (Or.inl ⟨_, rfl⟩)
theorem sfadd x0 : Statement (.sfadd x0) := Or.inr (Or.inl ⟨_, rfl⟩)
theorem sfmul x0 : Statement (.sfmul x0) := Or.inr (Or.inl ⟨_, rfl⟩)
theorem sffma x0 : Statement (.sffma x0) := Or.inr (Or.inl ⟨_, rfl⟩)
theorem sfcmp x0 : Statement (.sfcmp x0) := Or.inr (Or.inl ⟨_, rfl⟩)
theorem unitOperationComplete x0 x1 : Statement (.unitOperationComplete x0 x1) := Or.inl rfl
theorem dot4 x0 : Statement (.dot4 x0) := Or.inr (Or.inl ⟨_, rfl⟩)
theorem dot8 x0 : Statement (.dot8 x0) := Or.inr (Or.inl ⟨_, rfl⟩)
theorem fdot4 x0 : Statement (.fdot4 x0) := Or.inr (Or.inl ⟨_, rfl⟩)
theorem fdot8 x0 : Statement (.fdot8 x0) := Or.inr (Or.inl ⟨_, rfl⟩)
theorem mac2 x0 : Statement (.mac2 x0) := Or.inr (Or.inl ⟨_, rfl⟩)
theorem pack x0 : Statement (.pack x0) := Or.inr (Or.inl ⟨_, rfl⟩)
theorem unpk x0 : Statement (.unpk x0) := Or.inr (Or.inl ⟨_, rfl⟩)
theorem shrr x0 : Statement (.shrr x0) := Or.inr (Or.inl ⟨_, rfl⟩)
theorem fscl x0 : Statement (.fscl x0) := Or.inr (Or.inl ⟨_, rfl⟩)
theorem satclr x0 : Statement (.satclr x0) := Or.inr (Or.inl ⟨_, rfl⟩)
theorem shfl x0 : Statement (.shfl x0) := Or.inr (Or.inl ⟨_, rfl⟩)
theorem shflx x0 : Statement (.shflx x0) := Or.inr (Or.inl ⟨_, rfl⟩)
theorem slide x0 : Statement (.slide x0) := Or.inr (Or.inl ⟨_, rfl⟩)
theorem bcastl x0 : Statement (.bcastl x0) := Or.inr (Or.inl ⟨_, rfl⟩)
theorem red x0 x1 : Statement (.red x0 x1) := Or.inr (Or.inl ⟨_, rfl⟩)
theorem scan x0 x1 : Statement (.scan x0 x1) := Or.inr (Or.inl ⟨_, rfl⟩)
theorem kbal x0 : Statement (.kbal x0) := Or.inr (Or.inl ⟨_, rfl⟩)
theorem bset x0 : Statement (.bset x0) := Or.inr (Or.inl ⟨_, rfl⟩)
theorem bzero x0 : Statement (.bzero x0) := Or.inr (Or.inl ⟨_, rfl⟩)
theorem bget x0 : Statement (.bget x0) := Or.inr (Or.inl ⟨_, rfl⟩)
theorem bdir x0 : Statement (.bdir x0) := Or.inr (Or.inl ⟨_, rfl⟩)
theorem bnorm x0 : Statement (.bnorm x0) := Or.inr (Or.inl ⟨_, rfl⟩)
theorem btest x0 : Statement (.btest x0) := Or.inr (Or.inl ⟨_, rfl⟩)
theorem bscl x0 : Statement (.bscl x0) := Or.inr (Or.inl ⟨_, rfl⟩)
theorem bneg x0 : Statement (.bneg x0) := Or.inr (Or.inl ⟨_, rfl⟩)
theorem bmov x0 : Statement (.bmov x0) := Or.inr (Or.inl ⟨_, rfl⟩)
theorem bdot x0 : Statement (.bdot x0) := Or.inr (Or.inl ⟨_, rfl⟩)
theorem badd x0 : Statement (.badd x0) := Or.inr (Or.inl ⟨_, rfl⟩)
theorem bmix x0 : Statement (.bmix x0) := Or.inr (Or.inl ⟨_, rfl⟩)
theorem bmatch x0 : Statement (.bmatch x0) := Or.inr (Or.inl ⟨_, rfl⟩)
theorem bld x0 x1 : Statement (.bld x0 x1) := Or.inr (Or.inl ⟨_, rfl⟩)
theorem bst x0 x1 : Statement (.bst x0 x1) := Or.inr (Or.inl ⟨_, rfl⟩)
theorem ld x0 : Statement (.ld x0) := Or.inr (Or.inl ⟨_, rfl⟩)
theorem st x0 : Statement (.st x0) := Or.inr (Or.inl ⟨_, rfl⟩)
theorem lds x0 : Statement (.lds x0) := Or.inr (Or.inl ⟨_, rfl⟩)
theorem sts x0 : Statement (.sts x0) := Or.inr (Or.inl ⟨_, rfl⟩)
theorem ldu x0 : Statement (.ldu x0) := Or.inr (Or.inl ⟨_, rfl⟩)
theorem stu x0 : Statement (.stu x0) := Or.inr (Or.inl ⟨_, rfl⟩)
theorem ldw x0 : Statement (.ldw x0) := Or.inr (Or.inl ⟨_, rfl⟩)
theorem stw x0 : Statement (.stw x0) := Or.inr (Or.inl ⟨_, rfl⟩)
theorem lea x0 : Statement (.lea x0) := Or.inr (Or.inl ⟨_, rfl⟩)
theorem pref x0 : Statement (.pref x0) := Or.inr (Or.inl ⟨_, rfl⟩)
theorem cwb x0 : Statement (.cwb x0) := Or.inr (Or.inl ⟨_, rfl⟩)
theorem cinv x0 : Statement (.cinv x0) := Or.inr (Or.inl ⟨_, rfl⟩)
theorem pendingValueArrival x0 x1 : Statement (.pendingValueArrival x0 x1) := Or.inl rfl
theorem pageTableWalk x0 x1 x2 x3 : Statement (.pageTableWalk x0 x1 x2 x3) := Or.inl rfl
theorem atomAdd x0 : Statement (.atomAdd x0) := Or.inr (Or.inl ⟨_, rfl⟩)
theorem atomAnd x0 : Statement (.atomAnd x0) := Or.inr (Or.inl ⟨_, rfl⟩)
theorem atomOr x0 : Statement (.atomOr x0) := Or.inr (Or.inl ⟨_, rfl⟩)
theorem atomXor x0 : Statement (.atomXor x0) := Or.inr (Or.inl ⟨_, rfl⟩)
theorem atomMin x0 : Statement (.atomMin x0) := Or.inr (Or.inl ⟨_, rfl⟩)
theorem atomMax x0 : Statement (.atomMax x0) := Or.inr (Or.inl ⟨_, rfl⟩)
theorem atomNmin x0 : Statement (.atomNmin x0) := Or.inr (Or.inl ⟨_, rfl⟩)
theorem atomNmax x0 : Statement (.atomNmax x0) := Or.inr (Or.inl ⟨_, rfl⟩)
theorem atomXchg x0 : Statement (.atomXchg x0) := Or.inr (Or.inl ⟨_, rfl⟩)
theorem acas x0 : Statement (.acas x0) := Or.inr (Or.inl ⟨_, rfl⟩)
theorem afadd x0 : Statement (.afadd x0) := Or.inr (Or.inl ⟨_, rfl⟩)
theorem axadd x0 : Statement (.axadd x0) := Or.inr (Or.inl ⟨_, rfl⟩)
theorem lres x0 : Statement (.lres x0) := Or.inr (Or.inl ⟨_, rfl⟩)
theorem scnd x0 : Statement (.scnd x0) := Or.inr (Or.inl ⟨_, rfl⟩)
theorem fence x0 x1 : Statement (.fence x0 x1) := Or.inr (Or.inl ⟨_, rfl⟩)
theorem fencex x0 x1 x2 : Statement (.fencex x0 x1 x2) := Or.inr (Or.inl ⟨_, rfl⟩)
theorem barrierBlock : Statement (.barrierBlock) := Or.inr (Or.inl ⟨_, rfl⟩)
theorem barrierGang : Statement (.barrierGang) := Or.inr (Or.inl ⟨_, rfl⟩)
theorem binit x0 : Statement (.binit x0) := Or.inr (Or.inl ⟨_, rfl⟩)
theorem barm x0 : Statement (.barm x0) := Or.inr (Or.inl ⟨_, rfl⟩)
theorem barrive x0 : Statement (.barrive x0) := Or.inr (Or.inl ⟨_, rfl⟩)
theorem waitb x0 : Statement (.waitb x0) := Or.inr (Or.inl ⟨_, rfl⟩)
theorem testb x0 : Statement (.testb x0) := Or.inr (Or.inl ⟨_, rfl⟩)
theorem waitcLd x0 : Statement (.waitcLd x0) := Or.inr (Or.inl ⟨_, rfl⟩)
theorem waitcEng x0 x1 : Statement (.waitcEng x0 x1) := Or.inr (Or.inl ⟨_, rfl⟩)
theorem shld x0 : Statement (.shld x0) := Or.inr (Or.inl ⟨_, rfl⟩)
theorem shst x0 : Statement (.shst x0) := Or.inr (Or.inl ⟨_, rfl⟩)
theorem shset x0 : Statement (.shset x0) := Or.inr (Or.inl ⟨_, rfl⟩)
theorem cpy x0 : Statement (.cpy x0) := Or.inr (Or.inl ⟨_, rfl⟩)
theorem cpys x0 : Statement (.cpys x0) := Or.inr (Or.inl ⟨_, rfl⟩)
theorem cpyp x0 : Statement (.cpyp x0) := Or.inr (Or.inl ⟨_, rfl⟩)
theorem gthr x0 : Statement (.gthr x0) := Or.inr (Or.inl ⟨_, rfl⟩)
theorem scat x0 : Statement (.scat x0) := Or.inr (Or.inl ⟨_, rfl⟩)
theorem collRed x0 : Statement (.collRed x0) := Or.inr (Or.inl ⟨_, rfl⟩)
theorem collBcast x0 : Statement (.collBcast x0) := Or.inr (Or.inl ⟨_, rfl⟩)
theorem collGath x0 : Statement (.collGath x0) := Or.inr (Or.inl ⟨_, rfl⟩)
theorem collAllred x0 : Statement (.collAllred x0) := Or.inr (Or.inl ⟨_, rfl⟩)
theorem engineDelivery x0 x1 x2 : Statement (.engineDelivery x0 x1 x2) := Or.inl rfl
theorem engineCommandComplete x0 : Statement (.engineCommandComplete x0) := Or.inl rfl
theorem collAbort x0 x1 : Statement (.collAbort x0 x1) := Or.inl rfl
theorem mma x0 : Statement (.mma x0) := Or.inr (Or.inl ⟨_, rfl⟩)
theorem mmap x0 : Statement (.mmap x0) := Or.inr (Or.inl ⟨_, rfl⟩)
theorem mmas x0 : Statement (.mmas x0) := Or.inr (Or.inl ⟨_, rfl⟩)
theorem mmasp x0 : Statement (.mmasp x0) := Or.inr (Or.inl ⟨_, rfl⟩)
theorem accinit x0 : Statement (.accinit x0) := Or.inr (Or.inl ⟨_, rfl⟩)
theorem anchor x0 : Statement (.anchor x0) := Or.inr (Or.inl ⟨_, rfl⟩)
theorem accrd x0 : Statement (.accrd x0) := Or.inr (Or.inl ⟨_, rfl⟩)
theorem accrdw x0 : Statement (.accrdw x0) := Or.inr (Or.inl ⟨_, rfl⟩)
theorem accadd x0 : Statement (.accadd x0) := Or.inr (Or.inl ⟨_, rfl⟩)
theorem accstat x0 : Statement (.accstat x0) := Or.inr (Or.inl ⟨_, rfl⟩)
theorem passGrant x0 : Statement (.passGrant x0) := Or.inl rfl
theorem pairedHold x0 : Statement (.pairedHold x0) := Or.inl rfl
theorem passEnd x0 : Statement (.passEnd x0) := Or.inl rfl
theorem node x0 : Statement (.node x0) := Or.inr (Or.inl ⟨_, rfl⟩)
theorem ndep x0 x1 : Statement (.ndep x0 x1) := Or.inr (Or.inl ⟨_, rfl⟩)
theorem nrel x0 x1 : Statement (.nrel x0 x1) := Or.inr (Or.inl ⟨_, rfl⟩)
theorem fork x0 x1 : Statement (.fork x0 x1) := Or.inr (Or.inl ⟨_, rfl⟩)
theorem join : Statement (.join) := Or.inr (Or.inl ⟨_, rfl⟩)
theorem arm x0 : Statement (.arm x0) := Or.inr (Or.inl ⟨_, rfl⟩)
theorem disarm x0 : Statement (.disarm x0) := Or.inr (Or.inl ⟨_, rfl⟩)
theorem launchq x0 : Statement (.launchq x0) := Or.inr (Or.inl ⟨_, rfl⟩)
theorem gangPlace x0 : Statement (.gangPlace x0) := Or.inl rfl
theorem gangEnd x0 x1 : Statement (.gangEnd x0 x1) := Or.inl rfl
theorem pilotDieLoss x0 : Statement (.pilotDieLoss x0) := Or.inl rfl
theorem fairnessSwitch x0 x1 : Statement (.fairnessSwitch x0 x1) := Or.inl rfl
theorem reservationDeferEnd x0 x1 : Statement (.reservationDeferEnd x0 x1) := Or.inl rfl
theorem preqWithdraw x0 x1 : Statement (.preqWithdraw x0 x1) := Or.inl rfl
theorem preqSoft x0 x1 : Statement (.preqSoft x0 x1) := Or.inl rfl
theorem preqHard x0 x1 : Statement (.preqHard x0 x1) := Or.inl rfl
theorem graceExpiry x0 : Statement (.graceExpiry x0) := Or.inl rfl
theorem killTimerExpiry x0 : Statement (.killTimerExpiry x0) := Or.inl rfl
theorem responseWindowExpiry x0 x1 : Statement (.responseWindowExpiry x0 x1) := Or.inl rfl
theorem responseTimeout x0 x1 : Statement (.responseTimeout x0 x1) := Or.inl rfl
theorem sliceEnd x0 x1 : Statement (.sliceEnd x0 x1) := Or.inl rfl
theorem lendReclaim x0 : Statement (.lendReclaim x0) := Or.inl rfl
theorem sightDrain x0 : Statement (.sightDrain x0) := Or.inl rfl
theorem sightPassEnd x0 x1 : Statement (.sightPassEnd x0 x1) := Or.inl rfl
theorem queueNotify x0 : Statement (.queueNotify x0) := Or.inl rfl
theorem queueServe x0 : Statement (.queueServe x0) := Or.inl rfl
theorem queueReread x0 : Statement (.queueReread x0) := Or.inl rfl
theorem nopPacket x0 : Statement (.nopPacket x0) := Or.inl rfl
theorem launchPacket x0 : Statement (.launchPacket x0) := Or.inl rfl
theorem insertPacket x0 : Statement (.insertPacket x0) := Or.inl rfl
theorem releasePacket x0 : Statement (.releasePacket x0) := Or.inl rfl
theorem hostAccess x0 x1 x2 x3 x4 : Statement (.hostAccess x0 x1 x2 x3 x4) := Or.inl rfl
theorem fabricMemoryAccess x0 x1 x2 x3 x4 x5 : Statement (.fabricMemoryAccess x0 x1 x2 x3 x4 x5) := Or.inl rfl
theorem taggedMessage x0 x1 x2 x3 x4 : Statement (.taggedMessage x0 x1 x2 x3 x4) := Or.inl rfl
theorem pageRequestRetry x0 x1 : Statement (.pageRequestRetry x0 x1) := Or.inl rfl
theorem prqResponse x0 x1 : Statement (.prqResponse x0 x1) := Or.inl rfl
theorem prqDecline x0 x1 : Statement (.prqDecline x0 x1) := Or.inl rfl
theorem invalidatePage x0 : Statement (.invalidatePage x0) := Or.inl rfl
theorem invalidateRange x0 x1 : Statement (.invalidateRange x0 x1) := Or.inl rfl
theorem invalidateAll x0 : Statement (.invalidateAll x0) := Or.inl rfl
theorem invalidationComplete x0 : Statement (.invalidationComplete x0) := Or.inl rfl
theorem idtMap x0 x1 x2 : Statement (.idtMap x0 x1 x2) := Or.inl rfl
theorem idtUnmap x0 : Statement (.idtUnmap x0) := Or.inl rfl
theorem idtSetpin x0 : Statement (.idtSetpin x0) := Or.inl rfl
theorem idtClrpin x0 : Statement (.idtClrpin x0) := Or.inl rfl
theorem trackingPeriodEnd x0 x1 : Statement (.trackingPeriodEnd x0 x1) := Or.inl rfl
theorem pageMove x0 x1 x2 : Statement (.pageMove x0 x1 x2) := Or.inl rfl
theorem zpBackgroundClear x0 : Statement (.zpBackgroundClear x0) := Or.inl rfl
theorem keyLoad x0 : Statement (.keyLoad x0) := Or.inl rfl
theorem keyRetire x0 : Statement (.keyRetire x0) := Or.inl rfl
theorem vfReset x0 : Statement (.vfReset x0) := Or.inl rfl
theorem functionLevelReset x0 : Statement (.functionLevelReset x0) := Or.inl rfl
theorem vfEnable x0 : Statement (.vfEnable x0) := Or.inl rfl
theorem queueEnable x0 : Statement (.queueEnable x0) := Or.inl rfl
theorem quotaWrite x0 x1 x2 x3 : Statement (.quotaWrite x0 x1 x2 x3) := Or.inl rfl
theorem partWrite x0 x1 : Statement (.partWrite x0 x1) := Or.inl rfl
theorem qrangeWrite x0 x1 : Statement (.qrangeWrite x0 x1) := Or.inl rfl
theorem ctrownWrite x0 x1 : Statement (.ctrownWrite x0 x1) := Or.inl rfl
theorem ctrcfgClear x0 x1 : Statement (.ctrcfgClear x0 x1) := Or.inl rfl
theorem rsvctlWrite x0 x1 x2 x3 : Statement (.rsvctlWrite x0 x1 x2 x3) := Or.inl rfl
theorem lendConfigWrite x0 x1 x2 : Statement (.lendConfigWrite x0 x1 x2) := Or.inl rfl
theorem eqringWrite x0 x1 : Statement (.eqringWrite x0 x1) := Or.inl rfl
theorem registerWrite x0 x1 : Statement (.registerWrite x0 x1) := Or.inl rfl
theorem powerInterval : Statement (.powerInterval) := Or.inl rfl
theorem clockStepDown : Statement (.clockStepDown) := Or.inl rfl
theorem clockStepUp : Statement (.clockStepUp) := Or.inl rfl
theorem thermalThrottle x0 : Statement (.thermalThrottle x0) := Or.inl rfl
theorem thermalShutdown x0 : Statement (.thermalShutdown x0) := Or.inl rfl
theorem undervoltage : Statement (.undervoltage) := Or.inl rfl
theorem powerOn x0 : Statement (.powerOn x0) := Or.inl rfl
theorem fundamentalReset x0 : Statement (.fundamentalReset x0) := Or.inl rfl
theorem linkError x0 x1 : Statement (.linkError x0 x1) := Or.inl rfl
theorem attestationRequest x0 : Statement (.attestationRequest x0) := Or.inl rfl
theorem flashImageWrite x0 : Statement (.flashImageWrite x0) := Or.inl rfl
theorem illegalMajor x0 : Statement (.illegalMajor x0) := Or.inr (Or.inl ⟨_, rfl⟩)
theorem instructionFetchFault x0 x1 : Statement (.instructionFetchFault x0 x1) := Or.inl rfl
theorem prqheadWrite x0 x1 : Statement (.prqheadWrite x0 x1) := Or.inl rfl
theorem msgheadWrite x0 x1 : Statement (.msgheadWrite x0 x1) := Or.inl rfl
theorem signalAtomicCompletion x0 x1 : Statement (.signalAtomicCompletion x0 x1) := Or.inl rfl

end Sys2Proof.Laws.WordCount
end

