-- ==== Sys2Proof/Laws/Step.lean ====
section
/-!
SUPPORT. What a step can do, said once: each of its parts keeps a property, so the step keeps it.
-/
namespace Sys2Proof.Machine

theorem mapOut_next {f : State → State} {o : Out} {t : State} (h : mapOut f o = .next t) : ∃ u, o = .next u ∧ t = f u := by
  cases o with
  | next u => exact ⟨u, rfl, by simpa [mapOut] using h.symm⟩
  | fault x => simp [mapOut] at h
  | refused x => simp [mapOut] at h

/-- What an issue that goes on has done: an instruction, a word with a bad field, or a word that is not there. -/
theorem issue_cases {s t : State} (h : issue s = .next t) :
    (∃ i u, s.fetch = .ok i ∧ exec i s = .next u ∧ t = u.countIssue s.ctx (s.portAt s.ctx s.ctx.sp)) ∨
    (∃ maj len, s.fetch = .illField maj len ∧ s.illField maj len = .next t) ∨
    (∃ addr k, exec (.instructionFetchFault addr k) s = .next t) ∨
    (∃ addr x, s.fetch = .none addr x ∧ t = s.noWord addr x) := by
  unfold issue at h
  split at h
  · obtain ⟨u, hu, rfl⟩ := mapOut_next h
    exact .inl ⟨_, u, ‹_›, hu, rfl⟩
  · exact .inr (.inl ⟨_, _, ‹_›, h⟩)
  · exact .inr (.inr (.inl ⟨_, _, h⟩))
  · exact .inr (.inr (.inr ⟨_, _, ‹_›, by simpa using h.symm⟩))

/-- An issue of a cycle is an issue, of the state as it is or with the masks of before the cycle. -/
theorem issueIn_cases {s0 s t : State} (h : issueIn s0 s = .next t) :
    issue s = .next t ∨ ∃ old u d b, issue (s.masksBefore old) = .next u ∧
      t = u.masksAfter s.ctx.ref s.ctx.ks d s.ctx.sp.frames.length b := by
  unfold issueIn at h
  split at h
  · split at h
    · exact .inl h
    · obtain ⟨u, hu, rfl⟩ := mapOut_next h
      exact .inr ⟨_, u, _, _, hu, rfl⟩
  · exact .inl h

/-- An event that goes on is the event's meaning, or nothing. -/
theorem runEvent_cases {i : Instr} {s t : State} (h : runEvent i s = .next t) : (isEvent i = true ∧ exec i s = .next t) ∨ t = s := by
  unfold runEvent at h
  split at h
  · exact .inl ⟨‹_›, h⟩
  · exact .inr (by simpa using h.symm)

/-- What an act of a cycle has done: an event, an issue, or nothing. -/
theorem runAct_cases {s0 s t : State} {as : List Act} {a : Act} (h : runAct s0 as a s = .next t) :
    (∃ i, a = .event i ∧ runEvent i s = .next t) ∨ (∃ core port g u, s.takeSplit core port g = some u ∧ issueIn s0 u = .next t) ∨
      t = s := by
  cases a with
  | event i => exact .inl ⟨i, rfl, h⟩
  | issue core port =>
    simp only [runAct] at h
    split at h
    · rename_i u hu
      obtain ⟨g, -, hg⟩ := Option.bind_eq_some_iff.mp hu
      split at hg
      · cases hg
      · exact .inr (.inl ⟨core, port, g, u, hg, h⟩)
    · exact .inr (.inr (Host.Outcome.next.inj h).symm)

/-- Acts in turn keep what each of them keeps. -/
theorem runActs_induct {P : State → Prop} {s0 : State} {bs : List Act} (step : ∀ a s t, P s → runAct s0 bs a s = .next t → P t) :
    ∀ (as : List Act) {s t : State}, P s → runActs s0 bs as s = .next t → P t
  | [], s, t, hs, h => by simp only [runActs] at h; cases h; exact hs
  | a :: as, s, t, hs, h => by
    simp only [runActs] at h
    split at h
    · exact runActs_induct step as (step a s _ hs ‹_›) h
    · rename_i hn
      exact absurd h (hn t)

/-- What a step that goes on can have done, before it is seen which images it altered and which splits are ready. -/
inductive Proceeds (s t : State) : Prop
  | event (i rest) (hs : s.sched = .event i :: rest) (h : runEvent i (s.chose rest) = .next t)
  | nothing (rest) (h : t = s.chose rest)
  | issue (core port rest u) (hu : (s.chose rest).take core port = some u) (h : Machine.issue u = .next t)
  | part (core port n rest u) (hu : (s.chose rest).take core port = some u) (h : issuePart u n = .next t)
  | manner (m i rest u) (hu : runEvent i { s.chose rest with manner := m } = .next u) (h : t = { u with manner := .now })
  | enter (n rest) (h : t = (s.chose rest).enterSome (fun i _ => i == n))
  | behind (r k n rest) (h : t = (s.chose rest).keepBehind r k n)
  | forget (n rest) (h : t = (s.chose rest).forgetByte n)
  | refetch (slot src sector rest) (h : t = (s.chose rest).fetchSector slot src sector)
  | together (as rest) (h : runCycle as (s.chose rest) = .next t)
  | upset (u rest) (h : t = (s.chose rest).upset u)
  | any (u) (hu : s.begin.takeAny = some u) (h : Machine.issue u = .next t)
  | own (h : s.begin.enterAll.background = .next t)

theorem proceed_cases {s t : State} (h : proceed s = .next t) : Proceeds s t := by
  unfold proceed at h
  split at h
  · rename_i i rest hs
    exact .event i rest hs h
  · rename_i core port rest _
    split at h
    · rename_i u hu
      exact .issue core port rest u hu h
    · exact .nothing rest (Host.Outcome.next.inj h).symm
  · rename_i core rest _
    exact .together [.issue core 0, .issue core 1] rest h
  · rename_i core port n rest _
    split at h
    · rename_i u hu
      exact .part core port n rest u hu h
    · exact .nothing rest (Host.Outcome.next.inj h).symm
  · rename_i i rest _
    obtain ⟨u, hu, ht⟩ := mapOut_next h
    exact .manner .late i rest u hu ht
  · rename_i i rest _
    obtain ⟨u, hu, ht⟩ := mapOut_next h
    exact .manner .early i rest u hu ht
  · rename_i n rest _
    exact .enter n rest (Host.Outcome.next.inj h).symm
  · rename_i r k n rest _
    split at h
    · exact .nothing rest (Host.Outcome.next.inj h).symm
    · exact .behind r k n rest (Host.Outcome.next.inj h).symm
  · rename_i n rest _
    exact .forget n rest (Host.Outcome.next.inj h).symm
  · rename_i slot src sector rest _
    exact .refetch slot src sector rest (Host.Outcome.next.inj h).symm
  · rename_i as rest _
    exact .together as rest h
  · rename_i u rest _
    exact .upset u rest (Host.Outcome.next.inj h).symm
  · split at h
    · rename_i u hu
      exact .any u hu h
    · exact .own h

/-- A step that goes on has proceeded, and then seen what it altered and which splits are ready. -/
theorem step_cases {s t : State} (h : step s = .next t) : ∃ u, proceed s = .next u ∧ t = (s.noteAltered u).renew := mapOut_next h

end Sys2Proof.Machine
end

