-- ==== Sys2Proof/Laws/Traps.lean ====
section
/-!
SUPPORT. What taking a trap can do, after it has been counted: kill the gang, or enter a handler, at the launch's or the gate's
address.
-/
namespace Sys2Proof.Machine

/-- In a handler, or a frame called from one, a trap kills. -/
theorem State.trapFuel_inHandler (n : Nat) (s : State) (cause : Nat) (mask : Mask) (detail : DWord) (len : Nat)
    (h : s.countTrap.ctx.sp.inHandler = true) :
    State.trapFuel (n + 1) s cause mask detail len = s.countTrap.killForTrap cause detail := by
  simp [State.trapFuel, h]

/-- Outside handlers and gates, a trap enters the launch's handler if there is one and its frame fits, and kills otherwise. -/
theorem State.trapFuel_plain (n : Nat) (s : State) (cause : Nat) (mask : Mask) (detail : DWord) (len : Nat)
    (h : s.countTrap.ctx.sp.inHandler = false) (hg : gateBelow s.countTrap.ctx.sp.frames = none) :
    State.trapFuel (n + 1) s cause mask detail len =
      let u := s.countTrap
      let v := u.ctx.enterHandler u.fresh cause mask detail (u.ctx.code + u.ctx.traph) len
      if u.ctx.traph ≠ 0 ∧ v.spillFits = true then { u with ctx := v, fresh := u.fresh + 1 } else u.killForTrap cause detail := by
  unfold State.trapFuel
  simp only [h, hg, Bool.false_eq_true, if_false]
  generalize s.countTrap = u
  by_cases ht : u.ctx.traph = 0
  · rw [if_pos ht, if_neg (fun x => x.1 ht)]
  · rw [if_neg ht]
    by_cases hs : (u.ctx.enterHandler u.fresh cause mask detail (u.ctx.code + u.ctx.traph) len).spillFits = true
    · rw [if_pos hs, if_pos ⟨ht, hs⟩]
    · rw [if_neg hs, if_neg (fun x => hs x.2)]

/-- Inside a gate with a handler, a trap enters that handler if its frame fits, and kills otherwise. -/
theorem State.trapFuel_gate (n : Nat) (s : State) (cause : Nat) (mask : Mask) (detail : DWord) (len : Nat) (f : Frame)
    (below : List Frame) (h : s.countTrap.ctx.sp.inHandler = false) (hg : gateBelow s.countTrap.ctx.sp.frames = some (f, below))
    (ht : (f.desc.map (·.traph)).getD 0 ≠ 0) :
    State.trapFuel (n + 1) s cause mask detail len =
      let u := s.countTrap
      let v := u.ctx.enterHandler u.fresh cause mask detail ((f.desc.map (·.traph)).getD 0) len
      if v.spillFits = true then { u with ctx := v, fresh := u.fresh + 1 } else u.killForTrap cause detail := by
  generalize hth : (f.desc.map (·.traph)).getD 0 = th at ht ⊢
  unfold State.trapFuel
  simp only [h, hg, hth, ht, if_false, Bool.false_eq_true]

/-- What handler entry leaves alone. -/
theorem Watch.enterHandler_keeps (w : Watch) (fid cause : Nat) (mask : Mask) (detail pc : DWord) (len : Nat) :
    let v := w.enterHandler fid cause mask detail pc len
    v.resident = w.resident ∧ v.ref = w.ref ∧ v.core = w.core ∧ v.dom = w.dom ∧ v.home = w.home ∧ v.feat = w.feat ∧ v.bears = w.bears ∧
      v.shapes = w.shapes ∧ v.segs = w.segs ∧ v.bovf = w.bovf ∧ v.ntid = w.ntid ∧ v.flights = w.flights ∧ v.sp.pc = pc ∧
      v.sp.wait = .none ∧ v.lanes.length = w.lanes.length := by
  refine ⟨rfl, rfl, rfl, rfl, rfl, rfl, rfl, rfl, rfl, rfl, rfl, rfl, rfl, rfl, ?_⟩
  simp [Watch.enterHandler, Watch.stop]

end Sys2Proof.Machine
end

