-- ==== Sys2Proof/Tests/Slice0.lean ====
section
/-!
SUPPORT. Tests: words written out from the spec's encodings decode to their instructions; ill-formed terms are refused, check by
check; single instructions give the results of the spec's examples; and for every obligation with hypotheses a state and operands
that meet them.
-/
open Sys2Proof Sys2Proof.Machine
namespace Sys2Proof.Tests
set_option Elab.async false

/-! ### Words (R44 to R54, R68, and each class's tables) -/

theorem test_decode_system :
    decodeWord 0x0100100000000007 0 = .ok (.trap 2 7) ∧
    decodeWord 0x0200000000000000 0 = .ok .tret ∧
    decodeWord 0x0204000000000000 0 = .ok .tretNext ∧
    decodeWord 0x030000000000000A 0 = .ok (.srd 10) ∧
    decodeWord 0x040000000042000A 0 = .ok (.swr 10 (.s 2)) ∧
    decodeWord 0x0500000000000005 0 = .ok (.gate 5) ∧
    decodeWord 0x0600020000000100 0 = .ok (.gret 2 1) ∧
    decodeWord 0x070000000000000F 0 = .ok (.ctrrd 15) ∧
    decodeWord 0x0800000000D40000 0 = .ok (.sleep (.imm 20)) ∧
    decodeWord 0x0900000000000000 0 = .ok .yieldb ∧
    decodeWord 0x0A00000000000000 0 = .ok .yield ∧
    decodeWord 0x0B00000000000000 0 = .ok .nop ∧
    decodeWord 0x0C00000000C20000 0 = .ok (.cgrowWait (.imm 2)) ∧
    decodeWord 0x0C04000000430000 0 = .ok (.cgrowTry (.s 3)) ∧
    decodeWord 0x0D00000000C10000 0 = .ok (.cshrink (.imm 1)) ∧
    decodeWord 0x0E00000000000000 0 = .ok (.featq false) ∧
    decodeWord 0x0E00000000000001 0 = .ok (.featq true) ∧
    decodeWord 0x6E00100000000000 0 = .ok (.satclr 2) := by decide +kernel

theorem test_decode_control :
    decodeWord 0x100000FFFFFD0000 0 = .ok (.br 0xFFFFFD) ∧
    decodeWord 0x1100800102030000 0 = .ok (.bany 1 0x010203) ∧
    decodeWord 0x1201000102030000 0 = .ok (.ball 2 0x010203) ∧
    decodeWord 0x1301800102030000 0 = .ok (.bnone 3 0x010203) ∧
    decodeWord 0x1401000000020000 0 = .ok (.ifRegion 2 2) ∧
    decodeWord 0x1501800000050000 0 = .ok (.ifs 3 5) ∧
    decodeWord 0x1600000000040000 0 = .ok (.elseArm 4) ∧
    decodeWord 0x1700000000000001 0 = .ok (.rejoin 1) ∧
    decodeWord 0x18000400001F0004 0 = .ok (.loop 4 0x1F 4) ∧
    decodeWord 0x190080FFFFE30002 0 = .ok (.endloop 1 0xFFFFE3 2) ∧
    decodeWord 0x1A02800000000006 0 = .ok (.brk 5 6) ∧
    decodeWord 0x1B03000000000007 0 = .ok (.cont 6 7) ∧
    decodeWord 0x1C00030000040201 0 = .ok (.call 3 4 2 1) ∧
    decodeWord 0x1D00010000050302 0 = .ok (.calli 1 5 3 2) ∧
    decodeWord 0x1E00020000000100 0 = .ok (.ret 2 1) ∧
    decodeWord 0x1F02000000000000 0 = .ok (.exit 4) := by decide +kernel

theorem test_decode_scalar :
    decodeWord 0x2003800043FB0000 0 = .ok (.sadd ⟨.i64, 0, .ne, false, .w 0, .s 3, .imm 59, 0x0⟩) ∧
    decodeWord 0x2005800043410000 0 = .ok (.ssub ⟨.i32, 0, .ne, false, .w 0, .s 3, .s 1, 0x0⟩) ∧
    decodeWord 0x2009C00043410000 0 = .ok (.smul ⟨.n32, 0, .ne, false, .w 0, .s 3, .s 1, 0x0⟩) ∧
    decodeWord 0x200F800043410000 0 = .ok (.smulh ⟨.i64, 0, .ne, false, .w 0, .s 3, .s 1, 0x0⟩) ∧
    decodeWord 0x210380004F420000 0 = .ok (.sand ⟨.i64, 0, .ne, false, .w 0, .s 15, .s 2, 0x0⟩) ∧
    decodeWord 0x210780004F420000 0 = .ok (.sor ⟨.i64, 0, .ne, false, .w 0, .s 15, .s 2, 0x0⟩) ∧
    decodeWord 0x210B80004F420000 0 = .ok (.sxor ⟨.i64, 0, .ne, false, .w 0, .s 15, .s 2, 0x0⟩) ∧
    decodeWord 0x210F800000490000 0 = .ok (.snot ⟨.i64, 0, .ne, false, .w 0, .w 0, .s 9, 0x0⟩) ∧
    decodeWord 0x22018000C7440000 0 = .ok (.sshl ⟨.i32, 0, .ne, false, .w 0, .imm 7, .s 4, 0x0⟩) ∧
    decodeWord 0x22058000C7440000 0 = .ok (.sshr ⟨.i32, 0, .ne, false, .w 0, .imm 7, .s 4, 0x0⟩) ∧
    decodeWord 0x22098000C7440000 0 = .ok (.ssar ⟨.i32, 0, .ne, false, .w 0, .imm 7, .s 4, 0x0⟩) ∧
    decodeWord 0x23018000C7440000 0 = .ok (.smin ⟨.i32, 0, .ne, false, .w 0, .imm 7, .s 4, 0x0⟩) ∧
    decodeWord 0x23058000C7440000 0 = .ok (.smax ⟨.i32, 0, .ne, false, .w 0, .imm 7, .s 4, 0x0⟩) ∧
    decodeWord 0x23098000C7440000 0 = .ok (.snmin ⟨.i32, 0, .ne, false, .w 0, .imm 7, .s 4, 0x0⟩) ∧
    decodeWord 0x230D8000C7440000 0 = .ok (.snmax ⟨.i32, 0, .ne, false, .w 0, .imm 7, .s 4, 0x0⟩) ∧
    decodeWord 0x2403800042410000 0 = .ok (.scmp .eq ⟨.i64, 0, .ne, false, .w 0, .s 2, .s 1, 0x0⟩) ∧
    decodeWord 0x2407800042410000 0 = .ok (.scmp .ne ⟨.i64, 0, .ne, false, .w 0, .s 2, .s 1, 0x0⟩) ∧
    decodeWord 0x240B800042410000 0 = .ok (.scmp .lt ⟨.i64, 0, .ne, false, .w 0, .s 2, .s 1, 0x0⟩) ∧
    decodeWord 0x240F800042410000 0 = .ok (.scmp .le ⟨.i64, 0, .ne, false, .w 0, .s 2, .s 1, 0x0⟩) ∧
    decodeWord 0x2413800042410000 0 = .ok (.scmp .gt ⟨.i64, 0, .ne, false, .w 0, .s 2, .s 1, 0x0⟩) ∧
    decodeWord 0x2417800042410000 0 = .ok (.scmp .ge ⟨.i64, 0, .ne, false, .w 0, .s 2, .s 1, 0x0⟩) ∧
    decodeWord 0x2419C00042410000 0 = .ok (.scmp .ltu ⟨.n32, 0, .ne, false, .w 0, .s 2, .s 1, 0x0⟩) ∧
    decodeWord 0x241DC00042410000 0 = .ok (.scmp .leu ⟨.n32, 0, .ne, false, .w 0, .s 2, .s 1, 0x0⟩) ∧
    decodeWord 0x2421C00042410000 0 = .ok (.scmp .gtu ⟨.n32, 0, .ne, false, .w 0, .s 2, .s 1, 0x0⟩) ∧
    decodeWord 0x2425C00042410000 0 = .ok (.scmp .geu ⟨.n32, 0, .ne, false, .w 0, .s 2, .s 1, 0x0⟩) ∧
    decodeWord 0x2503804342410000 0 = .ok (.ssel ⟨.i64, 0, .ne, false, .s 3, .s 2, .s 1, 0x0⟩) ∧
    decodeWord 0x2603800000008001 0 = .ok (.sldi 0x8001) ∧
    decodeWord 0x260780000046ABCD 0 = .ok (.sldiHi (.s 6) 0xABCD) ∧
    decodeWord 0x2703800000000000 0xffff123456789abc = .ok (.ldil 0x123456789ABC) ∧
    decodeWord 0x2801C0FFD4030000 0 = .ok (.slane ⟨.n32, 0, .ne, false, .imm 63, .imm 20, .w 3, 0x0⟩) ∧
    decodeWord 0x29038042001E0005 0 = .ok (.spick ⟨.i64, 0, .ne, false, .s 2, .w 0, .w 30, 0x5⟩) := by decide +kernel

theorem test_decode_integer :
    decodeWord 0x30018000C5000000 0 = .ok (.iadd ⟨.i32, 0, .ne, false, .w 0, .imm 5, .w 0, 0x0⟩) ∧
    decodeWord 0x3006590002890000 0 = .ok (.isub ⟨.n16, 3, .ne, true, .w 0, .w 2, .c 9, 0x0⟩) ∧
    decodeWord 0x3009C00402010000 0 = .ok (.iadc ⟨.n32, 0, .ne, false, .w 4, .w 2, .w 1, 0x0⟩) ∧
    decodeWord 0x300DC841021F0000 0 = .ok (.isbb ⟨.n32, 1, .ne, false, .s 1, .w 2, .w 31, 0x0⟩) ∧
    decodeWord 0x3102800001430000 0 = .ok (.imul ⟨.i8, 0, .ne, false, .w 0, .w 1, .s 3, 0x0⟩) ∧
    decodeWord 0x3105C00007060000 0 = .ok (.imulh ⟨.n32, 0, .ne, false, .w 0, .w 7, .w 6, 0x0⟩) ∧
    decodeWord 0x310A01BFE0020000 0 = .ok (.imad ⟨.i16, 0, .ne, true, .c 63, .imm 32, .w 2, 0x0⟩) ∧
    decodeWord 0x3203810000040000 0 = .ok (.ineg ⟨.i64, 0, .ne, true, .w 0, .w 0, .w 4, 0x0⟩) ∧
    decodeWord 0x3207810000040000 0 = .ok (.iabs ⟨.i64, 0, .ne, true, .w 0, .w 0, .w 4, 0x0⟩) ∧
    decodeWord 0x320AF80002010000 0 = .ok (.imin ⟨.n8, 7, .ne, false, .w 0, .w 2, .w 1, 0x0⟩) ∧
    decodeWord 0x320EF80002010000 0 = .ok (.imax ⟨.n8, 7, .ne, false, .w 0, .w 2, .w 1, 0x0⟩) ∧
    decodeWord 0x3212F80002010000 0 = .ok (.nmin ⟨.n8, 7, .ne, false, .w 0, .w 2, .w 1, 0x0⟩) ∧
    decodeWord 0x3216F80002010000 0 = .ok (.nmax ⟨.n8, 7, .ne, false, .w 0, .w 2, .w 1, 0x0⟩) ∧
    decodeWord 0x3303C00082010000 0 = .ok (.andv ⟨.b32, 0, .ne, false, .w 0, .c 2, .w 1, 0x0⟩) ∧
    decodeWord 0x3307C00082010000 0 = .ok (.orv ⟨.b32, 0, .ne, false, .w 0, .c 2, .w 1, 0x0⟩) ∧
    decodeWord 0x330BC00082010000 0 = .ok (.xorv ⟨.b32, 0, .ne, false, .w 0, .c 2, .w 1, 0x0⟩) ∧
    decodeWord 0x330FC00000010000 0 = .ok (.notv ⟨.b32, 0, .ne, false, .w 0, .w 0, .w 1, 0x0⟩) ∧
    decodeWord 0x3313C00082010000 0 = .ok (.andnv ⟨.b32, 0, .ne, false, .w 0, .c 2, .w 1, 0x0⟩) ∧
    decodeWord 0x34020000C9030000 0 = .ok (.shl ⟨.i16, 0, .ne, false, .w 0, .imm 9, .w 3, 0x0⟩) ∧
    decodeWord 0x34060000C9030000 0 = .ok (.shr ⟨.i16, 0, .ne, false, .w 0, .imm 9, .w 3, 0x0⟩) ∧
    decodeWord 0x340A0000C9030000 0 = .ok (.sar ⟨.i16, 0, .ne, false, .w 0, .imm 9, .w 3, 0x0⟩) ∧
    decodeWord 0x340E0000C9030000 0 = .ok (.rot ⟨.i16, 0, .ne, false, .w 0, .imm 9, .w 3, 0x0⟩) ∧
    decodeWord 0x3501800000010804 0 = .ok (.bfx ⟨.i32, 0, .ne, false, .w 0, .w 0, .w 1, 0x804⟩) ∧
    decodeWord 0x3507C00002011F01 0 = .ok (.bfi ⟨.b32, 0, .ne, false, .w 0, .w 2, .w 1, 0x1F01⟩) ∧
    decodeWord 0x3603800000020000 0 = .ok (.popc ⟨.i64, 0, .ne, false, .w 0, .w 0, .w 2, 0x0⟩) ∧
    decodeWord 0x3607800000020000 0 = .ok (.clz ⟨.i64, 0, .ne, false, .w 0, .w 0, .w 2, 0x0⟩) ∧
    decodeWord 0x360B800000020000 0 = .ok (.brev ⟨.i64, 0, .ne, false, .w 0, .w 0, .w 2, 0x0⟩) := by decide +kernel

theorem test_decode_integerCompare :
    decodeWord 0x3701900040000001 0 = .ok (.icmp .eq ⟨.i32, 2, .ne, false, .w 0, .s 0, .w 0, 0x1⟩) ∧
    decodeWord 0x3705900040000002 0 = .ok (.icmp .ne ⟨.i32, 2, .ne, false, .w 0, .s 0, .w 0, 0x2⟩) ∧
    decodeWord 0x3709900040000003 0 = .ok (.icmp .lt ⟨.i32, 2, .ne, false, .w 0, .s 0, .w 0, 0x3⟩) ∧
    decodeWord 0x370D900040000004 0 = .ok (.icmp .le ⟨.i32, 2, .ne, false, .w 0, .s 0, .w 0, 0x4⟩) ∧
    decodeWord 0x3711900040000005 0 = .ok (.icmp .gt ⟨.i32, 2, .ne, false, .w 0, .s 0, .w 0, 0x5⟩) ∧
    decodeWord 0x3715900040000006 0 = .ok (.icmp .ge ⟨.i32, 2, .ne, false, .w 0, .s 0, .w 0, 0x6⟩) ∧
    decodeWord 0x3719900040000007 0 = .ok (.icmp .ltu ⟨.i32, 2, .ne, false, .w 0, .s 0, .w 0, 0x7⟩) ∧
    decodeWord 0x371D900040000001 0 = .ok (.icmp .leu ⟨.i32, 2, .ne, false, .w 0, .s 0, .w 0, 0x1⟩) ∧
    decodeWord 0x3721900040000002 0 = .ok (.icmp .gtu ⟨.i32, 2, .ne, false, .w 0, .s 0, .w 0, 0x2⟩) ∧
    decodeWord 0x3725900040000003 0 = .ok (.icmp .geu ⟨.i32, 2, .ne, false, .w 0, .s 0, .w 0, 0x3⟩) ∧
    decodeWord 0x3803C00000400001 0 = .ok (.sel ⟨.b32, 0, .ne, false, .w 0, .w 0, .s 0, 0x1⟩) ∧
    decodeWord 0x3903800000830000 0 = .ok (.pick ⟨.i64, 0, .ne, false, .w 0, .w 0, .c 3, 0x0⟩) ∧
    decodeWord 0x3A0380000000FFFE 0 = .ok (.ldi ⟨.i64, 0, .ne, false, .w 0, .w 0, .w 0, 0xFFFE⟩) ∧
    decodeWord 0x3A07C00000013F80 0 = .ok (.ldiHi ⟨.b32, 0, .ne, false, .w 0, .w 0, .w 1, 0x3F80⟩) ∧
    decodeWord 0x3B03C8000002003F 0 = .ok (.stash ⟨.b32, 1, .ne, false, .w 0, .w 0, .w 2, 0x3F⟩) ∧
    decodeWord 0x3B07800000BE0000 0 = .ok (.unstash ⟨.i64, 0, .ne, false, .w 0, .w 0, .c 62, 0x0⟩) ∧
    decodeWord 0x3C00000000000321 0 = .ok (.kand 3 2 1) ∧
    decodeWord 0x3C04000000000321 0 = .ok (.kor 3 2 1) ∧
    decodeWord 0x3C08000000000321 0 = .ok (.kxor 3 2 1) ∧
    decodeWord 0x3C0C000000000321 0 = .ok (.kandn 3 2 1) ∧
    decodeWord 0x3D00000000000540 0 = .ok (.knot 5 4) ∧
    decodeWord 0x3D04000000000540 0 = .ok (.kmov 5 4) ∧
    decodeWord 0x3D08000000430700 0 = .ok (.kset 7 (.s 3)) ∧
    decodeWord 0x3E00000000000060 0 = .ok (.kpop 6) ∧
    decodeWord 0x3E04000000000060 0 = .ok (.kfirst 6) := by decide +kernel

theorem test_decode_float :
    decodeWord 0x5000020002019000 0 = .ok (.fadd ⟨.f32, 0, .tz, false, .w 0, .w 2, .w 1, 0x9000⟩) ∧
    decodeWord 0x50040C000201A000 0 = .ok (.fsub ⟨.f32, 1, .dn, false, .w 0, .w 2, .w 1, 0xA000⟩) ∧
    decodeWord 0x500816000201B000 0 = .ok (.fmul ⟨.f32, 2, .up, false, .w 0, .w 2, .w 1, 0xB000⟩) ∧
    decodeWord 0x5100000201004000 0 = .ok (.ffma ⟨.f32, 0, .ne, false, .w 2, .w 1, .w 0, 0x4000⟩) ∧
    decodeWord 0x5104000201004000 0 = .ok (.ffms ⟨.f32, 0, .ne, false, .w 2, .w 1, .w 0, 0x4000⟩) ∧
    decodeWord 0x52000000C3412000 0 = .ok (.fmin ⟨.f32, 0, .ne, false, .w 0, .imm 3, .s 1, 0x2000⟩) ∧
    decodeWord 0x52040000C3412000 0 = .ok (.fmax ⟨.f32, 0, .ne, false, .w 0, .imm 3, .s 1, 0x2000⟩) ∧
    decodeWord 0x53000000C0051001 0 = .ok (.fcmp .eq ⟨.f32, 0, .ne, false, .w 0, .imm 0, .w 5, 0x1001⟩) ∧
    decodeWord 0x53040000C0051002 0 = .ok (.fcmp .ne ⟨.f32, 0, .ne, false, .w 0, .imm 0, .w 5, 0x1002⟩) ∧
    decodeWord 0x53080000C0051003 0 = .ok (.fcmp .lt ⟨.f32, 0, .ne, false, .w 0, .imm 0, .w 5, 0x1003⟩) ∧
    decodeWord 0x530C0000C0051004 0 = .ok (.fcmp .le ⟨.f32, 0, .ne, false, .w 0, .imm 0, .w 5, 0x1004⟩) ∧
    decodeWord 0x53100000C0051005 0 = .ok (.fcmp .gt ⟨.f32, 0, .ne, false, .w 0, .imm 0, .w 5, 0x1005⟩) ∧
    decodeWord 0x53140000C0051006 0 = .ok (.fcmp .ge ⟨.f32, 0, .ne, false, .w 0, .imm 0, .w 5, 0x1006⟩) ∧
    decodeWord 0x53180000C0051007 0 = .ok (.fcmp .un ⟨.f32, 0, .ne, false, .w 0, .imm 0, .w 5, 0x1007⟩) ∧
    decodeWord 0x531C0000C0051001 0 = .ok (.fcmp .ord ⟨.f32, 0, .ne, false, .w 0, .imm 0, .w 5, 0x1001⟩) ∧
    decodeWord 0x5400000000810000 0 = .ok (.fclass ⟨.f32, 0, .ne, false, .w 0, .w 0, .c 1, 0x0⟩) ∧
    decodeWord 0x5500040000019000 0 = .ok (.frnd ⟨.f32, 0, .dn, false, .w 0, .w 0, .w 1, 0x9000⟩) ∧
    decodeWord 0x5600060002010000 0 = .ok (.fdiv ⟨.f32, 0, .up, false, .w 0, .w 2, .w 1, 0x0⟩) ∧
    decodeWord 0x5700080000028000 0 = .ok (.frcp ⟨.f32, 1, .ne, false, .w 0, .w 0, .w 2, 0x8000⟩) ∧
    decodeWord 0x5704080000028000 0 = .ok (.frsq ⟨.f32, 1, .ne, false, .w 0, .w 0, .w 2, 0x8000⟩) ∧
    decodeWord 0x57080E0000028000 0 = .ok (.fsqrt ⟨.f32, 1, .up, false, .w 0, .w 0, .w 2, 0x8000⟩) ∧
    decodeWord 0x5800080000028000 0 = .ok (.fexp2 ⟨.f32, 1, .ne, false, .w 0, .w 0, .w 2, 0x8000⟩) ∧
    decodeWord 0x5804080000028000 0 = .ok (.flog2 ⟨.f32, 1, .ne, false, .w 0, .w 0, .w 2, 0x8000⟩) ∧
    decodeWord 0x5900080000028000 0 = .ok (.fsin ⟨.f32, 1, .ne, false, .w 0, .w 0, .w 2, 0x8000⟩) ∧
    decodeWord 0x5904080000028000 0 = .ok (.fcos ⟨.f32, 1, .ne, false, .w 0, .w 0, .w 2, 0x8000⟩) ∧
    decodeWord 0x5908080000028000 0 = .ok (.ftanh ⟨.f32, 1, .ne, false, .w 0, .w 0, .w 2, 0x8000⟩) ∧
    decodeWord 0x5A00C00000030100 0 = .ok (.fcvt ⟨.f8a, 0, .ne, false, .w 0, .w 0, .w 3, 0x100⟩) ∧
    decodeWord 0x5B0040000100011A 0 = .ok (.icvt ⟨.f16, 0, .ne, false, .w 0, .w 1, .w 0, 0x11A⟩) ∧
    decodeWord 0x5B06820000010200 0 = .ok (.ficvt ⟨.i8, 0, .tz, false, .w 0, .w 0, .w 1, 0x200⟩) ∧
    decodeWord 0x5C00820002011000 0 = .ok (.hadd2 ⟨.bf16, 0, .tz, false, .w 0, .w 2, .w 1, 0x1000⟩) ∧
    decodeWord 0x5C04820002011000 0 = .ok (.hmul2 ⟨.bf16, 0, .tz, false, .w 0, .w 2, .w 1, 0x1000⟩) ∧
    decodeWord 0x5C08400302014000 0 = .ok (.hfma2 ⟨.f16, 0, .ne, false, .w 3, .w 2, .w 1, 0x4000⟩) ∧
    decodeWord 0x5D000400C1400000 0 = .ok (.sfadd ⟨.f32, 0, .dn, false, .w 0, .imm 1, .s 0, 0x0⟩) ∧
    decodeWord 0x5D040400C1400000 0 = .ok (.sfmul ⟨.f32, 0, .dn, false, .w 0, .imm 1, .s 0, 0x0⟩) ∧
    decodeWord 0x5D08004241404000 0 = .ok (.sffma ⟨.f32, 0, .ne, false, .s 2, .s 1, .s 0, 0x4000⟩) ∧
    decodeWord 0x5D0C000041400006 0 = .ok (.sfcmp ⟨.f32, 0, .ne, false, .w 0, .s 1, .s 0, 0x6⟩) := by decide +kernel

theorem test_decode_packed :
    decodeWord 0x6802C10201000001 0 = .ok (.dot4 ⟨.n8, 0, .ne, true, .w 2, .w 1, .w 0, 0x1⟩) ∧
    decodeWord 0x6807000201000000 0 = .ok (.dot8 ⟨.i4, 0, .ne, false, .w 2, .w 1, .w 0, 0x0⟩) ∧
    decodeWord 0x6901020201004000 0 = .ok (.fdot4 ⟨.f8b, 0, .tz, false, .w 2, .w 1, .w 0, 0x4000⟩) ∧
    decodeWord 0x6905404001000000 0 = .ok (.fdot8 ⟨.f4, 0, .ne, false, .s 0, .w 1, .w 0, 0x0⟩) ∧
    decodeWord 0x6A02000402000000 0 = .ok (.mac2 ⟨.i16, 0, .ne, false, .w 4, .w 2, .w 0, 0x0⟩) ∧
    decodeWord 0x6B02010000010000 0 = .ok (.pack ⟨.i16, 0, .ne, true, .w 0, .w 0, .w 1, 0x0⟩) ∧
    decodeWord 0x6B06800000000001 0 = .ok (.unpk ⟨.i8, 0, .ne, false, .w 0, .w 0, .w 0, 0x1⟩) ∧
    decodeWord 0x6C02010003000110 0 = .ok (.shrr ⟨.i16, 0, .ne, true, .w 0, .w 3, .w 0, 0x110⟩) ∧
    decodeWord 0x6D00000001000002 0 = .ok (.fscl ⟨.f32, 0, .ne, false, .w 0, .w 1, .w 0, 0x2⟩) := by decide +kernel

theorem test_decode_crossLane :
    decodeWord 0x7003C0C001000000 0 = .ok (.shfl ⟨.b32, 0, .ne, false, .imm 0, .w 1, .w 0, 0x0⟩) ∧
    decodeWord 0x7007C000C1000000 0 = .ok (.shflx ⟨.b32, 0, .ne, false, .w 0, .imm 1, .w 0, 0x0⟩) ∧
    decodeWord 0x710200C001000101 0 = .ok (.slide ⟨.i16, 0, .ne, false, .imm 0, .w 1, .w 0, 0x101⟩) ∧
    decodeWord 0x7203C000C5020000 0 = .ok (.bcastl ⟨.b32, 0, .ne, false, .w 0, .imm 5, .w 2, 0x0⟩) ∧
    decodeWord 0x7303800000030000 0 = .ok (.red .add ⟨.i64, 0, .ne, false, .w 0, .w 0, .w 3, 0x0⟩) ∧
    decodeWord 0x740380C200010001 0 = .ok (.scan .add ⟨.i64, 0, .ne, false, .imm 2, .w 0, .w 1, 0x1⟩) ∧
    decodeWord 0x7307800000030000 0 = .ok (.red .min ⟨.i64, 0, .ne, false, .w 0, .w 0, .w 3, 0x0⟩) ∧
    decodeWord 0x740780C200010001 0 = .ok (.scan .min ⟨.i64, 0, .ne, false, .imm 2, .w 0, .w 1, 0x1⟩) ∧
    decodeWord 0x730B800000030000 0 = .ok (.red .max ⟨.i64, 0, .ne, false, .w 0, .w 0, .w 3, 0x0⟩) ∧
    decodeWord 0x740B80C200010001 0 = .ok (.scan .max ⟨.i64, 0, .ne, false, .imm 2, .w 0, .w 1, 0x1⟩) ∧
    decodeWord 0x730F800000030000 0 = .ok (.red .nmin ⟨.i64, 0, .ne, false, .w 0, .w 0, .w 3, 0x0⟩) ∧
    decodeWord 0x740F80C200010001 0 = .ok (.scan .nmin ⟨.i64, 0, .ne, false, .imm 2, .w 0, .w 1, 0x1⟩) ∧
    decodeWord 0x7313800000030000 0 = .ok (.red .nmax ⟨.i64, 0, .ne, false, .w 0, .w 0, .w 3, 0x0⟩) ∧
    decodeWord 0x741380C200010001 0 = .ok (.scan .nmax ⟨.i64, 0, .ne, false, .imm 2, .w 0, .w 1, 0x1⟩) ∧
    decodeWord 0x7317800000030000 0 = .ok (.red .and ⟨.i64, 0, .ne, false, .w 0, .w 0, .w 3, 0x0⟩) ∧
    decodeWord 0x741780C200010001 0 = .ok (.scan .and ⟨.i64, 0, .ne, false, .imm 2, .w 0, .w 1, 0x1⟩) ∧
    decodeWord 0x731B800000030000 0 = .ok (.red .or ⟨.i64, 0, .ne, false, .w 0, .w 0, .w 3, 0x0⟩) ∧
    decodeWord 0x741B80C200010001 0 = .ok (.scan .or ⟨.i64, 0, .ne, false, .imm 2, .w 0, .w 1, 0x1⟩) ∧
    decodeWord 0x731F800000030000 0 = .ok (.red .xor ⟨.i64, 0, .ne, false, .w 0, .w 0, .w 3, 0x0⟩) ∧
    decodeWord 0x741F80C200010001 0 = .ok (.scan .xor ⟨.i64, 0, .ne, false, .imm 2, .w 0, .w 1, 0x1⟩) ∧
    decodeWord 0x7320000000030000 0 = .ok (.red .fadd ⟨.f32, 0, .ne, false, .w 0, .w 0, .w 3, 0x0⟩) ∧
    decodeWord 0x742000C200010001 0 = .ok (.scan .fadd ⟨.f32, 0, .ne, false, .imm 2, .w 0, .w 1, 0x1⟩) ∧
    decodeWord 0x7324000000030000 0 = .ok (.red .fmin ⟨.f32, 0, .ne, false, .w 0, .w 0, .w 3, 0x0⟩) ∧
    decodeWord 0x742400C200010001 0 = .ok (.scan .fmin ⟨.f32, 0, .ne, false, .imm 2, .w 0, .w 1, 0x1⟩) ∧
    decodeWord 0x7328000000030000 0 = .ok (.red .fmax ⟨.f32, 0, .ne, false, .w 0, .w 0, .w 3, 0x0⟩) ∧
    decodeWord 0x742800C200010001 0 = .ok (.scan .fmax ⟨.f32, 0, .ne, false, .imm 2, .w 0, .w 1, 0x1⟩) ∧
    decodeWord 0x7503D00000000003 0 = .ok (.kbal ⟨.b32, 2, .ne, false, .w 0, .w 0, .w 0, 0x3⟩) := by decide +kernel

theorem test_decode_bearing :
    decodeWord 0x7800800000020100 0 = .ok (.bset ⟨.bf16, 0, .ne, false, .w 0, .w 0, .w 2, 0x100⟩) ∧
    decodeWord 0x7804000000000300 0 = .ok (.bzero ⟨.f32, 0, .ne, false, .w 0, .w 0, .w 0, 0x300⟩) ∧
    decodeWord 0x7900880000000020 0 = .ok (.bget ⟨.bf16, 1, .ne, false, .w 0, .w 0, .w 0, 0x20⟩) ∧
    decodeWord 0x7906000000000030 0 = .ok (.bdir ⟨.i16, 0, .ne, false, .w 0, .w 0, .w 0, 0x30⟩) ∧
    decodeWord 0x7A00000000000040 0 = .ok (.bnorm ⟨.f32, 0, .ne, false, .w 0, .w 0, .w 0, 0x40⟩) ∧
    decodeWord 0x7A04000000000070 0 = .ok (.btest ⟨.f32, 0, .ne, false, .w 0, .w 0, .w 0, 0x70⟩) ∧
    decodeWord 0x7B00000000F80120 0 = .ok (.bscl ⟨.f32, 0, .ne, false, .w 0, .w 0, .imm 56, 0x120⟩) ∧
    decodeWord 0x7B04000000000210 0 = .ok (.bneg ⟨.f32, 0, .ne, false, .w 0, .w 0, .w 0, 0x210⟩) ∧
    decodeWord 0x7B08000000000760 0 = .ok (.bmov ⟨.f32, 0, .ne, false, .w 0, .w 0, .w 0, 0x760⟩) ∧
    decodeWord 0x7C00000000000012 0 = .ok (.bdot ⟨.f32, 0, .ne, false, .w 0, .w 0, .w 0, 0x12⟩) ∧
    decodeWord 0x7D00000000000312 0 = .ok (.badd ⟨.f32, 0, .ne, false, .w 0, .w 0, .w 0, 0x312⟩) ∧
    decodeWord 0x7D04000042410421 0 = .ok (.bmix ⟨.f32, 0, .ne, false, .w 0, .s 2, .s 1, 0x421⟩) ∧
    decodeWord 0x7E00004041420001 0 = .ok (.bmatch ⟨.f32, 0, .ne, false, .s 0, .s 1, .s 2, 0x1⟩) ∧
    decodeWord 0x7F68320000400040 0 = .ok (.bld 2 ⟨1, 5, 0, 3, .f32, .w 0, .w 0, .s 0, 0x40⟩) ∧
    decodeWord 0x7F283A0000400040 0 = .ok (.bst 2 ⟨0, 5, 0, 3, .f32, .w 0, .w 0, .s 0, 0x40⟩) := by decide +kernel

theorem test_decode_memory :
    decodeWord 0x806431000247FFFE 0 = .ok (.ld ⟨1, 4, 4, 3, .f16, .w 0, .w 2, .s 7, 0xFFFE⟩) ∧
    decodeWord 0x81A9260100417FFF 0 = .ok (.st ⟨2, 5, 1, 2, .i32, .w 1, .w 0, .s 1, 0x7FFF⟩) ∧
    decodeWord 0x82500F00C0010100 0 = .ok (.lds ⟨1, 2, 0, 0, .b32, .w 0, .imm 0, .w 1, 0x100⟩) ∧
    decodeWord 0x83900A0302010001 0 = .ok (.sts ⟨2, 2, 0, 0, .i8, .w 3, .w 2, .w 1, 0x1⟩) ∧
    decodeWord 0x843B0E00C0420008 0 = .ok (.ldu ⟨0, 7, 3, 0, .i64, .w 0, .imm 0, .s 2, 0x8⟩) ∧
    decodeWord 0x85B2194344C18000 0 = .ok (.stu ⟨2, 6, 2, 1, .n16, .s 3, .s 4, .imm 1, 0x8000⟩) ∧
    decodeWord 0x86285F0001030010 0 = .ok (.ldw ⟨0, 5, 0, 5, .b32, .w 0, .w 1, .w 3, 0x10⟩) ∧
    decodeWord 0x8728FFBC001E0010 0 = .ok (.stw ⟨0, 5, 0, 15, .b32, .c 60, .w 0, .w 30, 0x10⟩) ∧
    decodeWord 0x88001200C0020004 0 = .ok (.lea ⟨0, 0, 0, 1, .bf16, .w 0, .imm 0, .w 2, 0x4⟩) ∧
    decodeWord 0x892A1F0000400000 0 = .ok (.pref ⟨0, 5, 2, 1, .b32, .w 0, .w 0, .s 0, 0x0⟩) ∧
    decodeWord 0x8A18100000400000 0 = .ok (.cwb ⟨0, 3, 0, 1, .f32, .w 0, .w 0, .s 0, 0x0⟩) ∧
    decodeWord 0x8A18110000400000 0 = .ok (.cinv ⟨0, 3, 0, 1, .f32, .w 0, .w 0, .s 0, 0x0⟩) := by decide +kernel

theorem test_decode_atomic :
    decodeWord 0x90282E0100400008 0 = .ok (.atomAdd ⟨0, 5, 0, 2, .i64, .w 1, .w 0, .s 0, 0x8⟩) ∧
    decodeWord 0x90682E0100401FF8 0 = .ok (.atomAnd ⟨1, 5, 0, 2, .i64, .w 1, .w 0, .s 0, 0xFFF8⟩) ∧
    decodeWord 0x90A82E0100402008 0 = .ok (.atomOr ⟨2, 5, 0, 2, .i64, .w 1, .w 0, .s 0, 0x8⟩) ∧
    decodeWord 0x90E82E0100403FF8 0 = .ok (.atomXor ⟨3, 5, 0, 2, .i64, .w 1, .w 0, .s 0, 0xFFF8⟩) ∧
    decodeWord 0x90282E0100404008 0 = .ok (.atomMin ⟨0, 5, 0, 2, .i64, .w 1, .w 0, .s 0, 0x8⟩) ∧
    decodeWord 0x90682E0100405FF8 0 = .ok (.atomMax ⟨1, 5, 0, 2, .i64, .w 1, .w 0, .s 0, 0xFFF8⟩) ∧
    decodeWord 0x90A82E0100406008 0 = .ok (.atomNmin ⟨2, 5, 0, 2, .i64, .w 1, .w 0, .s 0, 0x8⟩) ∧
    decodeWord 0x90E82E0100407FF8 0 = .ok (.atomNmax ⟨3, 5, 0, 2, .i64, .w 1, .w 0, .s 0, 0xFFF8⟩) ∧
    decodeWord 0x90282E0100408008 0 = .ok (.atomXchg ⟨0, 5, 0, 2, .i64, .w 1, .w 0, .s 0, 0x8⟩) ∧
    decodeWord 0x91E8160201400000 0 = .ok (.acas ⟨3, 5, 0, 1, .i32, .w 2, .w 1, .s 0, 0x0⟩) ∧
    decodeWord 0x9229000201400004 0 = .ok (.afadd ⟨0, 5, 1, 0, .f32, .w 2, .w 1, .s 0, 0x4⟩) ∧
    decodeWord 0x9328400001420000 0 = .ok (.axadd ⟨0, 5, 0, 4, .f32, .w 0, .w 1, .s 2, 0x0⟩) ∧
    decodeWord 0x9450060000400010 0 = .ok (.lres ⟨1, 2, 0, 0, .i32, .w 0, .w 0, .s 0, 0x10⟩) ∧
    decodeWord 0x9598070501400000 0 = .ok (.scnd ⟨2, 3, 0, 0, .n32, .w 5, .w 1, .s 0, 0x0⟩) := by decide +kernel

theorem test_decode_ordering :
    decodeWord 0x96B8000000000000 0 = .ok (.fence 2 7) ∧
    decodeWord 0x9728100000000000 0 = .ok (.fencex 5 1 0) ∧
    decodeWord 0x9800000000000000 0 = .ok .barrierBlock ∧
    decodeWord 0x9804000000000000 0 = .ok .barrierGang ∧
    decodeWord 0x9900000041400000 0 = .ok (.binit ⟨0, 0, 0, 0, .s 1, .s 0, 0x0⟩) ∧
    decodeWord 0x9A00000041D00000 0 = .ok (.barm ⟨0, 0, 0, 0, .s 1, .imm 16, 0x0⟩) ∧
    decodeWord 0x9B00000041420000 0 = .ok (.barrive ⟨0, 0, 0, 0, .s 1, .s 2, 0x0⟩) ∧
    decodeWord 0x9C00000141C00000 0 = .ok (.waitb ⟨0, 0, 0, 1, .s 1, .imm 0, 0x0⟩) ∧
    decodeWord 0x9D00000041430000 0 = .ok (.testb ⟨0, 0, 0, 0, .s 1, .s 3, 0x0⟩) ∧
    decodeWord 0x9E00000000000003 0 = .ok (.waitcLd 3) ∧
    decodeWord 0x9E04000100000000 0 = .ok (.waitcEng true 0) := by decide +kernel

theorem test_decode_copy :
    decodeWord 0xA000C00000402002 0 = .ok (.shld ⟨3, 0, 0, 0, .w 0, .s 0, 0x2002⟩) ∧
    decodeWord 0xA004C00000402002 0 = .ok (.shst ⟨3, 0, 0, 0, .w 0, .s 0, 0x2002⟩) ∧
    decodeWord 0xA100C00000410001 0 = .ok (.shset ⟨3, 0, 0, 0, .w 0, .s 1, 0x1⟩) ∧
    decodeWord 0xA200480141000000 0 = .ok (.cpy ⟨1, 2, 0, 1, .s 1, .w 0, 0x0⟩) ∧
    decodeWord 0xA300480041430000 0 = .ok (.cpys ⟨1, 2, 0, 0, .s 1, .s 3, 0x0⟩) ∧
    decodeWord 0xA40048004100000E 0 = .ok (.cpyp ⟨1, 2, 0, 0, .s 1, .w 0, 0xE⟩) ∧
    decodeWord 0xA501158040000000 0 = .ok (.gthr ⟨4, 5, 6, 0, .s 0, .w 0, 0x0⟩) ∧
    decodeWord 0xA601158240000000 0 = .ok (.scat ⟨4, 5, 6, 2, .s 0, .w 0, 0x0⟩) ∧
    decodeWord 0xA700480441420002 0 = .ok (.collRed ⟨1, 2, 0, 4, .s 1, .s 2, 0x2⟩) ∧
    decodeWord 0xA704480441420000 0 = .ok (.collBcast ⟨1, 2, 0, 4, .s 1, .s 2, 0x0⟩) ∧
    decodeWord 0xA708480441420000 0 = .ok (.collGath ⟨1, 2, 0, 4, .s 1, .s 2, 0x0⟩) ∧
    decodeWord 0xA70C480441420002 0 = .ok (.collAllred ⟨1, 2, 0, 4, .s 1, .s 2, 0x2⟩) := by decide +kernel

theorem test_decode_matrix :
    decodeWord 0xB000480041C00000 0 = .ok (.mma ⟨1, 2, 0, 0, .s 1, .imm 0, 0x0⟩) ∧
    decodeWord 0xB100D00442C00020 0 = .ok (.mmap ⟨3, 4, 0, 4, .s 2, .imm 0, 0x20⟩) ∧
    decodeWord 0xB2015801414300FF 0 = .ok (.mmas ⟨5, 6, 0, 1, .s 1, .s 3, 0xFF⟩) ∧
    decodeWord 0xB205580941430040 0 = .ok (.mmasp ⟨5, 6, 0, 9, .s 1, .s 3, 0x40⟩) ∧
    decodeWord 0xB300001000401F00 0 = .ok (.accinit ⟨0, 0, 0, 16, .w 0, .s 0, 0x1F00⟩) ∧
    decodeWord 0xB400480000000080 0 = .ok (.anchor ⟨1, 2, 0, 0, .w 0, .w 0, 0x80⟩) ∧
    decodeWord 0xB501C00441C00000 0 = .ok (.accrd ⟨7, 0, 0, 4, .s 1, .imm 0, 0x0⟩) ∧
    decodeWord 0xB602000841C00000 0 = .ok (.accrdw ⟨8, 0, 0, 8, .s 1, .imm 0, 0x0⟩) ∧
    decodeWord 0xB702400041420000 0 = .ok (.accadd ⟨9, 0, 0, 0, .s 1, .s 2, 0x0⟩) ∧
    decodeWord 0xB800000841420300 0 = .ok (.accstat ⟨0, 0, 0, 8, .s 1, .s 2, 0x300⟩) := by decide +kernel

theorem test_decode_task :
    decodeWord 0xC000000000400000 0 = .ok (.node (.s 0)) ∧
    decodeWord 0xC10000000040012C 0 = .ok (.ndep (.s 0) 300) ∧
    decodeWord 0xC200000000C50002 0 = .ok (.nrel (.imm 5) 2) ∧
    decodeWord 0xC300000000410003 0 = .ok (.fork (.s 1) 3) ∧
    decodeWord 0xC400000000000000 0 = .ok .join ∧
    decodeWord 0xC500000000400000 0 = .ok (.arm (.s 0)) ∧
    decodeWord 0xC600000000470000 0 = .ok (.disarm (.s 7)) ∧
    decodeWord 0xC700000000420000 0 = .ok (.launchq (.s 2)) := by decide +kernel

/-! ### Ill-formed terms are refused, check by check -/

/-- A format A term of a type, with its operand fields. -/
def fA (t : Ty) (c b a : Opnd) (ext : BitVec 16) : FmtA := ⟨t, 0, .ne, false, c, b, a, ext⟩
/-- Operand kinds: unused, scalar, optional scalar, vector, caddy slot, quad; a 64-bit value inside its space. -/
theorem test_wf_operands :
    (Instr.notv (fA .b32 (.w 0) (.w 0) (.w 3) 0)).wf = true ∧ (Instr.notv (fA .b32 (.w 0) (.w 1) (.w 3) 0)).wf = false ∧
    (Instr.notv (fA .b32 (.w 1) (.w 0) (.w 3) 0)).wf = false ∧
    (Instr.sadd (fA .i64 (.w 0) (.s 1) (.s 2) 0)).wf = true ∧ (Instr.sadd (fA .i64 (.w 0) (.w 1) (.s 2) 0)).wf = false ∧
    (Instr.sadd (fA .i64 (.w 0) (.s 1) (.c 2) 0)).wf = false ∧ (Instr.sleep (.w 0)).wf = false ∧ (Instr.node (.c 0)).wf = false ∧
    (Instr.bcastl (fA .b32 (.w 0) (.s 1) (.w 2) 0)).wf = true ∧ (Instr.bcastl (fA .b32 (.w 1) (.s 1) (.w 2) 0)).wf = false ∧
    (Instr.bcastl (fA .b32 (.w 0) (.s 1) (.s 2) 0)).wf = false ∧
    (Instr.unstash (fA .b32 (.w 0) (.w 0) (.c 63) 0)).wf = true ∧ (Instr.unstash (fA .b32 (.w 0) (.w 0) (.w 5) 0)).wf = false ∧
    (Instr.unstash (fA .i64 (.w 0) (.w 0) (.c 63) 0)).wf = false ∧ (Instr.iadd (fA .i32 (.w 0) (.w 31) (.w 31) 0)).wf = true ∧
    (Instr.iadd (fA .i64 (.w 0) (.w 30) (.w 31) 0)).wf = false := by decide +kernel
/-- TYPE, KSEL, RND, SAT and EXT of format A. -/
theorem test_wf_fields :
    (Instr.iadd (fA .f32 (.w 0) (.w 1) (.w 2) 0)).wf = false ∧ (Instr.iadd (fA .i32 (.w 0) (.w 1) (.w 2) 1)).wf = false ∧
    (Instr.iadd ⟨.i32, 7, .ne, true, .w 0, .w 1, .w 2, 0⟩).wf = true ∧ (Instr.iadd ⟨.i32, 7, .up, true, .w 0, .w 1, .w 2, 0⟩).wf = false ∧
    (Instr.imin ⟨.i32, 7, .ne, true, .w 0, .w 1, .w 2, 0⟩).wf = false ∧ (Instr.sadd ⟨.i64, 1, .ne, false, .w 0, .s 1, .s 2, 0⟩).wf = false ∧
    (Instr.bfx (fA .b32 (.w 0) (.w 0) (.w 1) 0x1010)).wf = true ∧ (Instr.bfx (fA .b32 (.w 0) (.w 0) (.w 1) 0x1111)).wf = false ∧
    (Instr.icmp .eq (fA .i32 (.w 0) (.w 1) (.w 2) 0)).wf = false ∧ (Instr.icmp .eq (fA .i32 (.w 0) (.w 1) (.w 2) 8)).wf = false ∧
    (Instr.sel (fA .b32 (.w 0) (.w 1) (.w 2) 8)).wf = false ∧ (Instr.stash (fA .i64 (.w 0) (.w 0) (.w 2) 63)).wf = false ∧
    (Instr.fadd (fA .f32 (.w 0) (.w 1) (.w 2) 0x4000)).wf = false ∧ (Instr.ffma (fA .f32 (.w 0) (.w 1) (.w 2) 0x4000)).wf = true ∧
    (Instr.frsq (fA .f32 (.w 0) (.w 0) (.w 2) 0x2000)).wf = false ∧ (Instr.fcmp .eq (fA .f32 (.w 0) (.w 1) (.w 2) 0)).wf = false ∧
    (Instr.fcvt (fA .f32 (.w 0) (.w 0) (.w 2) 0x0001)).wf = true ∧ (Instr.fcvt (fA .f32 (.w 0) (.w 0) (.w 2) 0x0006)).wf = false ∧
    (Instr.fcvt (fA .f32 (.w 0) (.w 0) (.w 2) 0x0021)).wf = false ∧ (Instr.fcvt (fA .f32 (.w 0) (.w 0) (.w 2) 0x0101)).wf = false ∧
    (Instr.fcvt ⟨.f8a, 0, .up, false, .w 0, .w 1, .w 2, 0⟩).wf = false ∧ (Instr.dot4 (fA .i8 (.w 0) (.w 1) (.w 2) 2)).wf = false ∧
    (Instr.fdot4 (fA .f8a (.w 0) (.w 1) (.w 2) 1)).wf = false ∧ (Instr.slide (fA .b32 (.w 0) (.w 1) (.w 2) 0x0FF)).wf = false ∧
    (Instr.red .fadd (fA .i32 (.w 0) (.w 0) (.w 2) 0)).wf = false ∧ (Instr.red .and ⟨.b32, 0, .ne, true, .w 0, .w 0, .w 2, 0⟩).wf = false ∧
    (Instr.scan .add (fA .i32 (.w 0) (.w 0) (.w 2) 2)).wf = false ∧ (Instr.scan .add (fA .i32 (.s 1) (.w 0) (.w 2) 0)).wf = false ∧
    (Instr.kbal (fA .b32 (.w 0) (.w 0) (.w 2) 0)).wf = false ∧ (Instr.bset (fA .f32 (.w 0) (.w 0) (.w 2) 0x0001)).wf = false ∧
    (Instr.kset 0 (.s 1)).wf = false ∧ (Instr.kand 0 1 2).wf = false := by decide +kernel
/-- Counts, registers and paths outside format A; formats M and E; a word of the device, and of an assigned major. -/
theorem test_wf_other :
    (Instr.loop 8 0 8).wf = true ∧ (Instr.loop 9 0 0).wf = false ∧ (Instr.loop 0 0 9).wf = false ∧ (Instr.call 33 0 0 0).wf = false ∧
    (Instr.call 0 0 17 0).wf = false ∧ (Instr.call 32 0 16 9).wf = false ∧ (Instr.ret 33 0).wf = false ∧ (Instr.srd 5).wf = false ∧
    (Instr.swr 1 (.s 0)).wf = false ∧ (Instr.ctrrd 8).wf = false ∧ (Instr.fence 0 0).wf = false ∧ (Instr.fencex 0 2 2).wf = false ∧
    (Instr.fencex 0 5 1).wf = false ∧ (Instr.fencex 7 5 1).wf = true ∧ (Instr.fencex 5 6 1).wf = false ∧ (Instr.fencex 7 7 1).wf = false ∧
    (Instr.ld ⟨1, 0, 4, 0, .f32, .w 0, .w 1, .s 0, 0⟩).wf = true ∧ (Instr.ld ⟨2, 0, 4, 0, .f32, .w 0, .w 1, .s 0, 0⟩).wf = false ∧
    (Instr.ld ⟨1, 0, 5, 0, .f32, .w 0, .w 1, .s 0, 0⟩).wf = false ∧ (Instr.ld ⟨1, 0, 4, 0, .f32, .w 1, .w 1, .s 0, 0⟩).wf = false ∧
    (Instr.ld ⟨1, 0, 4, 0, .i4, .w 0, .w 1, .s 0, 0⟩).wf = false ∧ (Instr.ld ⟨0, 0, 0, 0, .f32, .w 0, .w 1, .w 31, 0⟩).wf = false ∧
    (Instr.lds ⟨0, 0, 0, 1, .f32, .w 0, .w 1, .w 31, 0⟩).wf = false ∧
    (Instr.stw ⟨0, 0, 0, 0, .b32, .w 29, .w 1, .s 0, 0⟩).wf = false ∧ (Instr.stw ⟨0, 0, 0, 0, .b32, .c 60, .w 1, .s 0, 0⟩).wf = true ∧
    (Instr.atomAdd ⟨0, 0, 1, 1, .i32, .w 4, .w 1, .s 0, 0⟩).wf = false ∧ (Instr.atomAdd ⟨0, 0, 2, 0, .i32, .w 4, .w 1, .s 0, 0⟩).wf = false ∧
    (Instr.atomAdd ⟨0, 0, 0, 0, .i32, .w 4, .w 1, .s 0, 0x0800⟩).wf = false ∧
    (Instr.atomAdd ⟨0, 0, 0, 0, .i32, .w 4, .w 1, .s 0, 0xF800⟩).wf = true ∧
    (Instr.cpy ⟨1, 2, 0, 7, .w 0, .imm 0, 0⟩).wf = false ∧ (Instr.cpy ⟨1, 2, 0, 7, .imm 0, .w 0, 0⟩).wf = true ∧
    (Instr.cpy ⟨1, 2, 1, 7, .imm 0, .w 0, 0⟩).wf = false ∧ (Instr.cpy ⟨1, 2, 0, 8, .imm 0, .w 0, 0⟩).wf = false ∧
    (Instr.cpy ⟨1, 2, 0, 0, .imm 0, .w 0, 1⟩).wf = false ∧ (Instr.binit ⟨1, 0, 0, 0, .imm 0, .imm 0, 0⟩).wf = false ∧
    (Instr.anchor ⟨1, 2, 0, 0, .w 0, .w 0, 255⟩).wf = false ∧ (Instr.collRed ⟨1, 2, 0, 0, .imm 0, .imm 0, 3⟩).wf = false ∧
    (Instr.ndep (.s 0) 0).wf = false ∧ Instr.powerInterval.wf = false ∧ (Instr.illegalMajor 0x2000000000000000).wf = false ∧
    (Instr.illegalMajor 0x2A00000000000000).wf = true := by decide +kernel
/-- A reserved bit of an otherwise sound word. -/
theorem test_reserved_bits :
    decodeWord 0x0B00000000000000 0 = .ok .nop ∧ decodeWord 0x0B00000000000001 0 = .illField ∧ decodeWord 0x0B80000000000000 0 = .illField ∧
    decodeWord 0x0900000000010000 0 = .illField ∧ decodeWord 0x1C00030000040201 0 = .ok (.call 3 4 2 1) ∧
    decodeWord 0x1C80030000040201 0 = .illField := by decide +kernel

/-! ### States for the witnesses -/

/-- A state whose watch issues: 64 active lanes, void wakes, domain 0, core 0. -/
def s0 : State := { State.reset with ctx := bootWatch }
def fullWake : VWake := { ring := (List.range 32).map (fun a => .val (BitVec.ofNat 32 a)), head := 0, nest := 0 }
def fullScalar : SWake := { ring := (List.range 16).map (fun a => .val (BitVec.ofNat 64 (8 * a))), head := 0 }
/-- The same with values at every age; k1 holds the lanes 0 to 31, k2 all lanes. -/
def w1 : Watch :=
  { bootWatch with
    lanes := List.replicate 64 { Lane.empty with exited := false, wake := fullWake }
    sp := { Split.empty with swake := fullScalar }
    ks := [0xFFFFFFFF, 0xFFFFFFFFFFFFFFFF, 0, 0, 0, 0, 0] }
/-- A state with that watch changed by `f`. -/
def sw (f : Watch → Watch) : State := { State.reset with ctx := f w1 }
def s1 : State := sw id
/-- The same with a page of memory at address 0, which holds a NOP; a rejoin table stands at 0x100. -/
def mw (f : Watch → Watch) : State := State.withFetchWord (sw (fun w => f { w with rejoinAt := 0x100, rejoinN := 4 })) 64 0x0B00000000000000
def m1 : State := mw id
/-- With one more record, frame or sibling. -/
def recd (r : Region) (w : Watch) : Watch := { w with sp := { w.sp with recs := r :: w.sp.recs } }
def framed (f : Frame) (w : Watch) : Watch := { w with sp := { w.sp with frames := f :: w.sp.frames } }
def withSib (p : Split) (w : Watch) : Watch := { w with sibs := p :: w.sibs }
def region (k : RegionKind) (phase : Bool) (arm0 arm1 : Mask) : Region :=
  { rid := 7, kind := k, phase := phase, resume := 0x40, rejoin := 0x80, arm0 := arm0, arm1 := arm1, marks := List.replicate 64 0,
    depths := List.replicate 64 0, origin := false, scalar := fullScalar, n := 0, x := 0 }
def frame (k : FrameKind) : Frame :=
  { kind := k, retPc := 0x20, retNext := 0x28, swake := fullScalar, caddy := 0, recs := [], ks := List.replicate 7 0, bank := none,
    desc := none }

/-- The sizes that `Watch.sound` asks for, computed. -/
def regionSound (r : Region) : Bool := r.marks.length == 64 && r.depths.length == 64 && r.scalar.ring.length == 16
def frameSound (f : Frame) : Bool :=
  f.swake.ring.length == 16 && f.recs.all regionSound && f.ks.length == 7 &&
  (match f.bank with
  | some b => b.bears.length == 8 && b.shapes.length == 16
  | none => true)
def splitSound (p : Split) : Bool := p.swake.ring.length == 16 && p.recs.all regionSound && p.frames.all frameSound
def watchSound (w : Watch) : Bool :=
  w.lanes.length == 64 && w.lanes.all (fun l => l.wake.ring.length == 32 && l.saved.all (fun v => v.ring.length == 32)) &&
  w.ks.length == 7 && w.bears.length == 8 && w.shapes.length == 16 &&
  w.caddies.all (fun f => f.slots.all (fun row => row.length == 64)) && splitSound w.sp && w.sibs.all splitSound

theorem region_sound {r : Region} (h : regionSound r = true) : r.sound := by
  simpa [regionSound, Region.sound, and_assoc] using h
theorem frame_sound {f : Frame} (h : frameSound f = true) : f.sound := by
  simp only [frameSound, Bool.and_eq_true, beq_iff_eq, List.all_eq_true] at h
  refine ⟨h.1.1.1, fun r hr => region_sound (h.1.1.2 r hr), fun _ => h.1.2, fun b hb => ?_⟩
  simpa [hb, GateBank.sound] using h.2
theorem split_sound {p : Split} (h : splitSound p = true) : p.sound := by
  simp only [splitSound, Bool.and_eq_true, beq_iff_eq, List.all_eq_true] at h
  exact ⟨h.1.1, fun r hr => region_sound (h.1.2 r hr), fun f hf => frame_sound (h.2 f hf)⟩
theorem watch_sound {w : Watch} (h : watchSound w = true) : w.sound := by
  simp only [watchSound, Bool.and_eq_true, beq_iff_eq, List.all_eq_true] at h
  obtain ⟨⟨⟨⟨⟨⟨⟨a, b⟩, c⟩, d⟩, e⟩, f⟩, g⟩, k⟩ := h
  exact ⟨a, b, c, d, e, f, split_sound g, fun p hp => split_sound (k p hp)⟩
theorem admits_of {s : State} {g : Option Nat} (h : (s.ctx.resident && decide (s.ctx.feat = 0xFFFFFFFFFFFFFFFF#64)) = true)
    (hg : ∀ n, g = some n → n < 64) : s.admits g := by
  simp only [Bool.and_eq_true, decide_eq_true_eq] at h
  refine ⟨h.1, fun n hn => ?_⟩
  rw [h.2]; exact (by decide : ∀ n < 64, (0xFFFFFFFFFFFFFFFF#64).getLsbD n = true) n (hg n hn)

/-! ### The step, wakes, memory, traps -/

theorem witness_encode : (Instr.ffma ⟨.f32, 3, .up, false, .w 31, .c 63, .imm 32, 0xF000⟩).wf = true ∧
    encode (.ldil 0xFFFFFFFFFFFF) ≠ [] ∧ decodeWord 0x5000003301000000 0 = .ok (.fadd ⟨.f32, 0, .ne, false, .w 0, .w 1, .w 0, 0⟩) ∧
    decodeWord 0x2703800000000000 0xFFFFFFFFFFFFFFFF = .ok (.ldil 0xFFFFFFFFFFFF) := by decide +kernel

/-- The split of a state that issues next, and the word at its PC. -/
def nextWord (s : State) : Option (Option DWord) :=
  s.begin.takeAny.map fun u => match u.word8 u.ctx.sp.pc with
    | .ok w => some w
    | _ => none
theorem witness_step_runs :
    nextWord m1 = some (some 0x0B00000000000000) ∧ decodeWord 0x0B00000000000000 0 = .ok .nop ∧
    nextWord (s1.withFetchWord 128 (0xFFFF0000000F4240 * 2 ^ 64 + 0x2703800000000000)) = some (some 0x2703800000000000) ∧
    nextWord (s1.withFetchWord 64 0x3001800001000100) = some (some 0x3001800001000100) ∧
    nextWord { m1 with tlb := [] } = some none ∧
    ({ m1.begin with sched := [] } : State).take 0 1 ≠ none ∧ isEvent .powerInterval = true := by
  decide +kernel

def isNext (o : Out) : Bool :=
  match o with
  | .next _ => true
  | _ => false
theorem next_of {o : Out} (h : isNext o = true) : ∃ t, o = .next t := by
  cases o <;> simp_all [isNext]
theorem witness_kept : State.reset.ctx.sound ∧ Memory.wf m1.mem = true ∧ m1.ctx.sound ∧ (∃ t, step m1 = .next t) ∧
    s1.ctx.resident = true :=
  ⟨watch_sound (by decide +kernel), by decide +kernel, watch_sound (by decide +kernel), next_of (by decide +kernel), rfl⟩

theorem witness_lanes : s1.ctx.sound ∧ has (s1.ctx.gov 1) 0 = true ∧ has (s1.ctx.gov 1) 31 = true ∧ has (s1.ctx.gov 1) 32 = false ∧
    has (s1.ctx.gov 1) 63 = false := ⟨watch_sound (by decide +kernel), by decide +kernel⟩

def rec0 : LaunchRec :=
  { va := 0x1000, gangs := 1, blocks := 1, watches := 1, ewidth := 64, cls := 1, prio := 8, caddy := 0, sprows := 64, spill := 0,
    accrows := 0, code := 0, entry := 0, traph := 0, argptr := 0, argsize := 0, segs := List.replicate 16 0, signal := 0, cntbuf := 0x2000,
    pilot := none, replay := false, notify := false, rejoinAt := 0, rejoinN := 0 }
def launch0 : Launch :=
  { id := 0, dom := 0, recd := rec0, node := none, succ := [], home := 0, prio := 8, seq := 0, readyAt := 0, phase := .running,
    handed := 1, batches := [{ die := 0, start := 0, stop := 1, next := 1 }], faulted := false, payload := none, parent := none,
    vouch := [], reset := false }
def gang0 : Gang :=
  { launch := 0, idx := 0, phase := .placed, places := [{ core := 0, row := 0, acc := 0, lent := false, ran := [0], ended := false }],
    join := 0, bgen := [0], ggen := 0, jgen := 0, staging := [], tids := [], seq := 0, back := 0, watches := [] }
/-- `m1` with a launch of one gang, whose one watch is in focus. -/
def gw (f : Watch → Watch) : State := { mw f with launches := [launch0], gangs := [gang0] }
def g1 : State := gw id

theorem witness_saturate : g1.ctx.sound ∧ g1.launchOf 0 = some launch0 ∧ launch0.recd.cntbuf ≠ 0 ∧ g1.gangOf 0 0 = some gang0 ∧
    g1.ctx.gov 1 ≠ 0 := ⟨watch_sound (by decide +kernel), by decide +kernel⟩

/-- An access inside one page, at its end, and the last bytes of the device's memory; one in the scratchpads' keys. -/
theorem witness_memory : Memory.wf State.reset.mem = true ∧ (∀ i < 16, pageOf (65520 + i) = pageOf 65520) ∧ 65520 + 16 ≤ 2 ^ 58 ∧
    (∀ i < 8, pageOf (2 ^ 58 - 8 + i) = pageOf (2 ^ 58 - 8)) ∧ 2 ^ 58 ≤ 2 ^ 58 := by decide +kernel

theorem witness_trap_entry :
    (let s := sw (fun w => { w with traph := 0x100 })
     s.ctx.sound ∧ s.ctx.sp.inHandler = false ∧ gateBelow s.ctx.sp.frames = none ∧ s.ctx.traph ≠ 0 ∧
     ∀ fid, (s.ctx.enterHandler fid 3 1 0 (s.ctx.code + s.ctx.traph) 8).spillFits = true) ∧
    (sw (framed (frame .handler))).ctx.sound ∧ (sw (framed (frame .handler))).ctx.sp.inHandler = true ∧
    gateBelow s1.ctx.sp.frames = none ∧ s1.ctx.traph = 0 :=
  ⟨⟨watch_sound (by decide +kernel), rfl, rfl, by decide, fun _ => rfl⟩, watch_sound (by decide +kernel), rfl, rfl, rfl⟩

theorem witness_trap_return :
    (sw (framed (frame .handler))).admits none ∧ (sw (framed (frame .handler))).ctx.sp.recs = [] ∧
    (sw (framed (frame .handler))).ctx.sp.frames = [frame .handler] ∧ (sw (framed (frame .call))).ctx.sp.frames = [frame .call] ∧
    (sw (fun w => recd (region .ifr false 0 0) (framed (frame .handler) w))).ctx.sp.recs ≠ [] ∧
    ∃ f, (w1.enterHandler 5 3 1 0 0x100 8).sp.frames = [f] ∧ f.kind = .handler :=
  ⟨admits_of (by decide +kernel) (by simp), rfl, rfl, rfl, by simp [sw, recd], ⟨_, rfl, rfl⟩⟩

theorem witness_traps : s1.admits none ∧ s1.ctx.gov 1 ≠ 0 ∧ s1.ctx.gov 3 = 0 ∧
    (majOf 0x2A00000000000000).toNat = 0x2A ∧ (majOf 0x2F00000000000000).toNat = 0x2F ∧ (majOf 0xBF00000000000000).toNat = 0xBF ∧
    0xC8 ≤ (majOf 0xC800000000000000).toNat ∧ 0xC8 ≤ (majOf 0xFFFF000000000000).toNat ∧ (majOf 0x6F00000000000000).toNat = 0x6F :=
  ⟨admits_of (by decide +kernel) (by simp), by decide +kernel⟩

theorem witness_issue_checks :
    (sw (fun w => { w with feat := 0 })).ctx.resident = true ∧ (sw (fun w => { w with feat := 0 })).ctx.feat.getLsbD 12 = false ∧
    s0.admits none ∧ (Src.of 0 .i32 (.w 0)).beyond s0.ctx = false ∧ (Src.of 1 .i32 (.s 0)).beyond s0.ctx = false ∧
    (Src.of 0 .i32 (.w 0)).voidIn s0.ctx (s0.ctx.gov 0) ||| (Src.of 1 .i32 (.s 0)).voidIn s0.ctx (s0.ctx.gov 0) ≠ 0 ∧
    s0.ctx.sp.swake.get 0 = .void ∧
    (sw (fun w => { w with sp := { w.sp with swake := SWake.empty.push (.val 1) } })).ctx.sp.swake.get 0 ≠ .void ∧
    (sw (fun w => { w with sp := { w.sp with swake := SWake.empty.push (.val 1) } })).ctx.sp.swake.get 1 = .void :=
  ⟨rfl, by decide +kernel, admits_of (by decide +kernel) (by simp), by decide +kernel⟩

/-! ### Control -/

theorem witness_branches : s1.admits none ∧ s1.ctx.gov 1 ≠ 0 ∧ s1.ctx.gov 2 = s1.ctx.k0 ∧ s1.ctx.gov 3 = 0 :=
  ⟨admits_of (by decide +kernel) (by simp), by decide +kernel⟩

theorem witness_if : s1.admits none ∧ s1.ctx.sound ∧
    (∀ r : Region, ({ s1.ctx with sp := { s1.ctx.sp with recs := r :: s1.ctx.sp.recs } } : Watch).spillFits = true) ∧
    s1.ctx.gov 3 = 0 ∧ s1.ctx.k0 &&& ~~~(s1.ctx.gov 2) = 0 ∧
    4 ≤ (sw (fun w => { w with sibs := [{ w.sp with id := 1 }, { w.sp with id := 2 }, { w.sp with id := 3 }] })).ctx.splits.length :=
  ⟨admits_of (by decide +kernel) (by simp), watch_sound (by decide +kernel), fun _ => rfl, by decide +kernel⟩

/-- IFS with lanes in both arms, its resume word an ELSE, a REJOIN, and a NOP. -/
theorem witness_ifs : m1.admits none ∧ m1.ctx.sound ∧
    (∀ r : Region, ({ m1.ctx with sp := { m1.ctx.sp with recs := r :: m1.ctx.sp.recs },
                                  sibs := { m1.ctx.sp with recs := r :: m1.ctx.sp.recs } :: m1.ctx.sibs } : Watch).spillFits = true) ∧
    m1.ctx.gov 1 ≠ 0 ∧ m1.ctx.k0 &&& ~~~(m1.ctx.gov 1) ≠ 0 ∧ m1.ctx.splits.length < 4 ∧
    majOf 0x1600000000040000 = 0x16 ∧ majOf 0x1700000000000001 = 0x17 ∧ majOf 0x0B00000000000000 ≠ 0x16 :=
  ⟨admits_of (by decide +kernel) (by simp), watch_sound (by decide +kernel), fun _ => rfl, by decide +kernel⟩
def wordAt (s : State) (va : DWord) : Option DWord :=
  match s.word8 va with
  | .ok w => some w
  | _ => none
theorem witness_ifs_words : wordAt m1 0 = some 0x0B00000000000000 ∧
    wordAt (s1.withFetchWord 64 0x1600000000040000) 0 = some 0x1600000000040000 ∧
    wordAt (s1.withFetchWord 64 0x1700000000000001) 0 = some 0x1700000000000001 := by decide +kernel

theorem witness_else :
    (let s := sw (recd (region .ifr false 0xFF 0xFF00))
     s.admits none ∧ s.ctx.sp.recs = [region .ifr false 0xFF 0xFF00] ∧ s.ctx.nestFull 0xFF = 0) ∧
    (let s := sw (fun w => recd (region .ifr false 0xFF 0)
       { w with lanes := List.replicate 64 { Lane.empty with exited := false, wake := { fullWake with nest := 255 } } })
     s.admits none ∧ s.ctx.nestFull 0xFF ≠ 0) ∧
    (sw (recd (region .ifs false 1 2))).ctx.sp.recs = [region .ifs false 1 2] ∧ s1.ctx.sp.recs = [] ∧
    (region .ifr true 1 2).phase = true :=
  ⟨⟨admits_of (by decide +kernel) (by simp), rfl, by decide +kernel⟩, ⟨admits_of (by decide +kernel) (by simp), by decide +kernel⟩,
   rfl, rfl, rfl⟩

/-- A rejoin entry with equal lists, one with unequal lists, on an IF record and on an IFS record, whose twin waits or not. -/
def m2 : State := { mw (recd (region .ifr true 0xFF 0xFF00)) with mem := Memory.put m1.mem (devKey 0 0x120) 1 }
theorem witness_rejoin : m2.admits none ∧ m2.ctx.sound ∧ m2.ctx.sp.recs = [region .ifr true 0xFF 0xFF00] ∧
    m2.rejoinEntry 0 = .ok ⟨[], []⟩ ∧ m2.rejoinEntry 1 = .ok ⟨[0], []⟩ ∧ m2.ctx.layoutPends 0xFF [] = false ∧
    m2.ctx.layoutPends 0xFF00 [] = false :=
  ⟨admits_of (by decide +kernel) (by simp), watch_sound (by decide +kernel), rfl, rfl, rfl, by decide +kernel⟩
theorem witness_rejoin_split :
    (let s := mw (recd (region .ifs false 0xFF 0xFF00))
     s.admits none ∧ s.ctx.sp.recs = [region .ifs false 0xFF 0xFF00] ∧ s.rejoinEntry 0 = .ok ⟨[], []⟩ ∧ s.ctx.twin 7 = none) ∧
    (let q : Split := { Split.empty with id := 1, recs := [region .ifs false 0xFF 0xFF00], wait := .rejoin [] [] }
     (mw (fun w => withSib q (recd (region .ifs false 0xFF 0xFF00) w))).ctx.twin 7 = some (q, [], [])) ∧ fullWake.ring.length = 32 :=
  ⟨⟨admits_of (by decide +kernel) (by simp), rfl, rfl, rfl⟩, rfl, rfl⟩

theorem witness_loop :
    (let s := mw (recd (region .loop false 0 0))
     s.admits none ∧ s.ctx.sound ∧ s.ctx.sp.recs = [region .loop false 0 0] ∧ s.rejoinEntry 0 = .ok ⟨[], []⟩ ∧
     s.ctx.layoutPends (s.ctx.gov 1) [] = false ∧
     -- the back edge: lanes go on, or stand continued; the exit: neither
     s.ctx.gov 1 ||| 0 ≠ 0 ∧ s.ctx.gov 3 ||| (region .loop false 0 5).arm1 ≠ 0 ∧ s.ctx.gov 3 ||| 0 = 0 ∧
     ∀ r : Region, ({ s.ctx with sp := { s.ctx.sp with recs := r :: s.ctx.sp.recs } } : Watch).spillFits = true) ∧
    (let s := mw (fun w => recd (region .ifr false 0xF 0xF0) (recd (region .loop false 0 0) w))
     splitAtLoop s.ctx.sp.recs = some ([region .ifr false 0xF 0xF0], region .loop false 0 0, [])) :=
  ⟨⟨admits_of (by decide +kernel) (by simp), watch_sound (by decide +kernel), rfl, rfl, by decide +kernel, by decide +kernel,
    by decide +kernel, by decide +kernel, fun _ => rfl⟩, rfl⟩

/-- A pool of 8 blocks for domain 0 on core 0 (R329); an earlier request in its queue. -/
def pooled (s : State) : State := { s with cfg := (.qcaddy 0 0, 0x800) :: s.cfg }
def req0 : CaddyReq := { core := 0, pool := 0, watch := ⟨0, 0, 0, 0⟩, split := 0, blocks := 2, use := .grow }
theorem witness_call :
    (let s := pooled s1
     s.admits none ∧ s.ctx.sound ∧ s.ctx.sp.depth ≠ 255 ∧ s.poolSize 0 0 - s.ctx.blocksHeld s.ctx.pool = 8 ∧
     s.grantNow 0 0 8 = true ∧ s.ctx.sp.swake.get 1 = .val 120 ∧
     (∀ fid blks target, (s.ctx.call fid s.ctx.pool blks 32 16 8 target).spillFits = true) ∧ s.ctx.topPends 32 16 = false ∧
     ({ s with caddyQ := [req0] } : State).grantNow 0 0 1 = false) ∧
    (sw (fun w => { w with sp := { w.sp with depth := 255 } })).ctx.sp.depth = 255 ∧ s0.ctx.sp.swake.get 0 = .void ∧
    (sw (fun w => { w with sp := { w.sp with swake := SWake.empty.push (.val 12) } })).ctx.sp.swake.get 0 = .val 12 :=
  ⟨⟨admits_of (by decide +kernel) (by simp), watch_sound (by decide +kernel), by decide +kernel, by decide +kernel, by decide +kernel,
    by decide +kernel, fun _ _ _ => rfl, by decide +kernel, by decide +kernel⟩, by decide +kernel⟩
theorem witness_ret :
    (let s := sw (framed (frame .call))
     s.admits none ∧ s.ctx.sound ∧ s.ctx.sp.frames = [frame .call] ∧ s.ctx.sp.recs = [] ∧ s.ctx.topPends 32 16 = false) ∧
    s1.ctx.sp.frames = [] ∧ (sw (fun w => recd (region .ifr false 0 0) (framed (frame .call) w))).ctx.sp.recs ≠ [] :=
  ⟨⟨admits_of (by decide +kernel) (by simp), watch_sound (by decide +kernel), rfl, rfl, by decide +kernel⟩, rfl, by simp [sw, recd]⟩

/-! ### One cycle of two ports (R115) -/

/-- Lanes 0 to 31 are at an ICMP.NE of equal values into k1, lanes 32 to 63 at the mask instruction `i`. -/
def twoPorts (i : Instr) : State :=
  let s := mw (fun w => { w with
    lanes := (List.range 64).map (fun l => { Lane.empty with exited := false, split := if l < 32 then 0 else 1, wake := fullWake })
    sibs := [{ w.sp with id := 1, pc := 0x40 }] })
  { s with
    mem := Memory.putAll (Memory.putAll s.mem (devKey 0 0)
      (encodeBytes (.icmp .ne ⟨.i32, 0, .ne, false, .w 0, .imm 0, .w 0, 1⟩))) (devKey 0 0x40) (encodeBytes i)
    sched := [.cycle 0] }
def masksOf (o : Out) : List Mask :=
  match o with
  | .next t => t.ctx.ks
  | _ => []
theorem test_mask_reads_before_cycle :
    (masksOf (step (twoPorts (.knot 3 1)))).take 3 = [0, 0xFFFFFFFFFFFFFFFF, 0xFFFFFFFF00000000] := by decide +kernel
theorem test_mask_writes_last : (masksOf (step (twoPorts (.knot 1 1)))).take 1 = [0xFFFFFFFF00000000] := by decide +kernel

/-! ### Results of single instructions, from the spec's examples -/

/-- A ring of n entries with head 0 that holds these values at ages 0, 1, …, and 0 above them. -/
def ringOf {w : Nat} (n : Nat) (xs : List (BitVec w)) : List (Entry (BitVec w)) :=
  let l := xs ++ List.replicate (n - xs.length) 0
  (l.take 1 ++ (l.drop 1).reverse).map .val
/-- Every lane holds these values at ages 0, 1, …. -/
def lanesOf (xs : List Word) : State :=
  sw (fun w => { w with lanes := List.replicate 64 { Lane.empty with
    exited := false, wake := { fullWake with ring := ringOf 32 xs } } })
def scalars (xs : List DWord) : State :=
  sw (fun w => { w with sp := { w.sp with swake := { fullScalar with ring := ringOf 16 xs } } })
/-- Lane 0's entry at age 0, its SATF, and the scalar wake's entry at age 0. -/
def top (o : Out) : Option (Entry Word × Bool × Entry DWord) :=
  match o with
  | .next t => some ((t.ctx.lane 0).wake.get 0, (t.ctx.lane 0).satf, t.ctx.sp.swake.get 0)
  | _ => none
def topW (o : Out) : Option (Entry Word × Bool) := (top o).map fun x => (x.1, x.2.1)
def topS (o : Out) : Option (Entry DWord) := (top o).map (·.2.2)
def fv (t : Ty) (sat : Bool) (c b a : Opnd) (ext : BitVec 16) : FmtA := ⟨t, 0, .ne, sat, c, b, a, ext⟩

/-- The packed sequence's steps (chapter 6): −14 + 15 + 100, the saturating sum, and the two narrowings. -/
theorem test_mac2 : topW (exec (.mac2 (fv .i16 false (.w 4) (.w 2) (.w 0) 0)) (lanesOf [0x3FFFE, 0, 0x50007, 0, 100])) = some (.val 101, false) := by
  decide +kernel
theorem test_mac2_saturates :
    topW (exec (.mac2 (fv .i16 false (.imm 0) (.w 0) (.w 0) 0)) (lanesOf [0x80008000])) = some (.val 0x7FFFFFFF, true) := by decide +kernel
theorem test_shrr : topW (exec (.shrr (fv .i16 true (.imm 0) (.imm 0) (.w 0) 2)) (lanesOf [101])) = some (.val 0x19, false) ∧
    topW (exec (.shrr (fv .i16 true (.imm 0) (.w 3) (.w 0) 0x110)) (lanesOf [0x7FFFFFFF, 0, 0, 0x19])) = some (.val 0x7FFF0019, true) := by
  decide +kernel
/-- Wrapping and saturating sums; a source that is also the age pushed to. -/
theorem test_iadd_wraps : topW (exec (.iadd (fv .i32 false (.w 0) (.imm 1) (.w 0) 0)) (lanesOf [0x7FFFFFFF])) = some (.val 0x80000000, false) ∧
    topW (exec (.iadd (fv .i32 true (.w 0) (.imm 1) (.w 0) 0)) (lanesOf [0x7FFFFFFF])) = some (.val 0x7FFFFFFF, true) := by decide +kernel
theorem test_ldihi : topW (exec (.ldiHi (fv .b32 false (.w 0) (.w 0) (.w 0) 5)) (lanesOf [7])) = some (.val 0x50007, false) := by decide +kernel
/-- A float immediate (R41), a sum that overflows to +∞, and a subnormal result kept. -/
theorem test_fadd : topW (exec (.fadd (fv .f32 false (.w 0) (.imm 1) (.w 0) 0)) (lanesOf [0x40000000])) = some (.val 0x40400000, false) ∧
    topW (exec (.fadd (fv .f32 false (.w 0) (.w 0) (.w 0) 0)) (lanesOf [0x7F000000])) = some (.val 0x7F800000, false) ∧
    topW (exec (.fsub (fv .f32 false (.w 0) (.w 0) (.w 1) 0)) (lanesOf [0x00800000, 0x00800001])) = some (.val 1, false) := by decide +kernel
/-- The conversion of −3.25, 500.0 and 2^−10 to F8A (chapter 5). -/
theorem test_f8a : (toFloat .f8a .ne (Ty.f32.ffmt.decode 0xC0500000)).bits = 0xC5 ∧ (toFloat .f8a .ne (Ty.f32.ffmt.decode 0x43FA0000)).bits = 0x7F ∧
    (toFloat .f8a .ne (Ty.f32.ffmt.decode 0x3A800000)).bits = 0 ∧ (toFloat .f8a .ne (Ty.f32.ffmt.decode 0x3F800000)).bits = 0x38 := by decide +kernel
/-- The cell's addends in one order, and in another (chapter 10). -/
theorem test_cell :
    [0x3F800000, 0x25400000, 0x25000000, 0x45800000, 0xFF800000].foldl (fun c x => addToCell c (Ty.f32.ffmt.decode x)) (10 * 2 ^ 96) =
      0x0000140A800000010010000000000001 ∧
    [0xFF800000, 0x45800000, 0x25000000, 0x25400000, 0x3F800000].foldl (fun c x => addToCell c (Ty.f32.ffmt.decode x)) (10 * 2 ^ 96) =
      0x0000140A800000010010000000000001 := by decide +kernel
/-- Scalar sums of 32-bit types sign-extend; a 64-bit immediate is sign-extended. -/
theorem test_scalar : topS (exec (.sadd (fv .i32 false (.w 0) (.imm 1) (.s 0) 0)) (scalars [0x7FFFFFFF])) = some (.val 0xFFFFFFFF80000000) ∧
    topS (exec (.sldi 0xFFFF) (scalars [])) = some (.val 0xFFFFFFFFFFFFFFFF) := by decide +kernel

/-! ### System -/

theorem witness_special : s1.admits none ∧ s1.ctx.flights = [] ∧ s1.uniOk [⟨0, .s 3, 1⟩] ∧ s1.admits (some 10) ∧
    s1.ownsCounter 7 = true ∧ (sw (fun w => { w with dom := 1 })).ownsCounter 0 = false :=
  ⟨admits_of (by decide +kernel) (by simp), rfl, ⟨admits_of (by decide +kernel) (by simp), by unfold Watch.uniReads; decide +kernel⟩,
   admits_of (by decide +kernel) (by simp), by decide +kernel⟩

/-- A standing pre-emption request on core 0. -/
def asked (s : State) : State := { s with preempts := [{ core := 0, dom := 0, hard := false, window := false }] }
theorem witness_yield : s1.admits none ∧ s1.uniOk [⟨0, .imm 5, 1⟩] ∧ (s1.ctx.uni (.imm 0)).toNat = 0 ∧ (s1.ctx.uni (.imm 5)).toNat ≠ 0 ∧
    s1.ctx.cls ≠ 2 ∧ g1.gangOf 0 0 = some gang0 ∧ g1.requested gang0 0 = false ∧ (asked g1).requested gang0 0 = true ∧
    (sw (fun w => { w with cls := 2 })).ctx.cls = 2 :=
  ⟨admits_of (by decide +kernel) (by simp), ⟨admits_of (by decide +kernel) (by simp), by unfold Watch.uniReads; decide +kernel⟩,
   by decide +kernel⟩

/-- CGROW and CSHRINK at their limits: eight blocks asked of a pool of eight, nine, more than the pool, none, and with the queue taken. -/
theorem witness_cgrow :
    (let s := pooled s1
     s.uniOk [⟨0, .imm 8, 1⟩] ∧ s.ctx.caddy.slots.length / 8 = 0 ∧ s.poolSize 0 0 - s.ctx.blocksHeld s.ctx.pool = 8 ∧
     (s.ctx.uni (.imm 8)).toNat = 8 ∧ 8 - 0 < (s.ctx.uni (.imm 9)).toNat ∧ s.grantNow 0 0 8 = true ∧
     ({ s with caddyQ := [req0] } : State).grantNow 0 0 1 = false) ∧
    s1.poolSize 0 0 - s1.ctx.blocksHeld s1.ctx.pool < (s1.ctx.uni (.imm 1)).toNat ∧ 0 < (s1.ctx.uni (.imm 1)).toNat ∧
    (sw (fun w => { w with caddies := [{ id := 0, pool := 0, blks := [0, 1], slots := zeroBlocks 2 }] })).ctx.caddy.slots.length / 8 = 2 :=
  ⟨⟨⟨admits_of (by decide +kernel) (by simp), by unfold Watch.uniReads; decide +kernel⟩, by decide +kernel⟩, by decide +kernel⟩
/-- A split that waits for two blocks, to grow its frame or for a CALL, and its request; one whose frame has no room for them. -/
def waitsFor (u : CaddyUse) (f : Watch → Watch) : State :=
  { sw (fun w => f { w with sp := { w.sp with wait := .caddy 2 } }) with caddyQ := [{ req0 with use := u }] }
def firstReq (s : State) : Option CaddyReq := s.withdrawReqs.caddyQ.find? (fun q => q.core == 0 && q.pool == 0)
theorem witness_caddy_grant :
    (let s := waitsFor .grow id
     firstReq s = some req0 ∧ s.withdrawReqs.poolFree 0 0 < req0.blocks ∧ req0.blocks ≤ (pooled s).withdrawReqs.poolFree 0 0 ∧
     s.withdrawReqs.ctx.resident = true ∧ s.withdrawReqs.ctx.ref = req0.watch ∧ s.withdrawReqs.ctx.sp.id = req0.split ∧ req0.use = .grow ∧
     req0.blocks ≤ 8 - s.ctx.caddy.slots.length / 8 ∧ s1.reqLive req0 = false) ∧
    (let w := (waitsFor .grow (fun w => { w with caddies := [{ id := 0, pool := 0, blks := List.range 7, slots := zeroBlocks 7 }] })).ctx
     8 - w.caddy.slots.length / 8 < req0.blocks) ∧
    (let s := waitsFor (.call 1 2 0x40) id
     firstReq s = some { req0 with use := .call 1 2 0x40 } ∧ ∀ fid blks, (s.withdrawReqs.ctx.call fid 0 blks 1 2 2 0x40).spillFits = true) :=
  ⟨by decide +kernel, by decide +kernel, by decide +kernel, fun _ _ => rfl⟩

/-- A gate table of two descriptors at 0 and 64: the first is no descriptor; the second leads to domain 0, for the domains of `allow`. -/
def gated (allow : Byte) (caddy : Byte) : State :=
  let s := pooled m1
  { s with cfg := (.gtcount, 2) :: (.quotaCtl 0 0, 4) :: s.cfg,
           mem := Memory.putAll s.mem (devKey 0 64) [0, 0, 0, 0, 0, 0, 1, 2, caddy, 0, 0, 0x80, allow] }
def gdesc (s : State) (x : Nat) : GateDesc := parseGate x (s.bytes (devKey 0 (64 * x)) 64)
def segsOk (s : State) (d : GateDesc) : Bool :=
  match s.gateSegs d with
  | .ok x => (s.ctx.enterGate s.fresh ((s.freeBlocks s.ctx.core d.tdom).take d.caddy) d x (s.reg (.featmask d.tdom))).spillFits
  | .stop _ => false
theorem witness_gate :
    (let s := gated 1 8
     s.admits (some 11) ∧ s.ctx.cls ≠ 2 ∧ s.regField .gtbase 6 46 = 0 ∧ s.regField .gtcount 0 16 = 2 ∧ s.mediaOk (devKey 0 64) = true ∧
     s.poisoned (devKey 0 64) 64 = false ∧ gateSound (gdesc s 0) (s.bytes (devKey 0 0) 64) = false ∧
     gateSound (gdesc s 1) (s.bytes (devKey 0 64) 64) = true ∧ (gdesc s 1).allow.getLsbD s.ctx.dom = true ∧
     s.mayRun 0 (gdesc s 1).tdom = true ∧ (gdesc s 1).caddy ≤ s.poolFree 0 (gdesc s 1).tdom ∧ s.ctx.sp.depth ≠ 255 ∧
     segsOk s (gdesc s 1) = true) ∧
    (gdesc (gated 2 0) 1).allow.getLsbD 0 = false ∧ m1.mayRun 0 0 = false ∧ m1.poolFree 0 0 < (gdesc (gated 1 8) 1).caddy ∧
    s1.ctx.topPends 0 0 = false ∧ s1.ctx.flights.any Flight.inUnit = false ∧
    (sw (fun w => { w with flights := [{ id := 0, unit := .sfu, path := .local, bear := none }] })).ctx.flights.any Flight.inUnit = true :=
  ⟨⟨admits_of (by decide +kernel) (by simp), by decide +kernel⟩, by decide +kernel⟩
def gateFrame : Frame := { frame .gate with bank := some w1.bank, desc := some (gdesc (gated 1 0) 1) }
theorem witness_gret :
    (let s := sw (framed gateFrame)
     s.admits none ∧ s.ctx.sound ∧ s.ctx.sp.frames = [gateFrame] ∧ gateFrame.kind = .gate ∧ s.ctx.sp.recs = [] ∧
     s.ctx.topPends 2 1 = false) ∧
    gateFrame.desc.map (fun d => (d.rv, d.rs)) = some (2, 1) ∧
    (sw (fun w => recd (region .ifr false 0 0) (framed gateFrame w))).ctx.sp.recs ≠ [] ∧
    (sw (framed (frame .call))).ctx.sp.frames = [frame .call] :=
  ⟨⟨admits_of (by decide +kernel) (by simp), watch_sound (by decide +kernel), rfl, rfl, rfl, by decide +kernel⟩, by decide +kernel,
   by simp [sw, recd], rfl⟩

/-! ### Operations on the wakes -/

/-- A format A instruction with full wakes. -/
def fa (t : Ty) (sat : Bool) (ext : BitVec 16) : FmtA := ⟨t, 1, .ne, sat, .w 2, .w 1, .w 0, ext⟩
/-- Its scalar form. -/
def fs (t : Ty) : FmtA := ⟨t, 0, .ne, false, .s 2, .s 1, .s 0, 0⟩
theorem vecOk_of (f : FmtA) (srcs : List Src) (h : (srcs.all fun x => !x.beyond s1.ctx && x.voidIn s1.ctx (s1.ctx.gov f.k) == 0 &&
    x.badIn s1.ctx (s1.ctx.gov f.k) == 0 && x.pendIn s1.ctx (s1.ctx.gov f.k) == 0) = true) : s1.vecOk f srcs := by
  refine ⟨admits_of (by decide +kernel) (by simp), Or.inr fun x hx => ?_⟩
  simpa [and_assoc] using List.all_eq_true.mp h x hx
theorem uniOk_of (srcs : List Src) (h : (srcs.all fun x => !x.uniIs s1.ctx Entry.isVoid && !x.uniIs s1.ctx Entry.isBad && !x.uniIs s1.ctx Entry.isPend) = true) :
    s1.uniOk srcs := by
  refine ⟨admits_of (by decide +kernel) (by simp), fun x hx => ?_⟩
  simpa [and_assoc] using List.all_eq_true.mp h x hx

/-- Three sources of every width, under a mask that holds some lanes; 64-bit operands stand at ages 30 and 31 at most. -/
theorem witness_sources : s1.vecOk (fa .i64 false 0) (srcABC (fa .i64 false 0)) ∧ s1.vecOk (fa .n32 true 0) (srcABC (fa .n32 true 0)) ∧
    s1.vecOk (fa .i8 true 0) (srcABC (fa .i8 true 0)) ∧ s1.vecOk ⟨.i64, 2, .ne, false, .w 0, .imm 32, .w 30, 0⟩ [Src.of 0 .i64 (.w 30)] ∧
    s1.uniOk (srcABC (fs .i64)) ∧ s1.uniOk [] ∧ s1.vecOk (fa .b32 false 0x1F00) (srcAB (fa .b32 false 0x1F00)) ∧
    (0x1F00#16 &&& 0xC0E0 = 0) ∧ s1.vecOk (fa .f32 false 0) (srcABC (fa .f32 false 0)) ∧ s1.vecOk (fa .bf16 false 0) (srcABC (fa .bf16 false 0)) ∧
    s1.vecOk (fa .f4 false 0) (srcABC (fa .f4 false 0)) ∧ s1.uniOk (srcABC (fs .f32)) :=
  ⟨vecOk_of _ _ (by decide +kernel), vecOk_of _ _ (by decide +kernel), vecOk_of _ _ (by decide +kernel), vecOk_of _ _ (by decide +kernel),
   uniOk_of _ (by decide +kernel), uniOk_of _ (by decide +kernel), vecOk_of _ _ (by decide +kernel), by decide,
   vecOk_of _ _ (by decide +kernel), vecOk_of _ _ (by decide +kernel), vecOk_of _ _ (by decide +kernel), uniOk_of _ (by decide +kernel)⟩

/-- SLANE and SPICK: lanes that may be read, and lanes that may not: beyond the width, of another split, exited, parked. -/
theorem witness_lane_reads :
    (∀ l < 64, (Src.of 0 .n32 (.w 0)).pendIn s1.ctx (lane1 l) = 0 ∧ (Src.of 0 .n32 (.w 0)).badIn s1.ctx (lane1 l) = 0) ∧ s1.ctx.ewidth ≤ 64 ∧ (s1.ctx.uni (.imm 5)).toNat < s1.ctx.ewidth ∧
    (s1.ctx.lane 5).split = s1.ctx.sp.id ∧ (s1.ctx.lane 5).exited = false ∧ (s1.ctx.lane 5).wake.nest = 0 ∧
    s1.ctx.ewidth ≤ (s1.ctx.uni (.imm 63)).toNat ∧ s1.ctx.gov 3 = 0 ∧ has (s1.ctx.gov 1) 0 = true ∧
    (sw (fun w => { w with sp := { w.sp with id := 1 } })).ctx.sp.id ≠ ((sw id).ctx.lane 5).split ∧
    (sw (fun w => { w with lanes := List.replicate 64 Lane.empty })).ctx.lane 5 = Lane.empty ∧
    (sw (recd { region .ifr false 0 32 with origin := true })).ctx.originExcludes 5 = true := by decide +kernel

theorem witness_stash : s1.vecOk (fa .b32 false 0) (srcA (fa .b32 false 0)) ∧ s1.ctx.gov 1 ≠ 0 ∧ s1.ctx.caddy.slots.length < 0 + 1 ∧
    (let s := sw (fun w => { w with caddies := [{ id := 0, pool := 0, blks := [0], slots := zeroBlocks 1 }] })
     s.ctx.sound ∧ 6 + 2 ≤ s.ctx.caddy.slots.length ∧ 7 + 1 ≤ s.ctx.caddy.slots.length ∧ s.admits none ∧
     s.ctx.vecReads (s.ctx.gov 1) (srcA (fa .i64 false 6))) :=
  ⟨vecOk_of _ _ (by decide +kernel), by decide +kernel, by decide +kernel, watch_sound (by decide +kernel), by decide +kernel,
   by decide +kernel, admits_of (by decide +kernel) (by simp), by unfold Watch.vecReads; decide +kernel⟩

theorem witness_masks : s1.admits none ∧ s1.ctx.uniReads [⟨0, .s 1, 1⟩] ∧ s1.ctx.sound :=
  ⟨admits_of (by decide +kernel) (by simp), by unfold Watch.uniReads; decide +kernel, watch_sound (by decide +kernel)⟩

/-! ### Float -/

/-- A rounded result that is finite in each format; and the formats with directed modes. -/
theorem witness_rounding :
    (∀ t ∈ [Ty.f32, .f16, .bf16, .f8a, .f8b, .f4], t.isFloat = true ∧
      (match t.ffmt.decode (t.ffmt.round .ne (.num false 5 (-1))).1 with
       | .num k j _ => !k && j != 0
       | _ => false) = true) ∧
    Ty.f32.ffmt.ieee = true ∧ Ty.f16.ffmt.ieee = true ∧ Ty.bf16.ffmt.ieee = true ∧ Ty.f8a.ffmt.ieee = false := by decide +kernel

/-- An SFU with room, and a full one: 16 operations of this watch. -/
def flights (u : UnitKind) (n : Nat) (w : Watch) : Watch :=
  { w with flights := (List.range n).map (fun i => { id := i, unit := u, path := .local, bear := none }) }
theorem witness_units : s1.admits (some 12) ∧ s1.ctx.vecReads (s1.ctx.gov 1) (srcAB (fa .f32 false 0)) ∧ s1.ctx.gov 3 = 0 ∧
    s1.ctx.gov 1 ≠ 0 ∧ s1.unitFull .sfu = false ∧ s1.unitFull .conv = false ∧ (sw (flights .sfu 16)).unitFull .sfu = true ∧
    (sw (flights .conv 16)).unitFull .conv = true ∧ (sw (flights .conv 1)).ctx.flights.any (fun x => x.unit == .conv) = true ∧
    s1.ctx.flights.any (fun x => x.unit == .conv) = false ∧ (sw (flights .sfu 1)).findWatch ⟨0, 0, 0, 0⟩ ≠ none ∧
    (sw (flights .sfu 1)).ctx.flights.any (fun x => x.inUnit && x.id == 0) = true ∧
    (sw (flights .load 1)).ctx.flights.any (fun x => !x.inUnit && x.id == 0) = true :=
  ⟨admits_of (by decide +kernel) (by simp), by unfold Watch.vecReads; decide +kernel, by decide +kernel⟩

/-- The operation that the SFU of a core ends next: the older of two. -/
theorem witness_unit_order : (let s := sw (flights .sfu 2)
    s.findWatch ⟨0, 0, 0, 0⟩ = some s.ctx ∧ s.watches = [s.ctx] ∧ s.recalls = [] ∧ s.ctx.cls ≠ 2 ∧
    s.ctx.flights.map (fun x => (x.id, x.inUnit)) = [(0, true), (1, true)]) := by decide +kernel

/-! ### Cross-lane and bearings -/

theorem witness_exchanges : s1.admits none ∧ s1.ctx.vecReads (s1.ctx.gov 1) (⟨1, .w 1, 1⟩ :: fillSrc (.imm 0)) ∧
    (∀ j < 64, s1.ctx.readable j = true → s1.ctx.entryIs Entry.isPend .b32 (.w 0) j = false) ∧ s1.ctx.ewidth ≤ 64 ∧
    (∀ j < 64, s1.ctx.entryIs Entry.isBad .b32 (.w 0) j = false) ∧
    s1.ctx.ewidth = 2 ^ s1.ctx.levels ∧ s1.vecOk (fa .f32 false 1) (srcA (fa .f32 false 1) ++ fillSrc (.imm 0)) ∧
    s1.ctx.readable 5 = true ∧ s0.ctx.entryIs Entry.isVoid .b32 (.w 0) 5 = true :=
  ⟨admits_of (by decide +kernel) (by simp), by unfold Watch.vecReads; decide +kernel, by decide +kernel, by decide +kernel, by decide +kernel,
   by decide +kernel, vecOk_of _ _ (by decide +kernel), by decide +kernel, by decide +kernel⟩
theorem witness_reduce : reduceTree (fun a b => a + b) s1.ctx.levels (List.replicate 64 (none : Option Nat)) = none ∧
    reduceTree (fun a b => a + b) s1.ctx.levels ((List.range 64).map some) = some 2016 ∧ s1.ctx.gov 3 = 0 := by decide +kernel

/-- The bearing unit free; bearings that are the zero code, the NaN code, and one at each end of the codes; and the sources of BSET at the
last age that they fit. -/
theorem witness_bearings : s1.admits (some 2) ∧ (∀ r : BitVec 3, s1.ctx.bearPends r = false) ∧ s1.bearFull = false ∧
    (sw (flights .bear 16)).bearFull = true ∧
    (sw (fun w => { w with flights := [{ id := 0, unit := .bear, path := .local, bear := some 3 }] })).ctx.bearPends 3 = true ∧
    s1.ctx.uniReads [⟨0, .s 0, 1⟩, ⟨1, .s 1, 1⟩, ⟨2, .s 2, 1⟩] ∧ (s1.ctx.bear 0).norm = 0x8000 ∧
    (let b : Bearing := { comps := List.replicate 256 0x4000, norm := 32766 }
     b.norm ≠ 0x8000 ∧ b.norm ≠ 0x7FFF ∧ 32766 < b.norm.toInt + 1 ∧ -32767 ≤ b.norm.toInt + 0 ∧ b.norm.toInt + 0 ≤ 32766) ∧
    s1.ctx.bearEntries .f32 = 4 ∧ 28 + s1.ctx.bearEntries .f32 ≤ 32 ∧ 32 < 29 + s1.ctx.bearEntries .f32 ∧
    s1.ctx.vecReads (s1.ctx.gov 1) [⟨0, .w 28, 4⟩] :=
  ⟨admits_of (by decide +kernel) (by simp), by decide +kernel, by decide +kernel, by decide +kernel, by decide +kernel,
   by unfold Watch.uniReads; decide +kernel, by decide +kernel, by decide +kernel, by decide +kernel, by decide +kernel, by decide +kernel,
   by unfold Watch.vecReads; decide +kernel⟩

/-! ### Memory -/

/-- A segment over the first page, readable and writable. -/
def seg0 : Seg := BitVec.ofNat 128 (0x10000 * 2 ^ 64 + 3 * 2 ^ 120)
/-- `gw` with segment sg0 over the mapped page, 64 scratchpad rows, and reservations on sector 8. -/
def aw (f : Watch → Watch) : State :=
  gw (fun w => f { w with
    segs := seg0 :: List.replicate 15 0, spadRows := 64
    lanes := List.replicate 64 { Lane.empty with exited := false, wake := fullWake, resv := some ((devKey 0 0x400) / 128) } })
def a1 : State := aw id
/-- Its address operand: base s0 = 0, no index, a displacement of 0x400. -/
def fm (t : Ty) : FmtM := ⟨0, 5, 0, 0, t, .w 4, .imm 0, .s 0, 0x400⟩
def rdA (n : Nat) : Access := { size := n, rd := true, wr := false, peer := decide (n ≤ 8) }
def wrA (n : Nat) : Access := { size := n, rd := false, wr := true, peer := decide (n ≤ 8) }
theorem leads_of {s : State} {a : Access} {spad : Bool} {g : BitVec 4} {o key : Nat} (h : Bool)
    (hk : (s.mediaOk key && (decide (2 ^ 58 ≤ key) || decide (key % 2 ^ 16 + a.size ≤ 2 ^ 16)) &&
      decide (s.judge a spad g o = .ok (.store [⟨key, a.size, h, false⟩]))) = true) : s.leads a spad g o key := by
  simp only [Bool.and_eq_true, Bool.or_eq_true, decide_eq_true_eq] at hk
  exact ⟨⟨hk.1.1, fun hl => by omega⟩, h, hk.2⟩

theorem a1_ok : a1.admits none ∧ a1.ctx.sound ∧ Memory.wf a1.mem = true ∧ a1.ctx.loadsFull = false ∧ a1.ctx.k0 ≠ 0 ∧
    a1.clamps 7 = false :=
  ⟨admits_of (by decide +kernel) (by simp), watch_sound (by decide +kernel), by decide +kernel⟩
theorem witness_load : a1.ctx.vecReads a1.ctx.k0 (addrSrcs false (fm .i64) true) ∧
    a1.ctx.vecReads a1.ctx.k0 (addrSrcs true (fm .i8) true) ∧ a1.ctx.uniReads [⟨0, .s 0, 1⟩, ⟨1, .imm 0, 1⟩] ∧
    (∀ l < 64, has a1.ctx.k0 l = true → a1.ctx.offset false (fm .i64) 0x400 true l = 0x400) ∧
    a1.poisoned (devKey 0 0x400) 16 = false ∧ a1.leads (rdA 8) false 0 0x400 (devKey 0 0x400) ∧
    a1.leads (rdA 16) false 0 0xFFF0 (devKey 0 0xFFF0) ∧ a1.leads (rdA 1) true 0 8191 (spadKey 0 0 + 8191) ∧
    (sw (fun w => { w with lanes := List.replicate 64 Lane.empty })).ctx.k0 = 0 :=
  ⟨by unfold Watch.vecReads; decide +kernel, by unfold Watch.vecReads; decide +kernel, by unfold Watch.uniReads; decide +kernel,
   by decide +kernel, by decide +kernel, leads_of false (by decide +kernel), leads_of false (by decide +kernel),
   leads_of false (by decide +kernel), by decide +kernel⟩
theorem witness_store : 0 < (fm .i64).ty.bytes ∧ a1.ctx.vecReads a1.ctx.k0 (addrSrcs false (fm .b32) true ++ [⟨2, .w 4, 4⟩]) ∧
    a1.ctx.uniReads [⟨0, .s 0, 1⟩, ⟨1, .imm 0, 1⟩, ⟨2, .s 1, 1⟩] ∧ a1.leads (wrA 4) false 0 0x400 (devKey 0 0x400) ∧
    a1.leads (wrA 16) false 0 0xFFF0 (devKey 0 0xFFF0) ∧ (a1.ctx.lane 0).resv = some ((devKey 0 0x400) / 128) :=
  ⟨by decide, by unfold Watch.vecReads; decide +kernel, by unfold Watch.uniReads; decide +kernel, leads_of false (by decide +kernel),
   leads_of false (by decide +kernel), by decide +kernel⟩

/-- The same, wherever the access leads: device memory, and a page of the host that holds the whole access. -/
theorem passes_of {s : State} {a : Access} {spad : Bool} {g : BitVec 4} {o : Nat} {t : Target}
    (h : (decide (s.judge a spad g o = .ok t) && t.parts.all (fun p => s.mediaOk p.key && !s.poisoned p.key p.n)) = true) :
    s.passes a spad g o t := by
  simp only [Bool.and_eq_true, decide_eq_true_eq, List.all_eq_true, Bool.not_eq_true'] at h
  exact h
/-- `a1` with its pages in the host's memory; and with a fabric window of domain 0 over its first page, to domain 2 of module 5. -/
def hosted : State := { a1 with tlb := a1.tlb.map (fun e => { e with host := true, hc := true }) }
def windowed : State :=
  { a1 with cfg := (.fwtgt 0 0, BitVec.ofNat 64 (2 ^ 63 + 2 * 2 ^ 16 + 5)) :: (.fwsize 0 0, 1) :: (.fwbase 0 0, 0) :: a1.cfg }
theorem witness_passes : a1.passes (rdA 4) false 0 0x400 (.store [⟨devKey 0 0x400, 4, false, false⟩]) ∧
    hosted.passes (rdA 4) false 0 0x400 (.store [⟨hostKey 0 0x400, 4, true, true⟩]) ∧
    windowed.passes (rdA 4) false 0 0x400 (.peer 0 0x400) ∧ windowed.passes (rdA 8) false 0 0xFFF8 (.peer 0 0xFFF8) ∧
    hosted.passes (wrA 4) false 0 0x400 (.store [⟨hostKey 0 0x400, 4, true, true⟩]) ∧ windowed.passes (wrA 4) false 0 0x400 (.peer 0 0x400) :=
  ⟨passes_of (by decide +kernel), passes_of (by decide +kernel), passes_of (by decide +kernel), passes_of (by decide +kernel),
   passes_of (by decide +kernel), passes_of (by decide +kernel)⟩

/-- A record that ends at the end of the segment, part by part. -/
theorem leadsRecord_of {s : State} {a : Access} {g : BitVec 4} {o align size base : Nat}
    (h : (decide (o % align = 0) && inSegment (s.ctx.seg g) o size && a.allowed (segRd (s.ctx.seg g)) (segWr (s.ctx.seg g)) &&
      (List.range (size / 16)).all (fun i => s.mediaOk (base + 16 * i) && decide ((base + 16 * i) % 2 ^ 16 + 16 ≤ 2 ^ 16) &&
        decide (s.judgePage a (segBase (s.ctx.seg g) + o + 16 * i) = .ok (.store [⟨base + 16 * i, 16, false, false⟩])))) = true) :
    s.leadsRecord a g o align size (fun i => base + 16 * i) := by
  simp only [Bool.and_eq_true, decide_eq_true_eq, List.all_eq_true, List.mem_range] at h
  exact ⟨h.1.1.1, h.1.1.2, h.1.2, fun i hi => ⟨⟨(h.2 i hi).1.1, fun _ => (h.2 i hi).1.2⟩, false, (h.2 i hi).2⟩⟩
def rd16 : Access := { size := 16, rd := true, wr := false, peer := false }
def wr16 : Access := { size := 16, rd := false, wr := true, peer := false }
theorem witness_records : a1.admits (some 2) ∧ a1.ctx.uniReads (bearSrcs (fm .f32)) ∧ a1.ctx.bearPends 7 = false ∧
    a1.leadsRecord rd16 0 0xFDF0 16 528 (fun i => devKey 0 0xFDF0 + 16 * i) ∧
    a1.leadsRecord wr16 0 0x400 16 528 (fun i => devKey 0 0x400 + 16 * i) ∧
    a1.leadsRecord rd16 0 0xFFC0 64 64 (fun i => devKey 0 0xFFC0 + 16 * i) ∧
    a1.leadsRecord wr16 0 0x400 64 64 (fun i => devKey 0 0x400 + 16 * i) ∧
    (∀ i < 33, a1.poisoned (devKey 0 0x400 + 16 * i) 16 = false) ∧ (a1.ctx.uni (.imm 20)).toNat % 32 = 20 :=
  ⟨admits_of (by decide +kernel) (by simp), by unfold Watch.uniReads; decide +kernel, by decide +kernel, leadsRecord_of (by decide +kernel),
   leadsRecord_of (by decide +kernel), leadsRecord_of (by decide +kernel), leadsRecord_of (by decide +kernel), by decide +kernel,
   by decide +kernel⟩

/-- A bearing record of which 4 events are done, and the next issue performs 6. -/
def events : List (List Part) := (List.range 33).map (fun i => [⟨devKey 0 0x400 + 16 * i, 16, false, false⟩])
def partly : State :=
  { a1 with ctx := { a1.ctx with sp := { a1.ctx.sp with
      wait := .record, record := { done := 4, parts := events, bytes := List.replicate 64 0, goal := 6 } } } }
theorem witness_record_parts : partly.admits (some 2) ∧ partly.ctx.sound ∧ a1.ctx.sp.record.done = 0 ∧ a1.ctx.loadsFull = false ∧
    0 < partly.ctx.sp.record.done ∧ partly.ctx.sp.record.done ≤ 33 ∧ min 33 (partly.ctx.sp.record.done + partly.ctx.sp.record.goal) = 10 ∧
    partly.ctx.sp.record.bytes.length = 16 * partly.ctx.sp.record.done ∧ partly.ctx.sp.record.parts.length = 33 ∧
    (∀ i < 33, partly.ctx.sp.record.parts.getD i [] = [⟨devKey 0 0x400 + 16 * i, 16, false, false⟩]) ∧
    (∀ i < 33, partly.poisoned (devKey 0 0x400 + 16 * i) 16 = false) :=
  ⟨admits_of (by decide +kernel) (by simp), watch_sound (by decide +kernel), by decide +kernel⟩

/-- Offsets at the limit and one byte beyond it; the line of an access either readable or writable. -/
theorem witness_addresses : a1.ctx.vecReads a1.ctx.k0 (addrSrcs false (fm .f32) true) ∧
    0xFFFC + 4 ≤ bitsAt (a1.ctx.seg 0).toNat 64 56 ∧ bitsAt (a1.ctx.seg 0).toNat 64 56 < 0xFFFD + 4 ∧ has a1.ctx.k0 0 = true ∧
    a1.leads { size := 1, rd := true, wr := true, either := true } false 0 0xFFFF (devKey 0 0xFFFF) :=
  ⟨by unfold Watch.vecReads; decide +kernel, by decide +kernel, by decide +kernel, by decide +kernel, leads_of false (by decide +kernel)⟩

/-- Each check of R210 failed by some access: alignment, limit, permission, domain, mapping, page permission; and a page to wait for. -/
theorem witness_checks :
    (a1.judge (rdA 4) false 0 0x402).order = 1 ∧ (a1.judge (rdA 4) false 0 0x10000).order = 2 ∧
    ((aw (fun w => { w with segs := [0x10000#128 <<< 64] })).judge (rdA 4) false 0 0x400).order = 3 ∧
    (a1.judge (rdA 4) true 0 (3 * 2 ^ 30)).order = 4 ∧ (a1.judge (rdA 4) true 0 8192).order = 2 ∧
    (({ a1 with tlb := [] } : State).judge (rdA 4) false 0 0x400).order < 8 ∧
    ((pooled { a1 with tlb := a1.tlb.map (fun e => { e with r := false }) }).judge (rdA 4) false 0 0x400).order = 7 ∧
    8 ≤ (a1.judge (rdA 4) false 0 0x400).order ∧
    -- a lane's page was declined
    (let s : State := { a1 with ctx := { a1.ctx with sp := { a1.ctx.sp with wait := .declined 0 0 } } }
     s.ctx.sp.wait.isDeclined = true ∧ (s.judge (rdA 4) false 0 0x400).order = 6) := by decide +kernel

theorem witness_atomic : a1.ctx.vecReads a1.ctx.k0 (addrSrcs false (fm .i32) true ++ [Src.of 2 .i32 (.w 4)]) ∧
    a1.ctx.vecReads a1.ctx.k0 (addrSrcs false (fm .i32) false ++ [Src.of 1 .i64 (.w 4), Src.of 2 .i64 (.w 4)]) ∧
    a1.leads { size := 4, rd := true, wr := true, host := false, peer := true } false 0 0x400 (devKey 0 0x400) ∧
    a1.leads { size := 8, rd := true, wr := true, host := true, peer := false } true 0 0x400 (spadKey 0 0 + 0x400) ∧
    a1.leads { size := 16, rd := true, wr := true, host := false, peer := false } false 0 0x400 (devKey 0 0x400) ∧
    a1.admits (some 5) ∧ a1.admits (some 6) ∧ devKey 0 0x400 % 128 + 8 ≤ 128 ∧
    -- of the lanes, which all hold the sector, the lowest stores
    (∀ l < 64, decide (l = 0) = true ↔ has a1.ctx.k0 l = true ∧ (a1.ctx.lane l).resv = some (devKey 0 0x400 / 128) ∧
      ∀ j < l, decide (j = 0) = true → devKey 0 0x400 / 128 ≠ devKey 0 0x400 / 128) :=
  ⟨by unfold Watch.vecReads; decide +kernel, by unfold Watch.vecReads; decide +kernel, leads_of false (by decide +kernel),
   leads_of false (by decide +kernel), leads_of false (by decide +kernel), admits_of (by decide +kernel) (by simp),
   admits_of (by decide +kernel) (by simp), by decide +kernel, by decide +kernel⟩

/-! ### Ordering -/

/-- DPOL of domain 0: CLAMP, and TRAP with it. -/
def dpol (v : Nat) : State := { a1 with cfg := (.dpol 0, BitVec.ofNat 64 v) :: a1.cfg }
def cmd0 : EngCmd :=
  { id := 90, kind := .cpys, place := 0, watch := ⟨0, 0, 0, 0⟩, split := 0, core := 0, dom := 0, cls := 1, path := 1, a := 0x1000, b := 0x2000,
    c := 0, obj := 0x40, bytes := 16, group := none, total := 1, done := 0, wclass := 0, stall := none, paused := false }
theorem witness_ordering : (dpol 0).regField (.dpol 0) 0 1 = 0 ∧ (dpol 1).regField (.dpol 0) 0 1 = 1 ∧ (dpol 1).regField (.dpol 0) 1 1 = 0 ∧
    (dpol 3).regField (.dpol 0) 1 1 = 1 ∧ a1.pathBusy 1 = false ∧ ({ a1 with cmds := [cmd0] } : State).pathBusy 1 = true ∧
    a1.ctx.loadCount ≤ 0 ∧ 0 < (aw (flights .load 1)).ctx.loadCount ∧ a1.engineCount a1.ctx.ref ≤ 0 ∧
    0 < ({ a1 with cmds := [cmd0] } : State).engineCount a1.ctx.ref := by decide +kernel
/-- A second watch of the block, on its way or at the barrier. -/
def other (x : Wait) : Watch := { w1 with ref := ⟨0, 0, 0, 1⟩, slot := 1, sp := { w1.sp with wait := x } }
theorem witness_barrier :
    (other .none).resident = true ∧ (other .none).ref.block = a1.ctx.ref.block ∧ (other .none).splitEnded (other .none).sp = false ∧
    (a1.ctx :: [other .none]).all (fun v => v.splits.all (fun q => q.wait == .none)) = true ∧
    (other (.barrier false)).splits.all (fun q => q.wait == .barrier false) = true ∧
    (other (.barrier true)).splits.all (fun q => q.wait == .barrier true) = true ∧ a1.ctx.sibs = [] ∧ a1.ctx.k0 ≠ 0 := by decide +kernel

/-- An object in the last 16 bytes of the block's scratchpad; each relation of its counts to the operand. -/
def bobj (pending : Nat) : State := a1.store (spadKey 0 0 + 8176) 16 (pending + 5 * 2 ^ 64)
theorem witness_objects : a1.ctx.uniReads [⟨0, .imm 5, 1⟩, ⟨1, .imm 16, 1⟩] ∧
    (bobj 5).judgeSpad { size := 16, rd := true, wr := false } 8176 = .ok (.store [⟨spadKey 0 0 + 8176, 16, false, false⟩]) ∧
    (bobj 5).mediaOk (spadKey 0 0 + 8176) = true ∧ (bobj 5).poisoned (spadKey 0 0 + 8176) 16 = false ∧
    (bobj 5).load (spadKey 0 0 + 8176) 16 % 2 ^ 48 = 5 ∧ (bobj 7).load (spadKey 0 0 + 8176) 16 % 2 ^ 48 = 7 ∧
    2 ^ 47 ≤ (bobj (2 ^ 47)).load (spadKey 0 0 + 8176) 16 % 2 ^ 48 ∧
    (bobj (2 ^ 47 - 1)).load (spadKey 0 0 + 8176) 16 % 2 ^ 48 = 2 ^ 47 - 1 ∧ 2 ^ 47 ≤ 2 ^ 47 - 1 + (a1.ctx.uni (.imm 1)).toNat ∧
    (bobj 5).load (spadKey 0 0 + 8176) 16 / 2 ^ 48 % 2 = 0 ∧ 2 ^ 47 ≤ (a1.ctx.uni (.imm 63)).toNat := by
  refine ⟨by unfold Watch.uniReads; decide +kernel, by decide +kernel⟩

/-! ### Engines -/

/-- A shape of c × r elements of a format at a base, in rows of `step` bytes. -/
def mk (base fmt c r step : Nat) (spad : Bool) : Shape :=
  BitVec.ofNat 512 (base + c * 2 ^ 64 + r * 2 ^ 88 + 2 ^ 112 + 2 ^ 136 + step * 2 ^ 160 + c * 2 ^ 268 + r * 2 ^ 280 + 2 ^ 292 + 2 ^ 304 +
    fmt * 2 ^ 412 + if spad then 2 ^ 508 else 0)
/-- A watch with the shapes that the commands below name, and the barrier object s1 = 120 → object operand 16. -/
def shapes : List Shape :=
  [mk 0x1000 6 16 1 0 false, mk 0x2000 6 16 1 0 false, mk 0x0400 6 16 1 0 true, mk 0x3000 6 4 1 0 false, mk 0x4000 6 16 8 64 false,
   mk 0x5000 6 16 4 64 false, mk 0x6000 10 32 32 32 false, mk 0x7000 11 32 64 32 false, mk 0x8000 0 32 32 128 false] ++ List.replicate 7 0
def sh : State := aw (fun w => { w with shapes := shapes })
def fe (x y z : BitVec 4) (f : BitVec 6) (a : Opnd) (ext : BitVec 16) : FmtE := ⟨x, y, z, f, .imm 16, a, ext⟩
def objB (s : State) (o : Nat) : Bool :=
  match s.judgeSpad { size := 16, rd := true, wr := false } o with
  | .ok _ => true
  | _ => false
theorem witness_engine_issue : sh.ctx.resident = true ∧ sh.ctx.k0 ≠ 0 ∧ sh.ctx.uniReads [⟨0, .imm 16, 1⟩, ⟨1, .imm 16, 1⟩] ∧
    objB sh 16 = true ∧ sh.admits (some 4) ∧ sh.admits (some 3) ∧
    (∀ r < 9, (sh.shapeFault (BitVec.ofNat 4 r) (sh.ctx.shape (BitVec.ofNat 4 r)) false).isNone = true) ∧
    -- CPY, CPYP: h1 to h0, and h1 to the scratchpad's h2
    (∀ k < 4, shBox (sh.ctx.shape 0) k = shBox (sh.ctx.shape 1) k) ∧ shFmt (sh.ctx.shape 0) = shFmt (sh.ctx.shape 1) ∧
    shBlk (sh.ctx.shape 0) = shBlk (sh.ctx.shape 1) ∧ (List.range 4).filter (fun r => (1#16).getLsbD r) = [0] ∧
    (sh.shapeFault 2 (putShape (sh.ctx.shape 2) 30 2 0) true).isNone = true ∧
    -- CPYS of 16 bytes, whose ranges touch or not
    (sh.cpysFault 0 (sh.ctx.shape 0) 16).isNone = true ∧ (sh.cpysFault 1 (sh.ctx.shape 1) 16).isNone = true ∧
    shBase (sh.ctx.shape 0) + 16 ≤ shBase (sh.ctx.shape 1) ∧
    -- GTHR and SCAT with the index h3, table h4 and rows h5
    (shFmt (sh.ctx.shape 3) = 6 ∧ shBox (sh.ctx.shape 3) 1 = 1 ∧ shBlk (sh.ctx.shape 3) = 0 ∧ tileInside (sh.ctx.shape 3) = true) ∧
    (shBox (sh.ctx.shape 4) 2 = 1 ∧ shBox (sh.ctx.shape 5) 0 = shBox (sh.ctx.shape 4) 0 ∧ shBox (sh.ctx.shape 5) 1 = shBox (sh.ctx.shape 3) 0) ∧
    -- a full queue of the cluster
    32 ≤ (({ sh with cmds := List.replicate 32 cmd0 } : State).cmds.filter (fun x => x.place == 0 && x.path == 1)).length := by
  refine ⟨rfl, by decide +kernel, by unfold Watch.uniReads; decide +kernel, by decide +kernel, admits_of (by decide +kernel) (by simp),
    admits_of (by decide +kernel) (by simp), by decide +kernel⟩
def runsOf (x : Work (List (Nat × Nat))) : List (Nat × Nat) :=
  match x with
  | .ok l => l
  | _ => []
/-- A group of two members at 0x400, this rank 1; its member list at 0x480. -/
def grouped : State :=
  { sh with mem := Memory.putAll sh.mem (devKey 0 0x400) ([2, 0, 0, 0, 1, 0, 0, 0, 0x80, 4] ++ List.replicate 6 0 ++ [9]) }
def groupOk (s : State) (va root : Nat) : Option (Nat × Nat × DWord) :=
  match s.readGroup va root (fun _ => true) with
  | .ok g => some (g.members.length, g.rank, g.seq)
  | _ => none
theorem witness_group : groupOk grouped 0x400 1 = some (2, 1, 9) ∧ shCount (sh.ctx.shape 0) = shCount (sh.ctx.shape 1) := by decide +kernel

/-- A CPYS of 16 bytes on the mapped page, and a CPY of h1 to h0. -/
def engines : State := { sh with cmds := [{ cmd0 with b := mk 0x2000 6 16 1 0 false, a := mk 0x1000 6 16 1 0 false }],
                                 tlb := sh.tlb ++ sh.tlb.map (fun e => { e with unit := 640 }) }
def ccmd : EngCmd := (engines.cmds.headD cmd0)
def keyOf (x : Work Nat) : Nat :=
  match x with
  | .ok l => l
  | _ => 0
theorem witness_engine_work : Memory.wf engines.mem = true ∧ engines.cmds.find? (fun x => x.id == 90) = some ccmd ∧
    engines.mats.find? (fun x => x.id == 90) = none ∧ ccmd.kind = .cpys ∧ ccmd.total = (shBase ccmd.b % 16 + ccmd.bytes + 15) / 16 ∧
    0 + 16 = min ccmd.bytes (16 * (ccmd.done + 1) - shBase ccmd.b % 16) ∧
    runsOf (engines.agentRuns ccmd.agent false false 0x1000 16) = [(devKey 0 0x1000, 16)] ∧
    runsOf (engines.agentRuns ccmd.agent false true 0x2000 16) = [(devKey 0 0x2000, 16)] ∧
    keyOf (engines.agentKey ccmd.agent true true ccmd.obj) = spadKey 0 0 + 0x40 ∧ engines.mediaOk (spadKey 0 0 + 0x40) = true ∧
    engines.behind = [] ∧ ccmd.message = none ∧ ccmd.sent = true ∧ ccmd.ended = none ∧ ccmd.overlaid = [] ∧ ccmd.stall = none ∧
    ccmd.done < ccmd.total ∧ engines.throttled (engines.payer ccmd.watch ccmd.dom) = false ∧
    (∀ x ∈ engines.cmds, x.place = ccmd.place → x.path = ccmd.path → x = ccmd) ∧
    -- the first element of a CPY
    elemBytes (sh.ctx.shape 0) = 4 ∧ inBounds (sh.ctx.shape 0) (elemAt (sh.ctx.shape 0) (tileAt (sh.ctx.shape 0) 0)) = true ∧
    elemByte (sh.ctx.shape 1) (elemAt (sh.ctx.shape 1) (tileAt (sh.ctx.shape 1) 0)) = 0x2000 ∧
    ({ ccmd with done := 1 } : EngCmd).total ≤ 1 ∧ ({ ccmd with kind := .coll 0 0 1 } : EngCmd).kind = .coll 0 0 1 := by decide +kernel

/-- A launch with 64 accumulator rows, whose gang has a block on the partner core too. -/
def mx : State :=
  { sh with launches := [{ launch0 with recd := { rec0 with accrows := 64 } }],
            gangs := [{ gang0 with places := gang0.places ++ [{ core := 1, row := 0, acc := 0, lent := false, ran := [1], ended := false }] }] }
theorem witness_matrix_issue : mx.ctx.resident = true ∧ mx.ctx.cls ≠ 2 ∧ (sw (fun w => { w with cls := 2 })).ctx.cls = 2 ∧ mx.ctx.k0 ≠ 0 ∧
    0 + 64 ≤ mx.ownRows ∧ mx.partnerRank = some 1 ∧ shFmt (mx.ctx.shape 6) = 10 ∧ shFmt (mx.ctx.shape 7) = 11 ∧
    shBox (mx.ctx.shape 6) 1 = 32 ∧ shBox (mx.ctx.shape 7) 1 = 64 ∧ shBox (mx.ctx.shape 7) 0 = shBox (mx.ctx.shape 6) 0 ∧ 192 + 64 ≤ 256 ∧
    448 + 64 ≤ 512 ∧ shFmt (mx.ctx.shape 8) = 0 ∧ shBlk (mx.ctx.shape 8) = 0 ∧ 0 + shBox (mx.ctx.shape 8) 0 ≤ 256 ∧
    (productPair false 10 11 || productPair true 10 11) = true ∧ (productPair false 10 1 || productPair true 10 1) = false ∧
    ((operandMax 10).mul (operandScale (mx.ctx.shape 6) 127)).mul ((operandMax 11).mul (operandScale (mx.ctx.shape 7) 127)) = .num false 32640 0 ∧
    objB mx 8176 = true := by decide +kernel

def mat0 : MatCmd :=
  { id := 91, core := 0, watch := ⟨0, 0, 0, 0⟩, split := 0, dom := 0, prio := 1, nopre := false, op := .accinit 0, major := 0xB3, a := 0, b := 0,
    obj := 0, row := 0, col := 0, rows := 1, addr := 0, pair := none, clear := false, bytes := 0, total := 1, done := 0, left := 0, right := 0,
    running := [], waited := 0, holding := false, made := false, stall := none, saved := false }
def prod0 : MatCmd := { mat0 with id := 92, op := .product false, major := 0xB0, a := shapes.getD 6 0, b := shapes.getD 7 0, obj := 16, total := 0 }
def mats (l : List MatCmd) : State := { mx with mats := l, tlb := mx.tlb ++ mx.tlb.map (fun e => { e with unit := 640 }) }
def passOk (s : State) (c : MatCmd) : Bool :=
  match s.runPass c with
  | .ok _ => true
  | _ => false
theorem witness_matrix_work :
    (mats [mat0]).mats.find? (fun x => x.id == 91) = some mat0 ∧ (mats [mat0]).cmds.find? (fun x => x.id == 91) = none ∧
    mat0.saved = false ∧ mat0.stall = none ∧ (mats [mat0]).inOrder mat0 = true ∧ mat0.done < mat0.total ∧ mat0.isProduct = false ∧
    prod0.isProduct = true ∧ (mats [{ prod0 with running := [⟨0, 8, 4096⟩] }]).arrayBusy 0 = true ∧ (mats []).arrayBusy 0 = false ∧
    ((mats []).markHolds 0).chosen 0 = none ∧ (((mats [prod0]).markHolds 0).chosen 0).map (·.id) = some 92 := by decide +kernel
/-- One row times one column of 32. -/
def small : MatCmd := { prod0 with a := mk 0x6000 10 32 1 32 false, b := mk 0x7000 11 32 1 32 false }
theorem witness_pass : (((mats [small]).markHolds 0).chosen 0).map (·.id) = some 92 ∧ passOk ((mats [small]).markHolds 0) small = true ∧ prod0.finished = false ∧ ({ prod0 with left := 1 } : MatCmd).finished = true := by
  decide +kernel

/-! ### The task graph -/

/-- Bytes of the page, by address: a NOP; the launch record's address of node 4, of node 5, and node 5's counter; the launch record
(R301), with this device's hash at 0x608, CODE, ENTRY, GANGS, BLOCKS, WATCHES, EWIDTH, CLASS, PRIO. -/
def taskMem : Memory :=
  [(0x7, 0x0b), (0x201, 0x06), (0x281, 0x06), (0x2a0, 0x03), (0x601, 0x01), (0x603, 0x02), (0x608, 0xec), (0x609, 0x6f),
   (0x60a, 0x53), (0x60b, 0x35), (0x60c, 0x7b), (0x60d, 0xd3), (0x60e, 0x66), (0x60f, 0x10), (0x610, 0xce), (0x612, 0x53),
   (0x613, 0x3f), (0x614, 0xeb), (0x615, 0xc9), (0x616, 0x5d), (0x617, 0xfd), (0x619, 0x08), (0x620, 0x40), (0x630, 0x01),
   (0x634, 0x01), (0x635, 0x01), (0x636, 0x40), (0x63e, 0x01), (0x63f, 0x02)]
/-- The code object's header (R395): magic, version, two sections, hash; a native section and its rejoin section. -/
def headMem : Memory :=
  [(0x800, 0x47), (0x801, 0x4c), (0x802, 0x43), (0x803, 0x4f), (0x805, 0x01), (0x806, 0x02), (0x808, 0xec), (0x809, 0x6f),
   (0x80a, 0x53), (0x80b, 0x35), (0x80c, 0x7b), (0x80d, 0xd3), (0x80e, 0x66), (0x80f, 0x10), (0x810, 0xce), (0x812, 0x53),
   (0x813, 0x3f), (0x814, 0xeb), (0x815, 0xc9), (0x816, 0x5d), (0x817, 0xfd), (0x840, 0x01), (0x850, 0x02)]
/-- Page 0 with a launch record at 0x600, its code object's header at 0x800, node 4 with counter 0 and node 5 with counter 3; an
IDLE node 3 whose record names no launch record; every unit that matters translates the page; core 0 has a slot for domain 0. -/
def taskCfg : List (Reg × DWord) :=
  [(.ntcount 0, 64), (.quotaCtl 0 0, 5), (.qslot 0 0, 0x100), (.qspad 0 0, 0x400000), (.gssize 0, 0x1000), (.part 0, 0x80000000000)]
def task : State :=
  { g1 with
    mem := taskMem ++ headMem
    tlb := g1.tlb ++ g1.tlb.map (fun e => { e with unit := 800 })
    cfg := taskCfg ++ g1.cfg }
def checked (x : NodeCheck) : Option (Nat × Nat × Nat) :=
  match x with
  | .ok n => some (0, n.idx, n.counter)
  | .hold p => some (1, p, 0)
  | .bad c r => some (2, c, r)
def accepted (x : Accept) : Nat :=
  match x with
  | .ok _ => 0
  | .hold p _ => 1000 + p
  | .refused r _ => r
def node5 (c : Nat) : Node :=
  { dom := 0, idx := 5, counter := c, home := 1, prio := 0, succ := [], recd := rec0, payload := none, parent := none }
/-- The launch record stands in a page that a recoverable fault holds. -/
def faulting (s : State) : State := { s with cfg := (.ptroot 0, 1) :: s.cfg, mem := Memory.put s.mem (devKey 0 0x203) 1 }
/-- The bytes of node 4 and node 5. -/
def nodeBytes (counter : Byte) : List Byte := [0, 6] ++ List.replicate 30 0 ++ [counter] ++ List.replicate 95 0
def okBytes (x : Reach (List Byte)) : Option (List Byte) :=
  match x with
  | .ok bs => some bs
  | _ => none
/-- A node is sound when its parts are. -/
theorem check_of {s : State} {tu idx : Nat} {c : Byte} (va : s.nodeVa 0 idx = 128 * idx) (h1 : ¬ s.regField (.ntcount 0) 0 24 ≤ idx)
    (h2 : okBytes (s.vread tu 0 (128 * idx) 128) = some (nodeBytes c)) (h3 : s.nodeSound 0 (nodeBytes c) = true)
    (h4 : ∃ r, s.acceptLaunch tu 0 0x600 = .ok r) (h5 : fieldOf (nodeBytes c) 0 8 = 0x600) (h6 : fieldOf (nodeBytes c) 36 1 = 0) :
    ∃ n, s.checkNode tu 0 idx = .ok n ∧ n.idx = idx ∧ n.counter = fieldOf (nodeBytes c) 32 2 := by
  obtain ⟨r, hr⟩ := h4
  have hb : s.vread tu 0 (128 * idx) 128 = .ok (nodeBytes c) := by
    revert h2; cases s.vread tu 0 (128 * idx) 128 <;> simp [okBytes]
  exact ⟨_, by simp [State.checkNode, h1, va, hb, h3, h5, h6, hr]; rfl, rfl, rfl⟩
def isOk (x : Accept) : Bool :=
  match x with
  | .ok _ => true
  | _ => false
theorem ok_of {x : Accept} (h : isOk x = true) : ∃ r, x = .ok r := by cases x <;> simp_all [isOk]
theorem task_accepts : ∃ r, task.acceptLaunch 0 0 0x600 = .ok r := ok_of (by decide +kernel)
theorem witness_nodes : task.admits (some 9) ∧ task.ctx.uniReads [⟨0, .imm 4, 1⟩] ∧ (task.ctx.uni (.imm 4)).toNat = 4 ∧ task.ctx.k0 ≠ 0 ∧
    checked (task.checkNodeHere 3) = some (2, 4, 1) ∧ checked (task.checkNodeHere 64) = some (2, 1, 0) ∧
    task.regField (.ntcount 0) 0 24 ≤ 64 ∧ accepted (task.acceptLaunch 0 0 0x640) = 1 ∧ task.anonymous 0 < 4096 ∧
    4096 ≤ ({ task with launches := List.replicate 4096 { launch0 with phase := .ready } } : State).anonymous 0 ∧
    checked ((faulting task).checkNodeHere 4) = some (1, 0x100, 0) := by
  refine ⟨admits_of (by decide +kernel) (by simp), by unfold Watch.uniReads; decide +kernel, by decide +kernel⟩
theorem witness_node4 : ∃ n, task.checkNodeHere 4 = .ok n ∧ n.idx = 4 ∧ n.counter = 0 := by
  obtain ⟨n, h, hi, hc⟩ := check_of (s := task) (tu := 0) (idx := 4) (c := 0) (by decide +kernel) (by decide +kernel) (by decide +kernel)
    (by decide +kernel) task_accepts (by decide +kernel) (by decide +kernel)
  have h1 : task.ctx.core = 0 ∧ task.ctx.dom = 0 := by decide +kernel
  have h2 : fieldOf (nodeBytes 0) 32 2 = 0 := by decide +kernel
  exact ⟨n, by rw [State.checkNodeHere, h1.1, h1.2, h], hi, hc.trans h2⟩
theorem witness_node5 : ∃ n, task.checkNodeHere 5 = .ok n ∧ n.idx = 5 ∧ n.counter = 3 := by
  obtain ⟨n, h, hi, hc⟩ := check_of (s := task) (tu := 0) (idx := 5) (c := 3) (by decide +kernel) (by decide +kernel) (by decide +kernel)
    (by decide +kernel) task_accepts (by decide +kernel) (by decide +kernel)
  have h1 : task.ctx.core = 0 ∧ task.ctx.dom = 0 := by decide +kernel
  have h2 : fieldOf (nodeBytes 3) 32 2 = 3 := by decide +kernel
  exact ⟨n, by rw [State.checkNodeHere, h1.1, h1.2, h], hi, hc.trans h2⟩
/-- A node that waits: the sums at the field's end, and each relation of the counter to the operand. -/
theorem witness_counters :
    ({ task with nodes := [node5 65530] } : State).counterOf 0 5 = some 65530 ∧ 65530 + (5#16).toNat ≤ 65535 ∧ 65535 < 65530 + (6#16).toNat ∧
    ({ task with nodes := [node5 3] } : State).counterOf 0 5 = some 3 ∧ (2#16).toNat < 3 ∧ 3 = (3#16).toNat ∧ 3 < (4#16).toNat ∧
    task.counterOf 0 5 = none ∧ (0, 5) ∉ task.fired ∧ (0, 5) ∈ ({ task with fired := [(0, 5)] } : State).fired ∧
    task.file = [] ∧ task.regField (.ntcount 0) 0 24 ≤ 64 ∧ 5 < task.regField (.ntcount 0) 0 24 ∧
    (sw (fun w => { w with lanes := List.replicate 64 Lane.empty })).ctx.k0 = 0 := by decide +kernel

def fork2 (x : List Node ⊕ (Nat × NodeCheck)) : Nat × Option (Nat × Nat × Nat) :=
  match x with
  | .inl ns => (ns.length, none)
  | .inr (i, c) => (i, checked c)
theorem witness_fork : task.admits (some 7) ∧ task.ctx.cls ≠ 2 ∧ (sw (fun w => { w with cls := 2 })).ctx.cls = 2 ∧
    task.ctx.uniReads [⟨0, .imm 4, 1⟩] ∧ fork2 (task.checkNodes 3 1) = (3, some (2, 4, 1)) ∧
    task.gangOf 0 0 = some gang0 ∧ gang0.join + 1 ≤ 65535 ∧ 65535 < ({ gang0 with join := 65535 } : Gang).join + 1 ∧
    task.ctx.splitEnded task.ctx.sp = false ∧ task.launchOf 0 = some launch0 ∧ gang0.phase = .placed ∧ gang0.join = 0 ∧
    ({ gang0 with join := 1 } : Gang).join ≠ 0 ∧ task.cmds.length = 0 ∧ task.mats.length = 0 ∧
    (task.hold .join).allArrived (fun w => w.of 0 0) (fun x => decide (x = .join)) = true ∧
    (({ task with others := [other .none] } : State).hold .join).allArrived (fun w => w.of 0 0) (fun x => decide (x = .join)) = false := by
  refine ⟨admits_of (by decide +kernel) (by simp), by decide +kernel, by decide +kernel, by unfold Watch.uniReads; decide +kernel,
    by decide +kernel⟩
theorem witness_fork_nodes : fork2 (task.checkNodes 4 1) = (1, none) := by
  obtain ⟨n, h, -⟩ := witness_node4
  simp [State.checkNodes, h, fork2]
theorem witness_tags :
    (let s : State := { task with nodes := [node5 3], armed := [⟨0, 7, 4⟩] }
     s.admits (some 8) ∧ s.counterOf 0 5 = some (2 + 1) ∧ (∀ x ∈ s.armed, ¬ (x.dom = 0 ∧ x.tag = 8)) ∧
     (s.armed.filter (fun x => x.dom == 0)).length < 1024 ∧ (∃ x ∈ s.armed, x.dom = 0 ∧ x.tag = 7) ∧ s.counterOf 0 4 = none) ∧
    1024 ≤ (List.replicate 1024 (⟨0, 9, 4⟩ : Armed)).length ∧ (5 * 2 ^ 32 + 7) / 2 ^ 32 = 5 ∧ (7 : Nat) / 2 ^ 32 = 0 := by
  refine ⟨⟨admits_of (by decide +kernel) (by simp), by decide +kernel⟩, by decide +kernel⟩

/-- Domain 0 may use core 0 but nothing runs there: the launch's next gang is fresh, or one that was saved. -/
def pool0 (g : List Gang) : State :=
  { task with ctx := Watch.empty, gangs := g,
              launches := [{ launch0 with handed := 0, batches := [], recd := { rec0 with sprows := 64 } }] }
def candOf (s : State) : Option (Option Nat × Nat) := (s.nextCand 0).map (fun c => (c.gang.map (·.idx), c.idx))
def offered (s : State) : Option Nat :=
  match s.nextCand 0 with
  | some c => (s.offers c [] 0 [0]).map (·.length)
  | none => none
def savedGang : Gang := { gang0 with phase := .saved, watches := [w1] }
/-- A launch of one argument word, which stands in a poisoned sector. -/
def argRec : LaunchRec := { rec0 with argptr := 0x600, argsize := 8 }
def poisonedArg : State :=
  { pool0 [] with poison := [devKey 0 0x600 / 128 * 128], launches := [{ launch0 with handed := 0, batches := [], recd := argRec }] }
theorem witness_placement : candOf (pool0 []) = some (none, 0) ∧ offered (pool0 []) = some 1 ∧ clusterOf [0] 1 = true ∧
    ((pool0 []).argHold 0 0 rec0).isNone = true ∧ (pool0 []).startBad 0 0 rec0 = none ∧ savedGang.intact = true ∧
    (poisonedArg.startBad 0 0 argRec).isSome = true ∧ (poisonedArg.argHold 0 0 argRec).isNone = true ∧
    candOf { pool0 [savedGang] with launches := [launch0] } = some (some 0, 0) ∧
    offered { pool0 [savedGang] with launches := [launch0] } = some 1 ∧ savedGang.phase = .saved ∧ w1.resident = true ∧
    w1.ref.block < rec0.blocks ∧ ([0].headD 0) / 160 = 0 := by decide +kernel

theorem witness_ends :
    (let s : State := { task with ctx := Watch.empty }
     s.gangOf 0 0 = some gang0 ∧ s.launchOf 0 = some launch0 ∧ gang0.phase = .placed ∧ (∀ w ∈ s.watches, w.of 0 0 = false) ∧
     (∀ h ∈ s.gangs, h.launch = 0 → h.idx = 0) ∧ launch0.phase = .running ∧ launch0.faulted = false ∧ launch0.recd.gangs ≤ launch0.handed ∧
     (∀ b ∈ launch0.batches, b.stop ≤ b.next) ∧ ({ launch0 with succ := [5] } : Launch).succ = [5] ∧
     ({ s with nodes := [node5 3] } : State).counterOf 0 5 = some (1 + 2)) ∧
    (∃ h ∈ ({ task with gangs := [gang0, { gang0 with idx := 1 }] } : State).gangs, h.launch = 0 ∧ h.idx ≠ 0) ∧
    (∃ w ∈ task.watches, w.of 0 0 = true) ∧ (3 ∉ task.deadDies) ∧ (∃ d < 4, d ≠ 3 ∧ d ∉ task.deadDies) ∧
    (∃ g ∈ task.gangs, g.phase = .placed ∧ ∃ l ∈ task.launches, l.id = g.launch ∧ l.phase = .running) := by decide +kernel

/-! ### Outside the cores -/

/-- Queue 0 of domain 0, enabled, of 16 slots at 0xC00, with the first slot's bytes. -/
def queued (slot : Memory) (x : Served) : State :=
  { task with cfg := (.qrange 0, 0x10000) :: (.qctl 0, BitVec.ofNat 64 (2 ^ 63 + 4)) :: (.qbase 0, 0xC00) :: task.cfg, served := [x],
              mem := taskMem ++ headMem ++ slot }
def marked : Served := ⟨0, false, none, none⟩
def packet (ty n launch : Nat) (nodes : List Nat) : List Byte :=
  leBytes 8 (1 + ty * 2 ^ 8 + n * 2 ^ 16) ++ leBytes 8 launch ++ leBytes 8 0 ++ nodes.flatMap (leBytes 3) ++
    List.replicate (40 - 3 * nodes.length) 0
def slotBytes (s : State) : Option (List Byte) :=
  match s.vread ioUnit 0 (s.slotVa 0) 64 with
  | .ok bs => some bs
  | _ => none
def isRefused {α : Type} (x : Reach α) : Bool :=
  match x with
  | .refused _ => true
  | _ => false
theorem witness_queue : (queued [] marked).queueDomain 0 = some 0 ∧ (queued [] marked).regField (.qctl 0) 63 1 = 1 ∧
    task.regField (.qctl 0) 63 1 = 0 ∧ (queued [] marked).nextQueue 0 = some 0 ∧
    ((queued [] marked).cps[0]?).map (fun c => (c.last, c.held.isNone)) = some (none, true) ∧
    ((slotBytes (queued [(0xC00, 1), (0xC01, 1), (0xC09, 6)] marked)).map fun bs => (fieldOf bs 0 1 % 2, packetReason bs, pktType bs, pktLaunch bs)) =
      some (1, 0, 1, 0x600) ∧
    ((slotBytes (queued [] marked)).map fun bs => fieldOf bs 0 1 % 2) = some 0 ∧
    ((slotBytes (queued [(0xC00, 1), (0xC01, 4)] marked)).map fun bs => packetReason bs) = some 0x10 ∧
    ((slotBytes (queued [(0xC00, 1), (0xC01, 3), (0xC02, 9)] marked)).map fun bs => packetReason bs) = some 0x11 ∧
    (let s : State := { queued [] marked with cfg := (.ptroot 0, 0) :: (queued [] marked).cfg }
     isRefused (s.vread ioUnit 0 (s.slotVa 0) 64)) = true ∧
    (queued [] { marked with reread := true }).served.any (fun x => x.queue == 0 && x.reread) = true := by decide +kernel
/-- A packet that command processor 0 holds. -/
def held (bs : List Byte) (nodes : List Node) : State :=
  { queued [] marked with cps := [⟨some 0, some (0, 0xC00, bs)⟩, ⟨none, none⟩], nodes := nodes }
theorem held_accepts : ∃ r, (held [] []).acceptLaunch ioUnit 0 0x600 = .ok r := ok_of (by decide +kernel)
theorem witness_insert : (∃ n, (held [] []).checkNode ioUnit 0 4 = .ok n ∧ n.idx = 4 ∧ n.counter = 0) ∧
    ∃ n, (held [] []).checkNode ioUnit 0 5 = .ok n ∧ n.idx = 5 ∧ n.counter = 3 :=
  ⟨check_of (c := 0) (by decide +kernel) (by decide +kernel) (by decide +kernel) (by decide +kernel) held_accepts (by decide +kernel)
    (by decide +kernel),
   check_of (c := 3) (by decide +kernel) (by decide +kernel) (by decide +kernel) (by decide +kernel) held_accepts (by decide +kernel)
    (by decide +kernel)⟩
/-- A RELEASE of node 5, whose record lies on a page that is not mapped; and a domain without tables. -/
def heldFar : State := { faulting (held (packet 3 1 0 [5]) []) with cfg := (.ntbase 0, 0x1000000) :: (held [] []).cfg }
def heldBare : State := { held (packet 3 1 0 [5]) [] with cfg := (.ptroot 0, 0) :: (held [] []).cfg, tlb := [] }
def reads (x : Reach (List Byte)) : Nat :=
  match x with
  | .ok _ => 0
  | .hold p => 2 + p
  | .refused _ => 1
theorem witness_release : pktNodes (packet 3 1 0 [5]) = [5] ∧ reads ((held [] []).vread ioUnit 0 ((held [] []).nodeVa 0 5) 128) = 0 ∧
    reads (heldFar.vread ioUnit 0 (heldFar.nodeVa 0 5) 128) = 2 + 0x100 ∧ heldFar.ioDeclined 0 0x100 = false ∧
    5 < heldFar.regField (.ntcount 0) 0 24 ∧ reads (heldBare.vread ioUnit 0 (heldBare.nodeVa 0 5) 128) = 1 ∧
    heldBare.queueDomain 0 = some 0 := by decide +kernel
theorem witness_packets :
    ((held (packet 0 0 0 []) []).cps[0]?).map (fun c => c.held.map (fun p => (p.1, p.2.1, pktType p.2.2))) = some (some (0, 0xC00, 0)) ∧
    (∀ x ∈ (held [] []).served, x.queue = 0 → x.stall = none) ∧ pktNodes (packet 1 2 0x600 [5, 63]) = [5, 63] ∧
    (∀ i ∈ pktNodes (packet 1 2 0x600 [5, 63]), i < (held [] []).regField (.ntcount 0) 0 24) ∧
    accepted ((held [] []).acceptLaunch ioUnit 0 0x640) = 1 ∧
    accepted ((faulting (held [] [])).acceptLaunch ioUnit 0 0x1000000) = 1000 + 0x100 ∧ (held [] []).ioDeclined 0 0x100 = false ∧
    (held [] []).anonymous ((held [] []).packetHome 0) < 4096 ∧ (∃ i ∈ pktNodes (packet 1 1 0x600 [64]), 64 ≤ i) ∧
    pktNodes (packet 2 0 0 []) = [] ∧ pktNodes (packet 2 1 0 [4]) = [4] ∧
    (held [] [node5 3]).counterOf 0 5 = some (1 + 2) ∧
    (held [] []).counterOf 0 5 = none ∧ Memory.wf (held (packet 0 0 0 []) []).mem = true := by decide +kernel

/-- A signal in a host page of domain 0. -/
def taskHost : State := { task with tlb := task.tlb.map (fun e => { e with host := true }) }
def sig0 : SigOp := { id := 4, launch := 0, dom := 0, va := 0x400, change := .dec true, notify := true, key := hostKey 0 0x400 }
theorem witness_signals :
    (let s : State := { taskHost with signals := [sig0] }
     s.signals.find? (fun y => y.id == 4) = some sig0 ∧ s.signalWaits sig0 = false ∧ sig0.key = hostKey 0 0x400 ∧
     2 ^ 58 ≤ hostKey 0 0x400 ∧ Memory.wf s.mem = true) ∧
    ({ taskHost with signals := [{ sig0 with id := 3, change := .dec false }, sig0] } : State).signalWaits sig0 = true ∧
    0xE000000000000500 / 2 ^ 60 % 16 = 0xE ∧ 1 / 2 ^ 60 % 16 ≠ 0xE := by decide +kernel

/-- An accept list that admits all traffic of peer 3 on node 9, and one that admits nothing. -/
def peered : State := { task with cfg := (.accept 0 0, 0x87030009) :: (.msgring 0, 0x1000) :: task.cfg }
def okUnit (x : Reach Unit) : Bool :=
  match x with
  | .ok _ => true
  | _ => false
def okKey (x : Reach Nat) : Option Nat :=
  match x with
  | .ok k => some k
  | _ => none
theorem witness_traffic : Memory.wf peered.mem = true ∧ okKey (peered.reachAt ioUnit 0 0x400 true) = some (devKey 0 0x400) ∧
    isRefused (({ peered with cfg := (.ptroot 0, 0) :: peered.cfg } : State).reachAt ioUnit 0 0x400 true) = true ∧
    peered.accepts 0 9 3 24 = true ∧ peered.accepts 0 9 3 25 = true ∧ peered.accepts 0 9 3 26 = true ∧ peered.accepts 0 9 2 24 = false ∧
    okBytes (peered.vread ioUnit 0 0x600 4) = some [0, 1, 0, 2] ∧ okUnit (peered.vwritable ioUnit 0 0x400 8) = true ∧
    taskHost.onHost 0 0x400 = true ∧ hostAtomic 0 = true ∧ hostAtomic 1 = false ∧
    -- a ring of one slot, which is empty, or full
    peered.msgSlots 0 = 1 ∧ okUnit (peered.vwritable ioUnit 0 (peered.msgVa 0) (64 + 4096)) = true ∧
    ({ peered with cfg := (.msgtail 0, 1) :: peered.cfg } : State).regField (.msgtail 0) 0 16 = 1 ∧
    (1 + 2 ^ 16 - ((0x10001#64 : DWord) &&& 0xFFFF#64).toNat) % 2 ^ 16 < peered.msgSlots 0 := by decide +kernel

def mapped0 (x : Trans) : Nat :=
  match x with
  | .ok _ => 0
  | .recoverable => 1
  | .bad => 2
/-- Page tables at 0x2000, whose leaf at level 0 maps virtual page 1. -/
def tabled : State :=
  { task with
    cfg := (.ptroot 0, 0x10001) :: task.cfg
    mem := [(0x10000, 1), (0x10002, 2), (0x20000, 1), (0x20002, 3), (0x30008, 0xF), (0x3000A, 4)]
    idt := (List.range 8).map (fun p => { page := p, frame := p, outer := false, pin := false, moving := false, zp := false }) }
theorem witness_walks : mapped0 (tabled.walk 0 0 1) = 0 ∧ mapped0 (tabled.walk 0 0 2) ≠ 0 ∧ tabled.invalidating 0 1 = false ∧
    ({ tabled with invals := [(0, 0, 2)] } : State).invalidating 0 1 = true ∧ tabled.regField (.invctl 0) 32 1 = 0 ∧
    ({ tabled with cfg := [(.invctl 0, 0x100000000)] } : State).regField (.invctl 0) 32 1 = 1 := by decide +kernel

/-- A page request of split 0 of watch (0, 0, 0, 0), which waits for page 9. -/
def preq : PageReq := { tag := 3, dom := 0, vpage := 9, own := true, write := false, engine := false, sent := true, waiters := [.split ⟨0, 0, 0, 0⟩ 0] }
def asking : State := { sw (fun w => { w with sp := { w.sp with wait := .page 0 9 } }) with prq := [preq] }
/-- A ring of the smallest size at 0x1000, whose one record has not been sent. -/
def unsent : State :=
  { task with prq := [{ preq with sent := false }], cfg := (.prqring 0, 0x1000) :: taskCfg ++ g1.cfg }
theorem witness_page_requests :
    asking.prq.find? (fun e => e.tag == 3 && e.dom == 0) = some preq ∧
    ((asking.findSplit ⟨0, 0, 0, 0⟩ 0).map fun x => x.2.wait) = some (.page 0 9) ∧ preq.waiters = [.split ⟨0, 0, 0, 0⟩ 0] ∧
    (∀ e ∈ asking.prq, ¬ (e.tag = 4 ∧ e.dom = 0)) ∧ (∃ e ∈ asking.prq, e.dom = 0 ∧ e.vpage = 9) ∧
    (∀ e ∈ asking.prq, ¬ (e.dom = 0 ∧ e.vpage = 8)) ∧ (∀ e ∈ asking.prq, e.dom = 0 → e.sent = true) ∧
    (unsent.prq.filter (fun e => e.dom == 0 && !e.sent)).length = 1 ∧ unsent.reach ioUnit 0 0x1000 true = some (devKey 0 0x1000) ∧
    (0 + 2 ^ 16 - ((0x10000#64 : DWord) &&& 0xFFFF#64).toNat) % 2 ^ 16 < prqLen 0 ∧ Memory.wf unsent.mem = true ∧
    pageOf (devKey 0 0x1000) = pageOf (devKey 0 0x1000 + 31) ∧ devKey 0 0x1000 + 32 ≤ 2 ^ 58 := by decide +kernel

/-- Page 0 zero-pending in the outer tier, page 2 there too and counted; pages up to IDTCOUNT; a key in slot 1. -/
def moving : State :=
  { task with
    cfg := (.hptctl, 0x4000000000001) :: (.tierctl 0, 1) :: (.idtcount, 4) :: taskCfg ++ g1.cfg
    idt := [⟨0, 1, true, false, false, true⟩, ⟨2, 2, true, false, false, false⟩]
    moves := [(2, false)], tracker := [(0, 2, 9)]
    keys := setAt task.keys 1 { state := .loaded, key := 5 } }
theorem witness_pages :
    moving.idtOf 3 = none ∧ 3 < (moving.reg .idtcount).toNat ∧ moving.frameFree false 0 = true ∧ moving.frameFree false (2 ^ 23 - 1) = true ∧
    moving.idtOf 2 ≠ none ∧ (2, false) ∈ moving.moves ∧ moving.pagePoisoned 2 = false ∧ moving.tracked 2 = true ∧ (3, false) ∉ moving.moves ∧
    Memory.wf moving.mem = true ∧ moving.idtOf 0 = some ⟨0, 1, true, false, false, true⟩ ∧ State.reset.regField .hptctl 0 1 = 0 ∧
    moving.regField .hptctl 0 1 = 1 ∧ moving.regField .hptctl 48 16 ≤ 9 ∧ ((moving.idtOf 2).map (·.outer)) = some true ∧
    moving.isUp = true ∧ (∀ m ∈ ({ moving with moves := [] } : State).moves, m.1 ≠ 2) ∧ moving.tracker.length ≤ moving.promotionsLeft 0 := by decide +kernel
theorem witness_keys : (∀ e ∈ moving.idt, e.page < 2 ^ 36) ∧ moving.keys[1]? = some ⟨.loaded, 5⟩ ∧ moving.keys[63]? = some ⟨.free, 0⟩ ∧ (1 : Nat) ≠ 0 := by decide +kernel

def pre0 (hard : Bool) : State := { task with preempts := [⟨0, 0, hard, hard, false, 0⟩] }
def flown : State := mw (fun w => { w with flights := [{ id := 7, unit := .load, path := .host, bear := none }] })
theorem witness_requests : task.preemptOf 0 0 = none ∧ (pre0 false).preemptOf 0 0 = some ⟨0, 0, false, false, false, 0⟩ ∧
    (pre0 true).preemptOf 0 0 = some ⟨0, 0, true, true, false, 0⟩ ∧
    (pre0 false).preempts.find? (fun p => p.core == 0 && !p.hard) = some ⟨0, 0, false, false, false, 0⟩ ∧
    (pre0 true).preempts.find? (fun p => p.core == 0 && p.hard && !p.killed) = some ⟨0, 0, true, true, false, 0⟩ ∧
    (pre0 true).isUp = true ∧ (pre0 true).passOn 0 0 = false ∧ (pre0 true).regField (.pstat 0) 0 5 = 0 ∧
    ({ pre0 true with cfg := (.pstat 0, 3) :: task.cfg } : State).regField (.pstat 0) 0 5 ≠ 0 ∧ ((pre0 true).gangsOn 0 (fun _ l => l.dom == 0)).length = 1 ∧ ({ pre0 true with gangs := [] } : State).gangsOn 0 (fun _ l => l.dom == 0) = [] ∧
    (flown.findWatch ⟨0, 0, 0, 0⟩).map (fun w => (w.flights.map (·.id), watchSound w)) = some ([7], true) := by decide +kernel

/-- A rotation list of the domains 0 and 1 on core 0; lent rows with a leeway gang that has them. -/
def sliced : State := { task with cfg := (.wslist 0, 0x8180) :: (.wsctl 0, 0x20064) :: task.cfg }
def lent (v : Nat) : State :=
  { task with
    launches := [{ launch0 with recd := { rec0 with cls := 2 } }],
    gangs := [{ gang0 with places := [{ core := 0, row := 0, acc := 0, lent := true, ran := [0], ended := false }] }],
    cfg := (.lendrng 0, BitVec.ofNat 64 v) :: task.cfg }
def wanted : Launch := { launch0 with id := 1, phase := .running, handed := 0, batches := [], recd := { rec0 with sprows := 64 } }
/-- The leeway gang holds all 64 rows of the domain, which a gang of the owner wants. -/
def reclaimable : State :=
  { lent 0x80400000 with
      launches := (lent 0).launches ++ [wanted],
      cfg := (.qslot 0 0, 0x200) :: (.qspad 0 0, 0x400000) :: (.lslot 0, 0x80) :: (.lendrng 0, 0x80400000) :: (.quotaCtl 0 0, 5) ::
        (.gssize 0, 0x1000) :: g1.cfg }
/-- What the owner's request finds: whether an answer is awaited, and how many cores it then gets. -/
def offeredAfter (s : State) : Option (Bool × Option Nat) :=
  (s.ownerCand 0).bind fun (c, _, lent) =>
    let x : Reclaim := ⟨lent, c.launch.id, c.idx⟩
    let u := lent.foldl (fun (u : State) k => u.revokeLeeway k) { s with reclaims := s.reclaims.filter (· != x) ++ [x] }
    let k := lent.headD 0
    ((u.returning ++ u.fresh1 (k / 160)).find? (fun z => z.launch.id == c.launch.id && z.idx == c.idx)).map fun c' =>
      (u.recalls.any (fun y => lent.contains y.1),
       ((choose c'.launch.recd.blocks ((List.range 4).map (· + 4 * (k / 4)))).findSome?
         (fun cores => State.offers { u with reclaims := u.reclaims.filter (· != x) } c' [] 0 cores)).bind fun os =>
           if u.argHold k c'.launch.dom c'.launch.recd = none then some os.length else none)
theorem witness_slices : sliced.wsOn 0 = true ∧ sliced.wsEntry 0 (sliced.sliceOf 0).index = some 0 ∧ (sliced.sliceOf 0).leaving = none ∧
    sliced.nopreOn 0 0 = false ∧ ({ sliced with slices := [⟨0, 0, some 0, 0⟩] } : State).sliceOf 0 = ⟨0, 0, some 0, 0⟩ ∧
    (task.ownerCand 0).isNone = true ∧ ((lent 0).gangsOn 0 (fun _ l => l.recd.cls == 2)).length = 1 ∧
    (lent 0).recalls = [] ∧ (lent 0).mustWait 0 0 true = false ∧ ((lent 0).gangs.map (fun g => (g.launch, g.idx))).Nodup ∧ task.gangsOn 0 (fun _ l => l.recd.cls == 2) = [] ∧
    (lent 0x80400000).lendOwner 0 ≠ none ∧ ({ task with cfg := [(.lendrng 0, 0x10000)] } : State).lendOwner 0 = none := by decide +kernel
theorem witness_reclaim : offeredAfter reclaimable = some (false, some 1) := by decide +kernel

/-- A watch whose split holds a load reservation, and another that is ready for the same port. -/
def turned (held : Nat) (b : Bool) : State :=
  { mw (fun w => { w with sp := { w.sp with held := held, defer := b, port := 1 },
                          lanes := List.replicate 64 { Lane.empty with exited := false, wake := fullWake, resv := some 8 } }) with
    others := [{ (mw id).ctx with ref := ⟨0, 0, 0, 1⟩, slot := 1 }] }
theorem witness_turns :
    ((turned 512 true).findSplit ⟨0, 0, 0, 0⟩ 0).map (fun x => (x.2.held, x.2.defer, x.1.holdsResv 0)) = some (512, true, true) ∧
    ((turned 768 false).findSplit ⟨0, 0, 0, 0⟩ 0).map (fun x => x.2.held) = some 768 ∧
    ((mw id).findSplit ⟨0, 0, 0, 0⟩ 0).map (fun x => (x.2.held, x.1.holdsResv 0)) = some (0, false) ∧
    ((turned 512 false).eligible 0 (turned 512 false).ctx.sp.port).any (fun e =>
      e.1.cls != 2 && e.1.ref == ⟨0, 0, 0, 1⟩) = true := by decide +kernel

def tested (testing retry : Bool) (next : Option Nat) : Sight :=
  { pos := 5, testing := testing, next := next, window := false, retry := retry, begun := 9, suspects := [] }
theorem witness_sight :
    ({ task with sights := [tested false false none] } : State).sights[0]? = some (tested false false none) ∧ task.rotation 0 5 = some 6 ∧
    task.rotation 0 159 = some 0 ∧ (tested true false none).testing = true ∧ (tested true true none).retry = true ∧
    (tested false false (some 6)).next ≠ none := by decide +kernel
theorem witness_domains : task.regField (.vfctl 1) 4 3 = 0 ∧
    ({ task with cfg := (.vfctl 1, 0x11) :: task.cfg } : State).regField (.vfctl 1) 4 3 = 1 ∧
    ({ task with cfg := (.vfctl 1, 0x30) :: task.cfg } : State).regField (.vfctl 1) 4 3 = 3 := by decide +kernel

/-- Ranges that touch, and that meet in their last row. -/
theorem witness_registers :
    (∃ d < 32, d ≠ 1 ∧ ∃ x, (quotaRange .spad 0x400FFF).1 ≤ x ∧ x < (quotaRange .spad 0x400FFF).1 + (quotaRange .spad 0x400FFF).2 ∧
      (quotaRange .spad (({ task with cfg := [(.qspad 0 0, 0x11000FFF)] } : State).reg (.qspad 0 d))).1 ≤ x ∧
      x < (quotaRange .spad (({ task with cfg := [(.qspad 0 0, 0x11000FFF)] } : State).reg (.qspad 0 d))).1 +
        (quotaRange .spad (({ task with cfg := [(.qspad 0 0, 0x11000FFF)] } : State).reg (.qspad 0 d))).2) ∧
    (quotaRange .spad (task.reg (.qspad 0 0))).1 + (quotaRange .spad (task.reg (.qspad 0 0))).2 ≤ (quotaRange .spad 0x400040).1 ∧
    task.isUp = true ∧ ({ task with powered := false } : State).isUp = false :=
  ⟨⟨0, by decide, by decide, 0xFFF, by decide +kernel⟩, by decide +kernel⟩

def boots (f : Flash) : Option Nat × Nat :=
  match f.bootImage with
  | .inl (i, err) => (some i.version.toNat, err)
  | .inr code => (none, code)
theorem test_shake256 : (Keccak.shake256 [80,114,97,109,105,114,1,0,1,0]).setWidth 128 = Config.deviceHash := by decide +kernel
theorem shipped_sig : FlashImage.shipped.sig.length = 1462 ∧ FlashImage.shipped.blobSig.length = 1462 :=
  ⟨List.length_replicate .., List.length_replicate ..⟩
theorem shipped_genuine : genuine FlashImage.shipped = true ∧ blobGenuine FlashImage.shipped = true := by
  constructor <;> simp only [genuine, blobGenuine, romKeyDigest, verifies, shipped_sig] <;> simp
theorem shipped_boots (f : Flash) (h : f.banks.1 = FlashImage.shipped) (hv : ¬ 0x100 < f.minver.toNat) :
    f.bootImage = .inl (FlashImage.shipped, 0) := by
  have hb : blobOk FlashImage.shipped = true := by decide +kernel
  have : FlashImage.shipped.version.toNat = 0x100 := rfl
  simp only [Flash.bootImage, Flash.firmware, h, shipped_genuine, hb, this, hv, if_true, if_false, not_true]
theorem shipped_stale (f : Flash) (h : f.banks.1 = FlashImage.shipped) (hv : 0x100 < f.minver.toNat) : f.bootImage = .inr 2 := by
  have : FlashImage.shipped.version.toNat = 0x100 := rfl
  simp only [Flash.bootImage, Flash.firmware, h, shipped_genuine, this, hv, if_true]
theorem witness_boots : boots State.reset.flash = (some 0x100, 0) ∧ boots { State.reset.flash with minver := 0x101 } = (none, 2) := by
  rw [boots, shipped_boots _ rfl (by decide), boots, shipped_stale _ rfl (by decide)]; exact ⟨rfl, rfl⟩
theorem witness_power : blobRepair FlashImage.shipped = [] ∧
    dieWithoutStack [.core 3, .stack 0, .stack 3] = false ∧ dieWithoutStack [.stack 2, .stack 3] = true ∧ (17 : Nat) < 18 ∧ (∀ n ∈ [0, 639], n < 640) ∧
    State.reset.powered = true ∧ State.reset.off.powered = false ∧
    State.reset.isUp = true ∧ State.reset.off.isUp = false ∧ (List.replicate 32 (0#8)).length = 32 ∧
    (∀ c ∈ (mats [{ prod0 with running := [⟨0, 8, 2340⟩] }]).mats, ∀ r ∈ c.running, r.limit ≤ 4096 * 600 / 1050) ∧
    (∃ c ∈ (mats [{ prod0 with running := [⟨0, 8, 4096⟩] }]).mats, ∃ r ∈ c.running, 4096 * 600 / 1050 < r.limit) := by decide +kernel

/-! ### Engines, once more: the checks at issue, collectives, elements on their way -/

/-- An answer to an engine's access, in a form to compare. -/
def runsAt (x : Work (List (Nat × Nat))) : Option (List (Nat × Nat)) × Option (Nat × Bool) :=
  match x with
  | .ok l => (some l, none)
  | .hold p w => (none, some (p, w))
  | _ => (none, none)
def settledB (s : State) : Bool := s.late.isEmpty && s.behind.isEmpty && decide (s.manner = .now)
/-- `grouped`, whose page the collective engine reaches too, or finds not mapped; a COLL of its group. -/
def colls : State := { grouped with tlb := grouped.tlb ++ grouped.tlb.map (fun e => { e with unit := ioUnit }) }
def collsFar : State :=
  { grouped with
    cfg := (.ptroot 0, 0x10001) :: (.part 0, 0x80000000000) :: grouped.cfg
    idt := (List.range 2).map (fun p => { page := p, frame := p, outer := false, pin := false, moving := false, zp := false }) }
def group0 : Group := { va := 0x400, members := [0, 0], rank := 1, seq := 9 }
def ccoll : EngCmd := { cmd0 with kind := .coll 0 0 1, place := 160, a := mk 0x1000 6 16 1 0 false, b := mk 0x2000 6 16 1 0 false, total := 16, bytes := 64, group := some group0 }
theorem witness_coll_issue : settledB colls = true ∧ colls.cmds = [] ∧ colls.readGroup 0x400 1 (fun _ => true) = .ok group0 ∧
    runsAt (colls.agentRuns ccoll.agent false true 0x410 8) = (some [(devKey 0 0x410, 8)], none) ∧
    runsAt (collsFar.agentRuns ccoll.agent false true 0x410 8) = (none, some (0, true)) ∧
    collsFar.readGroup 0x400 1 (fun _ => true) = .ok group0 ∧
    ({ colls with cmds := [{ ccoll with seqDue := true }] } : State).cmds.any (fun z => z.seqDue && z.group.any (fun y => y.va.toNat == 0x400)) = true ∧
    -- groups that a COLL refuses: no member, a rank or root outside, a wrong place, a count that does not fit
    sh.readGroup 0x400 0 (fun _ => true) = .bad none ∧ colls.readGroup 0x400 2 (fun _ => true) = .bad (some 2) ∧
    colls.readGroup 0x401 0 (fun _ => true) = .bad none ∧ colls.readGroup 0x400 0 (fun m => decide (m = 3)) = .bad (some 2) := by decide +kernel

def sx (h : Shape) (lo v : Nat) : Shape := h + BitVec.ofNat 512 (v * 2 ^ lo)
def h0 : Shape := mk 0x1000 6 16 1 0 false
/-- The checks of R259 on a shape, in order. -/
def shapeBools (s : State) (h : Shape) : List Bool :=
  let w := s.ctx
  let len := 8 * 2 ^ shBlk h
  let inside := [0, 1, 2, 3].all (fun k => decide (0 ≤ shOrg h k) && decide (shOrg h k + shBox h k ≤ shExt h k))
  [shSpad h && decide (w.blocks ≤ shBase h % 2 ^ 32 / 2 ^ 30 ∨ w.dom ≠ w.home), [0, 1, 2, 3].any (fun k => shBox h k == 0),
   decide (2 ≤ shLayout h ∨ shLayout h = 1 ∧ (shBase h % 128 ≠ 0 ∨ shStep h 1 % 128 ≠ 0)), shOob h == 3, shOob h == 1 && !inside,
   shBlk h != 0 && (!([3, 4, 5, 10, 12].contains (shFmt h)) || shOrg h 0 % len != 0 || shBox h 0 % len != 0 ||
     [1, 2, 3].any (fun k => shStep h k * 8 % (len * shBits h) != 0)),
   decide (shBits h = 4 ∧ (shOrg h 0 % 2 ≠ 0 ∨ shBox h 0 % 2 ≠ 0)),
   shSpad h && (decide (2 ^ 32 ≤ shBase h ∨ shBlk h ≠ 0) || spadBad h w.spadRows), !shSpad h && addrBad h,
   decide (14 ≤ shFmt h ∧ shFmt h ≤ 18) && !inside]
/-- A shape for each check that fails it and none before it. -/
def unfit : List Shape :=
  [mk (2 ^ 30) 6 16 1 0 true, mk 0x1000 6 0 1 0 false, sx h0 417 2, sx h0 506 3, sx (sx h0 506 1) 316 1, sx h0 420 1, mk 0x1000 5 3 1 0 false,
   mk 8188 6 16 1 0 true, mk (2 ^ 55 - 4) 6 16 1 0 false, sx (mk 0x1000 14 16 1 0 false) 316 1]
theorem witness_shape_checks : unfit.map (fun h => (shapeBools sh h).findIdx? id) = (List.range 10).map some ∧
    (shapeBools sh h0).any id = false ∧
    -- the object: out of place, beyond the block's rows, of a block that is not there
    17 % 16 ≠ 0 ∧ 128 * sh.ctx.spadRows < 8192 % 2 ^ 19 + 16 ∧ sh.ctx.blocks ≤ 2 ^ 30 / 2 ^ 30 ∧
    -- formats that do not go together, boxes that differ, ranges that meet and lengths
    ¬ ((shFmt (mk 0x1000 17 16 1 0 false) = shFmt h0 ∧ shBlk (mk 0x1000 17 16 1 0 false) = shBlk h0) ∨
       (shFmt (mk 0x1000 17 16 1 0 false) ≤ 13 ∧ shFmt h0 ≤ 13 ∧ shBlk h0 = 0)) ∧ (shapeBools sh (mk 0x1000 17 16 1 0 false)).any id = false ∧
    shBox (sh.ctx.shape 0) 0 ≠ shBox (sh.ctx.shape 3) 0 ∧ shBase (sh.ctx.shape 0) < shBase (sh.ctx.shape 0) + 16 ∧
    -- the index shape of GTHR, the operands and rows of the matrix class
    ¬ (shFmt (sh.ctx.shape 6) = 6 ∨ shFmt (sh.ctx.shape 6) = 7) ∧ 33 % 32 ≠ 0 ∧ mx.ownRows < 255 + 1 ∧ sh.partnerRank = none ∧
    ¬ (shBox (mx.ctx.shape 0) 1 % 32 = 0) ∧ 512 < 497 + shBox (mx.ctx.shape 0) 0 := by decide +kernel

def elemOk (x : Work (Nat × Nat)) : Option (Nat × Nat) :=
  match x with
  | .ok l => some l
  | _ => none
/-- One command on its engine, which reaches the mapped page. -/
def working (c : EngCmd) : State :=
  { colls with cmds := [c], cfg := (.accept 0 0, 0x87000000) :: colls.cfg, tlb := colls.tlb ++ colls.tlb.map (fun e => { e with unit := 640 }) }
def readyB (s : State) (c : EngCmd) : Bool :=
  settledB s && Memory.wf s.mem && decide (s.cmds.find? (fun x => x.id == c.id) = some c) && (s.mats.find? (fun x => x.id == c.id)).isNone &&
  decide (c.done < c.total) && c.stall.isNone && !c.paused && !c.seqDue && c.sent && c.ended.isNone && c.overlaid.isEmpty &&
  !s.throttled (s.payer c.watch c.dom)
/-- What one unit of a command finds: zero as the element at i of A, and room for the one at j of B at a key, its object at another. -/
def unitAt (c : EngCmd) (A B : Shape) (i j : Pos) (o key obj : Nat) : Bool :=
  let s := working c
  readyB s c && elemOk (s.readElem c.agent A i) == some (0, 128) && inBounds B j &&
  (runsAt (s.agentRuns c.agent (shSpad B) true (elemByte B j) (elemBytes B))).1 == some [(key, elemBytes B)] &&
  keyOf (s.agentKey c.agent true true o) == obj
def small0 (base fmt : Nat) : Shape := mk base fmt 4 1 0 false
def cc (k : EngKind) (a b c : Shape) (total : Nat) : EngCmd := { cmd0 with kind := k, a := a, b := b, c := c, total := total, bytes := 4 * total }
def rowPos (h : Shape) (z : Int) (t : Nat) : Pos := fun k => if k = 0 then shOrg h 0 + t else if k = 1 then z else shOrg h k
def farPos (h : Shape) (k t : Nat) : Pos := elemAt h (fun q => if q = 0 then (t : Int) else if q = 1 then (k : Int) else 0)
theorem witness_copies :
    -- CPY with a conversion of integers to F32
    (let a := small0 0x1000 6; let b := small0 0x2000 0
     unitAt (cc .cpy a b 0 4) a b (elemAt a (tileAt a 0)) (elemAt b (tileAt a 0)) 0x40 (devKey 0 0x2000) (spadKey 0 0 + 0x40) = true ∧
     ¬ (shFmt a = shFmt b ∧ shBlk a = shBlk b) ∧ shFmt a ≤ 13 ∧ shFmt b ≤ 13 ∧ shBlk b = 0 ∧ shBits b = 32) ∧
    -- CPYP to rank 0, into scratchpad
    (let a := small0 0x1000 6; let b := mk 0x400 6 4 1 0 true
     unitAt (cc (.cpyp 1) a b 0 4) a b (elemAt a (tileAt a 0)) (elemAt b (tileAt a 0)) 0x40 (spadKey 0 0 + 0x400) (spadKey 0 0 + 0x40) = true ∧ ((List.range 4).filter (fun r => Nat.testBit 1 r)).length * shCount a = 4 ∧
     0x40 % 2 ^ 30 + 0 * 2 ^ 30 + 0x40 / 2 ^ 32 * 2 ^ 32 = 0x40) := by decide +kernel
theorem witness_rows :
    -- GTHR and SCAT with a row index of 0; an index outside a table that may not be left
    let t := mk 0x4000 6 4 8 64 false; let r := mk 0x5000 6 4 4 64 false; let x := small0 0x3000 6
     unitAt (cc .gthr t r x 16) t r (rowPos t 0 0) (farPos r 0 0) 0x40 (devKey 0 0x5000) (spadKey 0 0 + 0x40) = true ∧
     unitAt (cc .scat r t x 16) r t (farPos r 0 0) (rowPos t 0 0) 0x40 (devKey 0 0x4000) (spadKey 0 0 + 0x40) = true ∧
     elemOk ((working (cc .gthr t r x 16)).readElem (cc .gthr t r x 16).agent x (elemAt x (tileAt x 0))) = some (0, 128) ∧ shFmt x = 6 ∧
     (let far := sx (mk 0x4000 6 4 0 64 false) 506 1
      readyB (working (cc .gthr far r x 16)) (cc .gthr far r x 16) = true ∧ shOob far = 1 ∧ shExt far 1 ≤ 0) := by decide +kernel
/-- A collective of two members, this one with rank 1: as root, and with the other as root. -/
theorem witness_collective : (let c := ccoll; let s := working c
     readyB s c = true ∧ s.collReady c group0 0 1 [List.replicate 64 0, []] = true ∧ c.done + 1 < c.total ∧ group0.rank = 1 ∧
     keyOf (s.agentKey c.agent true true c.obj) = spadKey 0 0 + 0x40 ∧
     elemOk (s.readElem c.agent c.a (elemAt c.a (tileAt c.a 0))) = some (0, 128) ∧
     runsAt (s.agentRuns c.agent false true 0x2000 4) = (some [(devKey 0 0x2000, 4)], none) ∧
     reduceTree (fun p q => (p + q) % 2 ^ 32) (Nat.log2 2 + 1) [some 0, some 0] = some 0 ∧
     -- an abort finds STATUS
     runsAt ((s.freeTile c (shCount c.b)).agentRuns c.agent false true 0x418 8) = (some [(devKey 0 0x418, 8)], none)) ∧
    (let c := { ccoll with kind := .coll 0 0 0, total := 1 }; let s := working c
     readyB s c = true ∧ s.collReady c group0 0 0 [] = true ∧ group0.rank ≠ 0 ∧
     runsAt (s.agentRuns c.agent false true 0x418 8) = (some [(devKey 0 0x418, 8)], none)) := by decide +kernel

/-! ### The accumulator port and passes -/

def port (op : MatOp) (h : Shape) (total : Nat) (clear : Bool) : MatCmd :=
  { mat0 with op := op, a := h, obj := 0x40, total := total, bytes := 4 * total, clear := clear }
def portReady (c : MatCmd) : Bool :=
  let s := mats [c]
  settledB s && decide (s.mats.find? (fun x => x.id == c.id) = some c) && (s.cmds.find? (fun x => x.id == c.id)).isNone && !c.saved &&
  c.stall.isNone && s.inOrder c && decide (c.done < c.total) && !s.readsBadRow c &&
  keyOf (s.agentKey c.agent true true c.obj) == spadKey 0 0 + 0x40 && s.mediaOk (spadKey 0 0 + 0x40)
def portRuns (c : MatCmd) (spad : Bool) (addr n : Nat) : Option (List (Nat × Nat)) := (runsAt ((mats [c]).agentRuns c.agent spad true addr n)).1
theorem witness_port :
    (let h := mk 0x1000 0 4 1 0 false
     portReady (port .accrd h 4 false) = true ∧ portRuns (port .accrd h 4 false) false 0x1000 4 = some [(devKey 0 0x1000, 4)] ∧
     inBounds h (elemAt h (tileAt h 0)) = true ∧ shBits h = 32 ∧
     portReady { port .accrd h 4 true with done := 3 } = true ∧ 0 + shBox h 0 ≤ 512 ∧
     portReady (port .accadd h 4 false) = true ∧
     elemOk ((mats [port .accadd h 4 false]).readElem (port .accadd h 4 false).agent h (elemAt h (tileAt h 0))) = some (0, 128)) ∧
    (let h := sx (sx (mk 0x1000 10 16 1 16 false) 420 1) 422 0x2000
     portReady (port .accrdw h 1 false) = true ∧ shBlk h = 1 ∧ shBits h = 8 ∧ scaleByte h (elemAt h (fun _ => 0)) = some 0x3000 ∧
     portRuns (port .accrdw h 1 false) false 0x1000 1 = some [(devKey 0 0x1000, 1)] ∧
     portRuns (port .accrdw h 1 false) false 0x3000 1 = some [(devKey 0 0x3000, 1)]) ∧
    portReady (port .accstat 0 1 true) = true ∧ portRuns (port .accstat 0 1 true) true 0 8 = some [(spadKey 0 0, 8)] ∧
    portReady (port (.accinit 5) 0 1 false) = true := by decide +kernel

def valsOk {α : Type} (x : Work (List α)) : Option Nat :=
  match x with
  | .ok l => some l.length
  | _ => none
/-- A pass's operands; the last array of a command that ends a pass, which is or is not the command's last; and a paired request. -/
theorem witness_passes_end :
    (let s := (mats [small]).markHolds 0
     s.arrayBusy 0 = false ∧ s.readsBadRow small = false ∧ small.column = false ∧ (s.nextGranules small).1 ≠ [] ∧
     small.col + small.n ≤ 256 ∧ valsOk (s.rowValues small.agent small.a 0 ((s.nextGranules small).1 ++ (s.nextGranules small).2)) = some 32 ∧
     valsOk (s.colValues small.agent small.a small.b 0 ((s.nextGranules small).1 ++ (s.nextGranules small).2)) = some 32) ∧
    (let c := { small with running := [⟨0, 8, 4096⟩] }
     (mats [c]).mats.find? (fun x => x.running.any (fun r => r.array == 0)) = some c ∧ c.finished = false ∧
     c.running.filter (fun r => r.array != 0) = [] ∧ ({ c with left := 1 } : MatCmd).finished = true ∧
     ({ c with running := [⟨0, 8, 4096⟩, ⟨1, 8, 4096⟩] } : MatCmd).running.filter (fun r => r.array != 0) ≠ []) ∧
    (mats []).mats.find? (fun x => x.running.any (fun r => r.array == 0)) = none ∧
    ({ small with op := .product true, waited := 64 } : MatCmd).paired = true := by decide +kernel

/-! ### Readability, images, late writes, walks that fail -/

def bytesAt (s : State) (va n : Nat) : List Byte := (okBytes (s.vread s.ctx.core s.ctx.dom va n)).getD []
theorem read_eq {s : State} {va n : Nat} {bs : List Byte} (h : s.vread s.ctx.core s.ctx.dom va n = .ok bs) : bytesAt s va n = bs := by
  simp [bytesAt, h, okBytes]
def cleanB (s : State) (va n : Nat) : Bool := (s.vbad s.ctx.core s.ctx.dom va n).isNone
theorem clean_of {s : State} {va n : Nat} (h : cleanB s va n = true) : s.clean va n := Option.isNone_iff_eq_none.mp h
/-- A launch record whose parts can be read. -/
def cleanLaunchB (s : State) (va : Nat) : Bool :=
  let code := (parseLaunch va (bytesAt s va 512)).code.toNat
  cleanB s va 512 && cleanB s code 64 && cleanB s (code + 64) (16 * min 16 (fieldOf (bytesAt s code 64) 6 1))
theorem clean_launch {s : State} {va : Nat} (h : cleanLaunchB s va = true) : s.cleanLaunch va := by
  simp only [cleanLaunchB, Bool.and_eq_true] at h
  refine ⟨clean_of h.1.1, fun bs hb => ?_⟩
  rw [read_eq hb] at h
  refine ⟨clean_of h.1.2, fun x hx => ?_⟩
  rw [read_eq hx] at h
  exact clean_of h.2
theorem clean_node {s : State} {idx : Nat} (h : (cleanB s (s.nodeVa s.ctx.dom idx) 128 &&
    cleanLaunchB s (fieldOf (bytesAt s (s.nodeVa s.ctx.dom idx) 128) 0 8)) = true) : s.cleanNode idx := by
  simp only [Bool.and_eq_true] at h
  refine ⟨clean_of h.1, fun bs hb => ?_⟩
  rw [← read_eq hb]
  exact clean_launch h.2
/-- A node that waits, whose launch record is `task`'s; and one that names an address where no launch record stands. -/
def armable : State := { task with nodes := [{ node5 3 with recd := { rec0 with va := 0x600 } }] }
theorem witness_clean : task.cleanNode 4 ∧ task.cleanNode 5 ∧ task.cleanNode 3 ∧ task.cleanLaunch 0x600 ∧ task.cleanLaunch 0x640 ∧
    ({ task with poison := [devKey 0 0x200] } : State).vbad 0 0 (task.nodeVa 0 4) 128 = some (devKey 0 0x200, true) ∧
    (armable.nodes.find? (fun x => x.dom == 0 && x.idx == 5)).map (fun n => (n.counter, n.recd.va)) = some (3, 0x600) ∧
    armable.cleanLaunch 0x600 ∧ accepted (armable.acceptLaunch 0 0 0x1000) = 1 ∧ armable.cleanLaunch 0x1000 ∧
    (faulting task).cleanLaunch 0x1000000 ∧ accepted ((faulting task).acceptLaunch 0 0 0x1000000) = 1000 + 0x100 :=
  ⟨clean_node (by decide +kernel), clean_node (by decide +kernel), clean_node (by decide +kernel), clean_launch (by decide +kernel),
   clean_launch (by decide +kernel), by decide +kernel, by decide +kernel, clean_launch (by decide +kernel), by decide +kernel,
   clean_launch (by decide +kernel), clean_launch (by decide +kernel), by decide +kernel⟩
theorem witness_armable : ∃ r, armable.acceptLaunch 0 0 0x600 = .ok r := ok_of (by decide +kernel)

/-- A saved gang whose one watch awaits a value; its image lies in one stretch. -/
def away : State :=
  let w := { w1 with flights := [{ id := 7, unit := .load, path := .host, bear := none }] }
  { task with ctx := Watch.empty, gangs := [{ savedGang with watches := [w], image := [(0x8000, 65536)] }] }
theorem key_in {k n o a : Nat} (h : keyIn o [(k, n)] = some a) : o < n ∧ a = k + o := by
  unfold keyIn at h
  split at h
  · exact ⟨by assumption, by simpa using h.symm⟩
  · simp [keyIn] at h
theorem witness_image : (away.gangOf 0 0).map (fun g => (g.image, g.watches.map (fun w => (w.ref, w.flights.map (·.id), w.gateOpen)))) =
      some ([(0x8000, 65536)], [(⟨0, 0, 0, 0⟩, [7], false)]) ∧ away.launchOf 0 = some launch0 ∧
    (∀ o o' a, keyIn o [(0x8000, 65536)] = some a → keyIn o' [(0x8000, 65536)] = some a → o = o') ∧
    ∀ o a, keyIn o [(0x8000, 65536)] = some a → away.isZp a = false := by
  refine ⟨by decide +kernel, by decide +kernel, fun o o' a h h' => ?_, fun o a h => ?_⟩
  · have := key_in h; have := key_in h'; omega
  · have hz : (∀ e ∈ away.idt, e.zp = false) := by decide +kernel
    unfold State.isZp State.idtOf
    cases he : away.idt.find? (fun e => e.page == pageOf a) with
    | none => simp
    | some e => simp [hz e (List.mem_of_find?_eq_some he)]

theorem witness_settled : a1.late = [] ∧ a1.behind = [] ∧ settledB a1 = true ∧ settledB task = true ∧ settledB peered = true ∧
    settledB moving = true ∧ (dpol 1).late = [] ∧ (hosted.late = [] ∧ windowed.late = []) := by decide +kernel

/-- A late write of P6 that the split has met, and a byte that the host may still find as it stood. -/
def unsettled : State :=
  { a1 with late := [{ trail := { path := 6 }, num := 0, key := devKey 0 0x400, bytes := [1], whole := (devKey 0 0x400, 1), met := [(a1.ctx.ref, 0)] }],
            behind := [{ reader := 6, key := devKey 0 0x500, byte := 0, writes := [{ path := 0 }] }] }
theorem witness_unsettled : unsettled.admits none ∧ unsettled.late ≠ [] ∧
    (∃ e ∈ unsettled.late, e.trail.path = 6 ∧ (unsettled.ctx.ref, unsettled.ctx.sp.id) ∈ e.met) ∧
    ∃ e ∈ unsettled.behind, e.reader = 6 ∧ e.writes ≠ [] :=
  ⟨admits_of (by decide +kernel) (by simp), by decide +kernel, by decide +kernel, by decide +kernel⟩

/-- A walk that ends at an entry that is not there, below an entry of level 3 that its die's walk cache then holds. -/
theorem witness_failed_walk : tabled.keyOf 0 = some 0 ∧ tabled.regField (.ptroot 0) 0 1 = 1 ∧ mapped0 (tabled.walk 0 0 2) = 1 ∧
    (match tabled.entryOf 0 0 0 3 2 (tabled.frameOf 0 (tabled.regField (.ptroot 0) 16 36)) with
     | .inl (e, _) => field e 0 1 == 1 && pteSound 3 e
     | .inr _ => false) = true ∧
    (let s : State := { tabled with invals := [(0, 0, 2)], signals := [{ sig0 with va := 0x400 }] }
     ∃ x ∈ s.signals, x.dom = 0 ∧ s.invalidating 0 (x.va / 2 ^ 16) = true) ∧
    (∀ x ∈ ({ tabled with invals := [(0, 0, 2)], signals := [{ sig0 with va := 0x100000 }] } : State).signals, x.dom = 0 →
      ({ tabled with invals := [(0, 0, 2)] } : State).invalidating 0 (x.va / 2 ^ 16) = false) := by decide +kernel

/-- Two soft requests of a core, of which the older domain's time ends first; and two hard ones. -/
theorem witness_first_due : (let s : State := { task with preempts := [⟨0, 0, false, true, false, 0⟩, ⟨0, 1, false, true, false, 90⟩] }
     (∀ q ∈ s.preempts, q.core = 0 → q.hard = false → q ≠ ⟨0, 0, false, true, false, 0⟩ →
       0 + s.regField (.grace 0) 0 14 * s.clock < q.begun + s.regField (.grace q.dom) 0 14 * s.clock) ∧
     s.preemptOf 0 0 = some ⟨0, 0, false, true, false, 0⟩) ∧
    (let s : State := { task with preempts := [⟨0, 0, true, true, false, 0⟩, ⟨0, 1, true, true, false, 90⟩] }
     ∀ q ∈ s.preempts, q.core = 0 → q.hard = true → q.killed = false → q ≠ ⟨0, 0, true, true, false, 0⟩ →
       0 + s.regField (.killt 0) 0 16 * s.clock < q.begun + s.regField (.killt q.dom) 0 16 * s.clock) := by decide +kernel

/-- A key whose material stands in another slot too, which a page of domain 1 uses. -/
theorem witness_same_key : (let s : State := { moving with keys := setAt (setAt moving.keys 1 { state := .loaded, key := 0 }) 2 { state := .free, key := 0 } }
    s.keys[2]? = some ⟨.free, 0⟩ ∧ s.keyData = 0 ∧ s.keys[1]? = some ⟨.loaded, s.keyData⟩ ∧ s.late = []) := by decide +kernel

end Sys2Proof.Tests
end

namespace Sys2Proof.Machine

/-! ### A write and the bytes it writes (R3, R368) -/

/-- Whether a key's page is zero-pending depends on its page and on which side of 2^58 it lies. -/
theorem State.isZp_congr (s : State) {a k : Nat} (hp : pageOf a = pageOf k) (hs : a < 2 ^ 58 ↔ k < 2 ^ 58) :
    s.isZp a = s.isZp k := by
  simp only [State.isZp, State.idtOf, hp, hs]

/-- The zero-pending pages after a write are those after its page was opened. -/
theorem State.isZp_put {s : State} (t : Trail) (k : Nat) {bs : List Byte} (hb : bs ≠ []) (a : Nat) :
    (s.put t k bs).isZp a = (s.openPage k).isZp a := by
  simp [State.put, hb, State.isZp, State.idtOf]

/-- A written byte holds what was written, on a page that is zero-pending no more (R3, R368). -/
theorem State.put_inside {s : State} (h : Memory.wf s.mem = true) (t : Trail) (k : Nat) (bs : List Byte) {a : Nat}
    (ha : k ≤ a ∧ a < k + bs.length) (hp : pageOf a = pageOf k) (hs : a < 2 ^ 58 ↔ k < 2 ^ 58) :
    (s.put t k bs).byte a = bs.getD (a - k) 0 := by
  have hb : bs ≠ [] := by rintro rfl; simp at ha; omega
  have hz : (s.put t k bs).isZp a = false := by
    rw [State.isZp_put t k hb, State.isZp_congr _ hp hs, State.isZp_openPage]
  have hm : (s.put t k bs).mem = Memory.putAll (s.openPage k).mem k bs := by simp [State.put, hb]
  rw [State.byte, hz, hm, Memory.get_putAll _ _ _ (State.wf_openPage k h), if_pos ha]
  rfl

/-- A stored number stands lowest byte first (R3). -/
theorem State.store_byte {s : State} (h : Memory.wf s.mem = true) {k n : Nat} (v : Nat)
    (hp : ∀ i < n, pageOf (k + i) = pageOf k) (hs : k + n ≤ 2 ^ 58 ∨ 2 ^ 58 ≤ k) {i : Nat} (hi : i < n) :
    (s.store k n v).byte (k + i) = BitVec.ofNat 8 (v / 256 ^ i) := by
  rw [State.store, State.write, State.put_inside h _ _ _ (by simpa using hi) (hp i hi) (by omega), Nat.add_sub_cancel_left,
    List.getD_eq_getElem?_getD, leBytes_getElem? n v i hi, Option.getD_some]

/-- Bytes that read as those of a number are its bytes. -/
theorem State.bytes_eq_leBytes (s : State) : ∀ (n k v : Nat), (∀ i < n, s.byte (k + i) = BitVec.ofNat 8 (v / 256 ^ i)) →
    s.bytes k n = leBytes n v
  | 0, _, _, _ => rfl
  | n + 1, k, v, hb => by
    have h0 : s.byte k = BitVec.ofNat 8 v := by simpa using hb 0 (by omega)
    have ht : s.bytes (k + 1) n = leBytes n (v / 256) :=
      State.bytes_eq_leBytes s n (k + 1) (v / 256) fun i hi => by
        simpa [Nat.add_comm, Nat.add_left_comm, Nat.pow_succ', Nat.div_div_eq_div_mul] using hb (i + 1) (by omega)
    rw [State.bytes, leBytes, h0, ht]

/-- Settles O11: each stored byte by `State.store_byte`, the others by `State.put_other`, and the number by its bytes. -/
theorem memoryReadWrite : Obligations.MemoryReadWrite := by
  intro s k n v h hp hs
  have hb : ∀ i < n, (s.store k n v).byte (k + i) = BitVec.ofNat 8 (v / 256 ^ i) := fun i hi => State.store_byte h v hp hs hi
  refine ⟨hb, fun a ha => State.put_other h _ _ _ _ (by simpa using ha), ?_⟩
  rw [State.load, State.bytes_eq_leBytes _ n k v hb, leNat_leBytes]

end Sys2Proof.Machine

namespace Sys2Proof.Machine

/-!
O6. A step keeps the canonical form of memory. Memory changes only by the operations of Laws that keep the form
(`Memory.wf_put`, `Memory.wf_putAll`, `Memory.wf_clear`, `State.wf_scramble`, `State.wf_off`), so there is one lemma for each
operation a step is made of: `State.f_mem` where it leaves memory as it is, `State.wf_f` where it may write.
-/

/-! ### Choices, loops and outcomes -/

@[simp] theorem State.mem_ite (c : Prop) [Decidable c] (a b : State) : (if c then a else b).mem = if c then a.mem else b.mem :=
  apply_ite State.mem c a b

@[simp] theorem Memory.wf_ite {c : Prop} [Decidable c] {a b : Memory} (ha : Memory.wf a = true) (hb : Memory.wf b = true) :
    Memory.wf (if c then a else b) = true := by split <;> assumption

/-- A loop whose body leaves memory as it is leaves it so. -/
theorem State.foldl_mem {α : Type} {f : State → α → State} (hf : ∀ s a, (f s a).mem = s.mem) (l : List α) (s : State) :
    (l.foldl f s).mem = s.mem := by
  induction l generalizing s with
  | nil => rfl
  | cons a l ih => rw [List.foldl_cons, ih, hf]

/-- A loop whose body keeps the form keeps it. -/
@[simp] theorem State.wf_foldl {α : Type} {f : State → α → State}
    (hf : ∀ s a, Memory.wf s.mem = true → Memory.wf (f s a).mem = true) (l : List α) {s : State} (h : Memory.wf s.mem = true) :
    Memory.wf (l.foldl f s).mem = true :=
  List.foldlRecOn l f h fun u hu a _ => hf u a hu

/-- The state that an outcome holds has memory in canonical form. -/
def Out.MemWf : Out → Prop
  | .next t => Memory.wf t.mem = true
  | _ => True

@[simp] theorem Out.memWf_next (t : State) : Out.MemWf (.next t) ↔ Memory.wf t.mem = true := Iff.rfl
@[simp] theorem Out.memWf_fault (x : Fault) : Out.MemWf (.fault x) := trivial

@[simp] theorem Out.memWf_ite {c : Prop} [Decidable c] {a b : Out} (ha : Out.MemWf a) (hb : Out.MemWf b) :
    Out.MemWf (if c then a else b) := by split <;> assumption

/-- The state in which a check ends an instruction, if it does, has memory in canonical form. -/
def CheckWf : Option State → Prop
  | some t => Memory.wf t.mem = true
  | none => True

@[simp] theorem checkWf_some (t : State) : CheckWf (some t) ↔ Memory.wf t.mem = true := Iff.rfl
@[simp] theorem checkWf_none : CheckWf none := trivial

@[simp] theorem checkWf_ite {c : Prop} [Decidable c] {a b : Option State} (ha : CheckWf a) (hb : CheckWf b) :
    CheckWf (if c then a else b) := by split <;> assumption

theorem checkWf_findSome {α : Type} {f : α → Option State} (hf : ∀ a, CheckWf (f a)) (l : List α) : CheckWf (l.findSome? f) := by
  induction l with
  | nil => exact trivial
  | cons a l ih =>
    have ha := hf a
    rw [List.findSome?_cons]
    cases hb : f a with
    | none => exact ih
    | some t => rwa [hb] at ha

theorem checkWf_of_eq {o : Option State} {t : State} (ho : CheckWf o) (e : o = some t) : Memory.wf t.mem = true := by
  rwa [e] at ho

theorem checkWf_bind {α : Type} {o : Option α} {f : α → Option State} (hf : ∀ a, CheckWf (f a)) : CheckWf (o.bind f) := by
  cases o with
  | none => exact trivial
  | some a => exact hf a

theorem checkWf_getD {o : Option State} {t : State} (ho : CheckWf o) (ht : Memory.wf t.mem = true) :
    Memory.wf (o.getD t).mem = true := by
  cases o with
  | none => exact ht
  | some u => exact ho

/-- The state in which a read ends an instruction, if it does, has memory in canonical form. -/
def Got.MemWf {α : Type} : Got α → Prop
  | .stop t => Memory.wf t.mem = true
  | .ok _ => True

@[simp] theorem Got.memWf_stop {α : Type} (t : State) : Got.MemWf (.stop t : Got α) ↔ Memory.wf t.mem = true := Iff.rfl
@[simp] theorem Got.memWf_ok {α : Type} (a : α) : Got.MemWf (.ok a) := trivial

theorem Got.memWf_of_eq {α : Type} {g : Got α} {t : State} (hg : Got.MemWf g) (e : g = .stop t) : Memory.wf t.mem = true := by
  rwa [e] at hg

/-- The state after work that was done has memory in canonical form. -/
def Work.MemWf : Work State → Prop
  | .ok t => Memory.wf t.mem = true
  | _ => True

@[simp] theorem Work.memWf_ok (t : State) : Work.MemWf (.ok t) ↔ Memory.wf t.mem = true := Iff.rfl
@[simp] theorem Work.memWf_fault (u a : Nat) : Work.MemWf (.fault u a) := trivial
@[simp] theorem Work.memWf_poison (k a : Nat) : Work.MemWf (.poison k a) := trivial

@[simp] theorem Work.memWf_ite {c : Prop} [Decidable c] {a b : Work State} (ha : Work.MemWf a) (hb : Work.MemWf b) :
    Work.MemWf (if c then a else b) := by split <;> assumption

theorem Work.memWf_of_eq {x : Work State} {t : State} (hx : Work.MemWf x) (e : x = .ok t) : Memory.wf t.mem = true := by
  rwa [e] at hx

theorem Work.bind_eq_ok {α β : Type} {x : Work α} {f : α → Work β} {b : β} (e : x.bind f = .ok b) :
    ∃ a, x = .ok a ∧ f a = .ok b := by
  cases x with
  | ok a => exact ⟨a, rfl, e⟩
  | _ => cases e

/-- Work after other work keeps the form, if it does for every result that the other can have. -/
theorem Work.memWf_bind_of {α : Type} {x : Work α} {f : α → Work State} (hf : ∀ a, x = .ok a → Work.MemWf (f a)) :
    Work.MemWf (x.bind f) := by
  cases x with
  | ok a => exact hf a rfl
  | _ => exact trivial

@[simp] theorem Work.memWf_bind_read {α : Type} (x : Work α) {f : α → Work State} (hf : ∀ a, Work.MemWf (f a)) :
    Work.MemWf (x.bind f) :=
  Work.memWf_bind_of fun a _ => hf a

@[simp] theorem Work.memWf_bind {x : Work State} {f : State → Work State} (hx : Work.MemWf x)
    (hf : ∀ t, Memory.wf t.mem = true → Work.MemWf (f t)) : Work.MemWf (x.bind f) :=
  Work.memWf_bind_of fun _ e => hf _ (Work.memWf_of_eq hx e)

/-! ### Operations that leave memory as it is -/

@[simp] theorem State.mapWatches_mem (s : State) (f : Watch → Watch) : (State.mapWatches f s).mem = s.mem := rfl
@[simp] theorem State.send_mem (s : State) (o : Outgoing) : (s.send o).mem = s.mem := rfl

@[simp] theorem State.sendAll_mem (s : State) (os : List Outgoing) : (s.sendAll os).mem = s.mem :=
  State.foldl_mem State.send_mem os s

@[simp] theorem State.observe_mem (s : State) (reader k n : Nat) : (s.observe reader k n).mem = s.mem := rfl

@[simp] theorem State.barStale_mem (s : State) (r : WatchRef) (split : Nat) (sel : Trail → Bool) (y : Nat) :
    (s.barStale r split sel y).mem = s.mem := by simp [State.barStale]

@[simp] theorem State.tagTrails_mem (s : State) (cmd : Nat) (k : Option Nat) :
    (s.tagTrails cmd k).mem = s.mem := by simp [State.tagTrails]

@[simp] theorem State.flipTrails_mem (s : State) (k : Nat) (init : Bool) :
    (s.flipTrails k init).mem = s.mem := by simp [State.flipTrails]

@[simp] theorem State.seePhase_mem (s : State) (k : Nat) (r : WatchRef) (split : Nat) :
    (s.seePhase k r split).mem = s.mem := by simp [State.seePhase]

@[simp] theorem State.keepBehind_mem (s : State) (reader k n : Nat) :
    (s.keepBehind reader k n).mem = s.mem := by simp [State.keepBehind]

@[simp] theorem State.forgetByte_mem (s : State) (n : Nat) : (s.forgetByte n).mem = s.mem := rfl
@[simp] theorem State.forgetKeys_mem (s : State) (inside : Nat → Bool) : (s.forgetKeys inside).mem = s.mem := rfl
@[simp] theorem State.countLost_mem (s : State) (r : Reg) : (s.countLost r).mem = s.mem := rfl

@[simp] theorem State.notifyDone_mem (s : State) (dom : Nat) (notify : Bool) :
    (s.notifyDone dom notify).mem = s.mem := by simp [State.notifyDone]

@[simp] theorem State.nextSeq_mem (s : State) (die : Nat) : (s.nextSeq die).mem = s.mem := rfl

@[simp] theorem State.enterPool_mem (s : State) (dom : Nat) (node : Option Nat) (succ : List Nat) (home prio : Nat)
    (r : LaunchRec) (payload : Option DWord) (parent : Option (Nat × Nat)) :
    (s.enterPool dom node succ home prio r payload parent).mem = s.mem := rfl

@[simp] theorem State.dropCounter_mem (s : State) (dom idx : Nat) : (s.dropCounter dom idx).mem = s.mem := by
  unfold State.dropCounter
  rfl

@[simp] theorem State.setRow_mem (s : State) (k : Nat) (r : AccRow) : (s.setRow k r).mem = s.mem := rfl
@[simp] theorem State.setCell_mem (s : State) (k col v : Nat) : (s.setCell k col v).mem = s.mem := rfl
@[simp] theorem State.moveRows_mem (s : State) (src dst n : Nat) : (s.moveRows src dst n).mem = s.mem := rfl
@[simp] theorem State.clearRows_mem (s : State) (k n : Nat) : (s.clearRows k n).mem = s.mem := rfl

@[simp] theorem State.keepWatches_mem (s : State) (p : Watch → Bool) : (s.keepWatches p).mem = s.mem := by
  unfold State.keepWatches
  dsimp only
  (repeat' split) <;> rfl

@[simp] theorem State.setSlice_mem (s : State) (x : Slice) : (s.setSlice x).mem = s.mem := rfl

@[simp] theorem State.returnSwapped_mem (s : State) (l g : Nat) : (s.returnSwapped l g).mem = s.mem := by
  unfold State.returnSwapped; split <;> simp

@[simp] theorem State.pollSwapped_mem (s : State) : s.pollSwapped.mem = s.mem :=
  State.foldl_mem (fun _ (_ : Gang) => State.returnSwapped_mem _ _ _) _ s

@[simp] theorem State.joinFall_mem (s : State) (p : Option (Nat × Nat)) : (s.joinFall p).mem = s.mem := by
  unfold State.joinFall; split <;> simp

@[simp] theorem State.flushCount_mem (s : State) (e : CountEntry) : (s.flushCount e).mem = s.mem := rfl

@[simp] theorem State.flushCounts_mem (s : State) (p : CountEntry → Bool) : (s.flushCounts p).mem = s.mem :=
  State.foldl_mem State.flushCount_mem _ _

@[simp] theorem State.tally_mem (s : State) (core launch gang slot kind n : Nat) :
    (s.tally core launch gang slot kind n).mem = s.mem := by
  unfold State.tally
  dsimp only
  (repeat' split) <;> simp

@[simp] theorem State.failLaunch_mem (s : State) (id : Nat) : (s.failLaunch id).mem = s.mem := rfl

@[simp] theorem State.settleBlock_mem (s : State) (launch idx block : Nat) : (s.settleBlock launch idx block).mem = s.mem := by
  unfold State.settleBlock
  (repeat' split) <;> simp

@[simp] theorem State.setRecord_mem (s : State) (r : RecordPart) : (s.setRecord r).mem = s.mem := rfl
@[simp] theorem State.modWatch_mem (s : State) (r : WatchRef) (f : Watch → Watch) : (s.modWatch r f).mem = s.mem := rfl

@[simp] theorem State.focus_mem (s : State) (r : WatchRef) (id : Nat) : (s.focus r id).mem = s.mem := by
  unfold State.focus
  (repeat' split) <;> rfl

@[simp] theorem State.countNumeric_mem (s : State) (w : WatchRef) (tid kind n : Nat) :
    (s.countNumeric w tid kind n).mem = s.mem := by
  unfold State.countNumeric; split <;> simp

@[simp] theorem State.fillFrame_mem (s : State) (r : WatchRef) (id : Nat) : (s.fillFrame r id).mem = s.mem := by
  unfold State.fillFrame; split <;> simp

@[simp] theorem State.fillFrames_mem (s : State) : s.fillFrames.mem = s.mem :=
  State.foldl_mem (fun _ (_ : WatchRef × Nat) => State.fillFrame_mem _ _ _) _ s

@[simp] theorem State.pollBarrier_mem (s : State) (r : WatchRef) : (s.pollBarrier r).mem = s.mem := by simp [State.pollBarrier]

@[simp] theorem State.fillAt_mem (s : State) (place k : Nat) (v : Nat → Byte) :
    (s.fillAt place k v).mem = s.mem := by simp [State.fillAt]

@[simp] theorem State.keepLine_mem (s : State) (core : Nat) (places : List Nat) (k : Nat) :
    (s.keepLine core places k).mem = s.mem := by simp [State.keepLine]

@[simp] theorem State.keepCopy_mem (s : State) (core : Nat) (places : List Nat) (hc : Bool) (k n : Nat) :
    (s.keepCopy core places hc k n).mem = s.mem := by
  unfold State.keepCopy
  split
  · exact State.foldl_mem (fun s i => State.keepLine_mem s core places _) _ s
  · rfl

@[simp] theorem State.dropCopies_mem (s : State) (core k n : Nat) : (s.dropCopies core k n).mem = s.mem := rfl

@[simp] theorem State.modWatchOrImage_mem (s : State) (r : WatchRef) (f : Watch → Watch) :
    (s.modWatchOrImage r f).mem = s.mem := rfl

@[simp] theorem State.modSplit_mem (s : State) (r : WatchRef) (id : Nat) (f : Split → Split) :
    (s.modSplit r id f).mem = s.mem := rfl

@[simp] theorem State.noteAltered_mem (s t : State) : (s.noteAltered t).mem = t.mem := rfl

@[simp] theorem State.branchIf_mem (s : State) (taken : Bool) (disp : BitVec 24) :
    (s.branchIf taken disp).mem = s.mem := by simp [State.branchIf]

@[simp] theorem State.joinCaddyQ_mem (s : State) (b : Nat) (use : CaddyUse) : (s.joinCaddyQ b use).mem = s.mem := rfl
@[simp] theorem State.numeric_mem (s : State) (kind n : Nat) : (s.numeric kind n).mem = s.mem := by simp [State.numeric]
@[simp] theorem State.saturate_mem (s : State) (m : Mask) : (s.saturate m).mem = s.mem := by simp [State.saturate]

@[simp] theorem State.writeCtrcfg_mem (s : State) (core n : Nat) (v : DWord) :
    (s.writeCtrcfg core n v).mem = s.mem := by simp [State.writeCtrcfg]

@[simp] theorem State.withdrawReqs_mem (s : State) : s.withdrawReqs.mem = s.mem := rfl

@[simp] theorem State.masksAfter_mem (s : State) (r : WatchRef) (left : List Mask) (d : Option (BitVec 3)) (depth : Nat)
    (ret : Bool) :
    (s.masksAfter r left d depth ret).mem = s.mem := by simp [State.masksAfter]

@[simp] theorem State.pushScalar_mem (s : State) (v : DWord) : (s.pushScalar v).mem = s.mem := rfl
@[simp] theorem State.pushLanes_mem (s : State) (m : Mask) (t : Ty) (v : Nat → Nat) : (s.pushLanes m t v).mem = s.mem := rfl
@[simp] theorem State.pushPair_mem (s : State) (m : Mask) (u v : Nat → Nat) : (s.pushPair m u v).mem = s.mem := rfl

@[simp] theorem State.countNans_mem (s : State) (m : Mask) (made : Nat → Bool) :
    (s.countNans m made).mem = s.mem := by simp [State.countNans]

@[simp] theorem State.pushCombined_mem (s : State) (f : FmtA) (m : Mask) (v : Nat → Combined) :
    (s.pushCombined f m v).mem = s.mem := by simp [State.pushCombined]

@[simp] theorem State.startBear_mem (s : State) (bd : Option (BitVec 3)) (f : Nat → Watch → Watch) :
    (s.startBear bd f).mem = s.mem := rfl

@[simp] theorem State.overflowBear_mem (s : State) (b : Bool) : (s.overflowBear b).mem = s.mem := by simp [State.overflowBear]

@[simp] theorem State.writeNormed_mem (s : State) (bd : BitVec 3) (n : Normed) :
    (s.writeNormed bd n).mem = s.mem := by simp [State.writeNormed]

@[simp] theorem State.writeNan_mem (s : State) (bd : BitVec 3) (made : Bool) :
    (s.writeNan bd made).mem = s.mem := by simp [State.writeNan]

@[simp] theorem State.noteClamp_mem (s : State) (clamped : Bool) : (s.noteClamp clamped).mem = s.mem := by simp [State.noteClamp]

@[simp] theorem State.release_mem (s : State) (rel : Bool) (scope : Nat) (ps : List Part) :
    (s.release rel scope ps).mem = s.mem := by simp [State.release]

@[simp] theorem State.retain_mem (s : State) (r : Retained) (ways : Nat) : (s.retain r ways).mem = s.mem := by simp [State.retain]

@[simp] theorem State.sampleOne_mem (s : State) (salt k : Nat) : (s.sampleOne salt k).mem = s.mem := by
  unfold State.sampleOne
  dsimp only
  (repeat' split) <;> simp

@[simp] theorem State.sampleFill_mem (s : State) (evict : BitVec 3) (salt : Nat) (t : Target) :
    (s.sampleFill evict salt t).mem = s.mem := by
  unfold State.sampleFill
  split
  · rfl
  · dsimp only
    exact State.foldl_mem (fun _ _ => State.sampleOne_mem _ _ _) _ s

@[simp] theorem State.pushLoads_mem (s : State) (m : Mask) (unit : UnitKind) (va : Nat → Nat) (ts : List (Nat × Target))
    (vals : List (Nat × List Nat)) :
    (s.pushLoads m unit va ts vals).mem = s.mem := rfl

@[simp] theorem State.dropLaneResv_mem (s : State) (l : Nat) : (s.dropLaneResv l).mem = s.mem := rfl

@[simp] theorem State.pushOlds_mem (s : State) (t : Ty) (va : Nat → Nat) (ts : List (Nat × Target)) (olds : List
    (Nat × List Byte)) :
    (s.pushOlds t va ts olds).mem = s.mem := rfl

@[simp] theorem State.noteUse_mem (s : State) (k : Nat) : (s.noteUse k).mem = s.mem := by simp [State.noteUse]
@[simp] theorem State.noteInit_mem (s : State) (k : Nat) : (s.noteInit k).mem = s.mem := by simp [State.noteInit]

@[simp] theorem State.claimHalves_mem (s : State) (g : Agent) (hs : List Nat) : (s.claimHalves g hs).mem = s.mem := by
  unfold State.claimHalves; split <;> rfl

@[simp] theorem State.countConverted_mem (s : State) (w : WatchRef) (tid : Nat) (c : Converted) :
    (s.countConverted w tid c).mem = s.mem := by simp [State.countConverted]

@[simp] theorem State.charge_mem (s : State) (dom pj : Nat) : (s.charge dom pj).mem = s.mem := rfl
@[simp] theorem State.modCmd_mem (s : State) (id : Nat) (f : EngCmd → EngCmd) : (s.modCmd id f).mem = s.mem := rfl
@[simp] theorem State.setAnchored_mem (s : State) (k col v : Nat) : (s.setAnchored k col v).mem = s.mem := rfl

@[simp] theorem State.addTerms_mem (s : State) (k col : Nat) (ps : List FVal) :
    (s.addTerms k col ps).mem = s.mem := by simp [State.addTerms]

theorem State.addPass_mem {s : State} {c : MatCmd} {rank : Nat} {gs : List Nat} {first cols toCol : Nat} {u : State × Bool}
    (e : s.addPass c rank gs first cols toCol = .ok u) : u.1.mem = s.mem := by
  obtain ⟨xs, _, e⟩ := Work.bind_eq_ok e
  obtain ⟨ys, _, e⟩ := Work.bind_eq_ok e
  cases e
  refine List.foldlRecOn (motive := fun r : State × Bool => r.1.mem = s.mem) _ _ rfl fun r hr x _ => ?_
  refine List.foldlRecOn (motive := fun r : State × Bool => r.1.mem = s.mem) _ _ hr fun r hr y _ => ?_
  rw [← hr]
  exact State.addTerms_mem _ _ _ _

@[simp] theorem State.readmitFuel_mem : ∀ (n : Nat) (s : State), (State.readmitFuel n s).mem = s.mem
  | 0, _ => rfl
  | n + 1, s => by
    unfold State.readmitFuel
    split
    · rw [State.readmitFuel_mem n]
    · rfl

@[simp] theorem State.readmit_mem (s : State) : s.readmit.mem = s.mem := by simp [State.readmit]
@[simp] theorem State.modMat_mem (s : State) (id : Nat) (f : MatCmd → MatCmd) : (s.modMat id f).mem = s.mem := rfl
@[simp] theorem State.noteArrays_mem (s : State) (c : MatCmd) (arrays : List Nat) : (s.noteArrays c arrays).mem = s.mem := rfl
@[simp] theorem State.initRow_mem (s : State) (k : Nat) (anchor : BitVec 10) : (s.initRow k anchor).mem = s.mem := rfl

@[simp] theorem State.zeroRead_mem (s : State) (c : MatCmd) : (s.zeroRead c).mem = s.mem := by
  unfold State.zeroRead
  exact State.foldl_mem (fun u _ => by rw [State.foldl_mem]; intro _ _; rfl) _ s

@[simp] theorem State.addWatch_mem (s : State) (w : Watch) : (s.addWatch w).mem = s.mem := by simp [State.addWatch]

@[simp] theorem State.startBlock_mem (s : State) (l : Launch) (idx block core : Nat) (o : Offer) :
    (s.startBlock l idx block core o).mem = s.mem := by
  unfold State.startBlock
  rw [State.foldl_mem]
  exact fun u _ => State.addWatch_mem u _

@[simp] theorem State.restoreBlock_mem (s : State) (ws : List Watch) (core : Nat) (o : Offer) :
    (s.restoreBlock ws core o).mem = s.mem :=
  State.foldl_mem (fun u _ => State.addWatch_mem u _) _ _

@[simp] theorem State.setPstat_mem (s : State) (core dom st : Nat) : (s.setPstat core dom st).mem = s.mem := rfl
@[simp] theorem State.dropPreempt_mem (s : State) (core dom : Nat) : (s.dropPreempt core dom).mem = s.mem := rfl

@[simp] theorem State.notePstat_mem (s : State) (core dom st : Nat) :
    (s.notePstat core dom st).mem = s.mem := by simp [State.notePstat]

@[simp] theorem State.hardStep_mem (s : State) (core dom : Nat) : (s.hardStep core dom).mem = s.mem := by
  unfold State.hardStep; split <;> simp

@[simp] theorem State.hardRequest_mem (s : State) (core dom : Nat) :
    (s.hardRequest core dom).mem = s.mem := by simp [State.hardRequest]

@[simp] theorem State.nextSlice_mem : ∀ (fuel : Nat) (s : State) (core i : Nat), (State.nextSlice fuel s core i).mem = s.mem
  | 0, _, _, _ => by simp [State.nextSlice]
  | fuel + 1, s, core, i => by
    unfold State.nextSlice
    split
    · rfl
    · dsimp only
      split <;> simp [State.nextSlice_mem fuel]

@[simp] theorem State.pollSlice_mem (s : State) (x : Slice) : (s.pollSlice x).mem = s.mem := by
  unfold State.pollSlice; split <;> simp

@[simp] theorem State.addDebt_mem (s : State) (core dom n : Nat) : (s.addDebt core dom n).mem = s.mem := rfl
@[simp] theorem State.lendErr_mem (s : State) (core : Nat) : (s.lendErr core).mem = s.mem := rfl
@[simp] theorem State.modSight_mem (s : State) (die : Nat) (f : Sight → Sight) : (s.modSight die f).mem = s.mem := rfl
@[simp] theorem State.noteDrain_mem (s : State) (core : Nat) : (s.noteDrain core).mem = s.mem := rfl
@[simp] theorem State.endTest_mem (s : State) (die core : Nat) (fenced : Bool) : (s.endTest die core fenced).mem = s.mem := rfl
@[simp] theorem State.pollClock_mem (s : State) : s.pollClock.mem = s.mem := by simp [State.pollClock]

@[simp] theorem State.fillTlb_mem (s : State) (e : TlbEntry) (replaced : Option (Nat × Nat)) :
    (s.fillTlb e replaced).mem = s.mem := rfl

@[simp] theorem State.fillWalk_mem (s : State) (e : WalkEntry) : (s.fillWalk e).mem = s.mem := rfl

@[simp] theorem State.keepReads_mem (s : State) (die dom vpage : Nat) : (s.keepReads die dom vpage).mem = s.mem := by
  unfold State.keepReads
  split
  · split
    · rfl
    · exact State.foldl_mem State.fillWalk_mem _ s
  · rfl

@[simp] theorem State.invalidate_mem (s : State) (dom kind count : Nat) :
    (s.invalidate dom kind count).mem = s.mem := by simp [State.invalidate]

@[simp] theorem State.idtErr_mem (s : State) : s.idtErr.mem = s.mem := rfl

@[simp] theorem State.idtMap_mem (s : State) (outer : Bool) (page frame : Nat) : (s.idtMap outer page frame).mem = s.mem := by
  unfold State.idtMap
  dsimp only
  (repeat' split) <;> rfl

@[simp] theorem State.setPin_mem (s : State) (page : Nat) (v : Bool) : (s.setPin page v).mem = s.mem := rfl

@[simp] theorem State.present_mem (s : State) (die page n : Nat) : (s.present die page n).mem = s.mem := by
  unfold State.present
  dsimp only
  (repeat' split) <;> rfl

@[simp] theorem State.promote_mem (s : State) (die page : Nat) : (s.promote die page).mem = s.mem := by
  unfold State.promote
  dsimp only
  (repeat' split) <;> rfl

@[simp] theorem State.startRetire_mem (s : State) (slot : Nat) : (s.startRetire slot).mem = s.mem := by simp [State.startRetire]

@[simp] theorem State.sendAborts_mem (s : State) (c : EngCmd) : (s.sendAborts c).mem = s.mem := by
  unfold State.sendAborts; split <;> simp

@[simp] theorem State.clearCounters_mem (s : State) (dom : Nat) : (s.clearCounters dom).mem = s.mem := rfl
@[simp] theorem State.enableDomain_mem (s : State) (dom : Nat) : (s.enableDomain dom).mem = s.mem := by simp [State.enableDomain]
@[simp] theorem State.notifyQueue_mem (s : State) (q : Nat) : (s.notifyQueue q).mem = s.mem := by simp [State.notifyQueue]
@[simp] theorem State.modServed_mem (s : State) (q : Nat) (f : Served → Served) : (s.modServed q f).mem = s.mem := rfl
@[simp] theorem State.dropServed_mem (s : State) (q : Nat) : (s.dropServed q).mem = s.mem := rfl
@[simp] theorem State.modCp_mem (s : State) (cp : Nat) (f : CmdProc → CmdProc) : (s.modCp cp f).mem = s.mem := rfl
@[simp] theorem State.releaseCp_mem (s : State) (q : Nat) : (s.releaseCp q).mem = s.mem := rfl

@[simp] theorem State.writeQuota_mem (s : State) (kind : QuotaKind) (core dom : Nat) (v : DWord) :
    (s.writeQuota kind core dom v).mem = s.mem := by simp [State.writeQuota]

@[simp] theorem State.writePart_mem (s : State) (dom : Nat) (v : DWord) :
    (s.writePart dom v).mem = s.mem := by simp [State.writePart]

@[simp] theorem State.writeQrange_mem (s : State) (dom : Nat) (v : DWord) :
    (s.writeQrange dom v).mem = s.mem := by simp [State.writeQrange]

@[simp] theorem State.writeCtrown_mem (s : State) (core : Nat) (v : DWord) : (s.writeCtrown core v).mem = s.mem := by
  rw [State.writeCtrown, State.setReg_mem, State.foldl_mem]
  intro u n
  split <;> rfl

@[simp] theorem State.writeRsvctl_mem (s : State) (die dom n : Nat) (v : DWord) : (s.writeRsvctl die dom n v).mem = s.mem := rfl

@[simp] theorem State.writeEqring_mem (s : State) (dom : Option Nat) (v : DWord) : (s.writeEqring dom v).mem = s.mem := by
  unfold State.writeEqring; split <;> rfl

@[simp] theorem State.writeHead_mem (s : State) (r : Reg) (v : DWord) : (s.writeHead r v).mem = s.mem := rfl
@[simp] theorem State.enableQueue_mem (s : State) (q : Nat) : (s.enableQueue q).mem = s.mem := by simp [State.enableQueue]
@[simp] theorem State.writeQctl_mem (s : State) (q : Nat) (v : DWord) : (s.writeQctl q v).mem = s.mem := by simp [State.writeQctl]
@[simp] theorem State.clearOnes_mem (s : State) (r : Reg) (bits v : DWord) : (s.clearOnes r bits v).mem = s.mem := rfl

@[simp] theorem State.writeInvctl_mem (s : State) (dom : Nat) (v : DWord) :
    (s.writeInvctl dom v).mem = s.mem := by simp [State.writeInvctl]

@[simp] theorem State.goToClock_mem (s : State) (mhz : Nat) : (s.goToClock mhz).mem = s.mem := by simp [State.goToClock]
@[simp] theorem State.recovery_mem (s : State) (code stage versions : Nat) : (s.recovery code stage versions).mem = s.mem := rfl

@[simp] theorem State.train_mem (s : State) (i : FlashImage) (err : Nat) (failed : List ModulePart) :
    (s.train i err failed).mem = s.mem := by
  unfold State.train
  (repeat' split)
  · rw [State.recovery_mem]
  · rw [State.recovery_mem]
  · dsimp only
    rw [State.setReg_mem]
    dsimp only
    rw [State.foldl_mem fun u c => State.setRegField_mem u _ _ _ _]

@[simp] theorem State.poisonBytes_mem (s : State) (k n : Nat) : (s.poisonBytes k n).mem = s.mem := by
  unfold State.poisonBytes
  rfl

/-! ### Late bytes, records, nodes, launches and traps -/

section
variable {s : State} (h : Memory.wf s.mem = true)
include h

@[simp] theorem State.wf_enterGang {launch gang : Nat} :
    Memory.wf (s.enterGang launch gang).mem = true := by simp [State.enterGang, State.wf_enterSome, h]

@[simp] theorem State.wf_crossSome {sel : Trail → Bool} :
    Memory.wf (s.crossSome sel).mem = true := by simp [State.crossSome, State.wf_enterSome, h]

@[simp] theorem State.wf_crossPhase {k : Nat} : Memory.wf (s.crossPhase k).mem = true := by simp [State.crossPhase, h]

@[simp] theorem State.wf_crossLaunch {launch : Nat} :
    Memory.wf (s.crossLaunch launch).mem = true := by simp [State.crossLaunch, State.wf_enterSome, h]

@[simp] theorem State.wf_enterHere {inside : Nat → Bool} :
    Memory.wf (s.enterHere inside).mem = true := by simp [State.enterHere, State.wf_enterSome, h]

@[simp] theorem State.wf_domainRecord {dom : Nat} {r : ErrRec} : Memory.wf (s.domainRecord dom r).mem = true := by
  simp only [State.domainRecord]
  (repeat' split) <;> simp [State.wf_write, h]

@[simp] theorem State.wf_physRecord {r : ErrRec} {virt : Bool} :
    Memory.wf (s.physRecord r virt).mem = true := by simp [State.physRecord, State.wf_write, h]

@[simp] theorem State.wf_record {r : ErrRec} : Memory.wf (s.record r).mem = true := by
  simp only [State.record]
  (repeat' split) <;> simp [h]

@[simp] theorem State.wf_changeSignal {k : Nat} {c : SigChange} : Memory.wf (s.changeSignal k c).mem = true := by
  unfold State.changeSignal
  (repeat' split) <;> simp [State.wf_store, h]

@[simp] theorem State.wf_signal {launch dom va : Nat} {c : SigChange} {notify : Bool} :
    Memory.wf (s.signal launch dom va c notify).mem = true := by
  unfold State.signal
  (repeat' split) <;> simp [h]

@[simp] theorem State.wf_setNodeState {dom idx v : Nat} :
    Memory.wf (s.setNodeState dom idx v).mem = true := by simp [State.setNodeState, State.wf_vwrite, h]

@[simp] theorem State.wf_writeBack {die : Nat} : Memory.wf (s.writeBack die).mem = true :=
  State.wf_foldl (fun _ _ hu => State.wf_vwrite _ _ _ _ hu) _ h

@[simp] theorem State.wf_touchCounter {die dom idx : Nat} : Memory.wf (s.touchCounter die dom idx).mem = true :=
  State.wf_writeBack (by exact h)

@[simp] theorem State.wf_putNode {n : Node} : Memory.wf (s.putNode n).mem = true :=
  State.wf_touchCounter (by exact h)

@[simp] theorem State.wf_nodeReady {n : Node} : Memory.wf (s.nodeReady n).mem = true := by
  unfold State.nodeReady
  rw [State.enterPool_mem]
  exact State.wf_touchCounter (State.wf_setNodeState (State.wf_vwrite _ _ _ _ (by exact h)))

@[simp] theorem State.wf_insertNode {n : Node} : Memory.wf (s.insertNode n).mem = true := by
  unfold State.insertNode
  extract_lets va s1 s2 s3
  have h3 : Memory.wf s3.mem = true := by simp [s1, s2, s3, State.wf_vwrite, h]
  split <;> simp [h3]

@[simp] theorem State.wf_decNode {dom idx n : Nat} : Memory.wf (s.decNode dom idx n).mem = true := by
  unfold State.decNode
  (repeat' split) <;> simp [h]

omit h in
@[simp] theorem State.wf_addCounts {dom buf : Nat} :
    ∀ {es : List EventCount} {s : State}, Memory.wf s.mem = true → Memory.wf (s.addCounts dom buf es).mem = true
  | [], _, h => h
  | _ :: _, _, h => by
    unfold State.addCounts
    exact State.wf_addCounts (State.wf_vwrite _ _ _ _ h)

omit h in
@[simp] theorem State.wf_releaseAll {dom : Nat} :
    ∀ {is : List Nat} {s : State}, Memory.wf s.mem = true → Memory.wf (s.releaseAll dom is).mem = true
  | [], _, h => h
  | _ :: _, _, h => by
    unfold State.releaseAll
    exact State.wf_releaseAll (State.wf_decNode h)

@[simp] theorem State.wf_endLaunch {l : Launch} {quiet : Bool} : Memory.wf (s.endLaunch l quiet).mem = true := by
  unfold State.endLaunch
  split
  · extract_lets s1 s2 s3 s4
    have h1 : Memory.wf s1.mem = true := by simp only [s1]; split <;> simp [h]
    have h2 : Memory.wf s2.mem = true := by rwa [State.modLaunch_mem]
    have h4 : Memory.wf s4.mem = true := State.wf_record (State.wf_signal h2)
    (repeat' split) <;> simp [h4, h2]
  · extract_lets s1 s2 s3 s4 s5
    have h2 : Memory.wf s2.mem = true := by simp only [s1, s2]; split <;> simp [h]
    have h3 : Memory.wf s3.mem = true := by rwa [State.modLaunch_mem]
    have h4 : Memory.wf s4.mem = true := State.wf_releaseAll h3
    rw [State.joinFall_mem]
    exact State.wf_signal h4

@[simp] theorem State.wf_settleLaunch {id : Nat} {quiet : Bool} : Memory.wf (s.settleLaunch id quiet).mem = true := by
  unfold State.settleLaunch
  split <;> simp [h]

@[simp] theorem State.wf_dropImage {launch idx : Nat} :
    Memory.wf (s.dropImage launch idx).mem = true := by simp [State.dropImage, State.wf_clearBytes, h]

@[simp] theorem State.wf_dropGang {launch idx : Nat} : Memory.wf (s.dropGang launch idx).mem = true := by simp [State.dropGang, h]

/-- New nodes leave memory as it is, whatever the state that they are put in: for a state that is long to evaluate. -/
theorem State.wf_withNodes {ns : List Node} : Memory.wf ({ s with nodes := ns } : State).mem = true := h

@[simp] theorem State.wf_failNode {n : Node} : Memory.wf (s.failNode n).mem = true := by
  refine State.wf_withNodes ?_
  rw [State.dropCounter_mem]
  exact State.wf_setNodeState h

omit h in
/-- The kids of a killed gang are settled with what each kid's own gangs leave. -/
@[simp] theorem State.wf_killGangFuel : ∀ {fuel : Nat} {s : State} {launch idx : Nat} {again quiet : Bool},
    Memory.wf s.mem = true → Memory.wf (State.killGangFuel fuel s launch idx again quiet).mem = true
  | 0, _, _, _, _, _, h => h
  | fuel + 1, s, launch, idx, again, quiet, h => by
    unfold State.killGangFuel
    extract_lets s1 kids kidNodes s2 s3 s4 s5
    have h2 : Memory.wf s2.mem = true := by
      refine State.wf_foldl (fun u n hu => ?_) _ (State.wf_dropGang h)
      exact State.wf_record (State.wf_signal (State.wf_failNode hu))
    have h3 : Memory.wf s3.mem = true := by
      refine State.wf_foldl (fun u l hu => ?_) _ h2
      exact State.wf_settleLaunch (State.wf_foldl (fun v g hv => State.wf_killGangFuel hv) _ (by rwa [State.modLaunch_mem]))
    have h4 : Memory.wf s4.mem = true := by rwa [State.modLaunch_mem]
    split
    · rwa [State.modGang_mem]
    · exact State.wf_settleLaunch (by rwa [State.failLaunch_mem])

@[simp] theorem State.wf_killGang {launch idx : Nat} {mayRelaunch : Bool} :
    Memory.wf (s.killGang launch idx mayRelaunch).mem = true := by simp [State.killGang, h]

@[simp] theorem State.wf_endGang {launch idx : Nat} : Memory.wf (s.endGang launch idx).mem = true := by
  simp only [State.endGang]
  (repeat' split) <;> simp [h]

@[simp] theorem State.wf_settleGang {launch idx : Nat} : Memory.wf (s.settleGang launch idx).mem = true := by
  unfold State.settleGang
  split <;> simp [h]

@[simp] theorem State.wf_byRegister {f : State → State} (hf : Memory.wf (f s).mem = true) : Out.MemWf (s.byRegister f) := by
  simp [State.byRegister, h, hf]

@[simp] theorem State.wf_countOne {core dom ev n i : Nat} : Memory.wf (s.countOne core dom ev n i).mem = true := by
  simp only [State.countOne]
  (repeat' split) <;> simp [h]

@[simp] theorem State.wf_countEvent {core dom ev n : Nat} :
    Memory.wf (s.countEvent core dom ev n).mem = true := by simp +contextual [State.countEvent, h]

@[simp] theorem State.wf_endCtx : Memory.wf s.endCtx.mem = true := by simp [State.endCtx, h]

@[simp] theorem State.wf_killForTrap {cause : Nat} {detail : DWord} :
    Memory.wf (s.killForTrap cause detail).mem = true := by simp [State.killForTrap, h]

@[simp] theorem State.wf_countTrap : Memory.wf s.countTrap.mem = true := by simp [State.countTrap, h]

omit h in
@[simp] theorem State.wf_trapFuel : ∀ {fuel : Nat} {s : State} {cause : Nat} {mask : Mask} {detail : DWord} {len : Nat},
    Memory.wf s.mem = true → Memory.wf (State.trapFuel fuel s cause mask detail len).mem = true
  | 0, _, _, _, _, _, h => State.wf_killForTrap h
  | fuel + 1, s, cause, mask, detail, len, h => by
    unfold State.trapFuel
    extract_lets s1 w
    have h1 : Memory.wf s1.mem = true := State.wf_countTrap h
    split
    · exact State.wf_killForTrap h1
    split
    · dsimp only
      split
      · exact State.wf_trapFuel (by exact h1)
      · split <;> simp [h1]
    · (repeat' split) <;> simp [h1]

@[simp] theorem State.wf_takeTrapLen {cause : Nat} {mask : Mask} {detail : DWord} {len : Nat} :
    Memory.wf (s.takeTrapLen cause mask detail len).mem = true := by simp [State.takeTrapLen, h]

@[simp] theorem State.wf_takeTrap {cause : Nat} {mask : Mask} {detail : DWord} :
    Memory.wf (s.takeTrap cause mask detail).mem = true := by simp [State.takeTrap, h]

@[simp] theorem State.wf_takeTrapFree {cause : Nat} {mask : Mask} :
    Memory.wf (s.takeTrapFree cause mask).mem = true := by simp [State.takeTrapFree, h]

@[simp] theorem State.wf_domainTrap {mask : Mask} {detail : DWord} :
    Memory.wf (s.domainTrap mask detail).mem = true := by simp [State.domainTrap, h]

@[simp] theorem State.wf_consumePoison {dom core : Nat} {r : WatchRef} {sub addr : Nat} :
    Memory.wf (s.consumePoison dom core r sub addr).mem = true := by simp [State.consumePoison, h]

@[simp] theorem State.wf_parityKill : Memory.wf s.parityKill.mem = true := by simp [State.parityKill, h]

@[simp] theorem State.wf_enter {g : Option Nat} {maj : Nat} {k : State → Out} (hk : Out.MemWf (k s)) :
    Out.MemWf (s.enter g maj k) := by
  unfold State.enter
  (repeat' split) <;> simp [h, hk]

@[simp] theorem State.wf_vecFront {m : Mask} {srcs : List Src} : CheckWf (s.vecFront m srcs) := by
  simp only [State.vecFront]
  (repeat' split) <;> simp [h]

@[simp] theorem State.wf_uniFront {srcs : List Src} : CheckWf (s.uniFront srcs) := by
  unfold State.uniFront
  split <;> simp [h]

omit h in
@[simp] theorem wf_orElse {c : Option State} {k : Out} (hc : CheckWf c) (hk : Out.MemWf k) : Out.MemWf (orElse c k) := by
  cases c with
  | some t => exact hc
  | none => exact hk

@[simp] theorem State.wf_sendReq {e : PageReq} : Memory.wf (s.sendReq e).mem = true := by
  simp only [State.sendReq]
  (repeat' split) <;> simp [State.wf_write, h]

@[simp] theorem State.wf_sendReqs {dom : Nat} : Memory.wf (s.sendReqs dom).mem = true := by simp +contextual [State.sendReqs, h]

@[simp] theorem State.wf_pageReq {dom vpage : Nat} {write engine : Bool} {w : Waiter} :
    Memory.wf (s.pageReq dom vpage write engine w).mem = true := by
  unfold State.pageReq
  (repeat' split) <;> simp [h]

@[simp] theorem State.wf_holdPage {dom vpage : Nat} {write : Bool} :
    Memory.wf (s.holdPage dom vpage write).mem = true := by simp [State.holdPage, h]

@[simp] theorem State.wf_unmappedPage {r : WatchRef} {key : Nat} :
    Memory.wf (s.unmappedPage r key).mem = true := by simp [State.unmappedPage, h]

@[simp] theorem State.wf_writeThrough {k : Nat} {bs : List Byte} :
    Memory.wf (s.writeThrough k bs).mem = true := by simp [State.writeThrough, State.wf_putThrough, h]

@[simp] theorem State.wf_writeOpen {dom va : Nat} {bs : List (Option Byte)} :
    Memory.wf (s.writeOpen dom va bs).mem = true := by simp [State.writeOpen, State.wf_vwrite, h]

@[simp] theorem State.wf_saveGate {launch gang : Nat} {ref : WatchRef} {d : GateDesc} {v : Watch} :
    Memory.wf (s.saveGate launch gang ref d v).mem = true := by
  rw [State.saveGate, State.modGang_mem]
  exact State.wf_writeOpen h

@[simp] theorem State.wf_saveGates {w : Watch} : Memory.wf (s.saveGates w).mem = true := by simp +contextual [State.saveGates, h]

@[simp] theorem State.wf_writeImage {l : Launch} {g : Gang} :
    Memory.wf (s.writeImage l g).mem = true := by simp +contextual [State.writeImage, h]

omit h in
@[simp] theorem State.wf_moveBlocks {f t fa ta : Nat → Nat} {bytes rows : Nat} :
    ∀ {b : Nat} {s : State}, Memory.wf s.mem = true → Memory.wf (s.moveBlocks f t fa ta bytes rows b).mem = true
  | 0, _, h => h
  | _ + 1, _, h => by
    rw [State.moveBlocks, State.moveRows_mem]
    exact State.wf_moveBytes _ _ _ (State.wf_moveBlocks h)

@[simp] theorem State.wf_saveGang {launch idx : Nat} {joined : Bool} : Memory.wf (s.saveGang launch idx joined).mem = true := by
  unfold State.saveGang
  (repeat' split) <;> simp [h]

@[simp] theorem State.wf_writeArrivals {g : Gang} {r : LaunchRec} {old new : Watch} :
    Memory.wf (s.writeArrivals g r old new).mem = true := by
  unfold State.writeArrivals
  split
  · exact h
  · refine State.wf_foldl (fun _ _ hu => State.wf_foldl (fun _ _ hv => ?_) _ hu) _ h
    split
    · exact State.wf_write _ _ hv
    · exact hv

@[simp] theorem State.wf_intoImage {w : WatchRef} {f : Watch → Watch} : Memory.wf (s.intoImage w f).mem = true := by
  unfold State.intoImage
  (repeat' split) <;> simp [h]

@[simp] theorem State.wf_restoreRows {r : LaunchRec} {g : Gang} {x : Altered} : Memory.wf (s.restoreRows r g x).mem = true := by
  unfold State.restoreRows
  refine State.wf_foldl (fun u b hu => ?_) _ h
  extract_lets at_ u1
  have h1 : Memory.wf u1.mem = true := State.wf_foldl (fun _ _ hv => Memory.wf_put _ _ hv) _ hu
  refine State.wf_foldl (fun v i hv => ?_) _ h1
  extract_lets y k v1 w
  have e : v1.mem = v.mem := State.foldl_mem (fun a c => State.setCell_mem a k c _) _ v
  split
  · rw [State.setRow_mem, e]
    exact hv
  · rw [e]
    exact hv

end

/-! ### Control flow, gates, ports and tasks -/

section
variable {s : State} (h : Memory.wf s.mem = true)
include h

@[simp] theorem State.wf_pollJoin {r : WatchRef} : Memory.wf (s.pollJoin r).mem = true := by
  unfold State.pollJoin
  (repeat' split) <;> simp [h]

@[simp] theorem State.wf_pollYieldb {r : WatchRef} : Memory.wf (s.pollYieldb r).mem = true := by
  unfold State.pollYieldb
  (repeat' split) <;> simp [h]

@[simp] theorem State.wf_pollGang {r : WatchRef} : Memory.wf (s.pollGang r).mem = true := by simp [State.pollGang, h]

omit h in
@[simp] theorem wf_andThen {α : Type} {g : Got α} {k : α → Out} (hg : Got.MemWf g) (hk : ∀ a, Out.MemWf (k a)) :
    Out.MemWf (g.andThen k) := by
  cases g with
  | ok a => exact hk a
  | stop t => exact hg

@[simp] theorem State.wf_fetchFault {addr : DWord} {k : FetchFault} : Memory.wf (s.fetchFault addr k).mem = true := by
  unfold State.fetchFault
  split <;> simp [h]

@[simp] theorem State.wf_noWord {addr : DWord} {x : Word8} : Memory.wf (s.noWord addr x).mem = true := by
  unfold State.noWord
  split <;> simp [h]

@[simp] theorem State.wf_layoutTrap {d : Nat} : Memory.wf (s.layoutTrap d).mem = true := by simp [State.layoutTrap, h]

@[simp] theorem State.wf_words8 {entry va : DWord} {n : Nat} : Got.MemWf (s.words8 entry va n) := by
  induction n generalizing va with
  | zero => exact trivial
  | succ n ih =>
    unfold State.words8
    split
    · have hn := ih (va := va + 8)
      split
      · exact trivial
      · rename_i e
        rwa [e] at hn
    · simp [h]

@[simp] theorem State.wf_rejoinEntry {idx : BitVec 16} : Got.MemWf (s.rejoinEntry idx) := by
  unfold State.rejoinEntry
  split
  · simp [h]
  · dsimp only
    have hw := State.wf_words8 h (entry := s.ctx.rejoinAt + BitVec.ofNat 64 (32 * idx.toNat))
      (va := s.ctx.rejoinAt + BitVec.ofNat 64 (32 * idx.toNat)) (n := 4)
    split
    · rename_i e
      rwa [e] at hw
    · split <;> simp [h]

@[simp] theorem State.wf_settle : Memory.wf s.settle.mem = true := by
  unfold State.settle
  split <;> simp [h]

@[simp] theorem State.wf_layoutReads {ms : List (Mask × List Nat)} {k : Out} (hk : Out.MemWf k) :
    Out.MemWf (s.layoutReads ms k) := by
  simp [State.layoutReads, h, hk]

@[simp] theorem State.wf_spillOr {t : State} {detail : DWord} (ht : Memory.wf t.mem = true) : Out.MemWf (s.spillOr t detail) := by
  simp [State.spillOr, h, ht]

@[simp] theorem State.wf_openIf {k : BitVec 3} {disp : BitVec 24} {origin : Bool} :
    Out.MemWf (s.openIf k disp origin) := by simp [State.openIf, h]

@[simp] theorem State.wf_splitOff {t e : Mask} {resume rejoin child : DWord} :
    Out.MemWf (s.splitOff t e resume rejoin child) := by simp [State.splitOff, h]

@[simp] theorem wf_execIfs {k : BitVec 3} {disp : BitVec 24} : Out.MemWf (execIfs k disp s) := by
  refine State.wf_enter h ?_
  dsimp only
  (repeat' split) <;> simp [h]

@[simp] theorem wf_execElseArm {disp : BitVec 24} : Out.MemWf (execElseArm disp s) := by
  refine State.wf_enter h ?_
  dsimp only
  split
  · split
    · simp [h]
    split
    · split
      · simp [h]
      · exact State.wf_settle (by exact h)
    · simp [h]
  · simp [h]

@[simp] theorem wf_execRejoin {entry : BitVec 16} : Out.MemWf (execRejoin entry s) := by
  refine State.wf_enter h ?_
  dsimp only
  split
  · simp [h]
  split
  · simp [h]
  refine wf_andThen (State.wf_rejoinEntry h) fun e => ?_
  split
  · simp [h]
  refine State.wf_layoutReads h ?_
  split
  · exact State.wf_settle (by exact h)
  split
  · exact State.wf_settle (by exact h)
  · simp [h]

@[simp] theorem wf_execEndloop {k : BitVec 3} {disp : BitVec 24} {entry : BitVec 16} :
    Out.MemWf (execEndloop k disp entry s) := by
  refine State.wf_enter h ?_
  dsimp only
  split
  · simp [h]
  split
  · simp [h]
  refine wf_andThen (State.wf_rejoinEntry h) fun e => ?_
  split
  · simp [h]
  split
  · simp [h]
  exact State.wf_layoutReads h (State.wf_settle (by exact h))

@[simp] theorem State.wf_depart {k : BitVec 3} {entry : BitVec 16} {brk : Bool} : Out.MemWf (s.depart k entry brk) := by
  unfold State.depart
  split
  · simp [h]
  refine wf_andThen (State.wf_rejoinEntry h) fun e => ?_
  exact Out.memWf_ite (by simp [h]) (State.wf_layoutReads h (State.wf_settle (by exact h)))

@[simp] theorem State.wf_topReads {n m : Nat} {k : Out} (hk : Out.MemWf k) : Out.MemWf (s.topReads n m k) := by
  simp [State.topReads, h, hk]

@[simp] theorem State.wf_callTo {target : DWord} {n m b : Nat} : Out.MemWf (s.callTo target n m b) := by
  simp only [State.callTo]
  (repeat' split) <;> simp [h]

@[simp] theorem wf_execCall {n : BitVec 7} {disp : BitVec 24} {m b : BitVec 8} : Out.MemWf (execCall n disp m b s) := by
  refine State.wf_enter h ?_
  (repeat' split) <;> simp [h]

@[simp] theorem wf_execCalli {n : BitVec 7} {age : BitVec 4} {m b : BitVec 8} : Out.MemWf (execCalli n age m b s) := by
  refine State.wf_enter h ?_
  (repeat' split) <;> simp [h]

@[simp] theorem wf_execRet {n : BitVec 7} {m : BitVec 8} : Out.MemWf (execRet n m s) := by
  refine State.wf_enter h ?_
  (repeat' split) <;> simp [h]

@[simp] theorem wf_execTrap {k : BitVec 3} {code : BitVec 16} : Out.MemWf (execTrap k code s) := by
  refine State.wf_enter h ?_
  (repeat' split) <;> simp [h]

@[simp] theorem State.wf_returnFromTrap {next : Bool} : Out.MemWf (s.returnFromTrap next) := by
  unfold State.returnFromTrap
  (repeat' split) <;> simp [h]

@[simp] theorem wf_execSwr {reg : BitVec 12} {a : Opnd} : Out.MemWf (execSwr reg a s) := by
  refine State.wf_enter h (wf_orElse (State.wf_uniFront h) ?_)
  dsimp only
  rw [Out.memWf_next, State.advance_mem]
  (repeat' split) <;> simp [h]

@[simp] theorem wf_execSleep {a : Opnd} : Out.MemWf (execSleep a s) :=
  State.wf_enter h (by simp [h])

@[simp] theorem wf_execSleepEnd {w : WatchRef} {split : Nat} : Out.MemWf (execSleepEnd w split s) := h

@[simp] theorem wf_execYieldb : Out.MemWf (execYieldb s) := by
  refine State.wf_enter h ?_
  dsimp only
  (repeat' split) <;> simp [h]

@[simp] theorem wf_execCgrowWait {a : Opnd} : Out.MemWf (execCgrowWait a s) := by
  refine State.wf_enter h (wf_orElse (State.wf_uniFront h) ?_)
  dsimp only
  (repeat' split) <;> simp [h]

@[simp] theorem wf_execCgrowTry {a : Opnd} : Out.MemWf (execCgrowTry a s) :=
  State.wf_enter h (by simp [h])

@[simp] theorem wf_execCshrink {a : Opnd} : Out.MemWf (execCshrink a s) := by
  refine State.wf_enter h (wf_orElse (State.wf_uniFront h) ?_)
  dsimp only
  split <;> simp [h]

@[simp] theorem wf_execCaddyGrant {core pool : Nat} : Out.MemWf (execCaddyGrant core pool s) := by
  simp only [execCaddyGrant]
  (repeat' split) <;> simp [h]

@[simp] theorem State.wf_gateTrap {d : Nat} : Memory.wf (s.gateTrap d).mem = true := by simp [State.gateTrap, h]

@[simp] theorem State.wf_gateSegs {d : GateDesc} : Got.MemWf (s.gateSegs d) := by
  unfold State.gateSegs
  (repeat' split) <;> simp [h]

@[simp] theorem wf_execGate {index : BitVec 16} : Out.MemWf (execGate index s) := by
  refine State.wf_enter h ?_
  dsimp only
  repeat refine Out.memWf_ite (by simp [h]) ?_
  refine wf_andThen (State.wf_gateSegs h) fun segs => State.wf_topReads h (Out.memWf_ite (by simp [h]) ?_)
  exact State.wf_spillOr h (by exact h)

@[simp] theorem wf_execGret {n : BitVec 7} {m : BitVec 8} : Out.MemWf (execGret n m s) := by
  refine State.wf_enter h ?_
  (repeat' split) <;> simp [h]

@[simp] theorem State.wf_switchPort {w : Watch} {p : Split} : Memory.wf (s.switchPort w p).mem = true := by
  simp only [State.switchPort]
  (repeat' split) <;> simp [h]

@[simp] theorem wf_execFairnessSwitch {w : WatchRef} {split : Nat} : Out.MemWf (execFairnessSwitch w split s) := by
  unfold execFairnessSwitch
  (repeat' split) <;> simp [h]

@[simp] theorem wf_execReservationDeferEnd {w : WatchRef} {split : Nat} : Out.MemWf (execReservationDeferEnd w split s) := by
  unfold execReservationDeferEnd
  split <;> simp [h]

@[simp] theorem State.wf_fairness {core port : Nat} : Memory.wf (s.fairness core port).mem = true := by
  unfold State.fairness
  split <;> simp [h]

@[simp] theorem State.wf_countHeld {core port : Nat} : Memory.wf (s.countHeld core port).mem = true := h

@[simp] theorem State.wf_take {core port : Nat} : CheckWf (s.take core port) := by
  unfold State.take
  dsimp only
  cases State.grant (s.fairness core port) core port with
  | none => exact trivial
  | some g => simp [h]

@[simp] theorem State.wf_takeSplit {core port : Nat} {g : WatchRef × Nat} :
    CheckWf (s.takeSplit core port g) := by simp [State.takeSplit, h]

@[simp] theorem State.wf_takeAny : CheckWf s.takeAny :=
  checkWf_findSome (fun _ => checkWf_findSome (fun _ => State.wf_take h) _) _

@[simp] theorem State.wf_countIssue {w : Watch} {port : Nat} : Memory.wf (s.countIssue w port).mem = true := by
  unfold State.countIssue
  split
  · exact h
  extract_lets s1 s2
  have h1 : Memory.wf s1.mem = true := State.wf_countEvent h
  have h2 : Memory.wf s2.mem = true := by simp only [s2]; split <;> simp [h1]
  simp [h2]

@[simp] theorem State.wf_illField {maj len : Nat} : Out.MemWf (s.illField maj len) := by simp [State.illField, h]

@[simp] theorem State.wf_nodeTrap {code reason idx : Nat} :
    Memory.wf (s.nodeTrap code reason idx).mem = true := by simp [State.nodeTrap, h]

@[simp] theorem State.wf_taskFront {g : Option Nat} {maj : Nat} {a : Opnd} {k : Nat → State → Out} (hk : ∀ n, Out.MemWf (k n s)) :
    Out.MemWf (s.taskFront g maj a k) := by
  refine State.wf_enter h ?_
  split
  · simp [h]
  · exact wf_orElse (State.wf_uniFront h) (hk _)

@[simp] theorem State.wf_readsWell {va n : Nat} {k : Out} (hk : Out.MemWf k) : Out.MemWf (s.readsWell va n k) := by
  unfold State.readsWell
  dsimp only
  split
  · simp [h]
  · simp [h]
  · exact hk

@[simp] theorem State.wf_launchWell {va : Nat} {k : Out} (hk : Out.MemWf k) : Out.MemWf (s.launchWell va k) := by
  unfold State.launchWell
  split
  · exact hk
  refine State.wf_readsWell h ?_
  split
  · refine State.wf_readsWell h ?_
    split
    · exact State.wf_readsWell h hk
    · exact hk
  · exact hk

@[simp] theorem State.wf_nodeWell {idx : Nat} {k : Out} (hk : Out.MemWf k) : Out.MemWf (s.nodeWell idx k) := by
  unfold State.nodeWell
  split
  · exact hk
  refine State.wf_readsWell h ?_
  split
  · exact State.wf_launchWell h hk
  · exact hk

@[simp] theorem wf_execNode {a : Opnd} : Out.MemWf (execNode a s) := by
  refine State.wf_taskFront h fun n => State.wf_nodeWell h ?_
  split <;> simp [h]

@[simp] theorem wf_execNdep {a : Opnd} {n : BitVec 16} : Out.MemWf (execNdep a n s) := by
  refine State.wf_taskFront h fun idx => Out.memWf_ite (by simp [h]) ?_
  split
  · simp [h]
  · exact Out.memWf_ite (by simp [h]) (by rw [Out.memWf_next, State.advance_mem]; exact State.wf_putNode h)

@[simp] theorem wf_execNrel {a : Opnd} {n : BitVec 16} : Out.MemWf (execNrel a n s) := by
  refine State.wf_taskFront h fun idx => ?_
  dsimp only
  (repeat' split) <;> simp [h]

@[simp] theorem wf_execFork {a : Opnd} {k : BitVec 8} : Out.MemWf (execFork a k s) := by
  refine State.wf_enter h ?_
  split
  · simp [h]
  refine State.wf_taskFront h fun idx => List.foldrRecOn _ _ ?_ fun _ ho _ _ => State.wf_nodeWell h ho
  split
  · simp [h]
  · simp [h]
  · simp [h]
  dsimp only
  split
  · simp [h]
  · rw [Out.memWf_next, State.advance_mem]
    exact State.wf_foldl (fun _ _ hu => State.wf_insertNode hu) _ (by exact h)

@[simp] theorem wf_execJoin : Out.MemWf (execJoin s) := by
  refine State.wf_enter h ?_
  (repeat' split) <;> simp [h]

@[simp] theorem wf_execArm {a : Opnd} : Out.MemWf (execArm a s) := by
  refine State.wf_taskFront h fun v => ?_
  dsimp only
  refine Out.memWf_ite (by simp [h]) (Out.memWf_ite (by simp [h]) ?_)
  split
  · simp [h]
  refine Out.memWf_ite (by simp [h]) (State.wf_launchWell h ?_)
  (repeat' split) <;> simp [h]

@[simp] theorem wf_execDisarm {a : Opnd} : Out.MemWf (execDisarm a s) := by
  refine State.wf_enter h (wf_orElse (State.wf_uniFront h) ?_)
  dsimp only
  split <;> simp [h]

@[simp] theorem wf_execLaunchq {a : Opnd} : Out.MemWf (execLaunchq a s) := by
  refine State.wf_taskFront h fun va => ?_
  refine State.wf_launchWell h ?_
  split
  · exact Out.memWf_ite (State.wf_nodeTrap h) (State.wf_holdPage h)
  · exact State.wf_nodeTrap h
  · exact Out.memWf_ite (by simp [h]) (by simp [h])

end

/-! ### Computation -/

section
variable {s : State} (h : Memory.wf s.mem = true)
include h

@[simp] theorem State.wf_scalarOp {f : FmtA} {g : Nat → Nat → Nat → Nat} : Out.MemWf (s.scalarOp f g) :=
  State.wf_enter h (by simp [h])

@[simp] theorem wf_execSnot {f : FmtA} : Out.MemWf (execSnot f s) :=
  State.wf_enter h (by simp [h])

@[simp] theorem wf_execSsel {f : FmtA} : Out.MemWf (execSsel f s) :=
  State.wf_enter h (by simp [h])

@[simp] theorem wf_execSldiHi {a : Opnd} {v : BitVec 16} : Out.MemWf (execSldiHi a v s) :=
  State.wf_enter h (by simp [h])

@[simp] theorem State.wf_pushFromLane {f : FmtA} {l : Option Nat} : Memory.wf (s.pushFromLane f l).mem = true := by
  unfold State.pushFromLane
  split <;> simp [h]

@[simp] theorem wf_execSlane {f : FmtA} : Out.MemWf (execSlane f s) :=
  State.wf_enter h (by simp [h])

@[simp] theorem wf_execSpick {f : FmtA} : Out.MemWf (execSpick f s) :=
  State.wf_enter h (by simp [h])

@[simp] theorem State.wf_vector {f : FmtA} {srcs : List Src} {k : Mask → State → Out} (hk : ∀ m, Out.MemWf (k m s)) :
    Out.MemWf (s.vector f srcs k) :=
  State.wf_enter h (wf_orElse (State.wf_vecFront h) (hk _))

@[simp] theorem State.wf_vectorOp {f : FmtA} {srcs : List Src} {g : Nat → Nat → Nat → Nat} :
    Out.MemWf (s.vectorOp f srcs g) := by simp [State.vectorOp, h]

@[simp] theorem State.wf_elementwise {f : FmtA} {srcs : List Src} {sgn : Bool} {x : Int → Int → Int → Int} :
    Out.MemWf (s.elementwise f srcs sgn x) := by simp [State.elementwise, h]

@[simp] theorem State.wf_shift {f : FmtA} {g : Nat → Nat → Nat → Nat} : Out.MemWf (s.shift f g) := by simp [State.shift, h]

@[simp] theorem wf_execStash {f : FmtA} : Out.MemWf (execStash f s) := by
  refine State.wf_enter h ?_
  exact Out.memWf_ite (by simp [h]) (wf_orElse (State.wf_vecFront h) h)

@[simp] theorem State.wf_maskOp {d : BitVec 3} {v : Watch → Mask} : Out.MemWf (s.maskOp d v) := by simp [State.maskOp, h]

@[simp] theorem wf_execKset {d : BitVec 3} {a : Opnd} : Out.MemWf (execKset d a s) :=
  State.wf_enter h (by simp [h])

@[simp] theorem State.wf_floatOp {f : FmtA} {srcs : List Src} {g : FFun} :
    Out.MemWf (s.floatOp f srcs g) := by simp [State.floatOp, h]

@[simp] theorem State.wf_startUnit {u : UnitKind} {m : Mask} {t : Ty} {v : Nat → Nat} {sat : Mask} :
    Memory.wf (s.startUnit u m t v sat).mem = true := by simp [State.startUnit, h]

@[simp] theorem State.wf_sfuOp {f : FmtA} {srcs : List Src} {g : FFun} : Out.MemWf (s.sfuOp f srcs g) := by
  simp only [State.sfuOp]
  (repeat' split) <;> simp [h]

@[simp] theorem State.wf_convert {f : FmtA} {g : Nat → Converted} : Out.MemWf (s.convert f g) := by
  refine State.wf_enter h (wf_orElse (State.wf_vecFront h) ?_)
  exact Out.memWf_ite (by simp [h]) (Out.memWf_ite (by simp [h]) (State.wf_startUnit (by simp [h])))

@[simp] theorem wf_execUnitOperationComplete {w : WatchRef} {id : Nat} : Out.MemWf (execUnitOperationComplete w id s) := h

@[simp] theorem State.wf_scalarFloat {f : FmtA} {srcs : List Src} {g : FFun} : Out.MemWf (s.scalarFloat f srcs g) :=
  State.wf_enter h (by simp [h])

@[simp] theorem wf_execSfcmp {f : FmtA} : Out.MemWf (execSfcmp f s) :=
  State.wf_enter h (by simp [h])

@[simp] theorem State.wf_packedOp {f : FmtA} {srcs : List Src} {g : Watch → Nat → Narrowed} :
    Out.MemWf (s.packedOp f srcs g) := by simp [State.packedOp, h]

@[simp] theorem State.wf_dot {f : FmtA} : Out.MemWf (s.dot f) := by simp [State.dot, h]
@[simp] theorem State.wf_fdot {f : FmtA} : Out.MemWf (s.fdot f) := by simp [State.fdot, h]

@[simp] theorem State.wf_exchange {f : FmtA} {idx : List Src} {j : Watch → Nat → Nat} : Out.MemWf (s.exchange f idx j) := by
  refine State.wf_enter h (wf_orElse (State.wf_vecFront h) ?_)
  exact Out.memWf_ite (by simp [h]) (Out.memWf_ite (by simp [h]) (by simp [h]))

@[simp] theorem wf_execSlide {f : FmtA} : Out.MemWf (execSlide f s) := by
  refine State.wf_enter h (wf_orElse (State.wf_vecFront h) ?_)
  exact Out.memWf_ite (by simp [h]) (Out.memWf_ite (by simp [h]) (by simp [h]))

@[simp] theorem State.wf_redWith {α : Type} {f : FmtA} {c : Combiner α} : Out.MemWf (s.redWith f c) := by
  refine State.wf_vector h fun m => ?_
  dsimp only
  split <;> simp [h]

@[simp] theorem State.wf_scanWith {α : Type} {f : FmtA} {c : Combiner α} : Out.MemWf (s.scanWith f c) :=
  State.wf_vector h fun m => by simp [h]

@[simp] theorem wf_execRed {op : RedOp} {f : FmtA} : Out.MemWf (execRed op f s) := by
  cases op <;> exact State.wf_redWith h

@[simp] theorem wf_execScan {op : RedOp} {f : FmtA} : Out.MemWf (execScan op f s) := by
  cases op <;> exact State.wf_scanWith h

@[simp] theorem State.wf_bearing {maj : Nat} {srcs : List Src} {regs : List (BitVec 3)} {unit : Bool} {k : State → Out}
    (hk : Out.MemWf (k s)) : Out.MemWf (s.bearing maj srcs regs unit k) :=
  State.wf_enter h (wf_orElse (State.wf_uniFront h) (Out.memWf_ite (by simp [h]) hk))

@[simp] theorem wf_execBset {f : FmtA} : Out.MemWf (execBset f s) := by
  refine State.wf_enter h (Out.memWf_ite (by simp [h]) (wf_orElse (State.wf_vecFront h) ?_))
  exact Out.memWf_ite (by simp [h]) (Out.memWf_ite (by simp [h]) (by simp [h]))

@[simp] theorem wf_execBscl {f : FmtA} : Out.MemWf (execBscl f s) := by
  refine State.wf_bearing h ?_
  dsimp only
  (repeat' refine Out.memWf_ite ?_ ?_) <;> simp [h]

@[simp] theorem State.wf_mix {f : FmtA} {a b : FVal} : Out.MemWf (s.mix f a b) := by simp [State.mix, h]

@[simp] theorem State.wf_accessTrap {order : Nat} {m : Mask} {off : Nat} : Memory.wf (s.accessTrap order m off).mem = true := by
  unfold State.accessTrap
  split <;> simp [h]

@[simp] theorem State.wf_checkAll {write : Bool} {uni : Option Mask} {as : List LaneAccess} :
    Got.MemWf (s.checkAll write uni as) := by
  unfold State.checkAll
  dsimp only
  (repeat' split) <;> simp [h]

end

/-! ### Loads, stores, atomics, fences and the agents of the engines -/

section
variable {s : State} (h : Memory.wf s.mem = true)
include h

@[simp] theorem State.wf_checkMedia {ts : List (Nat × Target)} : Got.MemWf (s.checkMedia ts) := by
  unfold State.checkMedia
  split <;> simp [h]

@[simp] theorem State.wf_scopeTrap {clamped : Bool} {detail : DWord} :
    CheckWf (s.scopeTrap clamped detail) := by simp [State.scopeTrap, h]

@[simp] theorem State.wf_ordered {m : FmtM} {k : Bool → Out} (hk : ∀ c, Out.MemWf (k c)) : Out.MemWf (s.ordered m k) := by
  simp [State.ordered, h, hk]

@[simp] theorem State.wf_orderedLanes {m : FmtM} {k : Bool → Out} (hk : ∀ c, Out.MemWf (k c)) : Out.MemWf (s.orderedLanes m k) := by
  simp [State.orderedLanes, h, hk]

@[simp] theorem State.wf_meetLate {acq : Bool} {scope : Nat} {ps : List Part} : Memory.wf (s.meetLate acq scope ps).mem = true := by
  unfold State.meetLate
  split <;> simp [State.wf_enterSome, h]

@[simp] theorem State.wf_peerRecord {win off ans : Nat} :
    Memory.wf (s.peerRecord win off ans).mem = true := by simp [State.peerRecord, h]

@[simp] theorem State.wf_afterRead {t : Target} {n : Nat} {evict : BitVec 3} {salt : Nat} :
    Memory.wf (s.afterRead t n evict salt).mem = true := by
  induction t generalizing s n with
  | store ps =>
    unfold State.afterRead
    exact State.wf_foldl (fun u p hu => by rwa [State.keepCopy_mem]) _ h
  | peer win off =>
    unfold State.afterRead
    exact State.wf_peerRecord (by exact h)
  | cross a k b iha ihb =>
    unfold State.afterRead
    exact ihb (iha h)

omit h in
@[simp] theorem State.wf_writeParts : ∀ {ps : List Part} {bs : List Byte} {s : State},
    Memory.wf s.mem = true → Memory.wf (s.writeParts ps bs).mem = true
  | [], _, _, h => h
  | _ :: _, _, _, h => by
    unfold State.writeParts
    exact State.wf_writeParts (State.wf_writeThrough h)

@[simp] theorem State.wf_writeTarget {t : Target} {salt : Nat} {bs : List Byte} :
    Memory.wf (s.writeTarget t salt bs).mem = true := by
  induction t generalizing s bs with
  | store ps =>
    unfold State.writeTarget
    exact State.wf_writeParts h
  | peer win off =>
    unfold State.writeTarget
    exact State.wf_peerRecord (by exact h)
  | cross a k b iha ihb =>
    unfold State.writeTarget
    exact ihb (iha h)

@[simp] theorem State.wf_coreAccess {m : FmtM} {clamped rd wr : Bool} {ts : List (Nat × Target)} :
    Memory.wf (s.coreAccess m clamped rd wr ts).mem = true := by
  unfold State.coreAccess
  split <;> simp [h]

@[simp] theorem State.wf_loadPoison {key addr : Nat} : Memory.wf (s.loadPoison key addr).mem = true := by simp [State.loadPoison, h]

@[simp] theorem State.wf_doLoads {m : Mask} {t : Ty} {n : Nat} {evict : BitVec 3} {va : Nat → Nat} {ts : List (Nat × Target)} :
    Memory.wf (s.doLoads m t n evict va ts).mem = true := by simp +contextual [State.doLoads, h]

@[simp] theorem State.wf_loadLanes {m : FmtM} {spad : Bool} {n : Nat} {after : List (Nat × Target) → State → State}
    (ha : ∀ ts u, Memory.wf u.mem = true → Memory.wf (after ts u).mem = true) : Out.MemWf (s.loadLanes m spad n after) := by
  refine State.wf_enter h (State.wf_orderedLanes h fun c => wf_orElse (State.wf_vecFront h) ?_)
  refine Out.memWf_ite (by simp [h]) (Out.memWf_ite (by simp [h]) ?_)
  refine wf_andThen (State.wf_checkAll h) fun ts => wf_andThen (State.wf_checkMedia h) fun _ => ?_
  split
  · simp [h]
  · rw [Out.memWf_next, State.advance_mem]
    exact ha _ _ (State.wf_doLoads (State.wf_coreAccess (by simp [h])))

@[simp] theorem State.wf_doStores {evict : BitVec 3} {ts : List (Nat × Target)} {data : Nat → List Byte} :
    Memory.wf (s.doStores evict ts data).mem = true := by simp +contextual [State.doStores, h]

@[simp] theorem State.wf_storeLanes {m : FmtM} {spad : Bool} {n : Nat} : Out.MemWf (s.storeLanes m spad n) := by
  refine State.wf_enter h (State.wf_orderedLanes h fun c => wf_orElse (State.wf_vecFront h) ?_)
  refine Out.memWf_ite (by simp [h]) ?_
  refine wf_andThen (State.wf_checkAll h) fun ts => wf_andThen (State.wf_checkMedia h) fun _ => ?_
  rw [Out.memWf_next, State.advance_mem]
  exact State.wf_doStores (State.wf_coreAccess (by simp [h]))

@[simp] theorem wf_execLdu {m : FmtM} : Out.MemWf (execLdu m s) := by
  refine State.wf_enter h (State.wf_ordered h fun c => wf_orElse (State.wf_uniFront h) (Out.memWf_ite (by simp [h]) ?_))
  refine wf_andThen (State.wf_checkAll h) fun ts => wf_andThen (State.wf_checkMedia h) fun _ => ?_
  split
  · simp [h]
  · have hc : ∀ ts, Memory.wf ((s.noteClamp c).coreAccess m c true false ts).mem = true :=
      fun ts => State.wf_coreAccess (by simp [h])
    simp [hc]
  · simp [h]

@[simp] theorem wf_execStu {m : FmtM} : Out.MemWf (execStu m s) := by
  refine State.wf_enter h (State.wf_ordered h fun c => wf_orElse (State.wf_uniFront h) ?_)
  refine wf_andThen (State.wf_checkAll h) fun ts => wf_andThen (State.wf_checkMedia h) fun _ => ?_
  rw [Out.memWf_next, State.advance_mem]
  refine State.wf_foldl (fun u x hu => ?_) _ (State.wf_coreAccess (by simp [h]))
  rw [State.sampleFill_mem]
  exact State.wf_writeTarget hu

@[simp] theorem wf_execLea {m : FmtM} : Out.MemWf (execLea m s) :=
  State.wf_enter h (wf_orElse (State.wf_vecFront h) (wf_andThen (State.wf_checkAll h) fun _ => by simp [h]))

@[simp] theorem wf_execPref {m : FmtM} : Out.MemWf (execPref m s) := by
  refine State.wf_enter h ?_
  rw [Out.memWf_next, State.advance_mem]
  refine State.wf_foldl (fun u l hu => ?_) _ h
  dsimp only
  split
  · split
    · split
      · rwa [State.sampleFill_mem, State.keepCopy_mem]
      · exact hu
    · exact hu
  · exact hu

theorem State.wf_cacheOp {m : FmtM} {k : State → Nat → State}
    (hk : ∀ u a, Memory.wf u.mem = true → Memory.wf (k u a).mem = true) : Out.MemWf (s.cacheOp m k) := by
  refine State.wf_enter h (wf_orElse (State.wf_vecFront h) ?_)
  refine wf_andThen (State.wf_checkAll h) fun ts => wf_andThen (State.wf_checkMedia h) fun _ => ?_
  rw [Out.memWf_next, State.advance_mem]
  refine State.wf_foldl (fun u t hu => ?_) _ h
  split
  · exact hk _ _ hu
  · exact hu

@[simp] theorem wf_execCwb {m : FmtM} : Out.MemWf (execCwb m s) := State.wf_cacheOp h fun _ _ hu => hu

@[simp] theorem wf_execCinv {m : FmtM} : Out.MemWf (execCinv m s) := by
  unfold execCinv
  exact State.wf_cacheOp h fun _ _ hu => by rwa [State.dropCopies_mem]

@[simp] theorem State.wf_loadRecord {r : BitVec 3} {m : FmtM} {x : RecordPart} : Out.MemWf (s.loadRecord r m x) := by
  unfold State.loadRecord
  split
  · simp [h]
  · extract_lets bytes u
    have hu : Memory.wf u.mem = true := State.wf_foldl (fun v t hv => by simp [hv]) _ h
    split
    · simp [hu]
    · split
      · simp [h]
      · simp [hu]

@[simp] theorem State.wf_storeRecord {m : FmtM} {x : RecordPart} : Out.MemWf (s.storeRecord m x) := by
  unfold State.storeRecord
  (repeat' split) <;> simp +contextual [h]

theorem State.wf_bearRecord {r : BitVec 3} {m : FmtM} {write : Bool} {k : RecordPart → State → Out}
    (hk : ∀ x u, Memory.wf u.mem = true → Out.MemWf (k x u)) : Out.MemWf (s.bearRecord r m write k) := by
  refine State.wf_enter h ?_
  dsimp only
  split
  · exact hk _ _ h
  refine State.wf_ordered h fun c => wf_orElse (State.wf_uniFront h) (Out.memWf_ite (by simp [h]) ?_)
  refine wf_andThen (State.wf_checkAll h) fun ts => wf_andThen (State.wf_checkMedia h) fun _ => ?_
  exact hk _ _ (State.wf_coreAccess (by simp [h]))

@[simp] theorem wf_execBld {r : BitVec 3} {m : FmtM} : Out.MemWf (execBld r m s) :=
  State.wf_bearRecord h fun _ _ hu => State.wf_loadRecord hu

@[simp] theorem wf_execBst {r : BitVec 3} {m : FmtM} : Out.MemWf (execBst r m s) :=
  State.wf_bearRecord h fun _ _ hu => State.wf_storeRecord hu

@[simp] theorem State.wf_arrive {w : WatchRef} {id : Nat} : Memory.wf (s.arrive w id).mem = true := by simp [State.arrive, h]

@[simp] theorem State.wf_atomicAt {l n : Nat} {t : Target} {op : BitVec 4} {out : List Byte} {g : Nat → Option Nat} :
    Memory.wf (s.atomicAt l n t op out g).1.mem = true := by
  unfold State.atomicAt
  dsimp only
  split
  · split <;> simp [h]
  · simp [h]
  · split <;> simp [h]

omit h in
@[simp] theorem State.wf_atomicAll {n : Nat} {op : BitVec 4} {out : Nat → List Byte} {g : Nat → Nat → Option Nat} :
    ∀ {ts : List (Nat × Target)} {s : State}, Memory.wf s.mem = true → Memory.wf (s.atomicAll n op out g ts).1.mem = true
  | [], _, h => h
  | (_, _) :: _, _, h => by
    unfold State.atomicAll
    exact State.wf_atomicAll (State.wf_atomicAt h)

theorem State.wf_atomic {m : FmtM} {x : AtomicShape} {k : List (Nat × Target) → State → Out}
    (hk : ∀ ts u, Memory.wf u.mem = true → Out.MemWf (k ts u)) : Out.MemWf (s.atomic m x k) := by
  refine State.wf_enter h (State.wf_orderedLanes h fun c => wf_orElse (State.wf_vecFront h) ?_)
  refine Out.memWf_ite (by simp [h]) (Out.memWf_ite (by simp [h]) ?_)
  refine wf_andThen (State.wf_checkAll h) fun ts => wf_andThen (State.wf_checkMedia h) fun _ => ?_
  generalize (if x.reads then s.poisonIn ts else none) = p
  cases p with
  | some p => simp [h]
  | none => exact hk _ _ (State.wf_coreAccess (by simp [h]))

@[simp] theorem State.wf_atom {m : FmtM} {op : BitVec 4} {host : Bool} {g : Nat → Nat → Nat → Nat} :
    Out.MemWf (s.atom m op host g) := by
  unfold State.atom
  exact State.wf_atomic h fun _ _ hu => by simp [hu]

@[simp] theorem wf_execAcas {m : FmtM} : Out.MemWf (execAcas m s) := by
  unfold execAcas
  exact State.wf_atomic h fun _ _ hu => by simp [hu]

@[simp] theorem wf_execAfadd {m : FmtM} : Out.MemWf (execAfadd m s) := by
  unfold execAfadd
  exact State.wf_atomic h fun _ _ hu => by simp [hu]

@[simp] theorem wf_execAxadd {m : FmtM} : Out.MemWf (execAxadd m s) := by
  unfold execAxadd
  refine State.wf_atomic h fun ts u hu => ?_
  rw [Out.memWf_next]
  split <;> simp [hu]

@[simp] theorem wf_execLres {m : FmtM} : Out.MemWf (execLres m s) := by
  unfold execLres
  exact State.wf_atomic h fun _ _ hu => by simp [hu]

omit h in
@[simp] theorem State.wf_scndAll {n : Nat} {v : Nat → Nat} :
    ∀ {ts : List (Nat × Target)} {s : State}, Memory.wf s.mem = true → Memory.wf (s.scndAll n v ts).1.mem = true
  | [], _, h => h
  | (_, _) :: _, _, h => by
    unfold State.scndAll
    refine State.wf_scndAll ?_
    split <;> simp [h]

@[simp] theorem wf_execScnd {m : FmtM} : Out.MemWf (execScnd m s) := by
  unfold execScnd
  exact State.wf_atomic h fun _ _ hu => by simp [hu]

@[simp] theorem State.wf_fenceScope {scope : BitVec 3} {detail : DWord} {k : Bool → Out} (hk : ∀ c, Out.MemWf (k c)) :
    Out.MemWf (s.fenceScope scope detail k) := by
  simp [State.fenceScope, h, hk]

@[simp] theorem State.wf_fenceAt {ord : BitVec 2} {scope : Nat} :
    Memory.wf (s.fenceAt ord scope).mem = true := by simp [State.fenceAt, State.wf_enterSome, h]

@[simp] theorem wf_execFence {ord : BitVec 2} {scope : BitVec 3} : Out.MemWf (execFence ord scope s) :=
  State.wf_enter h (State.wf_fenceScope h fun _ => by simp [h])

@[simp] theorem wf_execFencex {scope : BitVec 3} {x y : BitVec 4} : Out.MemWf (execFencex scope x y s) := by
  refine State.wf_enter h (State.wf_fenceScope h fun c => ?_)
  exact Out.memWf_ite (by simp [h]) (Out.memWf_ite (by simp [h]) (by simp [State.wf_crossPaths, h]))

@[simp] theorem State.wf_updateBar {k : Nat} {f : BarObj → BarObj} :
    Memory.wf (s.updateBar k f).mem = true := by simp [State.updateBar, State.wf_store, h]

@[simp] theorem State.wf_countBar {t : Trail} {k n : Nat} : Memory.wf (s.countBar t k n).mem = true := by
  unfold State.countBar
  split <;> simp [h]

@[simp] theorem State.wf_barFront {e : FmtE} {write reads : Bool} {k : Nat → DWord → State → Out}
    (hk : ∀ key v, Out.MemWf (k key v s)) : Out.MemWf (s.barFront e write reads k) := by
  refine State.wf_enter h (wf_orElse (State.wf_uniFront h) (wf_andThen (State.wf_checkAll h) fun ts => ?_))
  (repeat' split) <;> simp [h, hk]

@[simp] theorem wf_execBinit {e : FmtE} : Out.MemWf (execBinit e s) := by simp [execBinit, State.wf_store, h]
@[simp] theorem State.wf_barTrap {e : FmtE} : Memory.wf (s.barTrap e).mem = true := by simp [State.barTrap, h]
@[simp] theorem State.wf_phaseSeen {acq : Bool} {k : Nat} : Memory.wf (s.phaseSeen acq k).mem = true := by simp [State.phaseSeen, h]

@[simp] theorem wf_execWaitb {e : FmtE} : Out.MemWf (execWaitb e s) := by
  refine State.wf_barFront h fun k v => ?_
  exact Out.memWf_ite (by simp [h]) (Out.memWf_ite (by simp [h]) (by simp [h]))

@[simp] theorem wf_execTestb {e : FmtE} : Out.MemWf (execTestb e s) := by
  refine State.wf_barFront h fun k v => ?_
  exact Out.memWf_ite (by simp [h]) (Out.memWf_ite (by simp [h]) (by simp [h]))

@[simp] theorem State.wf_crossDone : Memory.wf s.crossDone.mem = true := by simp [State.crossDone, h]

@[simp] theorem wf_execWaitcEng {acq : Bool} {limit : BitVec 6} : Out.MemWf (execWaitcEng acq limit s) := by
  refine State.wf_enter h ?_
  (repeat' split) <;> simp [h]

@[simp] theorem State.wf_badFmt : Memory.wf s.badFmt.mem = true := by simp [State.badFmt, h]

@[simp] theorem wf_execShld {e : FmtE} : Out.MemWf (execShld e s) := by
  refine State.wf_enter h (wf_orElse (State.wf_uniFront h) ?_)
  refine wf_andThen (State.wf_checkAll h) fun ts => wf_andThen (State.wf_checkMedia h) fun _ => ?_
  split
  · simp [h]
  · refine Out.memWf_ite (by simp [h]) ?_
    rw [Out.memWf_next, State.advance_mem, State.mapCtx_mem, State.tick_mem]
    exact State.wf_foldl (fun _ _ hu => State.wf_afterRead hu) _ (State.wf_meetLate h)

@[simp] theorem wf_execShst {e : FmtE} : Out.MemWf (execShst e s) := by
  refine State.wf_enter h (wf_orElse (State.wf_uniFront h) ?_)
  refine wf_andThen (State.wf_checkAll h) fun ts => wf_andThen (State.wf_checkMedia h) fun _ => ?_
  rw [Out.memWf_next, State.advance_mem]
  exact State.wf_foldl (fun _ _ hu => State.wf_writeTarget hu) _ (by simp [h])

@[simp] theorem wf_execShset {e : FmtE} : Out.MemWf (execShset e s) :=
  State.wf_enter h (wf_orElse (State.wf_uniFront h) (Out.memWf_ite (by simp [h]) (by simp [h])))

@[simp] theorem State.wf_agentHalf {g : Agent} {k : Nat} {high : Bool} {v : Nat} :
    Memory.wf (s.agentHalf g k high v).mem = true := by simp [State.agentHalf, State.wf_halfPut, h]

@[simp] theorem State.wf_agentPut {g : Agent} {k : Nat} {bs : List Byte} : Memory.wf (s.agentPut g k bs).mem = true := by
  unfold State.agentPut
  extract_lets later s1
  have h1 : Memory.wf s1.mem = true := by simp [s1, h]
  split
  · exact State.wf_pathPut _ _ _ _ _ h1
  · refine State.wf_foldl (fun u x hu => ?_) _ h1
    (repeat' split) <;> simp [State.wf_halfPut, State.wf_pathPut, hu]

omit h in
@[simp] theorem State.wf_writeRuns {g : Agent} :
    ∀ {rs : List (Nat × Nat)} {bs : List Byte} {s : State}, Memory.wf s.mem = true → Memory.wf (s.writeRuns g rs bs).mem = true
  | [], _, _, h => h
  | _ :: _, _, _, h => by
    unfold State.writeRuns
    exact State.wf_writeRuns (State.wf_agentPut h)

@[simp] theorem State.wf_agentWrite {g : Agent} {spad : Bool} {addr : Nat} {bs : List Byte} :
    Work.MemWf (s.agentWrite g spad addr bs) := by simp [State.agentWrite, h]

@[simp] theorem State.wf_writeElem {g : Agent} {a : Shape} {i : Pos} {code : Nat} : Work.MemWf (s.writeElem g a i code) := by
  unfold State.writeElem
  (repeat' split) <;> simp [h]

@[simp] theorem State.wf_writeScale {g : Agent} {a : Shape} {i : Pos} {code : Nat} : Work.MemWf (s.writeScale g a i code) := by
  unfold State.writeScale
  split <;> simp [h]

@[simp] theorem State.wf_moveElem {g : Agent} {a b : Shape} {i j : Pos} : Work.MemWf (s.moveElem g a b i j) := by
  refine Work.memWf_bind_read _ fun x => ?_
  split
  · refine Work.memWf_bind (State.wf_writeElem h) fun t ht => ?_
    split <;> simp [ht]
  · refine Work.memWf_bind (State.wf_writeElem h) fun t ht => ?_
    rw [Work.memWf_ok]
    split <;> simp [ht]

@[simp] theorem State.wf_moveRow {c : EngCmd} {gather : Bool} {n : Nat} : Work.MemWf (s.moveRow c gather n) := by
  refine Work.memWf_bind_read _ fun x => Work.memWf_ite trivial ?_
  dsimp only
  split <;> simp [h]

@[simp] theorem State.wf_copyPart {c : EngCmd} {j : Nat} : Work.MemWf (s.copyPart c j) := by simp [State.copyPart, h]

end

/-! ### Engines, tiles, gangs and preemption -/

section
variable {s : State} (h : Memory.wf s.mem = true)
include h

@[simp] theorem State.wf_collUnit {c : EngCmd} {g : Group} {kind op : BitVec 2} {root : Nat} {pieces : List (List Byte)} {n : Nat} :
    Work.MemWf (s.collUnit c g kind op root pieces n) := by
  unfold State.collUnit
  (repeat' split) <;> simp [h]

@[simp] theorem State.wf_engUnit {c : EngCmd} {pieces : List (List Byte)} {n : Nat} : Work.MemWf (s.engUnit c pieces n) := by
  unfold State.engUnit
  (repeat' split) <;> simp [h]

omit h in
@[simp] theorem State.wf_engUnits {c : EngCmd} {pieces : List (List Byte)} :
    ∀ {count n : Nat} {s : State}, Memory.wf s.mem = true → Memory.wf (s.engUnits c pieces n count).1.mem = true
  | 0, _, _, h => h
  | count + 1, n, s, h => by
    have hu : Work.MemWf (s.engUnit c pieces n) := State.wf_engUnit h
    unfold State.engUnits
    split
    · exact h
    split
    · next t e =>
      exact State.wf_engUnits (by simpa using Work.memWf_of_eq hu e)
    all_goals exact h

@[simp] theorem State.wf_countUnits {c : EngCmd} {n n' : Nat} : Memory.wf (s.countUnits c n n').mem = true := by
  refine State.wf_foldl (fun u o hu => ?_) _ h
  split <;> simp [hu]

@[simp] theorem State.wf_dropCmd {c : EngCmd} : Memory.wf (s.dropCmd c).mem = true := by simp [State.dropCmd, h]

@[simp] theorem State.wf_engFault {c : EngCmd} {sub addr : Nat} : Memory.wf (s.engFault c sub addr).mem = true := by
  refine State.wf_dropCmd (State.wf_record (State.wf_foldl (fun u o hu => ?_) _ h))
  split <;> simp [hu]

@[simp] theorem State.wf_engStop {α : Type} {c : EngCmd} {x : Work α} : Memory.wf (s.engStop c x).mem = true := by
  unfold State.engStop
  split <;> simp [h]

@[simp] theorem State.wf_putStatus {c : EngCmd} {v : Nat} : Work.MemWf (s.putStatus c v) := by
  unfold State.putStatus
  split <;> simp [h]

@[simp] theorem State.wf_noteDone {c : EngCmd} {n : Nat} : Memory.wf (s.noteDone c n).mem = true := by simp [State.noteDone, h]

@[simp] theorem State.wf_endColl {c : EngCmd} {v : Nat} : Memory.wf (s.endColl c v).mem = true := by
  unfold State.endColl
  split
  · next t e =>
    have ht : Memory.wf t.mem = true := Work.memWf_of_eq (State.wf_putStatus h) e
    simp [ht]
  · simp [h]

@[simp] theorem State.wf_deliverUnits {c : EngCmd} {count : Nat} {pieces : List (List Byte)} :
    Memory.wf (s.deliverUnits c count pieces).mem = true := by
  unfold State.deliverUnits
  extract_lets r
  have hr : Memory.wf r.1.mem = true := State.wf_engUnits h
  have hx : Work.MemWf (if c.total ≤ r.2.1 then r.1.putStatus c 0 else .ok r.1) :=
    Work.memWf_ite (State.wf_putStatus hr) hr
  split
  · next t e =>
    have ht : Memory.wf t.mem = true := Work.memWf_of_eq hx e
    simp [ht]
  · simp [hr]

@[simp] theorem State.wf_putSeq {c : EngCmd} : Work.MemWf (s.putSeq c) := by
  unfold State.putSeq
  split <;> simp [h]

@[simp] theorem State.wf_stepSeq {c : EngCmd} : Memory.wf (s.stepSeq c).mem = true := by
  unfold State.stepSeq
  split
  · next t e =>
    rw [State.modCmd_mem]
    exact Work.memWf_of_eq (State.wf_putSeq h) e
  · simp [h]

omit h in
@[simp] theorem State.readFirst_mem : ∀ (count : Nat) (s : State) (c : EngCmd), (s.readFirst c count).1.mem = s.mem
  | 0, _, _ => rfl
  | count + 1, s, c => by
    unfold State.readFirst
    split
    · rfl
    · split
      · rw [State.readFirst_mem count]; simp
      all_goals rfl

@[simp] theorem State.wf_sendFirst {c : EngCmd} {count : Nat} : Memory.wf (s.sendFirst c count).mem = true := by
  unfold State.sendFirst
  split
  · simp [h]
  · extract_lets r d t
    have ht : Memory.wf t.mem = true := by simp [t, r, h]
    split
    · split <;> simp [ht]
    · simp [ht]

@[simp] theorem State.wf_deliver {id count : Nat} {pieces : List (List Byte)} :
    Memory.wf (s.deliver id count pieces).mem = true := by
  unfold State.deliver
  (repeat' split) <;> simp [h]

@[simp] theorem State.wf_completeCmd {id : Nat} : Memory.wf (s.completeCmd id).mem = true := by
  unfold State.completeCmd
  split <;> simp [h]

@[simp] theorem State.wf_freeTile {c : EngCmd} {n : Nat} : Memory.wf (s.freeTile c n).mem = true := by
  induction n with
  | zero => exact h
  | succ n ih =>
    unfold State.freeTile
    dsimp only
    split
    · next t e => exact Work.memWf_of_eq (State.wf_writeElem (by exact ih)) e
    · exact ih

@[simp] theorem wf_execCollAbort {id : Nat} {mismatch : Bool} : Out.MemWf (execCollAbort id mismatch s) := by
  unfold execCollAbort
  (repeat' split) <;> simp [h]

@[simp] theorem State.wf_shapeTrap {code : Nat} {reg : Option (BitVec 4)} :
    Memory.wf (s.shapeTrap code reg).mem = true := by simp [State.shapeTrap, h]

@[simp] theorem State.wf_shapeFault {r : BitVec 4} {a : Shape} {mustSpad : Bool} : CheckWf (s.shapeFault r a mustSpad) := by
  unfold State.shapeFault
  dsimp only
  (repeat' split) <;> simp [h]

omit h in
@[simp] theorem checkWf_firstFault {l : List (Option State)} (hl : ∀ c ∈ l, CheckWf c) : CheckWf (firstFault l) := by
  induction l with
  | nil => exact trivial
  | cons c l ih =>
    cases c with
    | some t => exact hl (some t) (by simp)
    | none => exact ih fun c hc => hl c (by simp [hc])

@[simp] theorem State.wf_objFault {objs : List Nat} : CheckWf (s.objFault objs) := by
  refine checkWf_firstFault fun c hc => ?_
  obtain ⟨o, _, rfl⟩ := List.mem_map.1 hc
  split
  · exact trivial
  · next t e => exact Got.memWf_of_eq (State.wf_checkAll h) e

@[simp] theorem State.wf_engFront {g : Option Nat} {maj : Nat} {srcs : List Src} {k : State → Out} (hk : Out.MemWf (k s)) :
    Out.MemWf (s.engFront g maj srcs k) :=
  State.wf_enter h (Out.memWf_ite (by simp [h]) (wf_orElse (State.wf_uniFront h) hk))

theorem State.wf_queueCmd {e : FmtE} {kind : EngKind} {place path obj bytes total : Nat} {group : Option Group}
    {message : Option (Nat × Nat × Nat)} {f : EngCmd → State → State}
    (hf : ∀ c u, Memory.wf u.mem = true → Memory.wf (f c u).mem = true) :
    Out.MemWf (s.queueCmd e kind place path obj bytes total group message f) := by
  unfold State.queueCmd
  extract_lets w c s1
  have h1 : Memory.wf s1.mem = true := by simp only [s1]; split <;> simp [State.wf_crossPaths, h]
  split
  · simp [h]
  · rw [Out.memWf_next, State.advance_mem]
    exact hf _ _ h1

@[simp] theorem State.wf_pairFault {e : FmtE} {a b : Shape} {boxesDiffer : Bool} : CheckWf (s.pairFault e a b boxesDiffer) := by
  unfold State.pairFault
  split <;> simp [h]

@[simp] theorem wf_execCpy {e : FmtE} : Out.MemWf (execCpy e s) :=
  State.wf_engFront h (wf_orElse (checkWf_firstFault (by simp [h])) (State.wf_queueCmd h fun _ _ hu => hu))

@[simp] theorem State.wf_cpysFault {r : BitVec 4} {a : Shape} {n : Nat} : CheckWf (s.cpysFault r a n) := by
  unfold State.cpysFault
  dsimp only
  (repeat' split) <;> simp [h]

@[simp] theorem wf_execCpys {e : FmtE} : Out.MemWf (execCpys e s) := by
  refine State.wf_engFront h (wf_orElse (checkWf_firstFault ?_) (State.wf_queueCmd h fun _ _ hu => hu))
  simp only [List.forall_mem_cons]
  refine ⟨State.wf_objFault h, State.wf_cpysFault h, State.wf_cpysFault h, ?_, by simp⟩
  (repeat' refine checkWf_ite ?_ ?_) <;> simp [h]

@[simp] theorem wf_execCpyp {e : FmtE} : Out.MemWf (execCpyp e s) :=
  State.wf_engFront h (wf_orElse (checkWf_firstFault (by simp [h])) (State.wf_queueCmd h fun _ _ hu => hu))

@[simp] theorem State.wf_rowsCmd {e : FmtE} {gather : Bool} {maj : Nat} : Out.MemWf (s.rowsCmd e gather maj) :=
  State.wf_engFront h (wf_orElse (checkWf_firstFault (by simp [h])) (State.wf_queueCmd h fun _ _ hu => hu))

@[simp] theorem State.wf_collFault {e : FmtE} {kind : BitVec 2} {op : Nat} : CheckWf (s.collFault e kind op) := by
  simp only [State.collFault]
  (repeat' split) <;> simp [h]

@[simp] theorem State.wf_collCount {e : FmtE} {m : Nat} : CheckWf (s.collCount e m) := by simp [State.collCount, h]

@[simp] theorem State.wf_collCmd {e : FmtE} {kind : BitVec 2} : Out.MemWf (s.collCmd e kind) := by
  refine State.wf_engFront h (wf_orElse (checkWf_firstFault ?_) ?_)
  · simp only [List.forall_mem_cons]
    exact ⟨State.wf_objFault h, State.wf_shapeFault h, State.wf_shapeFault h, State.wf_collFault h,
      checkWf_ite trivial (State.wf_collCount h), by simp⟩
  refine Out.memWf_ite (by simp [h]) ?_
  split
  · exact State.wf_holdPage h
  · rw [Out.memWf_next]
    split <;> simp [h]
  · exact checkWf_getD (checkWf_bind fun _ => State.wf_collCount h) (State.wf_shapeTrap h)
  · exact State.wf_queueCmd h fun c u hu => State.wf_stepSeq hu

@[simp] theorem State.wf_dropMat {c : MatCmd} : Memory.wf (s.dropMat c).mem = true := by simp [State.dropMat, h]

@[simp] theorem State.wf_countMat {c : MatCmd} {n : Nat} : Memory.wf (s.countMat c n).mem = true := by
  unfold State.countMat
  split <;> simp [h]

@[simp] theorem State.wf_matStop {c : MatCmd} {x : Work Unit} : Memory.wf (s.matStop c x).mem = true := by
  unfold State.matStop
  split
  · exact h
  · simp [h]
  · refine State.wf_dropMat (State.wf_record ?_)
    split <;> simp [h]
  · simp [h]
  · simp [h]

@[simp] theorem State.wf_runPass {c : MatCmd} : Work.MemWf (s.runPass c) := by
  unfold State.runPass
  refine Work.memWf_ite trivial ?_
  extract_lets g arrays nl leader cl cr run running
  refine Work.memWf_bind_of fun u hu => Work.memWf_bind_of fun v hv => ?_
  have e1 : u.1.mem = s.mem := by
    simp only [leader] at hu
    split at hu <;> exact State.addPass_mem hu
  have e2 : v.1.mem = s.mem := by
    split at hv
    · rw [State.addPass_mem hv, e1]
    · cases hv
      exact e1
  extract_lets made t1 t2 t3
  have h3 : t3.mem = s.mem := by simp [t3, t2, t1, e2]
  rwa [Work.memWf_ok, State.modMat_mem, h3]

omit h in
@[simp] theorem State.wf_grantFuel : ∀ {n : Nat} {s : State} {array : Nat}, Memory.wf s.mem = true →
    Memory.wf (State.grantFuel n s array).mem = true
  | 0, _, _, h => h
  | n + 1, s, array, h => by
    unfold State.grantFuel
    split
    · exact h
    split
    · next t e => exact Work.memWf_of_eq (t := t) (State.wf_runPass h) e
    · exact State.wf_grantFuel (State.wf_matStop h)
    all_goals exact State.wf_matStop h

@[simp] theorem State.wf_passGrant {array : Nat} : Memory.wf (s.passGrant array).mem = true := by
  unfold State.passGrant
  dsimp only
  split
  · exact h
  · exact State.wf_grantFuel (by exact h)

@[simp] theorem wf_execPairedHold {id : Nat} : Out.MemWf (execPairedHold id s) := h

@[simp] theorem State.wf_passEnd {array : Nat} : Memory.wf (s.passEnd array).mem = true := by
  unfold State.passEnd
  split
  · exact h
  · extract_lets cycles c s1
    have h1 : Memory.wf s1.mem = true := by simp [s1, h]
    (repeat' split) <;> simp [h1]

@[simp] theorem State.wf_accrdUnit {c : MatCmd} {n : Nat} : Work.MemWf (s.accrdUnit c n) := by
  unfold State.accrdUnit
  split <;> simp [h]

@[simp] theorem State.wf_accrdwUnit {c : MatCmd} {n : Nat} : Work.MemWf (s.accrdwUnit c n) := by
  unfold State.accrdwUnit
  extract_lets l per row first pos vs y
  refine Work.memWf_ite (Work.memWf_bind ?_ fun t ht => State.wf_writeScale ht) h
  refine List.foldlRecOn (motive := Work.MemWf) _ _ h fun r hr x _ => ?_
  refine Work.memWf_bind hr fun t ht => Work.memWf_bind (State.wf_writeElem ht) fun u hu => ?_
  rw [Work.memWf_ok]
  split <;> simp [hu]

@[simp] theorem State.wf_accaddUnit {c : MatCmd} {n : Nat} : Work.MemWf (s.accaddUnit c n) :=
  Work.memWf_bind_read _ fun _ => Work.memWf_ite (by rwa [Work.memWf_ok, State.setAnchored_mem])
    (by rwa [Work.memWf_ok, State.addTerms_mem])

@[simp] theorem State.wf_accstatUnit {c : MatCmd} {n : Nat} : Work.MemWf (s.accstatUnit c n) := by simp [State.accstatUnit, h]

@[simp] theorem State.wf_portUnit {c : MatCmd} {n : Nat} : Work.MemWf (s.portUnit c n) := by
  unfold State.portUnit
  (repeat' split) <;> simp [h]

omit h in
@[simp] theorem State.wf_portUnits {c : MatCmd} :
    ∀ {count n : Nat} {s : State}, Memory.wf s.mem = true → Memory.wf (s.portUnits c n count).1.mem = true
  | 0, _, _, h => h
  | count + 1, n, s, h => by
    have hu : Work.MemWf (s.portUnit c n) := State.wf_portUnit h
    unfold State.portUnits
    split
    · exact h
    split
    · next t e => exact State.wf_portUnits (by simpa using Work.memWf_of_eq hu e)
    all_goals exact h

@[simp] theorem State.wf_portDeliver {id count : Nat} : Memory.wf (s.portDeliver id count).mem = true := by
  unfold State.portDeliver
  split
  · exact h
  split
  · exact h
  · extract_lets r u v
    have hv : Memory.wf v.mem = true := by simp only [v, u, r]; split <;> simp [h]
    simp [hv]

@[simp] theorem State.wf_completeMat {id : Nat} : Memory.wf (s.completeMat id).mem = true := by
  unfold State.completeMat
  split <;> simp [h]

@[simp] theorem State.wf_matFront {g : Option Nat} {maj : Nat} {srcs : List Src} {k : State → Out} (hk : Out.MemWf (k s)) :
    Out.MemWf (s.matFront g maj srcs k) :=
  State.wf_enter h (Out.memWf_ite (by simp [h]) (Out.memWf_ite (by simp [h]) (wf_orElse (State.wf_uniFront h) hk)))

@[simp] theorem State.wf_rowFault {row n : Nat} {pair : Bool} : CheckWf (s.rowFault row n pair) := by
  unfold State.rowFault
  split <;> simp [h]

@[simp] theorem State.wf_queueMat {e : FmtE} {op : MatOp} {maj row col rows addr obj bytes total : Nat} {pair clear : Bool} :
    Out.MemWf (s.queueMat e op maj row col rows addr obj bytes total pair clear) := by
  unfold State.queueMat
  refine Out.memWf_ite (by simp [h]) ?_
  extract_lets product c s1
  have h1 : Memory.wf s1.mem = true := by simp [s1, h]
  simp [h1]

@[simp] theorem State.wf_productFault {e : FmtE} {a b : Shape} {sparse paired : Bool} {row col : Nat} :
    CheckWf (s.productFault e a b sparse paired row col) := by
  simp only [State.productFault]
  (repeat' split) <;> simp [h]

@[simp] theorem State.wf_sectorFault {a : Shape} {t0 t1 : Nat} : CheckWf (s.sectorFault a t0 t1) := by
  unfold State.sectorFault
  dsimp only
  split
  · split <;> simp [h]
  all_goals simp [h]

@[simp] theorem State.wf_headerFault {a : Shape} : CheckWf (s.headerFault a) :=
  checkWf_findSome (fun _ => State.wf_sectorFault h) _

@[simp] theorem State.wf_product {e : FmtE} {group maj : Nat} {sparse paired : Bool} :
    Out.MemWf (s.product e group maj sparse paired) :=
  State.wf_matFront h (wf_orElse (checkWf_firstFault (by simp [h])) (State.wf_queueMat h))

@[simp] theorem wf_execAccinit {e : FmtE} : Out.MemWf (execAccinit e s) :=
  State.wf_matFront h (wf_orElse (State.wf_rowFault h) (State.wf_queueMat h))

@[simp] theorem wf_execAnchor {e : FmtE} : Out.MemWf (execAnchor e s) :=
  State.wf_enter h (Out.memWf_ite (by simp [h]) (Out.memWf_ite (by simp [h]) (by simp [h])))

@[simp] theorem State.wf_tileFault {e : FmtE} {a : Shape} {col row : Nat} : CheckWf (s.tileFault e a col row) := by
  simp [State.tileFault, h]

@[simp] theorem State.wf_tileCmd {e : FmtE} {group : Option Nat} {maj : Nat} {op : MatOp} {clear : Bool}
    {format units : Shape → Nat} : Out.MemWf (s.tileCmd e group maj op clear format units) :=
  State.wf_matFront h (wf_orElse (checkWf_firstFault (by simp [h])) (State.wf_queueMat h))

@[simp] theorem wf_execAccstat {e : FmtE} : Out.MemWf (execAccstat e s) := by
  refine State.wf_matFront h (wf_orElse (checkWf_firstFault ?_) (State.wf_queueMat h))
  simp only [List.forall_mem_cons]
  refine ⟨State.wf_objFault h, State.wf_rowFault h, checkWf_findSome (fun o => ?_) _, by simp⟩
  split
  · exact trivial
  · next t e => exact Got.memWf_of_eq (State.wf_checkAll h) e

@[simp] theorem State.wf_clearPlaces {r : LaunchRec} {ps : List BlockPlace} :
    Memory.wf (s.clearPlaces r ps).mem = true := by simp +contextual [State.clearPlaces, State.wf_clearBytes, h]

@[simp] theorem State.wf_startGang {c : Cand} {os : List (Nat × Offer)} : Memory.wf (s.startGang c os).mem = true := by
  unfold State.startGang
  extract_lets l ps core g bad s1 s2 u
  have hu : Memory.wf u.mem = true :=
    State.wf_foldl (fun v x hv => by rwa [State.startBlock_mem]) _ (by exact State.wf_clearPlaces h)
  obtain _ | ⟨va, k, _ | _⟩ := bad <;> simp [hu]

@[simp] theorem State.wf_resumeGang {c : Cand} {g : Gang} {os : List (Nat × Offer)} :
    Memory.wf (s.resumeGang c g os).mem = true := by
  unfold State.resumeGang
  extract_lets l ps x ws g1 g2 s0 s1 s2 s3 s4 mine s5
  have h1 : Memory.wf s1.mem = true := by simp only [s1, s0]; split <;> simp [h]
  have h3 : Memory.wf s3.mem = true := State.wf_moveBlocks (State.wf_clearPlaces h1)
  exact State.wf_pollJoin (State.wf_foldl (fun u x hu => by rwa [State.restoreBlock_mem]) _ (by exact h3))

@[simp] theorem State.wf_placeCand {die : Nat} {c : Cand} {os : List (Nat × Offer)} :
    Memory.wf (s.placeCand die c os).mem = true := by
  unfold State.placeCand
  split <;> simp [h]

@[simp] theorem State.wf_placeOrHold {core : Nat} {c : Cand} {os : List (Nat × Offer)} :
    Memory.wf (s.placeOrHold core c os).mem = true := by
  unfold State.placeOrHold
  split <;> simp [h]

@[simp] theorem State.wf_gangPlace {cores : List Nat} : Memory.wf (s.gangPlace cores).mem = true := by
  simp only [State.gangPlace]
  (repeat' split) <;> simp [h]

@[simp] theorem State.wf_loseGangs {die : Nat} {l : Launch} : Memory.wf (s.loseGangs die l).mem = true := by
  unfold State.loseGangs
  extract_lets x top again s1 s2
  have h2 : Memory.wf s2.mem = true := State.wf_foldl (fun _ _ hu => State.wf_killGang hu) _ h
  (repeat' split) <;> simp [h2]

@[simp] theorem State.wf_dieLoss {die : Nat} : Memory.wf (s.dieLoss die).mem = true := by
  unfold State.dieLoss
  split
  · exact h
  · extract_lets s1 s2 s3
    have h3 : Memory.wf s3.mem = true :=
      -- over outcomes, so that the kernel does not evaluate the counter file
      List.foldlRecOn (motive := fun u => Out.MemWf (.next u)) _ _ h fun _ hu _ _ =>
        (Out.memWf_next _).2 (State.wf_touchCounter hu)
    exact State.wf_foldl (fun _ _ hu => State.wf_loseGangs hu) _ h3

@[simp] theorem State.wf_pollCore {core : Nat} : Memory.wf (s.pollCore core).mem = true := by simp +contextual [State.pollCore, h]

@[simp] theorem State.wf_softRequest {core dom : Nat} : Memory.wf (s.softRequest core dom).mem = true := by
  unfold State.softRequest
  split <;> simp [h]

@[simp] theorem State.wf_withdraw {core dom : Nat} : Memory.wf (s.withdraw core dom).mem = true := by
  unfold State.withdraw
  split <;> simp [h]

@[simp] theorem wf_execGraceExpiry {core : Nat} : Out.MemWf (execGraceExpiry core s) := by
  unfold execGraceExpiry
  split <;> simp [h]

@[simp] theorem State.wf_killOn {core dom : Nat} : Memory.wf (s.killOn core dom).mem = true :=
  State.wf_foldl (fun _ _ hu => State.wf_killGang (State.wf_record hu)) _ h

@[simp] theorem wf_execKillTimerExpiry {core : Nat} : Out.MemWf (execKillTimerExpiry core s) := by
  unfold execKillTimerExpiry
  split <;> simp [h]

@[simp] theorem wf_execResponseWindowExpiry {core dom : Nat} : Out.MemWf (execResponseWindowExpiry core dom s) := h

@[simp] theorem wf_execResponseTimeout {w : WatchRef} {id : Nat} : Out.MemWf (execResponseTimeout w id s) := by
  unfold execResponseTimeout
  (repeat' split) <;> simp [h]

@[simp] theorem State.wf_saveOn {core : Nat} {window : Bool} {p : Gang → Launch → Bool} :
    Memory.wf (s.saveOn core window p).mem = true := by
  refine State.wf_foldl (fun u g hu => ?_) _ h
  split <;> simp [hu]

@[simp] theorem State.wf_pollHalt {p : Preempt} : Memory.wf (s.pollHalt p).mem = true := by simp [State.pollHalt, h]

@[simp] theorem wf_execSliceEnd {core overrun : Nat} : Out.MemWf (execSliceEnd core overrun s) := by
  simp only [execSliceEnd]
  (repeat' split) <;> simp [h]

@[simp] theorem State.wf_pollRecall {x : Nat × Bool} : Memory.wf (s.pollRecall x).mem = true := by simp [State.pollRecall, h]
@[simp] theorem State.wf_revokeLeeway {core : Nat} : Memory.wf (s.revokeLeeway core).mem = true := by simp [State.revokeLeeway, h]

@[simp] theorem State.wf_pollReclaim {x : Reclaim} : Memory.wf (s.pollReclaim x).mem = true := by
  simp only [State.pollReclaim]
  (repeat' split) <;> simp [h]

@[simp] theorem wf_execLendReclaim {core : Nat} : Out.MemWf (execLendReclaim core s) := by
  unfold execLendReclaim
  split
  · exact h
  · exact State.wf_pollReclaim (State.wf_foldl (fun _ _ hu => State.wf_revokeLeeway hu) _ (by exact h))

@[simp] theorem State.wf_writeLend {core : Nat} {slots : Bool} {v : DWord} :
    Memory.wf (s.writeLend core slots v).mem = true := by simp [State.writeLend, h]

@[simp] theorem wf_execSightDrain {die : Nat} : Out.MemWf (execSightDrain die s) := by
  unfold execSightDrain
  (repeat' split) <;> simp [h]

@[simp] theorem State.wf_pollSight {die : Nat} : Memory.wf (s.pollSight die).mem = true := by
  unfold State.pollSight
  (repeat' split) <;> simp [h]

@[simp] theorem State.wf_pollVouched : Memory.wf s.pollVouched.mem = true := by simp +contextual [State.pollVouched, h]

@[simp] theorem State.wf_sightFail {die core : Nat} : Memory.wf (s.sightFail die core).mem = true := by
  unfold State.sightFail
  refine State.wf_foldl (fun u l hu => State.wf_foldl (fun v i hv => ?_) _ hu) _ (by exact h)
  split <;> simp [hv]

end

/-! ### Cycles, pages, resets, packets, the outside and registers -/

section
variable {s : State} (h : Memory.wf s.mem = true)
include h

@[simp] theorem State.wf_noteSuspect {core reason id : Nat} : Memory.wf (s.noteSuspect core reason id).mem = true := by
  unfold State.noteSuspect
  split <;> simp [h]

@[simp] theorem wf_execSightPassEnd {die : Nat} {passed : Bool} : Out.MemWf (execSightPassEnd die passed s) := by
  unfold execSightPassEnd
  (repeat' split) <;> simp +contextual [h]

@[simp] theorem State.wf_poll : Memory.wf s.poll.mem = true := by
  unfold State.poll
  extract_lets s1 s2 s3 s4
  have h1 : Memory.wf s1.mem = true := State.wf_foldl (fun _ _ hu => State.wf_pollHalt hu) _ h
  have h2 : Memory.wf s2.mem = true := State.wf_foldl (fun _ _ hu => State.wf_pollRecall hu) _ h1
  have h3 : Memory.wf s3.mem = true := State.wf_foldl (fun _ _ hu => State.wf_pollReclaim hu) _ h2
  have h4 : Memory.wf s4.mem = true := State.wf_foldl (fun _ _ hu => State.wf_pollSight hu) _ h3
  rw [State.pollSwapped_mem, State.fillFrames_mem, State.readmit_mem, State.withdrawReqs_mem, State.pollClock_mem]
  exact State.wf_pollVouched (by rwa [State.foldl_mem State.pollSlice_mem])

@[simp] theorem State.wf_startLaunches : Memory.wf s.startLaunches.mem = true := by
  refine State.wf_foldl (fun u l hu => ?_) _ h
  dsimp only
  split <;> simp [hu]

@[simp] theorem State.wf_countCycles {d : Nat} : Memory.wf (s.countCycles d).mem = true := by
  unfold State.countCycles
  exact State.wf_foldl (fun _ _ hu => State.wf_countEvent hu) _ (State.wf_foldl (fun _ _ hu => State.wf_countEvent hu) _ h)

@[simp] theorem State.wf_begin : Memory.wf s.begin.mem = true := by
  unfold State.begin
  exact State.wf_poll (State.wf_startLaunches (State.wf_countCycles (by exact h)))

@[simp] theorem wf_execPageTableWalk {tu dom vpage : Nat} {replaced : Option (Nat × Nat)} :
    Out.MemWf (execPageTableWalk tu dom vpage replaced s) := by
  unfold execPageTableWalk
  refine Out.memWf_ite h ?_
  dsimp only
  split
  · refine Out.memWf_ite (by simp [h]) ?_
    rwa [Out.memWf_next, State.foldl_mem (fun _ _ => State.fillTlb_mem _ _ _), State.keepReads_mem]
  · simp [h]

@[simp] theorem wf_execInvalidationComplete {dom : Nat} :
    Out.MemWf (execInvalidationComplete dom s) := by simp [execInvalidationComplete, State.wf_enterAll, h]

@[simp] theorem State.wf_answerWaiter {dom vpage : Nat} {decline : Bool} {w : Waiter} :
    Memory.wf (s.answerWaiter dom vpage decline w).mem = true := by
  unfold State.answerWaiter
  (repeat' split) <;> simp [h]

@[simp] theorem State.wf_prqAnswer {dom tag : Nat} {decline : Bool} : Memory.wf (s.prqAnswer dom tag decline).mem = true := by
  unfold State.prqAnswer
  (repeat' split) <;> simp +contextual [h]

@[simp] theorem State.wf_idtUnmap {page : Nat} : Memory.wf (s.idtUnmap page).mem = true := by simp [State.idtUnmap, h]

@[simp] theorem wf_execTrackingPeriodEnd {die : Nat} {presented : List (Nat × Nat)} :
    Out.MemWf (execTrackingPeriodEnd die presented s) := by
  unfold execTrackingPeriodEnd
  refine Out.memWf_ite h ?_
  rwa [Out.memWf_next, State.foldl_mem fun u x => State.promote_mem u _ _, State.foldl_mem fun u x => State.present_mem u _ _ _]

@[simp] theorem wf_execPageMove {page : Nat} {outer : Bool} {frame : Nat} : Out.MemWf (execPageMove page outer frame s) := by
  simp only [execPageMove]
  (repeat' split) <;> simp [h]

@[simp] theorem wf_execZpBackgroundClear {page : Nat} :
    Out.MemWf (execZpBackgroundClear page s) := by simp [execZpBackgroundClear, Memory.wf_clear, h]

@[simp] theorem State.wf_fetchSector {slot src sector : Nat} : Memory.wf (s.fetchSector slot src sector).mem = true := by
  unfold State.fetchSector
  split <;> simp [Memory.wf_putAll, h]

@[simp] theorem State.wf_fetchPage {slot page : Nat} : Memory.wf (s.fetchPage slot page).mem = true := by
  unfold State.fetchPage
  (repeat' split) <;> simp +contextual [h]

@[simp] theorem State.wf_keyLoad {slot : Nat} : Memory.wf (s.keyLoad slot).mem = true := by
  unfold State.keyLoad
  extract_lets s1 s2 s3
  split
  · rw [State.foldl_mem (fun u i => State.setReg_mem u _ _)]
    exact State.wf_foldl (fun _ _ hu => State.wf_fetchPage hu) _ (by exact h)
  · exact h

@[simp] theorem State.wf_keyRetire {slot : Nat} : Memory.wf (s.keyRetire slot).mem = true := by
  unfold State.keyRetire
  split <;> simp [State.wf_scramble, h]

@[simp] theorem wf_execPowerInterval : Out.MemWf (execPowerInterval s) := h

@[simp] theorem State.wf_resetLaunch {l : Launch} : Memory.wf (s.resetLaunch l).mem = true :=
  State.wf_settleLaunch (State.wf_foldl (fun _ _ hu => State.wf_killGangFuel hu) _ h)

@[simp] theorem State.wf_resetSignal {launch dom va : Nat} {both : Bool} :
    Memory.wf (s.resetSignal launch dom va both).mem = true := by simp [State.resetSignal, h]

@[simp] theorem State.wf_resetPacket {dom : Nat} {bs : List Byte} :
    Memory.wf (s.resetPacket dom bs).mem = true := by simp [State.resetPacket, h]

@[simp] theorem State.wf_freeCounts {l : Launch} : Memory.wf (s.freeCounts l).mem = true := by
  unfold State.freeCounts
  (repeat' split) <;> simp +contextual [State.wf_vwrite, h]

@[simp] theorem State.wf_resetDomain {dom : Nat} : Memory.wf (s.resetDomain dom).mem = true := by
  unfold State.resetDomain
  split
  · exact h
  extract_lets open1 done waiting commands mine cores packets s0 s1 s2 s3 s4 s5 s6 s7 s8 s9 s10 s11 s12 s13 s14 lo hi s15 s16 s17
  have h0 : Memory.wf s0.mem = true := State.wf_foldl (fun _ _ hu => State.wf_freeCounts hu) _ h
  have h2 : Memory.wf s2.mem = true :=
    State.wf_foldl (fun _ _ hu => by rw [State.joinFall_mem]; exact State.wf_failNode hu) _ (by exact h0)
  have h4 : Memory.wf s4.mem = true := State.wf_foldl (fun _ _ hu => State.wf_resetLaunch hu) _ (by exact h2)
  have h6 : Memory.wf s6.mem = true := State.wf_foldl (fun _ _ hu => by rwa [State.sendAborts_mem]) _
    (State.wf_foldl (fun _ _ hu => by exact hu) _ h4)
  have h10 : Memory.wf s10.mem = true := State.wf_foldl (fun _ _ hu => State.wf_resetSignal hu) _ (by exact h6)
  have h11 : Memory.wf s11.mem = true :=
    State.wf_foldl (fun _ _ hu => by rw [State.modLaunch_mem]; exact State.wf_resetSignal hu) _ h10
  have h12 : Memory.wf s12.mem = true := State.wf_foldl (fun _ _ hu => State.wf_resetPacket hu) _ h11
  have h13 : Memory.wf s13.mem = true := State.wf_foldl (fun _ _ hu => by rwa [State.setRegField_mem]) _ h12
  have h14 : Memory.wf s14.mem = true := by simp only [s14]; split <;> simp [h13]
  have h15 : Memory.wf s15.mem = true := State.wf_enterHere h14
  rw [State.setReg_mem, State.setRegField_mem, State.setRegField_mem]
  simp only [s17, State.clearCounters_mem]
  exact h15

@[simp] theorem wf_execFunctionLevelReset {dom : Nat} : Out.MemWf (execFunctionLevelReset dom s) := by
  unfold execFunctionLevelReset
  split <;> simp [h]

@[simp] theorem State.wf_ioHold {dom q vpage : Nat} : Memory.wf (s.ioHold dom q vpage).mem = true := by simp [State.ioHold, h]

@[simp] theorem State.wf_consumePacket {dom q slot : Nat} :
    Memory.wf (s.consumePacket dom q slot).mem = true := by simp [State.consumePacket, State.wf_vwrite, h]

@[simp] theorem State.wf_refusePacket {dom q slot cls reason signal record : Nat} :
    Memory.wf (s.refusePacket dom q slot cls reason signal record).mem = true := by
  refine State.wf_consumePacket (State.wf_record ?_)
  split <;> simp [h]

@[simp] theorem State.wf_stopQueue {q dom : Nat} : Memory.wf (s.stopQueue q dom).mem = true := by simp [State.stopQueue, h]

@[simp] theorem State.wf_readSlot {cp q dom : Nat} : Memory.wf (s.readSlot cp q dom).mem = true := by
  unfold State.readSlot
  (repeat' split) <;> simp [h]

@[simp] theorem wf_execQueueServe {iodie : Nat} : Out.MemWf (execQueueServe iodie s) := by
  unfold execQueueServe
  (repeat' split) <;> simp [h]

@[simp] theorem wf_execQueueReread {queue : Nat} : Out.MemWf (execQueueReread queue s) := by
  unfold execQueueReread
  (repeat' split) <;> simp [h]

theorem State.wf_withPacket {cp ty : Nat} {k : Nat → Nat → Nat → List Byte → State → State}
    (hk : ∀ dom q slot bs, Memory.wf (k dom q slot bs s).mem = true) : Out.MemWf (s.withPacket cp ty k) := by
  unfold State.withPacket
  split
  · exact h
  split
  · exact h
  · exact Out.memWf_ite h (hk _ _ _ _)

@[simp] theorem State.wf_signalBoth {dom va : Nat} : Memory.wf (s.signalBoth dom va).mem = true := by
  unfold State.signalBoth
  split <;> simp [h]

omit h in
theorem State.wf_insertAll {dom q : Nat} : ∀ {is : List Nat} {s t : State}, Memory.wf s.mem = true →
    s.insertAll dom q is = .ok t → Memory.wf t.mem = true
  | [], s, t, h, e => by cases e; exact h
  | i :: is, s, t, h, e => by
    unfold State.insertAll at e
    split at e
    · exact State.wf_insertAll (State.wf_insertNode h) e
    · split at e
      · split at e <;> cases e
      · cases e
    · cases e

@[simp] theorem wf_execNopPacket {iodie : Nat} : Out.MemWf (execNopPacket iodie s) :=
  State.wf_withPacket h fun _ _ _ _ => by simp [h]

@[simp] theorem wf_execLaunchPacket {iodie : Nat} : Out.MemWf (execLaunchPacket iodie s) := by
  refine State.wf_withPacket h fun dom q slot bs => ?_
  split
  · simp [h]
  split
  · split <;> simp [h]
  · simp [h]
  · dsimp only
    split
    · exact h
    · rw [State.releaseCp_mem]
      exact State.wf_consumePacket (by rwa [State.enterPool_mem])

@[simp] theorem wf_execInsertPacket {iodie : Nat} : Out.MemWf (execInsertPacket iodie s) := by
  refine State.wf_withPacket h fun dom q slot bs => ?_
  split
  · simp [h]
  · simp [h]
  · next t e =>
    have ht : Memory.wf t.mem = true := State.wf_insertAll h e
    simp [ht]

omit h in
theorem State.releaseAllowed_eq {dom q : Nat} : ∀ {is : List Nat} {s t : State}, s.releaseAllowed dom q is = .ok t → t = s
  | [], s, t, e => by cases e; rfl
  | i :: is, s, t, e => by
    unfold State.releaseAllowed at e
    split at e
    · cases e
    · split at e
      · split at e <;> cases e
      · cases e
      · split at e
        · cases e
        · exact State.releaseAllowed_eq e

@[simp] theorem wf_execReleasePacket {iodie : Nat} : Out.MemWf (execReleasePacket iodie s) := by
  refine State.wf_withPacket h fun dom q slot bs => ?_
  split
  · simp [h]
  · simp [h]
  · next t e =>
    rw [State.releaseCp_mem, State.releaseAllowed_eq e]
    exact State.wf_consumePacket (State.wf_signalBoth (State.wf_releaseAll h))

@[simp] theorem wf_execSignalAtomicCompletion {id : Nat} {swapped : Bool} :
    Out.MemWf (execSignalAtomicCompletion id swapped s) := by
  unfold execSignalAtomicCompletion
  split <;> simp [h]

@[simp] theorem State.wf_outsidePut {t : Trail} {k : Nat} {bs : List Byte} : Memory.wf (s.outsidePut t k bs).mem = true := by
  unfold State.outsidePut
  (repeat' split) <;> simp +contextual [State.wf_pathPut, h]

omit h in
@[simp] theorem State.wf_outsideWriteFuel : ∀ {fuel : Nat} {s : State} {t : Trail} {dom va : Nat} {bs : List Byte},
    Memory.wf s.mem = true → Memory.wf (State.outsideWriteFuel fuel s t dom va bs).mem = true
  | 0, _, _, _, _, _, h => h
  | fuel + 1, s, t, dom, va, bs, h => by
    unfold State.outsideWriteFuel
    split
    · exact h
    · refine State.wf_outsideWriteFuel (fuel := fuel) ?_
      split <;> simp [h]

@[simp] theorem State.wf_outsideWrite {t : Trail} {dom va : Nat} {bs : List Byte} :
    Memory.wf (s.outsideWrite t dom va bs).mem = true := by simp [State.outsideWrite, h]

omit h in
@[simp] theorem State.outsideRead_mem (s : State) (t : Trail) (dom va n : Nat) : (s.outsideRead t dom va n).2.mem = s.mem :=
  State.foldl_mem (fun u k => State.observe_mem u t.path k 1) _ s

@[simp] theorem wf_execHostAccess {dom : Nat} {own write : Bool} {addr : Nat} {data : List Byte} :
    Out.MemWf (execHostAccess dom own write addr data s) := by
  unfold execHostAccess
  (repeat' split) <;> simp [h]

@[simp] theorem State.wf_inboundError {dom node peer sub addr : Nat} :
    Memory.wf (s.inboundError dom node peer sub addr).mem = true := by simp [State.inboundError, h]

@[simp] theorem State.wf_inbound {dom node peer : Nat} {op : FabricOp} {addr n : Nat} {data : List Byte} :
    Memory.wf (s.inbound dom node peer op addr n data).mem = true := by
  unfold State.inbound
  (repeat' split) <;> simp [h]

@[simp] theorem State.wf_fireTag {dom tag payload : Nat} : Memory.wf (s.fireTag dom tag payload).mem = true := by
  unfold State.fireTag
  split
  · exact h
  · exact State.wf_decNode (State.wf_withNodes (State.wf_vwrite _ _ _ _ (by exact h)))

@[simp] theorem State.wf_storeMessage {m : Message} : CheckWf (s.storeMessage m) := by
  simp only [State.storeMessage]
  (repeat' split) <;> simp [State.wf_vwrite, h]

omit h in
@[simp] theorem State.wf_deliverMessages {dom : Nat} :
    ∀ {ms : List Message} {s : State}, Memory.wf s.mem = true → Memory.wf (s.deliverMessages dom ms).mem = true
  | [], _, h => h
  | m :: ms, s, h => by
    have hm : CheckWf (s.storeMessage m) := State.wf_storeMessage h
    unfold State.deliverMessages
    split
    · split
      · rename_i t e
        rw [e] at hm
        exact State.wf_deliverMessages hm
      · exact h
    · exact State.wf_deliverMessages h

@[simp] theorem wf_execCtrcfgClear {core n : Nat} : Out.MemWf (execCtrcfgClear core n s) := h

@[simp] theorem State.wf_writePreq {core : Nat} {v : DWord} : Memory.wf (s.writePreq core v).mem = true := by
  unfold State.writePreq
  (repeat' split) <;> simp [h]

@[simp] theorem State.wf_writeIdtcmd {v : DWord} : Memory.wf (s.writeIdtcmd v).mem = true := by
  unfold State.writeIdtcmd
  (repeat' split) <;> simp [h]

@[simp] theorem State.wf_writeKeyctl {v : DWord} : Memory.wf (s.writeKeyctl v).mem = true := by
  unfold State.writeKeyctl
  split <;> simp [h]

@[simp] theorem State.wf_writeVfctl {dom : Nat} {v : DWord} :
    Memory.wf (s.writeVfctl dom v).mem = true := by simp [State.writeVfctl, h]

@[simp] theorem State.wf_writeReg {r : Reg} {v : DWord} : Memory.wf (s.writeReg r v).mem = true := by
  unfold State.writeReg
  split <;> simp [h]

@[simp] theorem wf_execRegisterWrite {target : RegTarget} {v : DWord} : Out.MemWf (execRegisterWrite target v s) := by
  refine State.wf_byRegister h ?_
  (repeat' split) <;> simp [h]

@[simp] theorem wf_execThermalShutdown {die : Nat} :
    Out.MemWf (execThermalShutdown die s) := by simp [execThermalShutdown, State.wf_off, h]

@[simp] theorem wf_execUndervoltage : Out.MemWf (execUndervoltage s) := by simp [execUndervoltage, State.wf_off, h]
@[simp] theorem State.wf_cold : Memory.wf s.cold.mem = true := by simp [State.cold, State.wf_off, h]

@[simp] theorem State.wf_bringUp {failed : List ModulePart} : Memory.wf (s.bringUp failed).mem = true := by
  unfold State.bringUp
  split <;> simp [h]

@[simp] theorem wf_execLinkError {kind : LinkKind} {port : Nat} : Out.MemWf (execLinkError kind port s) := by
  unfold execLinkError
  split <;> simp [h]

end

/-! ### Instructions, events and steps -/

section
variable {s : State} (h : Memory.wf s.mem = true)
include h

/-- Every instruction and event keeps the form. The arms named here are uses of shared operations, by family; the others have
lemmas of their own. -/

theorem wf_exec (i : Instr) : Out.MemWf (exec i s) := by
  cases i with
  | tret | tretNext | srd | ctrrd | yield | nop | featq | br | bany | ball | bnone | ifRegion | loop | brk | cont | exit =>
    simp [exec, execTret, execTretNext, execSrd, execCtrrd, execYield, execNop, execFeatq, execBr, execBany, execBall,
      execBnone, execIfRegion, execLoop, execBrk, execCont, execExit, h]
  | sadd | ssub | smul | smulh | sand | sor | sxor | sshl | sshr | ssar | smin | smax | snmin | snmax | scmp | sldi | ldil =>
    simp [exec, execSadd, execSsub, execSmul, execSmulh, execSand, execSor, execSxor, execSshl, execSshr, execSsar, execSmin,
      execSmax, execSnmin, execSnmax, execScmp, execSldi, execLdil, h]
  | iadd | isub | iadc | isbb | imul | imulh | imad | ineg | iabs | imin | imax | nmin | nmax | andv | orv | xorv | notv |
      andnv | shl | shr | sar | rot | bfx | bfi | popc | clz | brev | icmp | sel | pick | ldi | ldiHi | unstash =>
    simp [exec, execIadd, execIsub, execIadc, execIsbb, execImul, execImulh, execImad, execIneg, execIabs, execImin, execImax,
      execNmin, execNmax, execAndv, execOrv, execXorv, execNotv, execAndnv, execShl, execShr, execSar, execRot, execBfx,
      execBfi, execPopc, execClz, execBrev, execIcmp, execSel, execPick, execLdi, execLdiHi, execUnstash, h]
  | kand | kor | kxor | kandn | knot | kmov | kpop | kfirst =>
    simp [exec, execKand, execKor, execKxor, execKandn, execKnot, execKmov, execKpop, execKfirst, h]
  | fadd | fsub | fmul | ffma | ffms | fmin | fmax | fcmp | fclass | frnd | fdiv | frcp | frsq | fsqrt | fexp2 | flog2 | fsin
      | fcos | ftanh | fcvt | icvt | ficvt | hadd2 | hmul2 | hfma2 =>
    simp [exec, execFadd, execFsub, execFmul, execFfma, execFfms, execFmin, execFmax, execFcmp, execFclass, execFrnd, execFdiv,
      execFrcp, execFrsq, execFsqrt, execFexp2, execFlog2, execFsin, execFcos, execFtanh, execFcvt, execIcvt, execFicvt,
      execHadd2, execHmul2, execHfma2, h]
  | sfadd | sfmul | sffma | dot4 | dot8 | fdot4 | fdot8 | mac2 | pack | unpk | shrr | fscl | satclr =>
    simp [exec, execSfadd, execSfmul, execSffma, execDot4, execDot8, execFdot4, execFdot8, execMac2, execPack, execUnpk,
      execShrr, execFscl, execSatclr, h]
  | shfl | shflx | bcastl | kbal =>
    simp [exec, execShfl, execShflx, execBcastl, execKbal, h]
  | bzero | bget | bdir | bnorm | btest | bneg | bmov | bdot | badd | bmix | bmatch =>
    simp [exec, execBzero, execBget, execBdir, execBnorm, execBtest, execBneg, execBmov, execBdot, execBadd, execBmix,
      execBmatch, h]
  | ld | st | lds | sts | ldw | stw | atomAdd | atomAnd | atomOr | atomXor | atomMin | atomMax | atomNmin | atomNmax |
      atomXchg =>
    simp [exec, execLd, execSt, execLds, execSts, execLdw, execStw, execAtomAdd, execAtomAnd, execAtomOr, execAtomXor,
      execAtomMin, execAtomMax, execAtomNmin, execAtomNmax, execAtomXchg, h]
  | barrierBlock | barrierGang | barm | barrive | waitcLd =>
    simp [exec, execBarrierBlock, execBarrierGang, execBarm, execBarrive, execWaitcLd, h]
  | gthr | scat | collRed | collBcast | collGath | collAllred | mma | mmap | mmas | mmasp | accrd | accrdw | accadd |
      illegalMajor | instructionFetchFault =>
    simp [exec, execGthr, execScat, execCollRed, execCollBcast, execCollGath, execCollAllred, execMma, execMmap, execMmas,
      execMmasp, execAccrd, execAccrdw, execAccadd, execIllegalMajor, execInstructionFetchFault, h]
  | pendingValueArrival | engineDelivery | engineCommandComplete | passGrant | passEnd | gangPlace | gangEnd | pilotDieLoss =>
    simp [exec, execPendingValueArrival, execEngineDelivery, execEngineCommandComplete, execPassGrant, execPassEnd,
      execGangPlace, execGangEnd, execPilotDieLoss, h]
  | preqWithdraw | preqSoft | preqHard | queueNotify | fabricMemoryAccess | taggedMessage | pageRequestRetry | prqResponse |
      prqDecline =>
    simp [exec, execPreqWithdraw, execPreqSoft, execPreqHard, execQueueNotify, execFabricMemoryAccess, execTaggedMessage,
      execPageRequestRetry, execPrqResponse, execPrqDecline, h]
  | invalidatePage | invalidateRange | invalidateAll | idtMap | idtUnmap | idtSetpin | idtClrpin | keyLoad | keyRetire =>
    simp [exec, execInvalidatePage, execInvalidateRange, execInvalidateAll, execIdtMap, execIdtUnmap, execIdtSetpin,
      execIdtClrpin, execKeyLoad, execKeyRetire, h]
  | vfReset | vfEnable | queueEnable | quotaWrite | partWrite | qrangeWrite | ctrownWrite | rsvctlWrite | lendConfigWrite |
      eqringWrite | clockStepDown | clockStepUp | thermalThrottle | powerOn | fundamentalReset | attestationRequest |
      flashImageWrite | prqheadWrite | msgheadWrite =>
    simp [exec, execVfReset, execVfEnable, execQueueEnable, execQuotaWrite, execPartWrite, execQrangeWrite, execCtrownWrite,
      execRsvctlWrite, execLendConfigWrite, execEqringWrite, execClockStepDown, execClockStepUp, execThermalThrottle,
      execPowerOn, execFundamentalReset, execAttestationRequest, execFlashImageWrite, execPrqheadWrite, execMsgheadWrite, h]
  | _ => simp [exec, h]

/-- The state after an instruction or event that goes on. -/
theorem wf_of_exec {i : Instr} {t : State} (e : exec i s = .next t) : Memory.wf t.mem = true := by
  have hi := wf_exec h i
  rwa [e] at hi

theorem wf_of_issue {t : State} (e : issue s = .next t) : Memory.wf t.mem = true := by
  obtain ⟨i, u, _, hu, rfl⟩ | ⟨maj, len, _, ht⟩ | ⟨addr, k, ht⟩ | ⟨addr, x, _, rfl⟩ := issue_cases e
  · exact State.wf_countIssue (wf_of_exec h hu)
  · have hi := State.wf_illField h (maj := maj) (len := len)
    rwa [ht] at hi
  · exact wf_of_exec h ht
  · exact State.wf_noWord h

theorem wf_of_issuePart {n : Nat} {t : State} (e : issuePart s n = .next t) : Memory.wf t.mem = true := by
  obtain ⟨u, hu, rfl⟩ := mapOut_next e
  rw [State.modSplit_mem]
  exact wf_of_issue (by exact h) hu

theorem wf_of_issueIn {s0 t : State} (e : issueIn s0 s = .next t) : Memory.wf t.mem = true := by
  obtain ht | ⟨old, u, d, b, hu, rfl⟩ := issueIn_cases e
  · exact wf_of_issue h ht
  · rw [State.masksAfter_mem]
    exact wf_of_issue (by exact h) hu

theorem wf_of_runEvent {i : Instr} {t : State} (e : runEvent i s = .next t) : Memory.wf t.mem = true := by
  obtain ⟨_, ht⟩ | rfl := runEvent_cases e
  · exact wf_of_exec h ht
  · exact h

theorem wf_of_manner {m : Manner} {i : Instr} {t : State} (e : runEvent i { s with manner := m } = .next t) :
    Memory.wf ({ t with manner := .now } : State).mem = true :=
  wf_of_runEvent (s := { s with manner := m }) (t := t) h e

theorem wf_of_runAct {s0 t : State} {as : List Act} {a : Act} (e : runAct s0 as a s = .next t) : Memory.wf t.mem = true := by
  obtain ⟨i, _, hi⟩ | ⟨core, port, g, u, hu, ht⟩ | rfl := runAct_cases e
  · exact wf_of_runEvent h hi
  · exact wf_of_issueIn (checkWf_of_eq (State.wf_takeSplit h) hu) ht
  · exact h

theorem State.wf_fairAll {as : List Act} : Memory.wf (s.fairAll as).mem = true := by
  refine State.wf_foldl (fun u a hu => ?_) _ h
  split
  · exact State.wf_fairness hu
  · exact hu

theorem wf_of_runCycle {as : List Act} {t : State} (e : runCycle as s = .next t) : Memory.wf t.mem = true :=
  runActs_induct (P := fun u => Memory.wf u.mem = true) (fun _ _ _ hu ha => wf_of_runAct hu ha) _ (State.wf_fairAll h) e

omit h in
theorem State.renew_mem (s : State) : s.renew.mem = s.mem := by
  rw [State.renew, State.mapWatches_mem, State.mapWatches_mem]

theorem State.wf_upset {u : Upset} : Memory.wf (s.upset u).mem = true := by
  unfold State.upset
  split <;> simp [h]

omit h in
/-- What hardware does of its own accord is an event. -/
theorem State.exec_of_mem_ownEvents {s : State} {f : State → Out} (hf : f ∈ s.ownEvents) : ∃ i, f = exec i := by
  simp only [State.ownEvents, List.mem_append] at hf
  obtain (((hf | hf) | hf) | hf) | hf := hf
  · obtain ⟨w, _, hw⟩ := List.mem_filterMap.1 hf
    obtain ⟨x, _, rfl⟩ := Option.map_eq_some_iff.1 hw
    split
    · exact ⟨.unitOperationComplete w.ref x.id, rfl⟩
    · exact ⟨.pendingValueArrival w.ref x.id, rfl⟩
  · simp only [State.commandEvents, List.mem_append, List.mem_flatMap] at hf
    obtain ⟨c, _, hc⟩ | ⟨c, _, hc⟩ := hf
    · rw [List.mem_pair] at hc
      obtain rfl | rfl := hc
      · exact ⟨.engineDelivery c.id c.total [], rfl⟩
      · exact ⟨.engineCommandComplete c.id, rfl⟩
    · split at hc
      · simp at hc
      rw [List.mem_pair] at hc
      obtain rfl | rfl := hc
      · exact ⟨.engineDelivery c.id c.total [], rfl⟩
      · exact ⟨.engineCommandComplete c.id, rfl⟩
  · obtain ⟨c, _, hc⟩ := List.mem_flatMap.1 hf
    rw [List.mem_append, List.mem_pair, List.mem_map] at hc
    obtain ⟨r, _, rfl⟩ | rfl | rfl := hc
    · exact ⟨.passEnd r.array, rfl⟩
    · exact ⟨.passGrant c.core, rfl⟩
    · exact ⟨.passGrant (c.core ^^^ 1), rfl⟩
  · simp only [State.serviceEvents, List.mem_append, List.mem_map, List.mem_flatMap] at hf
    obtain (((⟨q, _, rfl⟩ | ⟨x, _, rfl⟩) | ⟨x, _, rfl⟩) | ⟨x, _, rfl⟩) | ⟨p, _, hp⟩ := hf
    · exact ⟨.caddyGrant q.core q.pool, rfl⟩
    · exact ⟨.signalAtomicCompletion x.id true, rfl⟩
    · exact ⟨.invalidationComplete x.1, rfl⟩
    · exact ⟨.queueReread x.queue, rfl⟩
    · simp only [List.mem_cons, List.not_mem_nil, or_false] at hp
      obtain rfl | rfl | rfl | rfl | rfl := hp
      · exact ⟨.nopPacket p, rfl⟩
      · exact ⟨.launchPacket p, rfl⟩
      · exact ⟨.insertPacket p, rfl⟩
      · exact ⟨.releasePacket p, rfl⟩
      · exact ⟨.queueServe p, rfl⟩
  · obtain ⟨d, _, hd⟩ := List.mem_filterMap.1 hf
    obtain ⟨c, _, hc⟩ := Option.bind_eq_some_iff.1 hd
    obtain ⟨cores, _, rfl⟩ := Option.map_eq_some_iff.1 hc
    exact ⟨.gangPlace cores, rfl⟩

theorem wf_of_background {t : State} (e : s.background = .next t) : Memory.wf t.mem = true := by
  unfold State.background at e
  split at e
  · next f hf =>
    obtain ⟨i, rfl⟩ := State.exec_of_mem_ownEvents (List.mem_of_find?_eq_some hf)
    exact wf_of_exec h e
  · cases e
    exact h

theorem State.wf_of_take {core port : Nat} {u : State} (e : s.take core port = some u) : Memory.wf u.mem = true :=
  checkWf_of_eq (State.wf_take h) e

theorem State.wf_of_takeAny {u : State} (e : s.takeAny = some u) : Memory.wf u.mem = true :=
  checkWf_of_eq (State.wf_takeAny h) e

omit h in
theorem State.chose_mem (s : State) (rest : List Pick) : (s.chose rest).mem = s.begin.mem := by
  unfold State.chose
  dsimp only

theorem wf_of_proceed {t : State} (e : proceed s = .next t) : Memory.wf t.mem = true := by
  have hc : ∀ rest, Memory.wf (s.chose rest).mem = true := fun rest => by
    rw [State.chose_mem]
    exact State.wf_begin h
  cases proceed_cases e with
  | event i rest _ ht => exact wf_of_runEvent (s := s.chose rest) (hc rest) ht
  | nothing rest ht =>
    rw [ht]
    exact hc rest
  | issue core port rest u hu ht => exact wf_of_issue (State.wf_of_take (hc rest) hu) ht
  | part core port n rest u hu ht => exact wf_of_issuePart (State.wf_of_take (hc rest) hu) ht
  | manner m i rest u hu ht =>
    rw [ht]
    exact wf_of_manner (s := s.chose rest) (hc rest) hu
  | enter n rest ht =>
    rw [ht]
    exact State.wf_enterSome (s := s.chose rest) _ (hc rest)
  | behind r k n rest ht =>
    rw [ht, State.keepBehind_mem]
    exact hc rest
  | forget n rest ht =>
    rw [ht, State.forgetByte_mem]
    exact hc rest
  | refetch slot src sector rest ht =>
    rw [ht]
    exact State.wf_fetchSector (s := s.chose rest) (hc rest)
  | together as rest ht => exact wf_of_runCycle (s := s.chose rest) (hc rest) ht
  | upset u rest ht =>
    rw [ht]
    exact State.wf_upset (s := s.chose rest) (hc rest)
  | any u hu ht => exact wf_of_issue (State.wf_of_takeAny (State.wf_begin h) hu) ht
  | own ht => exact wf_of_background (s := s.begin.enterAll) (State.wf_enterAll (State.wf_begin h)) ht

end

/-- Settles O6: every operation keeps the form (`wf_exec` and the lemmas before it), so does all that a step can have done
(`proceed_cases`), and what a step notes at its end leaves memory as it is. -/

theorem memoryFormKept : Obligations.MemoryFormKept := by
  intro s t h e
  obtain ⟨u, hu, rfl⟩ := step_cases e
  rw [State.renew_mem, State.noteAltered_mem]
  exact wf_of_proceed h hu

end Sys2Proof.Machine

namespace Sys2Proof.Machine

/-!
O56. Translation and page requests. What a walk leaves of the TLBs and walk caches, how invalidations begin and complete, and what the
answers to page requests do to the splits that wait on them; states that agree in what translation reads translate alike
(`State.MapsLike`).
-/

/-- A field reads as it was written, cut to its width. -/
theorem field_setField (w : DWord) (lo n v : Nat) (h : lo + n ≤ 64) : field (setField w lo n v) lo n = v % 2 ^ n := by
  apply Nat.eq_of_testBit_eq
  intro i
  simp only [field, bitsAt, Nat.testBit_mod_two_pow, Nat.testBit_div_two_pow]
  by_cases hi : i < n
  · rw [BitVec.testBit_toNat, setField]
    simp only [BitVec.getLsbD_or, BitVec.getLsbD_and, BitVec.getLsbD_not, BitVec.getLsbD_ofNat, Nat.testBit_mul_two_pow,
      Nat.testBit_mod_two_pow, Nat.testBit_two_pow_sub_one]
    simp [hi, show i + lo < 64 by omega]
  · simp [hi]

@[simp] theorem State.setRegField_reg (s : State) (r q : Reg) (lo n v : Nat) :
    (s.setRegField r lo n v).reg q = if q = r then setField (s.reg r) lo n v else s.reg q := State.setReg_reg s r q _

theorem State.regField_setRegField (s : State) (r : Reg) (lo n v : Nat) (h : lo + n ≤ 64) :
    (s.setRegField r lo n v).regField r lo n = v % 2 ^ n := by
  rw [State.regField, State.setRegField_reg, if_pos rfl, field_setField _ _ _ _ h]

/-! ### TLBs and walk caches (R12, R355) -/

/-- The entries of a unit's TLB (R355). -/
def State.tlbOf (s : State) (u : Nat) : List TlbEntry := s.tlb.filter (fun e => e.unit == u)

theorem State.mem_tlbOf {s : State} {u : Nat} {e : TlbEntry} : e ∈ s.tlbOf u ↔ e ∈ s.tlb ∧ e.unit = u := by
  simp [State.tlbOf]

/-- The entry that a walk puts into a unit's TLB (R355). -/
def Mapping.entry (m : Mapping) (dom vpage u : Nat) : TlbEntry :=
  { unit := u, dom := dom, vpage := vpage, page := m.page, r := m.r, w := m.w, host := m.host, hc := m.hc }

/-- What a TLB keeps of its entries when it takes one in (R12). -/
def keptBeside (e : TlbEntry) (out : Option (Nat × Nat)) (l : List TlbEntry) : List TlbEntry :=
  (l.filter (fun x => !((x.dom == e.dom && x.vpage == e.vpage) || out == some (x.dom, x.vpage)))).take (tlbSize e.unit - 1)

theorem mem_keptBeside {e x : TlbEntry} {out : Option (Nat × Nat)} {l : List TlbEntry} (h : x ∈ keptBeside e out l) :
    x ∈ l ∧ out ≠ some (x.dom, x.vpage) := by
  obtain ⟨hl, hx⟩ := List.mem_filter.1 (List.mem_of_mem_take h)
  simp only [Bool.not_eq_true', Bool.or_eq_false_iff, beq_eq_false_iff_ne] at hx
  exact ⟨hl, hx.2⟩

/-- The TLBs after one has taken an entry: it stands in front of what is kept of its unit's, and the others stand behind. -/
theorem State.fillTlb_tlb (s : State) (e : TlbEntry) (out : Option (Nat × Nat)) :
    (s.fillTlb e out).tlb = e :: keptBeside e out (s.tlbOf e.unit) ++ s.tlb.filter (fun x => x.unit != e.unit) := by
  simp only [State.fillTlb, keptBeside, State.tlbOf, List.filter_filter, Bool.and_comm]

theorem State.fillTlb_tlbOf_same (s : State) (e : TlbEntry) (out : Option (Nat × Nat)) :
    (s.fillTlb e out).tlbOf e.unit = e :: keptBeside e out (s.tlbOf e.unit) := by
  have own : (keptBeside e out (s.tlbOf e.unit)).filter (fun x => x.unit == e.unit) = keptBeside e out (s.tlbOf e.unit) :=
    List.filter_eq_self.2 fun x hx => by simpa using (State.mem_tlbOf.1 (mem_keptBeside hx).1).2
  rw [State.tlbOf, State.fillTlb_tlb]
  simp [List.filter_append, own]

theorem State.fillTlb_tlbOf_other (s : State) (e : TlbEntry) (out : Option (Nat × Nat)) {u : Nat} (h : u ≠ e.unit) :
    (s.fillTlb e out).tlbOf u = s.tlbOf u := by
  have none : (keptBeside e out (s.tlbOf e.unit)).filter (fun x => x.unit == u) = [] :=
    List.filter_eq_nil_iff.2 fun x hx => by simpa [(State.mem_tlbOf.1 (mem_keptBeside hx).1).2] using Ne.symm h
  have rest : ∀ x : TlbEntry, (x.unit == u && x.unit != e.unit) = (x.unit == u) := fun x => by
    by_cases hx : x.unit = u <;> simp [hx, h]
  rw [State.tlbOf, State.fillTlb_tlb, List.filter_append, List.filter_cons, none, List.filter_filter]
  simp [rest, State.tlbOf, Ne.symm h]

/-- Several TLBs take a walk's entry in turn. -/
def State.fillTlbs (s : State) (us : List Nat) (m : Mapping) (dom vpage : Nat) (out : Option (Nat × Nat)) : State :=
  us.foldl (fun t u => t.fillTlb (m.entry dom vpage u) out) s

theorem State.fillTlbs_frame (m : Mapping) (dom vpage : Nat) (out : Option (Nat × Nat)) (us : List Nat) (s : State) :
    { s.fillTlbs us m dom vpage out with tlb := s.tlb } = s := by
  induction us generalizing s with
  | nil => rfl
  | cons u us ih =>
    have h := ih (s.fillTlb (m.entry dom vpage u) out)
    rw [State.fillTlbs, List.foldl_cons]
    exact congrArg (fun t : State => { t with tlb := s.tlb }) h

theorem State.fillTlbs_tlbOf_other {m : Mapping} {dom vpage : Nat} {out : Option (Nat × Nat)} {us : List Nat} {u : Nat}
    (h : u ∉ us) (s : State) : (s.fillTlbs us m dom vpage out).tlbOf u = s.tlbOf u := by
  induction us generalizing s with
  | nil => rfl
  | cons v us ih =>
    rw [State.fillTlbs, List.foldl_cons]
    exact (ih (List.not_mem_of_not_mem_cons h) _).trans (State.fillTlb_tlbOf_other _ _ _ (List.ne_of_not_mem_cons h))

theorem State.fillTlbs_tlbOf_mem {m : Mapping} {dom vpage : Nat} {out : Option (Nat × Nat)} {us : List Nat} {u : Nat}
    (hd : us.Nodup) (h : u ∈ us) (s : State) :
    (s.fillTlbs us m dom vpage out).tlbOf u = m.entry dom vpage u :: keptBeside (m.entry dom vpage u) out (s.tlbOf u) := by
  induction us generalizing s with
  | nil => cases h
  | cons v us ih =>
    obtain ⟨hv, hd⟩ := List.nodup_cons.1 hd
    rw [State.fillTlbs, List.foldl_cons]
    rcases List.mem_cons.1 h with rfl | h
    · exact (State.fillTlbs_tlbOf_other hv _).trans (State.fillTlb_tlbOf_same _ _ _)
    · have hne : u ≠ v := fun e => hv (e ▸ h)
      exact (ih hd h _).trans (by rw [State.fillTlb_tlbOf_other _ _ _ hne])

theorem tlbsOf_nodup (tu : Nat) : (tlbsOf tu).Nodup := by
  unfold tlbsOf
  split
  · simp; omega
  · simp

/-- A unit's own TLB is one of those that it looks into. -/
theorem self_mem_tlbsOf (tu : Nat) : tu ∈ tlbsOf tu := by
  unfold tlbsOf
  split <;> simp

/-- A unit looks into its own TLB first (R355). -/
theorem State.tlbHit_of_own {s : State} {tu dom vpage : Nat} {e : TlbEntry} {l : List TlbEntry} (h : s.tlbOf tu = e :: l)
    (hd : e.dom = dom) (hv : e.vpage = vpage) : s.tlbHit tu dom vpage = some e := by
  have own : s.tlb.find? (fun e => e.unit == tu && e.dom == dom && e.vpage == vpage) = some e := by
    have first : (s.tlbOf tu).find? (fun e => e.dom == dom && e.vpage == vpage) = some e := by simp [h, hd, hv]
    rw [← first, State.tlbOf, List.find?_filter]
    congr 1
    funext x
    rw [Bool.eq_iff_iff]
    simp [and_assoc]
  unfold State.tlbHit tlbsOf
  split <;> simp [own]

/-! walk cache -/

theorem State.fillWalk_frame (s : State) (e : WalkEntry) : { s.fillWalk e with walks := s.walks } = s := rfl

theorem State.mem_fillWalk_self (s : State) (e : WalkEntry) : e ∈ (s.fillWalk e).walks := List.mem_cons_self ..

theorem State.mem_walks_of_fillWalk {s : State} {e x : WalkEntry} (h : x ∈ (s.fillWalk e).walks) : x = e ∨ x ∈ s.walks := by
  rcases List.mem_cons.1 h with h | h
  · exact .inl h
  · rcases List.mem_append.1 h with h | h
    · exact .inr (List.mem_filter.1 (List.mem_of_mem_take h)).1
    · exact .inr (List.mem_filter.1 h).1

/-- The newest entry of a walk cache stays when an entry of another level comes in (R355). -/
theorem State.mem_fillWalk_of_newest {s : State} {x e : WalkEntry} {ws : List WalkEntry} (h : s.walks = x :: ws)
    (hl : x.level ≠ e.level) : x ∈ (s.fillWalk e).walks := by
  by_cases hd : x.die = e.die <;> simp [State.fillWalk, h, hd, hl]

theorem State.foldl_fillWalk_frame (l : List WalkEntry) (s : State) : { l.foldl State.fillWalk s with walks := s.walks } = s := by
  induction l generalizing s with
  | nil => rfl
  | cons e l ih => exact congrArg (fun t : State => { t with walks := s.walks }) (ih (s.fillWalk e))

theorem State.mem_walks_of_foldl {l : List WalkEntry} {s : State} {x : WalkEntry} (h : x ∈ (l.foldl State.fillWalk s).walks) :
    x ∈ l ∨ x ∈ s.walks := by
  induction l generalizing s with
  | nil => exact .inr h
  | cons e l ih =>
    rcases ih h with h | h
    · exact .inl (List.mem_cons_of_mem _ h)
    · rcases State.mem_walks_of_fillWalk h with rfl | h
      · exact .inl (List.mem_cons_self ..)
      · exact .inr h

/-- What a walk reads of one level and below it (R355). -/
theorem State.walkReads_succ (s : State) (die dom key vpage level : Nat) (node : Option Nat) :
    s.walkReads die dom key vpage (level + 1) node = [] ∨
    ∃ e part rest, s.entryOf die dom key (level + 1) vpage node = .inl (e, part) ∧
      s.walkReads die dom key vpage (level + 1) node =
        { die := die, dom := dom, level := level + 1, index := walkIndex (level + 1) vpage, entry := e, part := part } :: rest ∧
      (rest = [] ∨ ∃ n, rest = s.walkReads die dom key vpage level n) := by
  rw [State.walkReads]
  split
  · exact .inl rfl
  · rename_i e part he
    split
    · exact .inl rfl
    · refine .inr ⟨e, part, _, he, rfl, ?_⟩
      split
      · exact .inl rfl
      · exact .inr ⟨_, rfl⟩

theorem State.mem_walkReads {s : State} {die dom key vpage : Nat} {x : WalkEntry} : ∀ {level : Nat} {node : Option Nat},
    x ∈ s.walkReads die dom key vpage level node →
      x.die = die ∧ x.dom = dom ∧ x.level ≤ level ∧ x.index = walkIndex x.level vpage
  | 0, _, h => by simp [State.walkReads] at h
  | level + 1, node, h => by
    rcases s.walkReads_succ die dom key vpage level node with e | ⟨e, part, rest, -, hl, hr⟩
    · simp [e] at h
    · rw [hl] at h
      rcases List.mem_cons.1 h with rfl | h
      · simp
      · rcases hr with rfl | ⟨n, rfl⟩
        · simp at h
        · obtain ⟨h1, h2, h3, h4⟩ := State.mem_walkReads h
          exact ⟨h1, h2, by omega, h4⟩

/-- Entries of level 1 are not kept (R355). -/
theorem State.walkReads_one (s : State) (die dom key vpage : Nat) (node : Option Nat) :
    s.walkReads die dom key vpage 1 node = [] := by
  rw [State.walkReads]
  split <;> simp

theorem State.keepReads_frame (s : State) (die dom vpage : Nat) : { s.keepReads die dom vpage with walks := s.walks } = s := by
  unfold State.keepReads
  split
  · split
    · rfl
    · exact State.foldl_fillWalk_frame _ s
  · rfl

theorem State.mem_keepReads {s : State} {die dom vpage : Nat} {x : WalkEntry} (h : x ∈ (s.keepReads die dom vpage).walks) :
    x ∈ s.walks ∨ (x.die = die ∧ x.dom = dom ∧ x.index = walkIndex x.level vpage) := by
  unfold State.keepReads at h
  split at h
  · split at h
    · exact .inl h
    · rcases State.mem_walks_of_foldl h with h | h
      · obtain ⟨h1, h2, -, h4⟩ := State.mem_walkReads h
        exact .inr ⟨h1, h2, h4⟩
      · exact .inl h
  · exact .inl h

/-- A walk puts the level-3 entry that it reads, if it is valid and sound, into its die's walk cache (R355). -/
theorem State.keepReads_top {s : State} {die dom vpage key : Nat} {e : DWord} {part : Nat × Nat} (hk : s.keyOf dom = some key)
    (hp : s.regField (.ptroot dom) 0 1 = 1)
    (he : s.entryOf die dom key 3 vpage (s.frameOf dom (s.regField (.ptroot dom) 16 36)) = .inl (e, part))
    (hv : field e 0 1 = 1) (hs : pteSound 3 e = true) :
    { die := die, dom := dom, level := 3, index := walkIndex 3 vpage, entry := e, part := part } ∈
      (s.keepReads die dom vpage).walks := by
  set x : WalkEntry := { die := die, dom := dom, level := 3, index := walkIndex 3 vpage, entry := e, part := part } with hx
  have top : ∃ rest, s.walkReads die dom key vpage 3 (s.frameOf dom (s.regField (.ptroot dom) 16 36)) = x :: rest ∧
      (rest = [] ∨ ∃ n, rest = s.walkReads die dom key vpage 2 n) := by
    rw [State.walkReads, he]
    refine ⟨_, by simp [hv, hs, hx]; rfl, ?_⟩
    split
    · exact .inl rfl
    · exact .inr ⟨_, rfl⟩
  obtain ⟨rest, hr, hn⟩ := top
  have below : rest = [] ∨ ∃ y : WalkEntry, rest = [y] ∧ y.level = 2 := by
    rcases hn with rfl | ⟨n, rfl⟩
    · exact .inl rfl
    · rcases s.walkReads_succ die dom key vpage 1 n with h | ⟨f, p, r, -, h, hr⟩
      · exact .inl h
      · have : r = [] := by
          rcases hr with rfl | ⟨n, rfl⟩
          · rfl
          · exact s.walkReads_one ..
        exact .inr ⟨_, by rw [h, this], rfl⟩
  have hkeep : s.keepReads die dom vpage = (x :: rest).foldl State.fillWalk s := by
    simp [State.keepReads, hk, hp, hr]
  rw [hkeep, List.foldl_cons]
  rcases below with rfl | ⟨y, rfl, hy⟩
  · exact s.mem_fillWalk_self x
  · exact State.mem_fillWalk_of_newest (s := s.fillWalk x) rfl (by simp [hx, hy])


/-! ### PAGE_TABLE_WALK (R355) -/

/-- What a walk of a unit for a page leaves of the walk caches: what was there, and what is on the way to the page (R355). -/
theorem execPageTableWalk_blocked {s : State} {tu dom vpage : Nat} {out : Option (Nat × Nat)}
    (h : 2 ^ 39 ≤ vpage ∨ s.invalidating dom vpage = true) : execPageTableWalk tu dom vpage out s = .next s :=
  if_pos h.symm

/-- A walk that finds no mapping fills the walk cache alone (R355). -/
theorem execPageTableWalk_unmapped {s : State} {tu dom vpage : Nat} {out : Option (Nat × Nat)} (h : ∀ m, s.walk tu dom vpage ≠ .ok m)
    (hv : vpage < 2 ^ 39) (hi : s.invalidating dom vpage = false) :
    execPageTableWalk tu dom vpage out s = .next (s.keepReads (dieOfUnit tu) dom vpage) := by
  unfold execPageTableWalk
  rw [if_neg (by simp [hi]; omega)]
  dsimp only
  split
  · rename_i m hm
    exact absurd hm (h m)
  · rfl

/-- A walk that finds a mapping also fills the TLBs of its unit (R355). -/
theorem execPageTableWalk_mapped {s : State} {tu dom vpage : Nat} {out : Option (Nat × Nat)} {m : Mapping}
    (h : s.walk tu dom vpage = .ok m) (hv : vpage < 2 ^ 39) (hi : s.invalidating dom vpage = false)
    (hm : s.mediaOk (s.keyAt dom m 0) = true) :
    execPageTableWalk tu dom vpage out s =
      .next ((s.keepReads (dieOfUnit tu) dom vpage).fillTlbs (tlbsOf tu) m dom vpage out) := by
  unfold execPageTableWalk
  rw [if_neg (by simp [hi]; omega), h]
  simp only [hm]
  rfl

/-- What a walk that finds a mapping leaves: the mapping in each TLB of its unit, within its size and beside old entries; the other TLBs
as they were. -/
theorem State.fillTlbs_spec {s : State} {tu dom vpage : Nat} {out : Option (Nat × Nat)} {m : Mapping} {u : Nat}
    (hu : u ∈ tlbsOf tu) :
    let t := s.fillTlbs (tlbsOf tu) m dom vpage out
    (∃ e ∈ t.tlb, e.unit = u ∧ e.dom = dom ∧ e.vpage = vpage ∧ e.page = m.page) ∧ (t.tlbOf u).length ≤ tlbSize u ∧
    ∀ e ∈ t.tlb, e.unit = u → (e.dom, e.vpage) ≠ (dom, vpage) → e ∈ s.tlb ∧ out ≠ some (e.dom, e.vpage) := by
  intro t
  have ht : t.tlbOf u = m.entry dom vpage u :: keptBeside (m.entry dom vpage u) out (s.tlbOf u) :=
    State.fillTlbs_tlbOf_mem (tlbsOf_nodup tu) hu s
  refine ⟨⟨m.entry dom vpage u, (State.mem_tlbOf.1 (ht ▸ List.mem_cons_self ..)).1, rfl, rfl, rfl, rfl⟩, ?_, ?_⟩
  · have hs : 1 ≤ tlbSize u := by unfold tlbSize; split <;> omega
    have hk : (keptBeside (m.entry dom vpage u) out (s.tlbOf u)).length ≤ tlbSize u - 1 := List.length_take_le ..
    rw [ht, List.length_cons]
    omega
  · intro e he hu hne
    have hmem := State.mem_tlbOf.2 ⟨he, hu⟩
    rw [ht] at hmem
    rcases List.mem_cons.1 hmem with rfl | h
    · exact absurd rfl hne
    · exact ⟨(State.mem_tlbOf.1 (mem_keptBeside h).1).1, (mem_keptBeside h).2⟩

/-- A walk succeeds only for a domain whose accesses are accepted and whose tables are on (R353, R356). -/
theorem State.walk_ok_on {s : State} {tu dom vpage : Nat} {m : Mapping} (h : s.walk tu dom vpage = .ok m) :
    (∃ key, s.keyOf dom = some key) ∧ s.regField (.ptroot dom) 0 1 ≠ 0 := by
  unfold State.walk at h
  split at h
  · cases h
  · rename_i key hk
    split at h
    · cases h
    · rename_i hp
      exact ⟨⟨key, hk⟩, hp⟩

/-- A unit whose own TLB holds an entry for a page in front translates it by that entry (R355). -/
theorem State.translate_of_own {s : State} {tu dom vpage : Nat} {m : Mapping} {l : List TlbEntry}
    (h : s.tlbOf tu = m.entry dom vpage tu :: l) (hk : ∃ key, s.keyOf dom = some key) (hp : s.regField (.ptroot dom) 0 1 ≠ 0)
    (hv : vpage < 2 ^ 39) : s.translate tu dom vpage = .ok m := by
  obtain ⟨key, hk⟩ := hk
  have hit : s.tlbHit tu dom vpage = some (m.entry dom vpage tu) := State.tlbHit_of_own h rfl rfl
  unfold State.translate
  rw [hk, hit]
  simp [hp, Mapping.entry]
  omega

/-- A walk that finds a mapping (R355). -/
theorem pageTableWalk_mapped {s : State} {tu dom vpage : Nat} {out : Option (Nat × Nat)} {m : Mapping}
    (h : s.walk tu dom vpage = .ok m) (hv : vpage < 2 ^ 39) (hi : s.invalidating dom vpage = false)
    (hm : s.mediaOk (s.keyAt dom m 0) = true) :
    ∃ t, execPageTableWalk tu dom vpage out s = .next t ∧ t.translate tu dom vpage = .ok m ∧
      (∀ u ∈ tlbsOf tu, (∃ e ∈ t.tlb, e.unit = u ∧ e.dom = dom ∧ e.vpage = vpage ∧ e.page = m.page) ∧
        (t.tlb.filter (fun e => e.unit == u)).length ≤ tlbSize u ∧
        (∀ e ∈ t.tlb, e.unit = u → (e.dom, e.vpage) ≠ (dom, vpage) → e ∈ s.tlb ∧ out ≠ some (e.dom, e.vpage))) ∧
      (∀ u, u ∉ tlbsOf tu → t.tlb.filter (fun e => e.unit == u) = s.tlb.filter (fun e => e.unit == u)) ∧
      (∀ e ∈ t.walks, e ∈ s.walks ∨ (e.die = dieOfUnit tu ∧ e.dom = dom ∧ e.index = walkIndex e.level vpage)) ∧
      { t with tlb := s.tlb, walks := s.walks } = s := by
  set r := s.keepReads (dieOfUnit tu) dom vpage with hr
  set t := r.fillTlbs (tlbsOf tu) m dom vpage out with ht
  have hrs : { r with walks := s.walks } = s := s.keepReads_frame ..
  have htr : { t with tlb := r.tlb } = r := State.fillTlbs_frame ..
  have rtlb : r.tlb = s.tlb := (congrArg State.tlb hrs :)
  have tcfg : t.cfg = s.cfg := (congrArg State.cfg htr :).trans (congrArg State.cfg hrs :)
  have tkeys : t.keys = s.keys := (congrArg State.keys htr :).trans (congrArg State.keys hrs :)
  have twalks : t.walks = r.walks := (congrArg State.walks htr :)
  obtain ⟨hk, hp⟩ := State.walk_ok_on h
  refine ⟨t, execPageTableWalk_mapped h hv hi hm, ?_, ?_, ?_, ?_, ?_⟩
  · refine State.translate_of_own (State.fillTlbs_tlbOf_mem (tlbsOf_nodup tu) (self_mem_tlbsOf tu) r) ?_ ?_ hv
    · simpa [State.keyOf, State.reg, tcfg, tkeys] using hk
    · simpa [State.regField, State.reg, tcfg] using hp
  · intro u hu
    rw [← rtlb]
    exact State.fillTlbs_spec hu
  · intro u hu
    rw [← rtlb]
    exact State.fillTlbs_tlbOf_other hu r
  · intro e he
    exact State.mem_keepReads (twalks ▸ he)
  · have := congrArg (fun u : State => { u with tlb := s.tlb, walks := s.walks }) htr
    exact this.trans ((congrArg (fun u : State => { u with tlb := s.tlb }) hrs))

/-- A walk that finds no mapping (R355). -/
theorem pageTableWalk_unmapped {s : State} {tu dom vpage : Nat} {out : Option (Nat × Nat)} (h : ∀ m, s.walk tu dom vpage ≠ .ok m)
    (hv : vpage < 2 ^ 39) (hi : s.invalidating dom vpage = false) :
    ∃ t, execPageTableWalk tu dom vpage out s = .next t ∧ { t with walks := s.walks } = s ∧
      (∀ e ∈ t.walks, e ∈ s.walks ∨ (e.die = dieOfUnit tu ∧ e.dom = dom ∧ e.index = walkIndex e.level vpage)) ∧
      ∀ key e part, s.keyOf dom = some key → s.regField (.ptroot dom) 0 1 = 1 →
        s.entryOf (dieOfUnit tu) dom key 3 vpage (s.frameOf dom (s.regField (.ptroot dom) 16 36)) = .inl (e, part) →
        field e 0 1 = 1 → pteSound 3 e = true →
        ∃ x ∈ t.walks, x.die = dieOfUnit tu ∧ x.dom = dom ∧ x.level = 3 ∧ x.index = walkIndex 3 vpage ∧ x.entry = e ∧ x.part = part :=
  ⟨_, execPageTableWalk_unmapped h hv hi, s.keepReads_frame .., fun _ => State.mem_keepReads,
    fun _ _ _ hk hp he hv hs => ⟨_, State.keepReads_top hk hp he hv hs, rfl, rfl, rfl, rfl, rfl, rfl⟩⟩

/-! ### What software does through a register (R407) -/

theorem State.byRegister_down {s : State} (h : s.isUp = false) (f : State → State) : s.byRegister f = .next s := by
  simp [State.byRegister, h]

theorem State.byRegister_up {s : State} (h : s.isUp = true) (f : State → State) : s.byRegister f = .next (f s) := by
  simp [State.byRegister, h]

/-! ### Invalidations (R356) -/

/-- A write of GO is ignored while the module is not up (R407), and while BUSY is 1 (R356). -/
theorem State.byRegister_invalidate_ignored {s : State} {dom : Nat} (h : s.isUp = false ∨ s.regField (.invctl dom) 32 1 = 1)
    (kind count : State → Nat) : (s.byRegister fun s => s.invalidate dom (kind s) (count s)) = .next s := by
  rcases h with h | h
  · exact State.byRegister_down h _
  · rw [State.byRegister, State.invalidate, if_pos h, ite_self]

theorem invalidations_ignored {s : State} {dom count : Nat} (h : s.isUp = false ∨ s.regField (.invctl dom) 32 1 = 1) :
    execInvalidatePage dom s = .next s ∧ execInvalidateRange dom count s = .next s ∧ execInvalidateAll dom s = .next s :=
  ⟨State.byRegister_invalidate_ignored h (fun _ => 0) (fun s => s.regField (.invctl dom) 0 16),
    State.byRegister_invalidate_ignored h (fun _ => 1) (fun _ => count),
    State.byRegister_invalidate_ignored h (fun _ => 2) (fun s => s.regField (.invctl dom) 0 16)⟩

/-- An invalidation of some pages from one on begins: BUSY is 1, and it names these pages besides those named before. -/
theorem State.invalidate_spec {s : State} {dom : Nat} (kind count first pages : Nat) (hb : s.regField (.invctl dom) 32 1 = 0)
    (hk : kind ≤ 2) (hf : first = if kind = 2 then 0 else s.regField (.invaddr dom) 16 39)
    (hp : pages = if kind = 2 then 2 ^ 39 else if kind = 1 then count + 1 else 1) :
    let t := s.invalidate dom kind count
    t.regField (.invctl dom) 32 1 = 1 ∧ (∀ v, first ≤ v ∧ v < first + pages → t.invalidating dom v = true) ∧
    (∀ d v, d ≠ dom ∨ ¬ (first ≤ v ∧ v < first + pages) → t.invalidating d v = s.invalidating d v) ∧
    { t with cfg := s.cfg, invals := s.invals } = s := by
  have ht : s.invalidate dom kind count = State.setReg { s with invals := (dom, first, pages) :: s.invals } (.invctl dom)
      (BitVec.ofNat 64 (2 ^ 32 + kind * 2 ^ 16 + count % 2 ^ 16)) := by
    rw [State.invalidate, if_neg (by omega), hf, hp]
  have hi : ∀ d v, (s.invalidate dom kind count).invalidating d v =
      ((dom == d && decide (first ≤ v) && decide (v < first + pages)) || s.invalidating d v) := fun d v => by rw [ht]; rfl
  refine ⟨?_, fun v hv => ?_, fun d v hv => ?_, by rw [ht]; rfl⟩
  · rw [ht, State.regField, State.setReg_reg, if_pos rfl]
    simp only [field, bitsAt, BitVec.toNat_ofNat]
    omega
  · simp [hi, hv]
  · rw [hi]
    rcases hv with hv | hv
    · simp [Ne.symm hv]
    · have : (decide (first ≤ v) && decide (v < first + pages)) = false := by simpa using hv
      simp [Bool.and_assoc, this]

/-- The three kinds of invalidation, while none runs (R356). -/
theorem invalidations_begin {s : State} {dom count : Nat} (hu : s.isUp = true) (hb : s.regField (.invctl dom) 32 1 = 0) :
    let first := s.regField (.invaddr dom) 16 39
    let busy := fun (o : Out) (p : Nat → Prop) => ∃ t, o = .next t ∧ t.regField (.invctl dom) 32 1 = 1 ∧
      (∀ v, p v → t.invalidating dom v = true) ∧ (∀ d v, d ≠ dom ∨ ¬ p v → t.invalidating d v = s.invalidating d v) ∧
      { t with cfg := s.cfg, invals := s.invals } = s
    busy (execInvalidatePage dom s) (fun v => v = first) ∧
    busy (execInvalidateRange dom count s) (fun v => first ≤ v ∧ v ≤ first + count) ∧
    busy (execInvalidateAll dom s) (fun v => v < 2 ^ 39) := by
  intro first busy
  have of : ∀ (o : Out) (kind count pages lo : Nat) (p : Nat → Prop), o = .next (s.invalidate dom kind count) → kind ≤ 2 →
      (lo = if kind = 2 then 0 else first) → (pages = if kind = 2 then 2 ^ 39 else if kind = 1 then count + 1 else 1) →
      (∀ v, p v ↔ lo ≤ v ∧ v < lo + pages) → busy o p := fun o kind count pages lo p ho hk hl hp hv => by
    obtain ⟨h1, h2, h3, h4⟩ := State.invalidate_spec (s := s) kind count lo pages hb hk hl hp
    exact ⟨_, ho, h1, fun v h => h2 v ((hv v).1 h), fun d v h => h3 d v (h.imp_right (mt (hv v).2)), h4⟩
  refine ⟨of _ 0 _ 1 first _ (State.byRegister_up hu _) ?_ rfl rfl ?_, of _ 1 count (count + 1) first _ (State.byRegister_up hu _) ?_ rfl rfl ?_,
    of _ 2 _ (2 ^ 39) 0 _ (State.byRegister_up hu _) ?_ rfl rfl ?_⟩ <;> intros <;> omega

theorem State.enterAll_of_none_late {s : State} (h : s.late = []) : s.enterAll = s := by
  simp [State.enterAll, State.enterSome, h]

theorem State.signalDue_iff (s : State) (dom : Nat) :
    s.signalDue dom = true ↔ ∃ x ∈ s.signals, x.dom = dom ∧ s.invalidating dom (x.va / 2 ^ 16) = true := by
  simp [State.signalDue]

/-- An invalidation waits for the completion signals that its pages' old translations have addressed (R356). -/
theorem execInvalidationComplete_due {s : State} {dom : Nat}
    (h : ∃ x ∈ s.signals, x.dom = dom ∧ s.invalidating dom (x.va / 2 ^ 16) = true) :
    execInvalidationComplete dom s = .next s :=
  if_pos ((s.signalDue_iff dom).2 h)

/-- The state when a domain's invalidation has completed, no write being late (R356). -/
def State.invalidated (s : State) (dom : Nat) : State :=
  State.setRegField
    { s with tlb := s.tlb.filter (fun e => !(e.dom == dom && s.invalidating dom e.vpage)),
             walks := s.walks.filter (fun e => !(e.dom == dom && s.walkInvalid e)),
             invals := s.invals.filter (fun x => x.1 != dom) } (.invctl dom) 32 1 0

theorem execInvalidationComplete_done {s : State} {dom : Nat} (hl : s.late = [])
    (h : ∀ x ∈ s.signals, x.dom = dom → s.invalidating dom (x.va / 2 ^ 16) = false) :
    execInvalidationComplete dom s = .next (s.invalidated dom) := by
  have hd : ¬ s.signalDue dom = true := by
    rw [State.signalDue_iff]
    rintro ⟨x, hx, hxd, hi⟩
    rw [h x hx hxd] at hi
    cases hi
  rw [execInvalidationComplete, if_neg hd, State.enterAll_of_none_late hl]
  rfl

theorem State.invalidated_invalidating (s : State) (dom d v : Nat) :
    (s.invalidated dom).invalidating d v = (d != dom && s.invalidating d v) := by
  have hi : (s.invalidated dom).invals = s.invals.filter (fun x => x.1 != dom) := rfl
  rw [State.invalidating, hi, List.any_filter]
  by_cases hd : d = dom
  · subst hd
    simp +contextual
  · have same : ∀ x : Nat × Nat × Nat, (x.1 != dom && (x.1 == d && decide (x.2.1 ≤ v) && decide (v < x.2.1 + x.2.2))) =
        (x.1 == d && decide (x.2.1 ≤ v) && decide (v < x.2.1 + x.2.2)) := fun x => by
      by_cases hx : x.1 = d <;> simp [hx, hd]
    simp [same, hd, State.invalidating]

/-- An invalidation completes: no unit and no walk cache holds a translation of its pages, and none of them is named any more (R356). -/
theorem State.invalidated_spec (s : State) (dom : Nat) :
    let t := s.invalidated dom
    t.regField (.invctl dom) 32 1 = 0 ∧ (∀ v, t.invalidating dom v = false) ∧
    (∀ e, e ∈ t.tlb ↔ e ∈ s.tlb ∧ ¬ (e.dom = dom ∧ s.invalidating dom e.vpage = true)) ∧
    (∀ e, e ∈ t.walks ↔ e ∈ s.walks ∧ ¬ (e.dom = dom ∧ s.walkInvalid e = true)) ∧
    (∀ d v, d ≠ dom → t.invalidating d v = s.invalidating d v) ∧
    { t with cfg := s.cfg, invals := s.invals, tlb := s.tlb, walks := s.walks } = s := by
  intro t
  have htlb : t.tlb = s.tlb.filter (fun e => !(e.dom == dom && s.invalidating dom e.vpage)) := rfl
  have hwalks : t.walks = s.walks.filter (fun e => !(e.dom == dom && s.walkInvalid e)) := rfl
  refine ⟨State.regField_setRegField _ _ 32 1 0 (by omega), fun v => ?_, fun e => ?_, fun e => ?_, fun d v hd => ?_, rfl⟩
  · simp [t, State.invalidated_invalidating]
  · simp [htlb, imp_iff_not_or]
  · simp [hwalks, imp_iff_not_or]
  · simp [t, State.invalidated_invalidating, hd]

/-! ### States that translate alike -/

/-- Two states agree in all that translation reads: the tables' bytes, the TLBs and walk caches, the indirection table, the keys, and the
registers that lead to a domain's tables (R353 to R357). -/
structure State.MapsLike (t s : State) : Prop where
  mem : t.mem = s.mem
  idt : t.idt = s.idt
  tlb : t.tlb = s.tlb
  walks : t.walks = s.walks
  keys : t.keys = s.keys
  dkey : ∀ d, t.reg (.dkey d) = s.reg (.dkey d)
  part : ∀ d, t.reg (.part d) = s.reg (.part d)
  ptroot : ∀ d, t.reg (.ptroot d) = s.reg (.ptroot d)
  idtcount : t.reg .idtcount = s.reg .idtcount

namespace State.MapsLike
variable {s t : State}

/-- States that differ in none of the fields concerned translate alike. -/
theorem of_fields (mem : t.mem = s.mem) (idt : t.idt = s.idt) (tlb : t.tlb = s.tlb) (walks : t.walks = s.walks)
    (keys : t.keys = s.keys) (cfg : t.cfg = s.cfg) : t.MapsLike s := by
  have reg : ∀ r, t.reg r = s.reg r := fun r => congrArg (getKey r (resetVal r)) cfg
  exact ⟨mem, idt, tlb, walks, keys, fun _ => reg _, fun _ => reg _, fun _ => reg _, reg _⟩

variable (h : t.MapsLike s)
include h

theorem isZp (k : Nat) : t.isZp k = s.isZp k := by simp only [State.isZp, State.idtOf, h.idt]

theorem byte (k : Nat) : t.byte k = s.byte k := by simp only [State.byte, h.isZp, h.mem]

theorem bytes : ∀ (n k : Nat), t.bytes k n = s.bytes k n
  | 0, _ => rfl
  | n + 1, k => by rw [State.bytes, State.bytes, h.byte, bytes n]

theorem mediaOk (k : Nat) : t.mediaOk k = s.mediaOk k := by simp only [State.mediaOk, State.idtOf, h.idt, h.idtcount]

theorem keyOf (dom : Nat) : t.keyOf dom = s.keyOf dom := by simp only [State.keyOf, h.dkey, h.keys]

theorem partOf (dom : Nat) : t.partOf dom = s.partOf dom := by simp only [State.partOf, State.regField, h.part]

theorem entryOf (die dom key level vpage : Nat) (node : Option Nat) :
    t.entryOf die dom key level vpage node = s.entryOf die dom key level vpage node := by
  simp only [State.entryOf, State.cachedEntry, State.pteAt, State.load, h.walks, h.bytes, h.mediaOk, h.partOf]

theorem walkFrom (die dom key vpage : Nat) : ∀ (level : Nat) (node : Option Nat),
    t.walkFrom die dom key vpage level node = s.walkFrom die dom key vpage level node
  | 0, _ => rfl
  | level + 1, node => by
    simp only [State.walkFrom, h.entryOf, walkFrom die dom key vpage level]

theorem ptrootField (dom lo n : Nat) : t.regField (.ptroot dom) lo n = s.regField (.ptroot dom) lo n := by
  rw [State.regField, State.regField, h.ptroot]

theorem walk (tu dom vpage : Nat) : t.walk tu dom vpage = s.walk tu dom vpage := by
  rw [State.walk, State.walk, h.keyOf]
  cases s.keyOf dom with
  | none => rfl
  | some key =>
    dsimp only
    rw [State.frameOf, State.frameOf, h.ptrootField, h.ptrootField, h.partOf, h.walkFrom]

theorem tlbHit (tu dom vpage : Nat) : t.tlbHit tu dom vpage = s.tlbHit tu dom vpage := by simp only [State.tlbHit, h.tlb]

theorem translate (tu dom vpage : Nat) : t.translate tu dom vpage = s.translate tu dom vpage := by
  rw [State.translate, State.translate, h.keyOf, h.tlbHit, h.walk]
  cases s.keyOf dom with
  | none => rfl
  | some key => rw [h.ptrootField]

theorem keyAt (dom : Nat) (m : Mapping) (off : Nat) : t.keyAt dom m off = s.keyAt dom m off := by
  simp only [State.keyAt, h.keyOf]

theorem reach (tu dom va : Nat) (write : Bool) : t.reach tu dom va write = s.reach tu dom va write := by
  simp only [State.reach, h.translate, h.keyAt]

theorem reachAt (tu dom va : Nat) (write : Bool) : t.reachAt tu dom va write = s.reachAt tu dom va write := by
  simp only [State.reachAt, h.translate, h.keyAt]

end State.MapsLike

/-- A register that leads to no table changes no translation. -/
theorem State.setReg_mapsLike (s : State) {r : Reg} (v : DWord) (hd : ∀ d, .dkey d ≠ r) (hp : ∀ d, .part d ≠ r)
    (ht : ∀ d, .ptroot d ≠ r) (hi : .idtcount ≠ r) : (s.setReg r v).MapsLike s := by
  constructor <;> simp [hd, hp, ht, hi]

/-! ### Splits that wait on page requests (R363, R364) -/

theorem Watch.splits_mapSplits (w : Watch) (f : Split → Split) : (w.mapSplits f).splits = w.splits.map f := rfl

/-- A change that keeps what is resident changes the resident watches one by one. -/
theorem State.mapWatches_watches (s : State) {f : Watch → Watch} (hf : ∀ w, (f w).resident = w.resident) :
    (s.mapWatches f).watches = s.watches.map f := by
  have hf : Watch.resident ∘ f = Watch.resident := funext hf
  change ((s.ctx :: s.others).map f).filter Watch.resident = ((s.ctx :: s.others).filter Watch.resident).map f
  rw [List.filter_map, hf]

/-- A split of a resident watch stands at a PC and waits so. -/
def State.splitAt (s : State) (r : WatchRef) (id : Nat) (pc : DWord) (x : Wait) : Prop :=
  ∃ w p, s.findSplit r id = some (w, p) ∧ p.pc = pc ∧ p.wait = x

theorem State.splitAt_congr {s t : State} (hc : t.ctx = s.ctx) (ho : t.others = s.others) {r : WatchRef} {id : Nat} {pc : DWord}
    {x : Wait} (h : s.splitAt r id pc x) : t.splitAt r id pc x := by
  have hw : t.watches = s.watches := by rw [State.watches, State.watches, hc, ho]
  simpa only [State.splitAt, State.findSplit, hw] using h

/-- A change of one split of a watch is found in that split, and in no other. -/
theorem State.findSplit_modSplit {s : State} {r : WatchRef} {id : Nat} {w : Watch} {p : Split} (h : s.findSplit r id = some (w, p))
    (q : WatchRef) (n : Nat) {f : Split → Split} (hf : ∀ p, (f p).id = p.id) :
    ∃ v, (s.modSplit q n f).findSplit r id = some (v, if q = r ∧ n = id then f p else p) := by
  set g : Split → Split := fun p => if p.id = n then f p else p with hg
  set F : Watch → Watch := fun w => if w.resident ∧ w.ref = q then w.mapSplits g else w with hF
  have hw : (s.modSplit q n f).watches = s.watches.map F :=
    State.mapWatches_watches s (f := F) fun w => by simp only [hF]; split <;> rfl
  have href : ∀ w, (F w).ref = w.ref := fun w => by simp only [hF]; split <;> rfl
  have hid : ∀ p, (g p).id = p.id := fun p => by simp only [hg]; split <;> simp [hf]
  obtain ⟨w', hfw, hp⟩ := Option.bind_eq_some_iff.1 h
  obtain ⟨p', hfp, e⟩ := Option.map_eq_some_iff.1 hp
  obtain ⟨rfl, rfl⟩ := Prod.mk.inj e
  have hres : w'.resident = true := by simpa [State.watches] using (List.mem_filter.1 (List.mem_of_find?_eq_some hfw)).2
  have hwr : w'.ref = r := by simpa using List.find?_some hfw
  have hpi : p'.id = id := by simpa using List.find?_some hfp
  have hFw : (s.modSplit q n f).watches.find? (fun w => decide (w.ref = r)) = some (F w') := by
    rw [hw, List.find?_map]
    simp only [Function.comp_def, href, hfw, Option.map_some]
  refine ⟨F w', ?_⟩
  rw [State.findSplit, hFw, Option.bind_some]
  by_cases hq : q = r
  · have : (F w').splits = w'.splits.map g := by
      simp only [hF, hres, hwr, hq, and_self, if_true]
      rfl
    rw [this, List.find?_map]
    simp only [Function.comp_def, hid, hfp, Option.map_some]
    simp [hg, hpi, hq, eq_comm]
  · have : F w' = w' := by simp [hF, hwr, Ne.symm hq]
    simp [this, hfp, hq]

@[simp] theorem State.modSplit_prq (s : State) (r : WatchRef) (id : Nat) (f : Split → Split) : (s.modSplit r id f).prq = s.prq := rfl

/-- What an answer makes of a split that waits for the page (R364). -/
def Split.answer (dom vpage : Nat) (decline : Bool) (time : Nat) (p : Split) : Split :=
  if p.wait = .page dom vpage then { p with wait := if decline then .declined dom vpage else .none, since := time } else p

theorem Split.answer_id (dom vpage : Nat) (decline : Bool) (time : Nat) (p : Split) : (p.answer dom vpage decline time).id = p.id := by
  unfold Split.answer; split <;> rfl

theorem Split.answer_pc (dom vpage : Nat) (decline : Bool) (time : Nat) (p : Split) : (p.answer dom vpage decline time).pc = p.pc := by
  unfold Split.answer; split <;> rfl

theorem Split.answer_wait (dom vpage : Nat) (decline : Bool) (time : Nat) (p : Split) :
    (p.answer dom vpage decline time).wait =
      if p.wait = .page dom vpage then (if decline then .declined dom vpage else .none) else p.wait := by
  unfold Split.answer; split <;> rfl

theorem State.answerWaiter_split (s : State) (dom vpage : Nat) (decline : Bool) (r : WatchRef) (id : Nat) :
    s.answerWaiter dom vpage decline (.split r id) = s.modSplit r id (Split.answer dom vpage decline s.time) := rfl

/-- An answer reaches the split that waits. -/
theorem State.splitAt_answerWaiter_self {s : State} {r : WatchRef} {id : Nat} {pc : DWord} {x : Wait} (h : s.splitAt r id pc x)
    (dom vpage : Nat) (decline : Bool) :
    (s.answerWaiter dom vpage decline (.split r id)).splitAt r id pc
      (if x = .page dom vpage then (if decline then .declined dom vpage else .none) else x) := by
  obtain ⟨w, p, hf, rfl, rfl⟩ := h
  obtain ⟨v, hv⟩ := State.findSplit_modSplit hf r id (Split.answer_id dom vpage decline s.time)
  rw [if_pos ⟨rfl, rfl⟩] at hv
  exact ⟨v, _, hv, Split.answer_pc .., Split.answer_wait ..⟩

/-- An answer that is a response leaves a split as it waits, or lets it try again (R364). -/
theorem State.splitAt_respond {s : State} {r : WatchRef} {id : Nat} {pc : DWord} {x : Wait} (h : s.splitAt r id pc x)
    (dom vpage : Nat) (a : Waiter) : ∃ y, (s.answerWaiter dom vpage false a).splitAt r id pc y ∧ (y = x ∨ y = .none) := by
  cases a with
  | split q n =>
    by_cases hq : q = r ∧ n = id
    · obtain ⟨rfl, rfl⟩ := hq
      refine ⟨_, State.splitAt_answerWaiter_self h dom vpage false, ?_⟩
      split <;> simp
    · obtain ⟨w, p, hf, hpc, hx⟩ := h
      obtain ⟨v, hv⟩ := State.findSplit_modSplit hf q n (Split.answer_id dom vpage false s.time)
      rw [if_neg hq] at hv
      exact ⟨x, ⟨v, p, hv, hpc, hx⟩, .inl rfl⟩
  | cmd n => exact ⟨x, State.splitAt_congr rfl rfl h, .inl rfl⟩
  | io q => exact ⟨x, State.splitAt_congr rfl rfl h, .inl rfl⟩
  | place core => exact ⟨x, h, .inl rfl⟩

/-- The response to an entry lets each split on it try again. -/
theorem State.splitAt_responses {dom vpage : Nat} {r : WatchRef} {id : Nat} {pc : DWord} : ∀ (as : List Waiter) {s : State} {x : Wait},
    s.splitAt r id pc x → x = .page dom vpage ∨ x = .none → .split r id ∈ as ∨ x = .none →
      (as.foldl (fun s a => s.answerWaiter dom vpage false a) s).splitAt r id pc .none
  | [], s, x, h, _, hm => by
    obtain rfl : x = .none := hm.resolve_left (by simp)
    exact h
  | a :: as, s, x, h, hx, hm => by
    by_cases ha : a = .split r id
    · subst ha
      refine State.splitAt_responses as (State.splitAt_answerWaiter_self h dom vpage false) (.inr ?_) (.inr ?_) <;>
        rcases hx with rfl | rfl <;> simp
    · obtain ⟨y, hy, hyx⟩ := State.splitAt_respond h dom vpage a
      refine State.splitAt_responses as hy ?_ ?_
      · rcases hyx with rfl | rfl
        · exact hx
        · exact .inr rfl
      · rcases hyx with rfl | rfl
        · exact hm.imp_left fun hm => (List.mem_cons.1 hm).resolve_left (Ne.symm ha)
        · exact .inr rfl

theorem State.answerWaiter_respond_prq (s : State) (dom vpage : Nat) (a : Waiter) :
    (s.answerWaiter dom vpage false a).prq = s.prq := by cases a <;> rfl

theorem State.responses_prq (dom vpage : Nat) (as : List Waiter) (s : State) :
    (as.foldl (fun s a => s.answerWaiter dom vpage false a) s).prq = s.prq := by
  induction as generalizing s with
  | nil => rfl
  | cons a as ih => exact (ih _).trans (s.answerWaiter_respond_prq dom vpage a)

/-- The state in which an answered entry has left the queue (R363). -/
def State.freeEntry (s : State) (dom tag : Nat) : State :=
  { s with prq := s.prq.filter (fun x => !(x.tag == tag && x.dom == dom)) }

theorem State.mem_freeEntry {s : State} {dom tag : Nat} (x : PageReq) :
    x ∈ (s.freeEntry dom tag).prq ↔ x ∈ s.prq ∧ ¬ (x.tag = tag ∧ x.dom = dom) := by
  simp [State.freeEntry, imp_iff_not_or]

theorem State.prqAnswer_found {s : State} {dom tag : Nat} {e : PageReq} (decline : Bool)
    (h : s.prq.find? (fun e => e.tag == tag && e.dom == dom) = some e) :
    s.prqAnswer dom tag decline = e.waiters.foldl (fun s w => s.answerWaiter dom e.vpage decline w) (s.freeEntry dom tag) := by
  rw [State.prqAnswer, h]
  rfl

/-- A tag that the domain does not hold is ignored. -/
theorem State.prqAnswer_none {s : State} {dom tag : Nat} (decline : Bool) (h : ∀ e ∈ s.prq, ¬ (e.tag = tag ∧ e.dom = dom)) :
    s.prqAnswer dom tag decline = s := by
  have : s.prq.find? (fun e => e.tag == tag && e.dom == dom) = none := List.find?_eq_none.2 fun e he => by simpa using h e he
  rw [State.prqAnswer, this]

/-- Answers are ignored while the module is not up (R407), and so are those with a tag that the domain does not hold (R364). -/
theorem prqAnswers_ignored {s : State} {dom tag : Nat} (h : s.isUp = false ∨ ∀ e ∈ s.prq, ¬ (e.tag = tag ∧ e.dom = dom)) :
    execPrqResponse dom tag s = .next s ∧ execPrqDecline dom tag s = .next s := by
  have same : ∀ decline, s.byRegister (·.prqAnswer dom tag decline) = .next s := fun decline => by
    rcases h with h | h
    · exact State.byRegister_down h _
    · rw [State.byRegister, State.prqAnswer_none decline h, ite_self]
  exact ⟨same false, same true⟩

/-- A response lets the splits on its entry try again (R364). -/
theorem prqResponse_releases {s : State} {dom tag id : Nat} {r : WatchRef} {w : Watch} {p : Split} {e : PageReq} (hu : s.isUp = true)
    (he : s.prq.find? (fun e => e.tag == tag && e.dom == dom) = some e) (hf : s.findSplit r id = some (w, p))
    (hp : p.wait = .page dom e.vpage) (hm : Waiter.split r id ∈ e.waiters) :
    ∃ t, execPrqResponse dom tag s = .next t ∧ (∀ x, x ∈ t.prq ↔ x ∈ s.prq ∧ ¬ (x.tag = tag ∧ x.dom = dom)) ∧
      ∃ w' p', t.findSplit r id = some (w', p') ∧ p'.wait = .none ∧ p'.pc = p.pc := by
  have h0 : (s.freeEntry dom tag).splitAt r id p.pc (.page dom e.vpage) := State.splitAt_congr rfl rfl ⟨w, p, hf, rfl, hp⟩
  obtain ⟨w', p', hf', hpc, hwait⟩ := State.splitAt_responses e.waiters h0 (.inl rfl) (.inl hm)
  refine ⟨_, State.byRegister_up hu _, fun x => ?_, w', p', ?_, hwait, hpc⟩
  · rw [State.prqAnswer_found false he, State.responses_prq, State.mem_freeEntry]
  · rw [State.prqAnswer_found false he, hf']

/-- A decline lets the split that waits on its entry meet the fault (R364). -/
theorem prqDecline_declines {s : State} {dom tag id : Nat} {r : WatchRef} {w : Watch} {p : Split} {e : PageReq} (hu : s.isUp = true)
    (he : s.prq.find? (fun e => e.tag == tag && e.dom == dom) = some e) (hf : s.findSplit r id = some (w, p))
    (hp : p.wait = .page dom e.vpage) (hm : e.waiters = [.split r id]) :
    ∃ t, execPrqDecline dom tag s = .next t ∧ (∀ x, x ∈ t.prq ↔ x ∈ s.prq ∧ ¬ (x.tag = tag ∧ x.dom = dom)) ∧
      ∃ w' p', t.findSplit r id = some (w', p') ∧ p'.wait = .declined dom e.vpage ∧ p'.pc = p.pc := by
  have h0 : (s.freeEntry dom tag).splitAt r id p.pc (.page dom e.vpage) := State.splitAt_congr rfl rfl ⟨w, p, hf, rfl, hp⟩
  obtain ⟨w', p', hf', hpc, hwait⟩ := State.splitAt_answerWaiter_self h0 dom e.vpage true
  have ht : s.prqAnswer dom tag true = (s.freeEntry dom tag).answerWaiter dom e.vpage true (.split r id) := by
    rw [State.prqAnswer_found true he, hm]
    rfl
  refine ⟨_, State.byRegister_up hu _, fun x => ?_, w', p', ?_, by simpa using hwait, hpc⟩
  · rw [ht, State.answerWaiter_split, State.modSplit_prq, State.mem_freeEntry]
  · rw [ht, hf']

/-- Faults on a page that an entry holds are not tried again (R363). -/
theorem execPageRequestRetry_held {s : State} {dom vpage : Nat} (h : ∃ e ∈ s.prq, e.dom = dom ∧ e.vpage = vpage) :
    execPageRequestRetry dom vpage s = .next s :=
  if_pos (by simpa using h)

/-- A split that waits for a page tries again (R363). -/
def Split.retry (dom vpage : Nat) (p : Split) : Split := if p.wait = .page dom vpage then { p with wait := .none } else p

theorem Split.retry_wait (dom vpage : Nat) (p : Split) : (p.retry dom vpage).wait ≠ .page dom vpage := by
  unfold Split.retry
  split
  · simp
  · assumption

/-- Faults that hold no entry are tried again: nothing waits for the page any more (R363). -/
theorem execPageRequestRetry_free {s : State} {dom vpage : Nat} (h : ∀ e ∈ s.prq, ¬ (e.dom = dom ∧ e.vpage = vpage)) :
    ∃ t, execPageRequestRetry dom vpage s = .next t ∧
      (∀ x ∈ t.watches, ∀ q ∈ x.splits, q.wait ≠ .page dom vpage) ∧ (∀ c ∈ t.cmds, c.dom = dom → c.stall ≠ some vpage) ∧
      (∀ c ∈ t.mats, c.dom = dom → c.stall ≠ some vpage) ∧
      { t with ctx := s.ctx, others := s.others, cmds := s.cmds, mats := s.mats, served := s.served } = s := by
  have hn : ¬ s.prq.any (fun e => e.dom == dom && e.vpage == vpage) = true := by simpa using h
  refine ⟨_, if_neg hn, fun x hx q hq => ?_, fun c hc hd => ?_, fun c hc hd => ?_, rfl⟩
  · have hw : x ∈ (s.mapWatches fun w => w.mapSplits (Split.retry dom vpage)).watches := hx
    rw [State.mapWatches_watches s (f := fun w => w.mapSplits (Split.retry dom vpage)) fun _ => rfl] at hw
    obtain ⟨w, -, rfl⟩ := List.mem_map.1 hw
    rw [Watch.splits_mapSplits] at hq
    obtain ⟨p, -, rfl⟩ := List.mem_map.1 hq
    exact p.retry_wait dom vpage
  · obtain ⟨c, -, rfl⟩ := List.mem_map.1 hc
    by_cases h : c.dom = dom ∧ c.stall = some vpage
    · simp [h]
    · rw [if_neg h] at hd ⊢
      exact fun e => h ⟨hd, e⟩
  · obtain ⟨c, -, rfl⟩ := List.mem_map.1 hc
    by_cases h : c.dom = dom ∧ c.stall = some vpage
    · simp [h]
    · rw [if_neg h] at hd ⊢
      exact fun e => h ⟨hd, e⟩

theorem execPrqheadWrite_down {s : State} {dom : Nat} {v : DWord} (h : s.isUp = false) : execPrqheadWrite dom v s = .next s :=
  State.byRegister_down h _

/-- With no record held back, a write of PRQHEAD is only that (R364). -/
theorem execPrqheadWrite_sent {s : State} {dom : Nat} {v : DWord} (hu : s.isUp = true) (h : ∀ e ∈ s.prq, e.dom = dom → e.sent = true) :
    execPrqheadWrite dom v s = .next (s.setReg (.prqhead dom) (v &&& 0xFFFF#64)) := by
  have hn : s.prq.filter (fun e => e.dom == dom && !e.sent) = [] := List.filter_eq_nil_iff.2 fun e he => by
    simpa using h e he
  rw [execPrqheadWrite, State.byRegister_up hu, State.sendReqs, State.setReg_prq, hn]
  rfl


theorem PageReq.bytes_length (e : PageReq) : e.bytes.length = 32 := by simp [PageReq.bytes]

theorem State.put_cfg (s : State) (tr : Trail) (k : Nat) (bs : List Byte) : (s.put tr k bs).cfg = s.cfg := by
  unfold State.put State.followed State.openPage
  dsimp only
  (repeat' split) <;> rfl

theorem State.put_msix (s : State) (tr : Trail) (k : Nat) (bs : List Byte) : (s.put tr k bs).msix = s.msix := by
  unfold State.put State.followed State.openPage
  dsimp only
  (repeat' split) <;> rfl

/-- Where the record of the next request of a domain goes (R364). -/
def State.prqSlot (s : State) (dom : Nat) : Nat :=
  s.regField (.prqring dom) 12 43 * 2 ^ 12 + 32 * (s.regField (.prqtail dom) 0 16 % prqLen (s.regField (.prqring dom) 0 4))

/-- The record of an entry stands in the ring: TAIL goes on, the entry is marked and the vector is raised (R364). -/
def State.noteSent (s : State) (e : PageReq) (tail : Nat) : State :=
  let t := s.setReg (.prqtail e.dom) (BitVec.ofNat 64 (tail % 2 ^ 16))
  State.raiseMsix { t with prq := t.prq.map (fun (x : PageReq) => if x.tag = e.tag then { x with sent := true } else x) } e.dom 1

theorem State.noteSent_reg (s : State) (e : PageReq) (tail : Nat) (r : Reg) :
    (s.noteSent e tail).reg r = if r = .prqtail e.dom then BitVec.ofNat 64 (tail % 2 ^ 16) else s.reg r := s.setReg_reg _ r _

theorem State.noteSent_tail (s : State) (e : PageReq) (tail : Nat) :
    (s.noteSent e tail).regField (.prqtail e.dom) 0 16 = tail % 2 ^ 16 := by
  rw [State.regField, State.noteSent_reg, if_pos rfl]
  simp only [field, bitsAt, BitVec.toNat_ofNat]
  omega

theorem State.noteSent_sent {s : State} {e : PageReq} {tail : Nat} {x : PageReq} (hx : x ∈ (s.noteSent e tail).prq)
    (ht : x.tag = e.tag) : x.sent = true := by
  obtain ⟨y, -, rfl⟩ := List.mem_map.1 hx
  by_cases h : y.tag = e.tag
  · simp [h]
  · rw [if_neg h] at ht
    exact absurd ht h

theorem State.noteSent_msix (s : State) (e : PageReq) (tail : Nat) : (s.noteSent e tail).msix = (e.dom, 1) :: s.msix := rfl
theorem State.noteSent_byte (s : State) (e : PageReq) (tail a : Nat) : (s.noteSent e tail).byte a = s.byte a := rfl

/-- A record goes into a ring that has room and can be written (R364). -/
theorem State.sendReq_room {s : State} {e : PageReq} {k : Nat}
    (hr : (s.regField (.prqtail e.dom) 0 16 + 2 ^ 16 - s.regField (.prqhead e.dom) 0 16) % 2 ^ 16 <
      prqLen (s.regField (.prqring e.dom) 0 4))
    (hk : s.reach ioUnit e.dom (s.prqSlot e.dom) true = some k) :
    s.sendReq e = (s.write k e.bytes).noteSent e (s.regField (.prqtail e.dom) 0 16 + 1) := by
  unfold State.sendReq
  dsimp only
  rw [if_neg (Nat.not_le.2 hr)]
  change (match s.reach ioUnit e.dom (s.prqSlot e.dom) true with
    | none => s
    | some k => (s.write k e.bytes).noteSent e (s.regField (.prqtail e.dom) 0 16 + 1)) = _
  rw [hk]

/-- A record's bytes stand where they were written. -/
theorem State.write_record_byte {s : State} {bs : List Byte} {k i : Nat} (hl : bs.length = 32) (hw : Memory.wf s.mem = true)
    (hp : pageOf k = pageOf (k + 31)) (hs : k + 32 ≤ 2 ^ 58 ∨ 2 ^ 58 ≤ k) (hi : i < 32) :
    (s.write k bs).byte (k + i) = bs.getD i 0 := by
  have hpage : pageOf (k + i) = pageOf k := by
    unfold pageOf at *
    omega
  have hb := State.put_inside hw {} k bs (a := k + i) (by omega) hpage (by omega)
  rwa [Nat.add_sub_cancel_left] at hb

/-- A write of PRQHEAD makes room for the one record that the ring held back (R364). -/
theorem execPrqheadWrite_held {s : State} {dom : Nat} {v : DWord} {e : PageReq} {k : Nat} (hu : s.isUp = true)
    (he : s.prq.filter (fun e => e.dom == dom && !e.sent) = [e])
    (hr : (s.regField (.prqtail dom) 0 16 + 2 ^ 16 - (v &&& 0xFFFF#64).toNat) % 2 ^ 16 < prqLen (s.regField (.prqring dom) 0 4))
    (hk : s.reach ioUnit dom (s.prqSlot dom) true = some k) (hw : Memory.wf s.mem = true) (hp : pageOf k = pageOf (k + 31))
    (hs : k + 32 ≤ 2 ^ 58 ∨ 2 ^ 58 ≤ k) :
    ∃ t, execPrqheadWrite dom v s = .next t ∧ t.reg (.prqhead dom) = v &&& 0xFFFF#64 ∧
      t.regField (.prqtail dom) 0 16 = (s.regField (.prqtail dom) 0 16 + 1) % 2 ^ 16 ∧ (∀ x ∈ t.prq, x.tag = e.tag → x.sent = true) ∧
      (∀ i < 32, t.byte (k + i) = e.bytes.getD i 0) ∧ t.msix = (dom, 1) :: s.msix := by
  have hd : e.dom = dom := by
    have hm : e ∈ s.prq.filter (fun e => e.dom == dom && !e.sent) := by simp [he]
    simpa using (Bool.and_eq_true_iff.1 (List.mem_filter.1 hm).2).1
  subst hd
  set u := s.setReg (.prqhead e.dom) (v &&& 0xFFFF#64) with hu'
  have hmaps : u.MapsLike s := s.setReg_mapsLike _ (by simp) (by simp) (by simp) (by simp)
  have hring : ∀ lo n, u.regField (.prqring e.dom) lo n = s.regField (.prqring e.dom) lo n := fun lo n => by
    simp [u, State.regField]
  have htail : u.regField (.prqtail e.dom) 0 16 = s.regField (.prqtail e.dom) 0 16 := by simp [u, State.regField]
  have hheadReg : u.reg (.prqhead e.dom) = v &&& 0xFFFF#64 := by simp [u]
  have hhead : u.regField (.prqhead e.dom) 0 16 = (v &&& 0xFFFF#64).toNat := by
    have : (v &&& 0xFFFF#64).toNat < 2 ^ 16 := by
      rw [BitVec.toNat_and]
      exact Nat.lt_of_le_of_lt Nat.and_le_right (by decide)
    rw [State.regField, hheadReg, field, bitsAt]
    omega
  have hslot : u.reach ioUnit e.dom (u.prqSlot e.dom) true = some k := by
    rw [hmaps.reach, State.prqSlot, hring, hring, htail]
    exact hk
  set n := s.regField (.prqtail e.dom) 0 16 + 1 with hn
  have hsend : u.sendReqs e.dom = (u.write k e.bytes).noteSent e n := by
    have hf : u.prq.filter (fun x => x.dom == e.dom && !x.sent) = [e] := he
    rw [State.sendReqs, hf, List.foldl_cons, List.foldl_nil, State.sendReq_room (by rw [htail, hhead, hring]; exact hr) hslot, htail]
  refine ⟨(u.write k e.bytes).noteSent e n, by rw [execPrqheadWrite, State.byRegister_up hu, ← hu', hsend], ?_, ?_, ?_, ?_, ?_⟩
  · rw [State.noteSent_reg, if_neg (by simp), State.reg, State.write, State.put_cfg]
    exact hheadReg
  · exact State.noteSent_tail ..
  · exact fun x => State.noteSent_sent
  · intro i hi
    rw [State.noteSent_byte, State.write_record_byte (s := u) e.bytes_length hw hp hs hi]
  · rw [State.noteSent_msix, State.write, State.put_msix]
    rfl

/-- Settles O56: what a walk finds and keeps (`pageTableWalk_mapped`, `pageTableWalk_unmapped`), how an invalidation begins and
completes (`invalidations_begin`, `State.invalidated_spec`), and what becomes of the waiters of a page request and of its record. -/
theorem translationAndRequests : Obligations.TranslationAndRequests := by
  refine ⟨fun s tu dom vpage count out => ?_, fun s dom vpage tag id r w p v => ?_⟩
  · exact ⟨fun m => pageTableWalk_mapped, pageTableWalk_unmapped, execPageTableWalk_blocked, fun hu => invalidations_ignored (.inl hu),
      fun hb => invalidations_ignored (.inr hb), invalidations_begin, execInvalidationComplete_due,
      fun hl h => ⟨_, execInvalidationComplete_done hl h, s.invalidated_spec dom⟩⟩
  · exact ⟨fun hu => ⟨(prqAnswers_ignored (.inl hu)).1, (prqAnswers_ignored (.inl hu)).2, execPrqheadWrite_down hu⟩,
      fun e hu he hf hp => ⟨prqResponse_releases hu he hf hp, prqDecline_declines hu he hf hp⟩,
      fun h => prqAnswers_ignored (.inr h), execPageRequestRetry_held, execPageRequestRetry_free, execPrqheadWrite_sent,
      fun e k => execPrqheadWrite_held⟩

end Sys2Proof.Machine

namespace Sys2Proof.Machine

/-!
O48. The matrix class at issue. The checks of a command pass under the conditions of R259 and R285, a checked command is queued or waits
(`State.queueMat_full`, `State.queueMat_room`), and ANCHOR's exponent brackets the greatest product.
-/

/-! ### The front of a matrix command (R298, R62) -/

section
variable {s : State} {group : Option Nat} {maj : Nat} {srcs : List Src} {k : State → Out} (ha : s.admits group)
include ha

theorem State.matFront_leeway (hc : s.ctx.cls = 2) :
    s.matFront group maj srcs k = .next (s.takeTrap causeLeeway s.ctx.k0 (BitVec.ofNat 64 maj)) := by
  rw [State.matFront, State.enter_eq ha, if_pos hc]

theorem State.matFront_empty (hc : s.ctx.cls ≠ 2) (hk : s.ctx.k0 = 0) : s.matFront group maj srcs k = .next (s.advance 8) := by
  rw [State.matFront, State.enter_eq ha, if_neg hc, if_pos hk]

theorem State.matFront_reads (hc : s.ctx.cls ≠ 2) (hk : s.ctx.k0 ≠ 0) (hr : s.ctx.uniReads srcs) :
    s.matFront group maj srcs k = k s := by
  rw [State.matFront, State.enter_eq ha, if_neg hc, if_neg hk, (State.uniFront_eq_none s srcs).2 hr, orElse_none]

end

/-- The commands of the class, with their feature groups and majors (R276, R284). -/
def matrixCmds (e : FmtE) : List (Instr × Option Nat × DWord) :=
  [(.mma e, some 0, 0xB0), (.mmap e, some 0, 0xB1), (.mmas e, some 1, 0xB2), (.mmasp e, some 1, 0xB2), (.accinit e, none, 0xB3),
   (.accrd e, none, 0xB5), (.accrdw e, none, 0xB6), (.accadd e, some 0, 0xB7), (.accstat e, none, 0xB8)]

/-- An outcome is that of a matrix command's front. -/
def State.FrontOf (s : State) (o : Out) (group : Option Nat) (m : DWord) : Prop :=
  ∃ maj srcs k, m = BitVec.ofNat 64 maj ∧ o = s.matFront group maj srcs k

theorem State.frontOf_product (s : State) (e : FmtE) (g maj : Nat) (sparse paired : Bool) :
    s.FrontOf (s.product e g maj sparse paired) (some g) (BitVec.ofNat 64 maj) := ⟨maj, _, _, rfl, rfl⟩

theorem State.frontOf_tileCmd (s : State) (e : FmtE) (group : Option Nat) (maj : Nat) (op : MatOp) (clear : Bool) (format units : Shape → Nat) :
    s.FrontOf (s.tileCmd e group maj op clear format units) group (BitVec.ofNat 64 maj) := ⟨maj, _, _, rfl, rfl⟩

theorem State.frontOf_execAccrd (s : State) (e : FmtE) : s.FrontOf (execAccrd e s) none 0xB5 := by
  unfold execAccrd
  exact s.frontOf_tileCmd ..

theorem State.frontOf_execAccrdw (s : State) (e : FmtE) : s.FrontOf (execAccrdw e s) none 0xB6 := by
  unfold execAccrdw
  exact s.frontOf_tileCmd ..

theorem State.frontOf_execAccadd (s : State) (e : FmtE) : s.FrontOf (execAccadd e s) (some 0) 0xB7 := by
  unfold execAccadd
  exact s.frontOf_tileCmd ..

theorem State.frontOf_execAccinit (s : State) (e : FmtE) : s.FrontOf (execAccinit e s) none 0xB3 := ⟨0xB3, _, _, rfl, rfl⟩

theorem State.frontOf_execAccstat (s : State) (e : FmtE) : s.FrontOf (execAccstat e s) none 0xB8 := ⟨0xB8, _, _, rfl, rfl⟩

theorem exec_matrixCmds (s : State) {e : FmtE} {i : Instr × Option Nat × DWord} (h : i ∈ matrixCmds e) :
    s.FrontOf (exec i.1 s) i.2.1 i.2.2 := by
  simp only [matrixCmds, List.mem_cons, List.not_mem_nil, or_false] at h
  rcases h with rfl | rfl | rfl | rfl | rfl | rfl | rfl | rfl | rfl
  · exact s.frontOf_product e 0 0xB0 false false
  · exact s.frontOf_product e 0 0xB1 false true
  · exact s.frontOf_product e 1 0xB2 true false
  · exact s.frontOf_product e 1 0xB2 true true
  · exact s.frontOf_execAccinit e
  · exact s.frontOf_execAccrd e
  · exact s.frontOf_execAccrdw e
  · exact s.frontOf_execAccadd e
  · exact s.frontOf_execAccstat e

/-! ### The checks of a command (R259, R285) -/

theorem State.checkAll_ok (s : State) (write : Bool) (m : Option Mask) (l o : Nat) (t : Target) :
    s.checkAll write m [⟨l, o, .ok t⟩] = .ok [(l, t)] := by
  simp [State.checkAll, Verdict.order]

/-- An object at a scratchpad address that passes the checks raises no fault. -/
theorem State.objFault_none {s : State} {o : Nat} (h : ∃ t, s.judgeSpad { size := 16, rd := true, wr := false } o = .ok t) :
    s.objFault [o] = none := by
  obtain ⟨t, ht⟩ := h
  simp only [State.objFault, List.map_cons, List.map_nil, ht, State.checkAll_ok, firstFault]

theorem firstFault_eq_none {l : List (Option State)} (h : ∀ x ∈ l, x = none) : firstFault l = none := by
  induction l with
  | nil => rfl
  | cons x l ih =>
    obtain rfl := h x (List.mem_cons_self ..)
    exact ih fun y hy => h y (List.mem_cons_of_mem _ hy)

/-- The rows of a command lie among the gang's own, and its block has a partner where it wants one (R285). -/
theorem State.rowFault_none {s : State} {row n : Nat} {pair : Bool} (h : row + n ≤ s.ownRows ∧ (pair = true → s.partnerRank ≠ none)) :
    s.rowFault row n pair = none := by
  obtain ⟨hr, hp⟩ := h
  rw [State.rowFault, if_neg (Nat.not_lt.2 hr), if_neg]
  rintro ⟨h1, h2⟩
  exact hp h1 (Option.isNone_iff_eq_none.1 h2)

theorem State.tileFault_none {s : State} {e : FmtE} {h : Shape} {col row : Nat} (h2 : shBox h 2 = 1) (h3 : shBox h 3 = 1)
    (hc : col + shBox h 0 ≤ if pairFlag e then 512 else 256)
    (hr : row + shBox h 1 ≤ s.ownRows ∧ (pairFlag e = true → s.partnerRank ≠ none)) : s.tileFault e h col row = none := by
  rw [State.tileFault, if_neg (by omega), State.rowFault_none hr]

theorem tileSide_iff (x limit : Nat) : tileSide x limit = true ↔ x % 32 = 0 ∧ 32 ≤ x ∧ x ≤ limit := by
  simp [tileSide, and_assoc]

/-- The formats that multiply, dense and sparse (R278). -/
theorem productPair_iff (sparse : Bool) (fa fb : Nat) : productPair sparse fa fb = true ↔
    if sparse then (fa ∈ [14, 15] ∧ fb ∈ [3, 4]) ∨ (fa = 16 ∧ fb ∈ [10, 11])
    else (fa ∈ [3, 4] ∧ fb ∈ [3, 4]) ∨ (fa ∈ [10, 11] ∧ fb ∈ [10, 11]) ∨ (fa = fb ∧ fa ∈ [1, 2, 5]) := by
  cases sparse with
  | true => simp [productPair]
  | false =>
    simp [productPair]
    omega

/-- The left operand of a product that is sparse, and only of one, has a sparse format (R278). -/
theorem isSparse_of_productPair {sparse : Bool} {fa fb : Nat} (h : productPair sparse fa fb = true) : isSparse fa = sparse := by
  rw [productPair_iff] at h
  cases sparse <;> simp [isSparse] at h ⊢ <;> omega

/-- Granules of K of a product, and its K (R277, R279). -/
theorem kOf_of_productPair {sparse : Bool} {a : Shape} {fb : Nat} (h : productPair sparse (shFmt a) fb = true) :
    granule a = (if sparse then 192 else 32) ∧ kOf a = if sparse then 192 * shBox a 0 else shBox a 0 := by
  rw [granule, kOf, isSparse_of_productPair h]
  exact ⟨rfl, rfl⟩

/-- The conditions under which a product passes the checks of the whole command (R285). -/
theorem State.productFault_none {s : State} {e : FmtE} {a b : Shape} {sparse paired : Bool} {row col : Nat}
    (hf : productPair sparse (shFmt a) (shFmt b) = true) (ha : shBox a 2 = 1 ∧ shBox a 3 = 1) (hb : shBox b 2 = 1 ∧ shBox b 3 = 1)
    (hm : tileSide (shBox a 1) 256 = true) (hk : kOf a % granule a = 0 ∧ kOf a ≠ 0 ∧ kOf a ≤ 4064)
    (hn : tileSide (shBox b 1) (if paired then 512 else 256) = true) (hkb : shBox b 0 = kOf a)
    (hc : col % 32 = 0 ∧ col + shBox b 1 ≤ if paired then 512 else 256)
    (hr : row + shBox a 1 ≤ s.ownRows ∧ ((paired && decide (256 < col + shBox b 1)) = true → s.partnerRank ≠ none)) :
    s.productFault e a b sparse paired row col = none := by
  unfold State.productFault
  dsimp only
  rw [if_neg (by simp [hf]), if_neg (by simp [ha]), if_neg (by simp [hb]), if_neg (by simp [hm, hk]),
    if_neg (by simp [hn, hkb]), if_neg (by rintro (h | h); exacts [h hc.1, absurd hc.2 (Nat.not_le.2 h)]), State.rowFault_none hr]

/-! ### Queueing (R62, R286) -/

/-- No entry of the cluster's reservation table is free for the watch in focus, or commands of a restored gang are to enter before it (R62,
R284, R286; log entry 110). -/
def State.tableFull (s : State) : Prop :=
  let table := s.mats.filter (fun c => !c.saved && c.core / 4 == s.ctx.core / 4)
  63 ≤ s.engineCount s.ctx.ref ∨ 16 ≤ table.length ∨ 8 ≤ (table.filter (fun c => c.core == s.ctx.core)).length ∨
    s.mats.any (fun c => s.reenters c && c.core / 4 == s.ctx.core / 4) = true

theorem State.tableFull_iff (s : State) : s.tableFull ↔ 63 ≤ s.engineCount s.ctx.ref ∨ ¬ s.tableTakes s.ctx.core = true ∨
    s.mats.any (fun c => s.reenters c && c.core / 4 == s.ctx.core / 4) = true := by
  simp only [State.tableFull, State.tableTakes, Bool.and_eq_true, decide_eq_true_eq, not_and_or, not_lt, or_assoc]

/-- What P0 or a crossing point has brought into memory is found by a command with ORD from now on (R282). -/
def State.matOrdered (s : State) (e : FmtE) : State :=
  if e.flags.getLsbD 0 then s.barStale s.ctx.ref s.ctx.sp.id (fun t => t.path == 0 || t.crossed) 3 else s

theorem State.matOrdered_mats (s : State) (e : FmtE) : (s.matOrdered e).mats = s.mats := by
  unfold State.matOrdered State.barStale
  split <;> rfl

theorem State.matOrdered_fresh (s : State) (e : FmtE) : (s.matOrdered e).fresh = s.fresh := by
  unfold State.matOrdered State.barStale
  split <;> rfl

/-- The entry of the reservation table for a checked command (R284, R286). -/
def State.matCmd (s : State) (e : FmtE) (op : MatOp) (maj col rows addr obj bytes total : Nat) (pair clear : Bool) : MatCmd :=
  let product := match op with
    | .product _ => true
    | _ => false
  { id := s.fresh, core := s.ctx.core, watch := s.ctx.ref, split := s.ctx.sp.id, dom := s.ctx.dom,
    prio := if product then min (e.flags.extractLsb' 1 2).toNat (s.regField (.quotaCtl s.ctx.core s.ctx.dom) 4 2) else 0,
    nopre := product && e.flags.getLsbD 3, op := op, major := maj, a := s.ctx.shape e.sha, b := s.ctx.shape e.shb, obj := obj,
    row := e.ext.toNat % 256, col := col, rows := rows, addr := addr, pair := if pair then s.partnerRank else none, clear := clear,
    bytes := bytes, total := total, done := 0, left := 0, right := 0, running := [], waited := 0, holding := false, made := false,
    stall := none, saved := false }

section
variable {s : State} (e : FmtE) (op : MatOp) (maj col rows addr obj bytes total : Nat) (pair clear : Bool)

theorem State.queueMat_full (h : s.tableFull) :
    s.queueMat e op maj (e.ext.toNat % 256) col rows addr obj bytes total pair clear = .next (s.hold .operand) := by
  unfold State.queueMat
  dsimp only
  rw [if_pos (s.tableFull_iff.1 h)]

theorem State.queueMat_room (h : ¬ s.tableFull) :
    s.queueMat e op maj (e.ext.toNat % 256) col rows addr obj bytes total pair clear =
      .next (({ s.matOrdered e with mats := s.mats ++ [s.matCmd e op maj col rows addr obj bytes total pair clear],
                                    fresh := s.fresh + 1 } : State).advance 8) := by
  unfold State.queueMat
  dsimp only
  rw [if_neg (mt s.tableFull_iff.2 h)]
  change Host.Outcome.next (({ s.matOrdered e with
    mats := (s.matOrdered e).mats ++ [s.matCmd e op maj col rows addr obj bytes total pair clear],
    fresh := (s.matOrdered e).fresh + 1 } : State).advance 8) = _
  rw [s.matOrdered_mats e, s.matOrdered_fresh e]

end

/-- A checked command waits while the table is full, and otherwise enters it with what the instruction says (R62, R286). -/
def State.MatQueued (s : State) (e : FmtE) (o : Out) (op : MatOp) (maj col rows addr obj bytes total : Nat) (pair clear : Bool) : Prop :=
  let w := s.ctx
  (s.tableFull → o = .next (s.hold .operand)) ∧
  (¬ s.tableFull → ∃ x : MatCmd, o = .next (({ s.matOrdered e with mats := s.mats ++ [x], fresh := s.fresh + 1 } : State).advance 8) ∧
    x.id = s.fresh ∧ x.core = w.core ∧ x.watch = w.ref ∧ x.split = w.sp.id ∧ x.dom = w.dom ∧ x.op = op ∧ x.major = maj ∧
    x.a = w.shape e.sha ∧ x.b = w.shape e.shb ∧ x.obj = obj ∧ x.row = e.ext.toNat % 256 ∧ x.col = col ∧ x.rows = rows ∧
    x.addr = addr ∧ x.bytes = bytes ∧ x.total = total ∧ x.clear = clear ∧ x.pair = (if pair then s.partnerRank else none) ∧
    x.done = 0 ∧ x.left = 0 ∧ x.right = 0 ∧ x.running = [] ∧ x.stall = none ∧ x.saved = false ∧
    (x.isProduct = true → x.nopre = e.flags.getLsbD 3 ∧
      x.prio = min (e.flags.extractLsb' 1 2).toNat (s.regField (.quotaCtl w.core w.dom) 4 2)))

theorem State.queueMat_queued (s : State) (e : FmtE) (op : MatOp) (maj col rows addr obj bytes total : Nat) (pair clear : Bool) :
    s.MatQueued e (s.queueMat e op maj (e.ext.toNat % 256) col rows addr obj bytes total pair clear) op maj col rows addr obj bytes
      total pair clear := by
  refine ⟨s.queueMat_full e op maj col rows addr obj bytes total pair clear, fun h =>
    ⟨_, s.queueMat_room e op maj col rows addr obj bytes total pair clear h, rfl, rfl, rfl, rfl, rfl, rfl, rfl, rfl, rfl, rfl, rfl, rfl,
      rfl, rfl, rfl, rfl, rfl, rfl, rfl, rfl, rfl, rfl, rfl, rfl, fun hp => ?_⟩⟩
  cases op with
  | product paired => exact ⟨rfl, rfl⟩
  | _ => cases hp

/-! ### Issue of a command that passes its checks (R285, R286) -/

section
variable {s : State} {e : FmtE} (hc : s.ctx.cls ≠ 2) (hk : s.ctx.k0 ≠ 0)
include hc hk

theorem State.product_queues {g maj : Nat} {sparse paired : Bool} (ha : s.admits (some g)) (hr : s.ctx.uniReads [⟨0, e.a, 1⟩, ⟨1, e.b, 1⟩])
    (ho : ∃ t, s.judgeSpad { size := 16, rd := true, wr := false } (s.ctx.objOf e) = .ok t)
    (hsa : s.shapeFault e.sha (s.ctx.shape e.sha) false = none) (hsb : s.shapeFault e.shb (s.ctx.shape e.shb) false = none)
    (hp : s.productFault e (s.ctx.shape e.sha) (s.ctx.shape e.shb) sparse paired (e.ext.toNat % 256) (s.ctx.uni e.a).toNat = none)
    (hh : sparse = true → s.headerFault (s.ctx.shape e.sha) = none) :
    s.MatQueued e (s.product e g maj sparse paired) (.product paired) maj (s.ctx.uni e.a).toNat 0 0 (s.ctx.objOf e)
      (shCount (s.ctx.shape e.sha) * shBits (s.ctx.shape e.sha) / 8 + shCount (s.ctx.shape e.shb) * shBits (s.ctx.shape e.shb) / 8) 0
      (paired && decide (256 < (s.ctx.uni e.a).toNat + shBox (s.ctx.shape e.shb) 1)) false := by
  have hh' : (if sparse = true then s.headerFault (s.ctx.shape e.sha) else none) = none := by
    split
    · exact hh ‹_›
    · rfl
  have hf : firstFault [s.objFault [s.ctx.objOf e], s.shapeFault e.sha (s.ctx.shape e.sha) false,
      s.shapeFault e.shb (s.ctx.shape e.shb) false,
      s.productFault e (s.ctx.shape e.sha) (s.ctx.shape e.shb) sparse paired (e.ext.toNat % 256) (s.ctx.uni e.a).toNat,
      if sparse = true then s.headerFault (s.ctx.shape e.sha) else none] = none :=
    firstFault_eq_none (by simp only [List.forall_mem_cons]; exact ⟨State.objFault_none ho, hsa, hsb, hp, hh', List.forall_mem_nil _⟩)
  rw [State.product, State.matFront_reads ha hc hk hr]
  dsimp only
  rw [hf, orElse_none]
  exact s.queueMat_queued ..

/-- A product whose formats multiply, whose tiles have the sides of R285 and whose rows are the gang's own is queued. -/
theorem State.product_accepted {g maj K : Nat} {sparse paired : Bool} (ha : s.admits (some g))
    (hr : s.ctx.uniReads [⟨0, e.a, 1⟩, ⟨1, e.b, 1⟩])
    (ho : ∃ t, s.judgeSpad { size := 16, rd := true, wr := false } (s.ctx.objOf e) = .ok t)
    (hsa : s.shapeFault e.sha (s.ctx.shape e.sha) false = none) (hsb : s.shapeFault e.shb (s.ctx.shape e.shb) false = none)
    (hf : productPair sparse (shFmt (s.ctx.shape e.sha)) (shFmt (s.ctx.shape e.shb)) = true)
    (ha2 : shBox (s.ctx.shape e.sha) 2 = 1) (ha3 : shBox (s.ctx.shape e.sha) 3 = 1)
    (hb2 : shBox (s.ctx.shape e.shb) 2 = 1) (hb3 : shBox (s.ctx.shape e.shb) 3 = 1)
    (hm : shBox (s.ctx.shape e.sha) 1 % 32 = 0 ∧ 32 ≤ shBox (s.ctx.shape e.sha) 1 ∧ shBox (s.ctx.shape e.sha) 1 ≤ 256)
    (hn : shBox (s.ctx.shape e.shb) 1 % 32 = 0 ∧ 32 ≤ shBox (s.ctx.shape e.shb) 1 ∧
      shBox (s.ctx.shape e.shb) 1 ≤ if paired then 512 else 256)
    (hK : K = if sparse then 192 * shBox (s.ctx.shape e.sha) 0 else shBox (s.ctx.shape e.sha) 0)
    (hk1 : K % (if sparse then 192 else 32) = 0) (hk2 : K ≠ 0) (hk3 : K ≤ 4064) (hkb : shBox (s.ctx.shape e.shb) 0 = K)
    (hv : (s.ctx.uni e.a).toNat % 32 = 0) (hvn : (s.ctx.uni e.a).toNat + shBox (s.ctx.shape e.shb) 1 ≤ if paired then 512 else 256)
    (hrow : e.ext.toNat % 256 + shBox (s.ctx.shape e.sha) 1 ≤ s.ownRows ∧
      ((paired && decide (256 < (s.ctx.uni e.a).toNat + shBox (s.ctx.shape e.shb) 1)) = true → s.partnerRank ≠ none))
    (hh : sparse = true → s.headerFault (s.ctx.shape e.sha) = none) :
    s.MatQueued e (s.product e g maj sparse paired) (.product paired) maj (s.ctx.uni e.a).toNat 0 0 (s.ctx.objOf e)
      (shCount (s.ctx.shape e.sha) * shBits (s.ctx.shape e.sha) / 8 + shCount (s.ctx.shape e.shb) * shBits (s.ctx.shape e.shb) / 8) 0
      (paired && decide (256 < (s.ctx.uni e.a).toNat + shBox (s.ctx.shape e.shb) 1)) false := by
  obtain ⟨hgr, hkof⟩ := kOf_of_productPair hf
  rw [← hK] at hkof
  subst hkof
  exact State.product_queues hc hk ha hr ho hsa hsb (State.productFault_none hf ⟨ha2, ha3⟩ ⟨hb2, hb3⟩ ((tileSide_iff _ _).2 hm)
    ⟨hgr ▸ hk1, hk2, hk3⟩ ((tileSide_iff _ _).2 hn) hkb ⟨hv, hvn⟩ hrow) hh

theorem execAccinit_queues (ha : s.admits none) (hr : s.ctx.uniReads [⟨0, e.a, 1⟩])
    (hrow : s.rowFault (e.ext.toNat % 256) (rowCount e) (pairFlag e) = none) :
    s.MatQueued e (execAccinit e s) (.accinit ((s.ctx.uni e.a).setWidth 10)) 0xB3 0 (rowCount e) 0 0 0
      (if pairFlag e then 2 * rowCount e else rowCount e) (pairFlag e) false := by
  have hx : (s.ctx.uni e.a).extractLsb' 0 10 = (s.ctx.uni e.a).setWidth 10 := (BitVec.setWidth_eq_extractLsb' (by decide)).symm
  rw [execAccinit, State.matFront_reads ha hc hk hr]
  dsimp only
  rw [hrow, orElse_none, hx]
  exact s.queueMat_queued ..

theorem State.tileCmd_queues {group : Option Nat} {maj : Nat} {op : MatOp} {clear : Bool} {format units : Shape → Nat}
    (ha : s.admits group) (hr : s.ctx.uniReads [⟨0, e.a, 1⟩, ⟨1, e.b, 1⟩])
    (ho : ∃ t, s.judgeSpad { size := 16, rd := true, wr := false } (s.ctx.objOf e) = .ok t)
    (hsa : s.shapeFault e.sha (s.ctx.shape e.sha) false = none) (hfmt : format (s.ctx.shape e.sha) = 0)
    (ht : s.tileFault e (s.ctx.shape e.sha) (s.ctx.uni e.a).toNat (e.ext.toNat % 256) = none) :
    s.MatQueued e (s.tileCmd e group maj op clear format units) op maj (s.ctx.uni e.a).toNat 0 0 (s.ctx.objOf e)
      (tileBytes (s.ctx.shape e.sha)) (units (s.ctx.shape e.sha)) (pairFlag e) clear := by
  have hf : firstFault [s.objFault [s.ctx.objOf e], s.shapeFault e.sha (s.ctx.shape e.sha) false,
      if format (s.ctx.shape e.sha) = 0 then none else some (s.shapeTrap (format (s.ctx.shape e.sha)) (some e.sha)),
      s.tileFault e (s.ctx.shape e.sha) (s.ctx.uni e.a).toNat (e.ext.toNat % 256)] = none :=
    firstFault_eq_none (by simp only [List.forall_mem_cons]; exact ⟨State.objFault_none ho, hsa, if_pos hfmt, ht, List.forall_mem_nil _⟩)
  rw [State.tileCmd, State.matFront_reads ha hc hk hr]
  dsimp only
  rw [hf, orElse_none]
  exact s.queueMat_queued ..

section
variable (hr : s.ctx.uniReads [⟨0, e.a, 1⟩, ⟨1, e.b, 1⟩])
  (ho : ∃ t, s.judgeSpad { size := 16, rd := true, wr := false } (s.ctx.objOf e) = .ok t)
  (hsa : s.shapeFault e.sha (s.ctx.shape e.sha) false = none)
  (ht : s.tileFault e (s.ctx.shape e.sha) (s.ctx.uni e.a).toNat (e.ext.toNat % 256) = none)
include hr ho hsa ht

theorem execAccrd_queues (ha : s.admits none) (hfmt : shFmt (s.ctx.shape e.sha) ≤ 13 ∨ shFmt (s.ctx.shape e.sha) = 17)
    (hblk : shBlk (s.ctx.shape e.sha) = 0) :
    s.MatQueued e (execAccrd e s) .accrd 0xB5 (s.ctx.uni e.a).toNat 0 0 (s.ctx.objOf e) (tileBytes (s.ctx.shape e.sha))
      (shCount (s.ctx.shape e.sha)) (pairFlag e) (clearFlag e) := by
  refine State.tileCmd_queues hc hk ha hr ho hsa ?_ ht
  rw [if_neg (not_not.2 hfmt), if_neg (not_not.2 hblk)]

theorem execAccrdw_queues (ha : s.admits none) (hblk : shBlk (s.ctx.shape e.sha) ≠ 0) :
    s.MatQueued e (execAccrdw e s) .accrdw 0xB6 (s.ctx.uni e.a).toNat 0 0 (s.ctx.objOf e) (tileBytes (s.ctx.shape e.sha))
      (shCount (s.ctx.shape e.sha) / (8 * 2 ^ shBlk (s.ctx.shape e.sha))) (pairFlag e) (clearFlag e) := by
  have hl : shLen (s.ctx.shape e.sha) = 8 * 2 ^ shBlk (s.ctx.shape e.sha) := if_neg hblk
  rw [← hl]
  exact State.tileCmd_queues hc hk ha hr ho hsa (if_neg hblk) ht

theorem execAccadd_queues (ha : s.admits (some 0)) (hfmt : shFmt (s.ctx.shape e.sha) = 0 ∨ shFmt (s.ctx.shape e.sha) = 17)
    (hblk : shBlk (s.ctx.shape e.sha) = 0) :
    s.MatQueued e (execAccadd e s) .accadd 0xB7 (s.ctx.uni e.a).toNat 0 0 (s.ctx.objOf e) (tileBytes (s.ctx.shape e.sha))
      (shCount (s.ctx.shape e.sha)) (pairFlag e) false := by
  refine State.tileCmd_queues hc hk ha hr ho hsa ?_ ht
  rw [if_neg (not_not.2 hfmt), if_neg (not_not.2 hblk)]

end

theorem execAccstat_queues (ha : s.admits none) (hr : s.ctx.uniReads [⟨0, e.a, 1⟩, ⟨1, e.b, 1⟩])
    (ho : ∃ t, s.judgeSpad { size := 16, rd := true, wr := false } (s.ctx.objOf e) = .ok t)
    (hrow : s.rowFault (e.ext.toNat % 256) (rowCount e) (pairFlag e) = none)
    (hw : ∀ i < if pairFlag e then 2 * rowCount e else rowCount e,
      ∃ t, s.judgeSpad { size := 8, rd := false, wr := true } (((s.ctx.uni e.a).toNat % 2 ^ 32 + 8 * i) % 2 ^ 32) = .ok t) :
    s.MatQueued e (execAccstat e s) .accstat 0xB8 0 (rowCount e) ((s.ctx.uni e.a).toNat % 2 ^ 32) (s.ctx.objOf e)
      (8 * if pairFlag e then 2 * rowCount e else rowCount e) (if pairFlag e then 2 * rowCount e else rowCount e) (pairFlag e)
      (clearFlag e) := by
  rw [execAccstat, State.matFront_reads ha hc hk hr]
  dsimp only
  rw [firstFault_eq_none, orElse_none]
  · exact s.queueMat_queued ..
  · simp only [List.forall_mem_cons]
    refine ⟨State.objFault_none ho, hrow, ?_, List.forall_mem_nil _⟩
    rw [List.findSome?_eq_none_iff]
    intro o h
    obtain ⟨i, hi, rfl⟩ := List.mem_map.1 h
    obtain ⟨t, ht⟩ := hw i (List.mem_range.1 hi)
    simp only [ht, State.checkAll_ok]

end

/-! ### ANCHOR (R292) -/

/-- A value is a number without a sign, of the given size. -/
def FVal.Sizes (v : FVal) (q : ℚ) : Prop := ∃ (m : Nat) (e : Int), v = .num false m e ∧ q = (m : ℚ) * (2 : ℚ) ^ e

theorem FVal.Sizes.mul {v v' : FVal} {q q' : ℚ} (h : v.Sizes q) (h' : v'.Sizes q') : (v.mul v').Sizes (q * q') := by
  obtain ⟨m, e, rfl, rfl⟩ := h
  obtain ⟨m', e', rfl, rfl⟩ := h'
  refine ⟨m * m', e + e', rfl, ?_⟩
  rw [zpow_add₀ two_ne_zero, Nat.cast_mul, mul_mul_mul_comm]

/-- The exponent of a positive number brackets it, but where the clamp to 10 bits acts. -/
theorem FVal.Sizes.anchorOf_brackets {v : FVal} {q : ℚ} (h : v.Sizes q) (hq : 0 < q) :
    (-512 < anchorOf v → (2 : ℚ) ^ anchorOf v ≤ q) ∧ (anchorOf v < 511 → q < (2 : ℚ) ^ (anchorOf v + 1)) := by
  obtain ⟨m, e, rfl, rfl⟩ := h
  have hm : m ≠ 0 := by
    rintro rfl
    simp at hq
  have he : (0 : ℚ) < 2 ^ e := zpow_pos two_pos e
  have hlo : (2 : ℚ) ^ ((Nat.log2 m : Nat) + e : Int) ≤ (m : ℚ) * 2 ^ e := by
    rw [zpow_add₀ two_ne_zero, zpow_natCast]
    exact mul_le_mul_of_nonneg_right (mod_cast Nat.log2_self_le hm) he.le
  have hhi : (m : ℚ) * 2 ^ e < (2 : ℚ) ^ ((Nat.log2 m : Nat) + e + 1 : Int) := by
    rw [add_right_comm, zpow_add₀ two_ne_zero, ← Nat.cast_succ, zpow_natCast]
    exact mul_lt_mul_of_pos_right (mod_cast Nat.lt_log2_self) he
  have hx : anchorOf (.num false m e) = max (-512) (min 511 ((Nat.log2 m : Nat) + e)) := rfl
  refine ⟨fun h => le_trans (zpow_le_zpow_right₀ one_le_two ?_) hlo, fun h => lt_of_lt_of_le hhi (zpow_le_zpow_right₀ one_le_two ?_)⟩ <;> omega

theorem anchorOf_range (v : FVal) : -512 ≤ anchorOf v ∧ anchorOf v ≤ 511 := by
  unfold anchorOf
  split <;> omega

/-- The exponent is the signed value of the scalar that is pushed. -/
theorem toInt_anchorOf (v : FVal) : (BitVec.ofInt 64 (anchorOf v)).toInt = anchorOf v := by
  have := anchorOf_range v
  exact BitVec.toInt_ofInt_eq_self (by decide) (by norm_num; omega) (by norm_num; omega)

/-- The greatest finite magnitude of an element format (R292). -/
def formatTop (f : Nat) : ℚ :=
  if f = 3 ∨ f = 14 then 480 else if f = 4 ∨ f = 15 then 114688 else if f = 5 then 6
    else if f = 10 ∨ f = 16 then 128 else if f = 11 then 255 else if f = 1 then 65504 else 255 * 2 ^ 120

/-- The formats of a pair that multiplies (R278). -/
theorem mem_of_productPair {fa fb : Nat} (h : (productPair false fa fb || productPair true fa fb) = true) :
    fa ∈ [1, 2, 3, 4, 5, 10, 11, 14, 15, 16] ∧ fb ∈ [1, 2, 3, 4, 5, 10, 11, 14, 15, 16] := by
  rw [Bool.or_eq_true, productPair_iff, productPair_iff] at h
  simp at h ⊢
  omega

theorem operandMax_sizes {f : Nat} (h : f ∈ [1, 2, 3, 4, 5, 10, 11, 14, 15, 16]) : (operandMax f).Sizes (formatTop f) := by
  simp only [List.mem_cons, List.not_mem_nil, or_false] at h
  rcases h with rfl | rfl | rfl | rfl | rfl | rfl | rfl | rfl | rfl | rfl <;>
    exact ⟨_, _, rfl, by norm_num [formatTop]⟩

theorem isSparse_iff (f : Nat) : isSparse f = true ↔ 14 ≤ f ∧ f ≤ 16 := by simp [isSparse]

theorem s8Value_sizes {c : Nat} (h : c ≠ 255) :
    (s8Value c).Sizes (if c = 0 then 0 else (1 + (c % 8 : Nat) / 8) * (2 : ℚ) ^ ((c / 8 : Nat) - 16 : Int)) := by
  unfold s8Value
  by_cases hc : c = 0
  · rw [if_pos hc, if_pos hc]
    exact ⟨0, 0, rfl, by simp⟩
  · rw [if_neg hc, if_neg hc, if_neg h]
    refine ⟨_, _, rfl, ?_⟩
    have h16 : ((c / 8 : Nat) - 16 : Int) = ((c / 8 : Nat) - 19 : Int) + 3 := by ring
    rw [h16, zpow_add₀ two_ne_zero]
    push_cast
    ring

/-- An operand has scales by its block length or its format (R277, R281). -/
def HasScales (h : Shape) : Prop := shBlk h ≠ 0 ∨ 14 ≤ shFmt h ∧ shFmt h ≤ 16

/-- The number that counts for the scale of an operand: the bound where it has scales, and one otherwise (R292). -/
def ScaleIs (h : Shape) (code : Nat) (q : ℚ) : Prop :=
  (HasScales h → q = if code = 0 then 0 else (1 + (code % 8 : Nat) / 8) * (2 : ℚ) ^ ((code / 8 : Nat) - 16 : Int)) ∧
  (¬ HasScales h → q = 1)

theorem operandScale_sizes {h : Shape} {code : Nat} {q : ℚ} (hq : ScaleIs h code q) (hc : HasScales h → code ≠ 255) :
    (operandScale h code).Sizes q := by
  have hi : HasScales h ↔ shBlk h ≠ 0 ∨ isSparse (shFmt h) = true := or_congr_right (isSparse_iff _).symm
  by_cases hs : HasScales h
  · rw [operandScale, if_pos (hi.1 hs), hq.1 hs]
    exact s8Value_sizes (hc hs)
  · rw [operandScale, if_neg (mt hi.2 hs), hq.2 hs]
    exact ⟨1, 0, rfl, by norm_num⟩

/-- The greatest product of two elements of an ANCHOR's operands (R292). -/
def greatestProduct (a b : Shape) (code : Nat) : FVal :=
  ((operandMax (shFmt a)).mul (operandScale a code)).mul ((operandMax (shFmt b)).mul (operandScale b code))

theorem greatestProduct_sizes {a b : Shape} {code : Nat} {ca cb : ℚ}
    (hp : (productPair false (shFmt a) (shFmt b) || productPair true (shFmt a) (shFmt b)) = true) (ha : ScaleIs a code ca)
    (hb : ScaleIs b code cb) (hc : HasScales a ∨ HasScales b → code ≠ 255) :
    (greatestProduct a b code).Sizes (formatTop (shFmt a) * ca * (formatTop (shFmt b) * cb)) := by
  obtain ⟨hfa, hfb⟩ := mem_of_productPair hp
  exact ((operandMax_sizes hfa).mul (operandScale_sizes ha fun h => hc (.inl h))).mul
    ((operandMax_sizes hfb).mul (operandScale_sizes hb fun h => hc (.inr h)))

section
variable {s : State} {e : FmtE} (ha : s.admits none)
include ha

theorem execAnchor_leeway (hc : s.ctx.cls = 2) : execAnchor e s = .next (s.takeTrap causeLeeway s.ctx.k0 0xB4) := by
  rw [execAnchor, State.enter_eq ha]
  dsimp only
  rw [if_pos hc]

theorem execAnchor_badPair (hc : s.ctx.cls ≠ 2)
    (hp : (productPair false (shFmt (s.ctx.shape e.sha)) (shFmt (s.ctx.shape e.shb)) ||
      productPair true (shFmt (s.ctx.shape e.sha)) (shFmt (s.ctx.shape e.shb))) = false) :
    execAnchor e s = .next (s.shapeTrap 0x02 (some e.shb)) := by
  rw [execAnchor, State.enter_eq ha]
  dsimp only
  rw [if_neg hc, hp, if_pos Bool.false_ne_true]

theorem execAnchor_pushes (hc : s.ctx.cls ≠ 2)
    (hp : (productPair false (shFmt (s.ctx.shape e.sha)) (shFmt (s.ctx.shape e.shb)) ||
      productPair true (shFmt (s.ctx.shape e.sha)) (shFmt (s.ctx.shape e.shb))) = true) :
    execAnchor e s = .next (s.pushScalar (BitVec.ofInt 64
      (anchorOf (greatestProduct (s.ctx.shape e.sha) (s.ctx.shape e.shb) (e.ext.toNat % 256))))) := by
  rw [execAnchor, State.enter_eq ha]
  dsimp only
  rw [if_neg hc, hp, if_neg (not_not.2 rfl)]
  rfl

end

/-- The detail of SHAPE for a pair that does not multiply (R259). -/
theorem State.shapeTrap_pair (s : State) (r : BitVec 4) :
    s.shapeTrap 0x02 (some r) = s.takeTrap causeShape s.ctx.k0 (BitVec.ofNat 64 (0x1002 + 256 * r.toNat)) := by
  unfold State.shapeTrap
  congr 2
  dsimp only
  omega

/-- Settles O48: a command that meets its conditions passes each check and is queued or waits as the table has room, and ANCHOR's
exponent brackets the greatest product. -/
theorem matrixIssue : Obligations.MatrixIssue := by
  unfold Obligations.MatrixIssue
  intro s e _ w a b obj v row rows pair clear objOk fits reads rowsOk table full queues all
  refine ⟨fun i hi ha hc => ?_, fun i hi ha hc hk => ?_, fun hc hk => ⟨fun hr => ?_, fun hr ha hrow => ?_, fun hr ho hf h2 h3 hcol hrow => ?_,
    fun hr ha ho hrow hw => ?_⟩, fun ha => ⟨fun hc => ?_, fun hc hp => ?_, fun hc hp => ?_⟩⟩
  · obtain ⟨maj, srcs, k, hm, hx⟩ := exec_matrixCmds s hi
    rw [hx, hm]
    exact State.matFront_leeway ha hc
  · obtain ⟨maj, srcs, k, hm, hx⟩ := exec_matrixCmds s hi
    rw [hx]
    exact State.matFront_empty ha hc hk
  · intro fa fb dense sparse side k product
    refine ⟨?_, ?_, ?_, ?_⟩ <;> intro ha ho hsa hsb hf ha2 ha3 hb2 hb3 hm hn hk1 hk2 hk3 hkb hv hvn hrow hh <;>
      exact State.product_accepted hc hk ha hr ho hsa hsb ((productPair_iff ..).2 hf) ha2 ha3 hb2 hb3 hm hn rfl hk1 hk2 hk3 hkb hv hvn
        hrow hh
  · exact execAccinit_queues hc hk ha hr (State.rowFault_none hrow)
  · have ht : s.tileFault e a v row = none := State.tileFault_none h2 h3 hcol hrow
    exact ⟨fun ha hfmt hblk => execAccrd_queues hc hk hr ho hf ht ha hfmt hblk, fun ha hblk => execAccrdw_queues hc hk hr ho hf ht ha hblk,
      fun ha hfmt hblk => execAccadd_queues hc hk hr ho hf ht ha hfmt hblk⟩
  · exact execAccstat_queues hc hk ha hr ho (State.rowFault_none hrow) hw
  · exact execAnchor_leeway ha hc
  · exact (execAnchor_badPair ha hc hp).trans (congrArg _ (s.shapeTrap_pair _))
  · refine ⟨_, execAnchor_pushes ha hc hp, ?_⟩
    rw [toInt_anchorOf]
    obtain ⟨h1, h2⟩ := anchorOf_range (greatestProduct a b (e.ext.toNat % 256))
    exact ⟨h1, h2, fun ca cb ha1 ha0 hb1 hb0 h255 hpos =>
      (greatestProduct_sizes hp ⟨ha1, ha0⟩ ⟨hb1, hb0⟩ h255).anchorOf_brackets hpos⟩

end Sys2Proof.Machine

namespace Sys2Proof.Machine

/-!
O52. The placing of gangs. The running order is a strict order in which the candidates are sorted; a placed gang's watches are resident from
their start on; and a kill leaves no watch of the gang (`State.killGang_lacks`).
-/

/-! ### The running order (R310) -/

theorem Cand.before_iff (a b : Cand) : a.before b = true ↔ b.prio < a.prio ∨ a.prio = b.prio ∧ (a.time < b.time ∨ a.time = b.time ∧
    (a.launch.home < b.launch.home ∨ a.launch.home = b.launch.home ∧ a.seq < b.seq)) := by
  simp [Cand.before]

theorem Cand.not_before_self (a : Cand) : a.before a = false := by
  rw [Bool.eq_false_iff, ne_eq, Cand.before_iff]
  omega

theorem Cand.before_asymm {a b : Cand} (h : a.before b = true) : b.before a = false := by
  rw [Bool.eq_false_iff, ne_eq, Cand.before_iff]
  rw [Cand.before_iff] at h
  omega

/-- What is not before a candidate that is not before another is not before that other. -/
theorem Cand.not_before_trans {a b c : Cand} (hab : a.before b = false) (hbc : b.before c = false) : a.before c = false := by
  rw [Bool.eq_false_iff, ne_eq, Cand.before_iff] at hab hbc ⊢
  omega

theorem mem_sortCands (d : Cand) (cs : List Cand) : d ∈ sortCands cs ↔ d ∈ cs := by
  induction cs with
  | nil => rfl
  | cons c cs ih =>
    have hsplit : d ∈ sortCands cs ↔ d ∈ (sortCands cs).takeWhile (fun x => x.before c) ∨ d ∈ (sortCands cs).dropWhile (fun x => x.before c) := by
      rw [← List.mem_append, List.takeWhile_append_dropWhile]
    rw [sortCands, List.mem_append, List.mem_cons, List.mem_cons, ← ih, hsplit]
    exact or_left_comm

/-- Where the candidates that are before c end, no further one is before c. -/
theorem not_before_of_mem_dropWhile {c d : Cand} {cs : List Cand} (hs : cs.Pairwise (fun a b => b.before a = false))
    (hd : d ∈ cs.dropWhile (fun x => x.before c)) : d.before c = false := by
  induction cs with
  | nil => cases hd
  | cons x cs ih =>
    obtain ⟨hx, hcs⟩ := List.pairwise_cons.1 hs
    cases hxc : x.before c with
    | true =>
      simp only [List.dropWhile_cons, hxc, if_true] at hd
      exact ih hcs hd
    | false =>
      simp only [List.dropWhile_cons, hxc, Bool.false_eq_true, if_false] at hd
      rcases List.mem_cons.1 hd with rfl | hd
      · exact hxc
      · exact Cand.not_before_trans (hx d hd) hxc

/-- The candidates stand in running order. -/
theorem sortCands_sorted (cs : List Cand) : (sortCands cs).Pairwise (fun a b => b.before a = false) := by
  induction cs with
  | nil => exact List.Pairwise.nil
  | cons c cs ih =>
    have hsplit := ih
    rw [← List.takeWhile_append_dropWhile (p := fun x => x.before c) (l := sortCands cs), List.pairwise_append] at hsplit
    obtain ⟨ht, hd, htd⟩ := hsplit
    rw [sortCands, List.pairwise_append, List.pairwise_cons]
    refine ⟨ht, ⟨fun d h => not_before_of_mem_dropWhile ih h, hd⟩, fun a h b hb => ?_⟩
    rcases List.mem_cons.1 hb with rfl | hb
    · exact Cand.before_asymm (List.mem_takeWhile_imp (p := fun x : Cand => x.before b) h)
    · exact htd a h b hb

/-- A die dispatcher places the first candidate in running order that it can (R310). -/
theorem State.nextCand_first {s : State} {die : Nat} {c : Cand} (h : s.nextCand die = some c) :
    s.dieTakes die c = true ∧ ∀ d ∈ s.returning ++ s.fresh1 die, d.before c = true → s.dieTakes die d = false := by
  rw [State.nextCand] at h
  split at h
  · cases h
  · obtain ⟨hc, xs, ys, hl, hxs⟩ := List.find?_eq_some_iff_append.1 h
    refine ⟨hc, fun d hd hdc => ?_⟩
    have hs := sortCands_sorted (s.returning ++ s.fresh1 die)
    rw [← mem_sortCands, hl] at hd
    rw [hl, List.pairwise_append, List.pairwise_cons] at hs
    obtain ⟨-, ⟨hys, -⟩, -⟩ := hs
    rcases List.mem_append.1 hd with hd | hd
    · simpa using hxs d hd
    rcases List.mem_cons.1 hd with rfl | hd
    · rw [Cand.not_before_self] at hdc
      cases hdc
    · rw [hys d hd] at hdc
      cases hdc

/-! ### Watches that join the machine -/

theorem State.mem_watches {s : State} {w : Watch} : w ∈ s.watches ↔ (w = s.ctx ∨ w ∈ s.others) ∧ w.resident = true := by
  simp [State.watches]

theorem State.mem_addWatch {s : State} {w : Watch} (hw : w.resident = true) : w ∈ (s.addWatch w).watches := by
  rw [State.mem_watches, State.addWatch]
  refine ⟨?_, hw⟩
  split
  · exact .inr (List.mem_append_right _ (List.mem_singleton_self w))
  · exact .inl rfl

/-- One state has the registers and the gangs of another, and at least its watches. -/
structure State.Grows (s t : State) : Prop where
  cfg : t.cfg = s.cfg
  gangs : t.gangs = s.gangs
  watches : ∀ w ∈ s.watches, w ∈ t.watches

namespace State.Grows

theorem refl (s : State) : s.Grows s := ⟨rfl, rfl, fun _ h => h⟩

theorem trans {s t u : State} (h : s.Grows t) (h' : t.Grows u) : s.Grows u :=
  ⟨h'.cfg.trans h.cfg, h'.gangs.trans h.gangs, fun w hw => h'.watches w (h.watches w hw)⟩

theorem reg {s t : State} (h : s.Grows t) (r : Reg) : t.reg r = s.reg r := congrArg (getKey r (resetVal r)) h.cfg

theorem gangOf {s t : State} (h : s.Grows t) (l g : Nat) : t.gangOf l g = s.gangOf l g := by rw [State.gangOf, State.gangOf, h.gangs]

theorem of_same {s t : State} (cfg : t.cfg = s.cfg) (gangs : t.gangs = s.gangs) (ctx : t.ctx = s.ctx) (others : t.others = s.others) :
    s.Grows t :=
  ⟨cfg, gangs, fun w h => by rwa [State.mem_watches, ctx, others, ← State.mem_watches]⟩

section
variable {α : Type} {f : State → α → State} (hf : ∀ (u : State) (a : α), u.Grows (f u a))
include hf

theorem foldl : ∀ (xs : List α) (s : State), s.Grows (xs.foldl f s)
  | [], s => refl s
  | x :: xs, s => (hf s x).trans (foldl xs (f s x))

/-- A step of a run starts from a state that has grown out of the first, and the last grows out of its own. -/
theorem foldl_passes {a : α} : ∀ {xs : List α}, a ∈ xs → ∀ s : State, ∃ u, s.Grows u ∧ (f u a).Grows (xs.foldl f s)
  | x :: xs, h, s => by
    rcases List.mem_cons.1 h with rfl | h
    · exact ⟨s, refl s, foldl hf xs _⟩
    · obtain ⟨u, hu, ht⟩ := foldl_passes h (f s x)
      exact ⟨u, (hf s x).trans hu, ht⟩

end

end State.Grows

theorem State.grows_addWatch (s : State) (w : Watch) : s.Grows (s.addWatch w) := by
  unfold State.addWatch
  split
  · refine ⟨rfl, rfl, fun v hv => ?_⟩
    rw [State.mem_watches] at hv ⊢
    exact ⟨hv.1.imp_right (List.mem_append_left _), hv.2⟩
  · next hc =>
    refine ⟨rfl, rfl, fun v hv => ?_⟩
    rw [State.mem_watches] at hv ⊢
    refine ⟨.inr (hv.1.resolve_left ?_), hv.2⟩
    rintro rfl
    exact hc hv.2

theorem State.grows_withFresh (s : State) (n : Nat) : s.Grows { s with fresh := n } := .of_same rfl rfl rfl rfl

theorem State.grows_clearRows (s : State) (k n : Nat) : s.Grows (s.clearRows k n) := .of_same rfl rfl rfl rfl

theorem State.grows_clearBytes (s : State) (k n : Nat) : s.Grows (s.clearBytes k n) := .of_same rfl rfl rfl rfl

theorem State.grows_clearPlaces (s : State) (r : LaunchRec) (ps : List BlockPlace) : s.Grows (s.clearPlaces r ps) :=
  State.Grows.foldl (fun u _ => (u.grows_clearRows ..).trans (State.grows_clearBytes ..)) ps s

theorem State.grows_moveBytes (s : State) (src dst n : Nat) : s.Grows (s.moveBytes src dst n) := .of_same rfl rfl rfl rfl

theorem State.grows_moveRows (s : State) (src dst n : Nat) : s.Grows (s.moveRows src dst n) := .of_same rfl rfl rfl rfl

theorem State.grows_moveBlocks (s : State) (f t fa ta : Nat → Nat) (bytes rows : Nat) :
    ∀ n, s.Grows (s.moveBlocks f t fa ta bytes rows n)
  | 0 => .refl s
  | n + 1 => ((State.grows_moveBlocks s f t fa ta bytes rows n).trans (State.grows_moveBytes ..)).trans (State.grows_moveRows ..)

/-! ### A watch at the start of its block (R18, R39) -/

theorem VWake.empty_get (a : Nat) : VWake.empty.get a = .void := by
  unfold VWake.get VWake.empty
  rw [List.getD_eq_getElem?_getD, List.getElem?_replicate]
  split <;> rfl

/-- The entry state of watch v of block b of a gang, on its core (R18, R39). -/
def Launch.Enters (l : Launch) (idx b v core : Nat) (feat : DWord) (w : Watch) : Prop :=
  let r := l.recd
  w.ref = ⟨l.id, idx, b, v⟩ ∧ w.core = core ∧
  w.home = l.dom ∧ w.dom = l.dom ∧ w.cls = r.cls ∧ w.sp.pc = r.code + r.entry ∧ w.sp.recs = [] ∧
  w.sp.frames = [] ∧ w.sibs = [] ∧ w.sp.id = 0 ∧ w.flights = [] ∧ w.segs = r.segs ∧ w.ntid = 0 ∧ w.bovf = false ∧
  w.feat = feat ∧ w.spill = r.spill / r.watches ∧ w.caddy.slots = zeroBlocks r.caddy ∧
  (∀ n, 1 ≤ n → n ≤ 7 → w.kreg n = 0) ∧ (∀ n < 8, w.bears.getD n Bearing.zero = Bearing.zero) ∧
  (∀ n < 16, w.shapes.getD n 1 = 0) ∧
  (∀ l < 64, (w.lane l).exited = decide (r.ewidth ≤ l) ∧ (w.lane l).split = 0 ∧ (w.lane l).satf = false ∧
    (w.lane l).wake.nest = 0 ∧
    (w.lane l).wake.get 0 = .val (BitVec.ofNat 32 (((idx * r.blocks + b) * r.watches + v) * r.ewidth + l)) ∧
    ∀ a, 1 ≤ a → a < 32 → (w.lane l).wake.get a = .void)

section
variable (l : Launch) (idx b v core slot : Nat) (feat : DWord) (args : List DWord) (time fid : Nat) (blks : List Nat)

theorem startWatch_lane {i : Nat} (h : i < 64) : (startWatch l idx b v core slot feat args time fid blks).lane i =
    { Lane.empty with exited := decide (l.recd.ewidth ≤ i),
                      wake := VWake.empty.push (.val (BitVec.ofNat 32 (((idx * l.recd.blocks + b) * l.recd.watches + v) * l.recd.ewidth + i))) } := by
  have hi : (List.range Config.lanes)[i]? = some i := by rw [List.getElem?_range (show i < Config.lanes from h)]
  simp only [startWatch, Watch.lane, List.getD_eq_getElem?_getD, List.getElem?_map, hi, Option.map_some, Option.getD_some]

theorem startWatch_kreg {n : Nat} (h : 1 ≤ n) : (startWatch l idx b v core slot feat args time fid blks).kreg n = 0 := by
  rw [Watch.kreg, if_neg (by omega)]
  simp only [startWatch, List.getD_eq_getElem?_getD, List.getElem?_replicate]
  split <;> rfl

theorem startWatch_caddy : (startWatch l idx b v core slot feat args time fid blks).caddy.slots = zeroBlocks l.recd.caddy := by
  simp [startWatch, Watch.caddy, Watch.frameOf]

theorem startWatch_enters : l.Enters idx b v core feat (startWatch l idx b v core slot feat args time fid blks) := by
  refine ⟨rfl, rfl, rfl, rfl, rfl, rfl, rfl, rfl, rfl, rfl, rfl, rfl, rfl, rfl, rfl, rfl, startWatch_caddy .., fun n h _ =>
    startWatch_kreg (h := h) .., fun n h => ?_, fun n h => ?_, fun i h => ?_⟩
  · simp only [startWatch, List.getD_eq_getElem?_getD, List.getElem?_replicate, if_pos h, Option.getD_some]
  · simp only [startWatch, List.getD_eq_getElem?_getD, List.getElem?_replicate, if_pos h, Option.getD_some]
  · rw [startWatch_lane (h := h)]
    refine ⟨rfl, rfl, rfl, rfl, VWake.get_push_zero _ _ rfl, fun a ha ha' => ?_⟩
    obtain ⟨a, rfl⟩ := Nat.exists_eq_add_of_le' ha
    rw [VWake.get_push_succ _ _ rfl _ (by omega), VWake.empty_get]

end

/-! ### A gang that starts (R310, R39) -/

/-- One watch of a block starts in the entry state. -/
def State.startOne (l : Launch) (idx block core : Nat) (o : Offer) (args : List DWord) (s : State) (v : Nat) : State :=
  { s.addWatch (startWatch l idx block v core (o.slots.getD v 0) (s.reg (.featmask l.dom)) args s.time s.fresh
      ((s.freeBlocks core (poolOf l.recd.cls (o.slots.getD v 0) l.dom)).take l.recd.caddy)) with fresh := s.fresh + 1 }

theorem State.startBlock_eq (s : State) (l : Launch) (idx block core : Nat) (o : Offer) : s.startBlock l idx block core o =
    (List.range l.recd.watches).foldl (State.startOne l idx block core o (s.argWords core l.dom l.recd)) { s with fresh := s.fresh + 8 } := rfl

section
variable (l : Launch) (idx block core : Nat) (o : Offer)

theorem State.grows_startOne (args : List DWord) (s : State) (v : Nat) : s.Grows (s.startOne l idx block core o args v) :=
  (s.grows_addWatch _).trans (State.grows_withFresh ..)

theorem State.startOne_enters (args : List DWord) (s : State) (v : Nat) :
    ∃ w ∈ (s.startOne l idx block core o args v).watches, l.Enters idx block v core (s.reg (.featmask l.dom)) w :=
  ⟨_, (State.grows_withFresh ..).watches _ (State.mem_addWatch rfl), startWatch_enters ..⟩

theorem State.grows_startBlock (s : State) : s.Grows (s.startBlock l idx block core o) := by
  rw [State.startBlock_eq]
  exact (s.grows_withFresh _).trans (State.Grows.foldl (fun u v => u.grows_startOne l idx block core o _ v) _ _)

theorem State.startBlock_enters (s : State) {v : Nat} (hv : v < l.recd.watches) :
    ∃ w ∈ (s.startBlock l idx block core o).watches, l.Enters idx block v core (s.reg (.featmask l.dom)) w := by
  rw [State.startBlock_eq]
  obtain ⟨u, hu, ht⟩ := State.Grows.foldl_passes (fun u v => u.grows_startOne l idx block core o (s.argWords core l.dom l.recd) v)
    (List.mem_range.2 hv) { s with fresh := s.fresh + 8 }
  obtain ⟨w, hw, he⟩ := u.startOne_enters l idx block core o (s.argWords core l.dom l.recd) v
  rw [hu.reg] at he
  exact ⟨w, ht.watches w hw, he⟩

end

theorem mem_mapFrom_pair {α : Type} {a : α} {n : Nat} {xs : List α} (h : xs[n]? = some a) : (n, a) ∈ mapFrom (fun b x => (b, x)) 0 xs := by
  refine List.mem_of_getElem? (i := n) ?_
  rw [mapFrom_getElem?, h, Option.map_some, Nat.zero_add]

/-- The cores of an offer are those that were named. -/
theorem State.offers_cores {s : State} {c : Cand} {reclaim : List Nat} : ∀ {cores : List Nat} {b : Nat} {os : List (Nat × Offer)},
    s.offers c reclaim b cores = some os → os.map (·.1) = cores
  | [], b, os, h => by
    cases h
    rfl
  | core :: cores, b, os, h => by
    rw [State.offers] at h
    split at h
    · next o os' ho hos =>
      cases h
      rw [List.map_cons, State.offers_cores hos]
    · cases h

theorem placesOf_cores (c : Cand) (os : List (Nat × Offer)) : (placesOf c os).map (·.core) = os.map (·.1) := by
  refine List.ext_getElem? fun i => ?_
  rw [placesOf, List.getElem?_map, mapFrom_getElem?, List.getElem?_map, Option.map_map]
  rfl

/-- The gang that starts (R310). -/
def State.newGang (s : State) (c : Cand) (os : List (Nat × Offer)) : Gang :=
  { launch := c.launch.id, idx := c.idx, phase := .placed, places := placesOf c os, join := 0,
    bgen := List.replicate c.launch.recd.blocks 0, ggen := 0, jgen := 0, staging := [],
    tids := s.readTids ((os.head?.map (·.1)).getD 0) c.launch,
    unit := ((c.gang.filter Gang.hasSlot).map (·.unit)).getD ((s.saveSlot c.launch).getD 0), seq := 0, back := 0, watches := [] }

/-- A gang takes its places, cleared, in the list of gangs. -/
def State.enlist (s : State) (c : Cand) (os : List (Nat × Offer)) : State :=
  { s.clearPlaces c.launch.recd (placesOf c os) with
    gangs := (s.clearPlaces c.launch.recd (placesOf c os)).gangs.filter (fun (x : Gang) => !(x.launch == c.launch.id && x.idx == c.idx)) ++
      [s.newGang c os] }

/-- The blocks of a gang start, one after the other. -/
def State.startBlocks (s : State) (c : Cand) (os : List (Nat × Offer)) : State :=
  (mapFrom (fun b x => (b, x)) 0 os).foldl (fun (s : State) (x : Nat × (Nat × Offer)) => s.startBlock c.launch c.idx x.1 x.2.1 x.2.2)
    (s.enlist c os)

theorem State.startGang_eq (s : State) (c : Cand) (os : List (Nat × Offer)) : s.startGang c os =
    match s.startBad ((os.head?.map (·.1)).getD 0) c.launch.dom c.launch.recd with
    | some (va, _, true) => (s.startBlocks c os).consumePoison c.launch.dom ((os.head?.map (·.1)).getD 0) ⟨c.launch.id, c.idx, 0, 0⟩ 1 va
    | some (_, k, false) => (s.startBlocks c os).unmappedPage ⟨c.launch.id, c.idx, 0, 0⟩ k
    | none => s.startBlocks c os := rfl

theorem State.enlist_gangOf (s : State) (c : Cand) (os : List (Nat × Offer)) :
    (s.enlist c os).gangOf c.launch.id c.idx = some (s.newGang c os) := by
  have hnone : ((s.clearPlaces c.launch.recd (placesOf c os)).gangs.filter (fun (x : Gang) => !(x.launch == c.launch.id && x.idx == c.idx))).find?
      (fun g => g.launch == c.launch.id && g.idx == c.idx) = none := by
    rw [List.find?_eq_none]
    intro g hg
    simpa [imp_iff_not_or] using (List.mem_filter.1 hg).2
  rw [State.gangOf, State.enlist]
  dsimp only
  rw [List.find?_append, hnone, Option.none_or, List.find?_cons_of_pos]
  simp [State.newGang]

theorem State.enlist_watches (s : State) (c : Cand) (os : List (Nat × Offer)) : ∀ w ∈ s.watches, w ∈ (s.enlist c os).watches :=
  (s.grows_clearPlaces _ _).watches

theorem State.enlist_reg (s : State) (c : Cand) (os : List (Nat × Offer)) (r : Reg) : (s.enlist c os).reg r = s.reg r :=
  (s.grows_clearPlaces _ _).reg r

theorem State.grows_startBlocks (s : State) (c : Cand) (os : List (Nat × Offer)) : (s.enlist c os).Grows (s.startBlocks c os) :=
  State.Grows.foldl (fun u _ => u.grows_startBlock ..) _ _

/-- Each watch of each block stands on its core in the entry state. -/
theorem State.startBlocks_enters (s : State) (c : Cand) {os : List (Nat × Offer)} {b v core : Nat} {o : Offer}
    (hb : os[b]? = some (core, o)) (hv : v < c.launch.recd.watches) :
    ∃ w ∈ (s.startBlocks c os).watches, c.launch.Enters c.idx b v core (s.reg (.featmask c.launch.dom)) w := by
  obtain ⟨u, hu, ht⟩ := State.Grows.foldl_passes
    (f := fun (s : State) (x : Nat × (Nat × Offer)) => s.startBlock c.launch c.idx x.1 x.2.1 x.2.2)
    (fun u x => u.grows_startBlock ..) (mem_mapFrom_pair hb) (s.enlist c os)
  obtain ⟨w, hw, he⟩ := u.startBlock_enters c.launch c.idx b core o hv
  rw [hu.reg, s.enlist_reg] at he
  exact ⟨w, ht.watches w hw, he⟩

/-! ### What a dispatcher does with its next candidate (R303, R310) -/

/-- States that translate alike and hold the same poison find the same bytes bad (R384). -/
theorem State.MapsLike.vbad {s t : State} (h : t.MapsLike s) (hp : t.poison = s.poison) (tu dom : Nat) :
    ∀ n va, t.vbad tu dom va n = s.vbad tu dom va n
  | 0, _ => rfl
  | n + 1, va => by
    have hk : ∀ k, t.poisoned k 1 = s.poisoned k 1 := fun k => by rw [State.poisoned, State.poisoned, h.isZp, hp]
    rw [State.vbad, State.vbad, h.reachAt]
    simp only [h.mediaOk, hk, State.MapsLike.vbad h hp tu dom n]

theorem State.modLaunch_startBad (s : State) (id : Nat) (f : Launch → Launch) (core dom : Nat) (r : LaunchRec) :
    (s.modLaunch id f).startBad core dom r = s.startBad core dom r := by
  have hm : (s.modLaunch id f).MapsLike s := .of_fields rfl rfl rfl rfl rfl rfl
  simp only [State.startBad, hm.vbad rfl]

section
variable {s : State} {cores : List Nat} {c : Cand} {os : List (Nat × Offer)} (hn : s.nextCand (cores.headD 0 / 160) = some c)
  (hc : clusterOf cores c.launch.recd.blocks = true) (ho : s.offers c [] 0 cores = some os)
include hn hc ho

theorem State.gangPlace_eq : s.gangPlace cores = s.placeOrHold (cores.headD 0) c os := by
  have hh : cores.head?.getD 0 = cores.headD 0 := by cases cores <;> rfl
  rw [State.gangPlace, hh, hn]
  dsimp only
  rw [if_neg (not_not.2 hc), ho]

/-- A gang that starts is placed once its argument words can be read, after its launch has handed out its index. -/
theorem State.gangPlace_starts (hg : ∀ g, c.gang = some g → g.phase = .relaunch)
    (ha : s.argHold (cores.headD 0) c.launch.dom c.launch.recd = none) :
    ∃ u, s.gangPlace cores = u.startGang c os ∧ s.Grows u ∧ ∀ core dom r, u.startBad core dom r = s.startBad core dom r := by
  rw [State.gangPlace_eq hn hc ho, State.placeOrHold, ha]
  dsimp only
  rw [State.placeCand]
  split
  · next g hcg => exact ⟨s, if_pos (hg g hcg), .refl s, fun _ _ _ => rfl⟩
  · exact ⟨_, rfl, .of_same rfl rfl rfl rfl, s.modLaunch_startBad _ _⟩

/-- A saved gang returns, whether or not its argument words can be read. -/
theorem State.gangPlace_resumes {g : Gang} (hg : c.gang = some g) (hp : g.phase = .saved) : s.gangPlace cores = s.resumeGang c g os := by
  have hr : s.placeCand (cores.headD 0 / 160) c os = s.resumeGang c g os := by
    rw [State.placeCand, hg]
    exact if_neg (by simp [hp])
  rw [State.gangPlace_eq hn hc ho, State.placeOrHold]
  split
  · rw [if_neg (by simp [hg, hp]), hr]
  · exact hr

omit hn hc in
theorem State.offers_head : (os.head?.map (·.1)).getD 0 = cores.headD 0 := by
  rw [← State.offers_cores ho]
  cases os <;> rfl

omit hn in
/-- Each block of the record has a core and its offer. -/
theorem State.offers_getElem? {b : Nat} (hb : b < c.launch.recd.blocks) : ∃ o, os[b]? = some (cores.getD b 0, o) := by
  have hcores := State.offers_cores ho
  have hl : os.length = c.launch.recd.blocks := by
    simp only [clusterOf, Bool.and_eq_true, beq_iff_eq] at hc
    rw [← hc.1.1, ← hcores, List.length_map]
  have hb' : b < os.length := hl ▸ hb
  refine ⟨(os[b]).2, ?_⟩
  rw [← hcores, List.getD_eq_getElem?_getD, List.getElem?_map, List.getElem?_eq_getElem hb']
  rfl

end

/-- A gang that starts takes its places, and its watches join those that are resident (R18, R39, R310). -/
theorem State.startGang_placed {s : State} {c : Cand} {os : List (Nat × Offer)}
    (hb : s.startBad ((os.head?.map (·.1)).getD 0) c.launch.dom c.launch.recd = none) :
    (s.startGang c os).gangOf c.launch.id c.idx = some (s.newGang c os) ∧ (∀ w ∈ s.watches, w ∈ (s.startGang c os).watches) ∧
    ∀ b core o, os[b]? = some (core, o) → ∀ v < c.launch.recd.watches,
      ∃ w ∈ (s.startGang c os).watches, c.launch.Enters c.idx b v core (s.reg (.featmask c.launch.dom)) w := by
  rw [State.startGang_eq, hb]
  have hgrow := s.grows_startBlocks c os
  exact ⟨(hgrow.gangOf ..).trans (s.enlist_gangOf c os), fun w hw => hgrow.watches w (s.enlist_watches c os w hw),
    fun b core o hbo v hv => s.startBlocks_enters c hbo hv⟩

/-! ### A gang that returns (R340, R348) -/

/-- What a rehousing keeps of a watch's caddy frames. -/
theorem State.rehouse_caddies (s : State) (w : Watch) :
    (s.rehouse w).caddies.map (fun f => (f.id, f.slots)) = w.caddies.map (fun f => (f.id, f.slots)) := by
  have hfold : ∀ (pool : CaddyFrame → Nat) (blks : List CaddyFrame → CaddyFrame → List Nat) (fs done : List CaddyFrame),
      (fs.foldl (fun done f => done ++ [{ f with pool := pool f, blks := blks done f }]) done).map (fun f => (f.id, f.slots)) =
        done.map (fun f => (f.id, f.slots)) ++ fs.map (fun f => (f.id, f.slots)) := by
    intro pool blks fs
    induction fs with
    | nil => simp
    | cons f fs ih =>
      intro done
      rw [List.foldl_cons, ih]
      simp
  exact hfold _ (fun done f =>
    let pool := if 32 ≤ f.pool then 32 + (w.slot - 16) else f.pool
    let free := if w.framesOnChip.any (fun g => g.id == f.id) then
      (s.freeBlocks w.core pool).filter (fun n => !(done.flatMap (·.blks)).contains n) else []
    if f.blocks ≤ free.length then free.take f.blocks else []) w.caddies []

/-- A returned watch stands where the saved one stood (R340). -/
def Watch.GoesOn (w : Watch) (core : Nat) (v : Watch) : Prop :=
  v.ref = w.ref ∧ v.core = core ∧ v.sp.pc = w.sp.pc ∧ v.sp.swake = w.sp.swake ∧ v.sp.recs = w.sp.recs ∧ v.lanes = w.lanes ∧
    v.ks = w.ks ∧ v.bears = w.bears ∧ v.shapes = w.shapes ∧ v.segs = w.segs ∧
    v.caddies.map (fun f => (f.id, f.slots)) = w.caddies.map (fun f => (f.id, f.slots)) ∧ v.ntid = w.ntid ∧ v.bovf = w.bovf

theorem State.refeature_rehouse_goesOn (s : State) (w : Watch) (core slot : Nat) :
    w.GoesOn core (s.refeature (s.rehouse { w with core := core, slot := slot })) :=
  ⟨rfl, rfl, rfl, rfl, rfl, rfl, rfl, rfl, rfl, rfl, s.rehouse_caddies { w with core := core, slot := slot }, rfl, rfl⟩

theorem State.grows_restoreBlock (s : State) (ws : List Watch) (core : Nat) (o : Offer) : s.Grows (s.restoreBlock ws core o) :=
  State.Grows.foldl (fun u _ => u.grows_addWatch _) _ _

theorem State.restoreBlock_goesOn (s : State) {ws : List Watch} (core : Nat) (o : Offer) {w : Watch} (hw : w ∈ ws)
    (hr : w.resident = true) : ∃ v ∈ (s.restoreBlock ws core o).watches, w.GoesOn core v := by
  obtain ⟨i, hi⟩ := List.mem_iff_getElem?.1 hw
  obtain ⟨u, -, ht⟩ := State.Grows.foldl_passes (f := fun (s : State) (x : Nat × Watch) =>
    s.addWatch (s.refeature (s.rehouse { x.2 with core := core, slot := o.slots.getD x.1 0 }))) (fun u _ => u.grows_addWatch _)
    (mem_mapFrom_pair hi) s
  exact ⟨_, ht.watches _ (State.mem_addWatch hr), u.refeature_rehouse_goesOn ..⟩

/-- The gang that returns, at its places. -/
def Gang.replaced (g : Gang) (c : Cand) (os : List (Nat × Offer)) : Gang :=
  { g with phase := .placed, places := placesOf c os, image := [], altered := [], saves := [], watches := [] }

/-- A saved gang whose image is unaltered takes its places, and its commands go on from there; its watches are not yet resident. -/
def State.reinstate (s : State) (c : Cand) (g : Gang) (os : List (Nat × Offer)) : State :=
  let l := c.launch
  let ps := placesOf c os
  let mine := fun (r : WatchRef) => r.launch == l.id && r.gang == c.idx
  let s := ((s.clearPlaces l.recd ps).moveBlocks g.spadAt (g.replaced c os).spadAt g.accAt (g.replaced c os).accAt (128 * l.recd.sprows)
    l.recd.accrows l.recd.blocks).modGang l.id c.idx (fun _ => g.replaced c os)
  { s with
    mats := s.mats.filter (fun m => !mine m.watch) ++ (s.mats.filter (fun m => mine m.watch)).map (fun (m : MatCmd) =>
      { m with core := ((ps[m.watch.block]?).map (·.core)).getD m.core }),
    cmds := s.cmds.map (fun (e : EngCmd) =>
      if mine e.watch then { e with paused := false, core := ((ps[e.watch.block]?).map (·.core)).getD e.core } else e) }

/-- The saved watches return to their blocks' cores, one block after the other. -/
def State.restoreBlocks (s : State) (c : Cand) (g : Gang) (os : List (Nat × Offer)) : State :=
  (mapFrom (fun b x => (b, x)) 0 os).foldl (fun (s : State) (x : Nat × (Nat × Offer)) =>
    s.restoreBlock (g.watches.filter (fun w => w.ref.block == x.1)) x.2.1 x.2.2) (s.reinstate c g os)

theorem State.resumeGang_intact (s : State) (c : Cand) (g : Gang) (os : List (Nat × Offer)) (h : g.intact = true) :
    s.resumeGang c g os = (s.restoreBlocks c g os).pollJoin ⟨c.launch.id, c.idx, 0, 0⟩ := by
  unfold State.resumeGang
  simp only [h, if_true]
  rfl

theorem State.modGang_gangOf {s : State} {l i : Nat} {f : Gang → Gang} {g : Gang} (h : s.gangOf l i = some g)
    (hl : (f g).launch = g.launch) (hi : (f g).idx = g.idx) : (s.modGang l i f).gangOf l i = some (f g) := by
  obtain ⟨hg, xs, ys, hs, hxs⟩ := List.find?_eq_some_iff_append.1 h
  have hgk : g.launch = l ∧ g.idx = i := by simpa using hg
  have hmap : xs.map (fun x => if x.launch = l ∧ x.idx = i then f x else x) = xs := by
    refine List.map_congr_left (g := id) (fun x hx => if_neg ?_) |>.trans (List.map_id xs)
    simpa [imp_iff_not_or] using hxs x hx
  have hnone : xs.find? (fun g => g.launch == l && g.idx == i) = none :=
    List.find?_eq_none.2 fun x hx => by simpa [imp_iff_not_or] using hxs x hx
  rw [State.gangOf, State.modGang]
  dsimp only
  rw [hs, List.map_append, List.map_cons, if_pos hgk, hmap, List.find?_append, hnone, Option.none_or, List.find?_cons_of_pos]
  simp [hl, hi, hgk]

theorem State.reinstate_gangOf {s : State} {c : Cand} {g : Gang} (os : List (Nat × Offer)) (h : s.gangOf c.launch.id c.idx = some g) :
    (s.reinstate c g os).gangOf c.launch.id c.idx = some (g.replaced c os) := by
  have hgrow := (s.grows_clearPlaces c.launch.recd (placesOf c os)).trans (State.grows_moveBlocks _ g.spadAt (g.replaced c os).spadAt g.accAt
    (g.replaced c os).accAt (128 * c.launch.recd.sprows) c.launch.recd.accrows c.launch.recd.blocks)
  exact State.modGang_gangOf (f := fun _ => g.replaced c os) ((hgrow.gangOf ..).trans h) rfl rfl

theorem State.grows_restoreBlocks (s : State) (c : Cand) (g : Gang) (os : List (Nat × Offer)) :
    (s.reinstate c g os).Grows (s.restoreBlocks c g os) :=
  State.Grows.foldl (fun u _ => u.grows_restoreBlock ..) _ _

theorem State.restoreBlocks_goesOn (s : State) (c : Cand) {g : Gang} {os : List (Nat × Offer)} {core : Nat} {o : Offer} {w : Watch}
    (hw : w ∈ g.watches) (hr : w.resident = true) (ho : os[w.ref.block]? = some (core, o)) :
    ∃ v ∈ (s.restoreBlocks c g os).watches, w.GoesOn core v := by
  obtain ⟨u, -, ht⟩ := State.Grows.foldl_passes (f := fun (s : State) (x : Nat × (Nat × Offer)) =>
    s.restoreBlock (g.watches.filter (fun w => w.ref.block == x.1)) x.2.1 x.2.2) (fun u _ => u.grows_restoreBlock ..)
    (mem_mapFrom_pair ho) (s.reinstate c g os)
  have hmem : w ∈ g.watches.filter (fun x => x.ref.block == w.ref.block) := List.mem_filter.2 ⟨hw, beq_self_eq_true _⟩
  obtain ⟨v, hv, hon⟩ := u.restoreBlock_goesOn core o hmem hr
  exact ⟨v, ht.watches v hv, hon⟩

/-! ### The names of the resident watches

Writes, records, signals, nodes and launches leave the names of the resident watches; a kill only removes some. -/

/-- The names of the resident watches. -/
def State.refs (s : State) : List WatchRef := s.watches.map (·.ref)

theorem State.foldl_refs {α : Type} {f : State → α → State} (hf : ∀ s a, (f s a).refs = s.refs) (l : List α) (s : State) :
    (l.foldl f s).refs = s.refs := by
  induction l generalizing s with
  | nil => rfl
  | cons a l ih => rw [List.foldl_cons, ih, hf]

theorem State.mapWatches_refs (s : State) {f : Watch → Watch} (hr : ∀ w, (f w).ref = w.ref) (hp : ∀ w, (f w).resident = w.resident) :
    (s.mapWatches f).refs = s.refs := by
  rw [State.refs, State.refs, State.mapWatches_watches s hp, List.map_map]
  exact List.map_congr_left fun w _ => hr w

section
variable (s : State)

@[simp] theorem State.setReg_refs (r : Reg) (v : DWord) : (s.setReg r v).refs = s.refs := rfl
@[simp] theorem State.countLost_refs (r : Reg) : (s.countLost r).refs = s.refs := rfl
@[simp] theorem State.raiseMsix_refs (f v : Nat) : (s.raiseMsix f v).refs = s.refs := rfl
@[simp] theorem State.modLaunch_refs (i : Nat) (f : Launch → Launch) : (s.modLaunch i f).refs = s.refs := rfl
@[simp] theorem State.modGang_refs (i j : Nat) (f : Gang → Gang) : (s.modGang i j f).refs = s.refs := rfl
@[simp] theorem State.nextSeq_refs (d : Nat) : (s.nextSeq d).refs = s.refs := rfl
@[simp] theorem State.failLaunch_refs (i : Nat) : (s.failLaunch i).refs = s.refs := rfl
@[simp] theorem State.dropCounter_refs (d i : Nat) : (s.dropCounter d i).refs = s.refs := rfl
@[simp] theorem State.dropImage_refs (l g : Nat) : (s.dropImage l g).refs = s.refs := rfl

/-- New nodes leave the names, whatever the state that they are put in: for a state that is long to evaluate. -/
theorem State.withNodes_refs (ns : List Node) : ({ s with nodes := ns } : State).refs = s.refs := rfl

/-- So do new bytes. -/
theorem State.withBytes_refs (m : Memory) (ps : List Nat) : ({ s with mem := m, poison := ps } : State).refs = s.refs := rfl

@[simp] theorem State.openPage_refs (k : Nat) : (s.openPage k).refs = s.refs := by
  unfold State.openPage
  split <;> rfl

@[simp] theorem State.dropResv_refs (k n : Nat) : (s.dropResv k n).refs = s.refs := s.mapWatches_refs (fun _ => rfl) (fun _ => rfl)

@[simp] theorem State.followed_refs (t : Trail) (k n : Nat) : (s.followed t k n).refs = s.refs := by
  unfold State.followed
  split <;> rfl

@[simp] theorem State.put_refs (t : Trail) (k : Nat) (bs : List Byte) : (s.put t k bs).refs = s.refs := by
  unfold State.put
  split
  · rfl
  · dsimp only
    rw [State.withBytes_refs, State.followed_refs, State.dropResv_refs, State.openPage_refs]

@[simp] theorem State.write_refs (k : Nat) (bs : List Byte) : (s.write k bs).refs = s.refs := s.put_refs ..

@[simp] theorem State.store_refs (k n v : Nat) : (s.store k n v).refs = s.refs := s.write_refs ..

@[simp] theorem State.putThrough_refs (t : Trail) (k : Nat) (bs : List Byte) : (s.putThrough t k bs).refs = s.refs := by
  rw [← s.put_refs t k bs]
  unfold State.putThrough
  generalize s.put t k bs = u
  dsimp only
  split <;> rfl

theorem State.vwriteFuel_refs (tu dom : Nat) : ∀ (n : Nat) (s : State) (va : Nat) (bs : List Byte),
    (State.vwriteFuel n s tu dom va bs).refs = s.refs
  | 0, _, _, _ => rfl
  | n + 1, s, va, bs => by
    unfold State.vwriteFuel
    split
    · rfl
    · rw [State.vwriteFuel_refs tu dom n]
      split
      · exact s.write_refs ..
      · rfl

@[simp] theorem State.vwrite_refs (tu dom va : Nat) (bs : List Byte) : (s.vwrite tu dom va bs).refs = s.refs := State.vwriteFuel_refs ..

theorem State.enterOne_refs (e : LateWrite) : (s.enterOne e).refs = s.refs := by
  have heal : ∀ u : State, (if u.late.any (fun x => x.num == e.num) then u else
      { u with poison := healPoison e.whole.1 e.whole.2 u.poison }).refs = u.refs := fun u => by split <;> rfl
  unfold State.enterOne
  dsimp only
  rw [heal]
  split
  · exact s.put_refs ..
  · exact s.putThrough_refs ..

@[simp] theorem State.enterSome_refs (sel : Nat → LateWrite → Bool) : (s.enterSome sel).refs = s.refs := by
  unfold State.enterSome
  split
  · rfl
  · exact State.foldl_refs State.enterOne_refs _ _

@[simp] theorem State.enterGang_refs (l g : Nat) : (s.enterGang l g).refs = s.refs := s.enterSome_refs _

@[simp] theorem State.crossLaunch_refs (l : Nat) : (s.crossLaunch l).refs = s.refs := s.enterSome_refs _

@[simp] theorem State.domainRecord_refs (dom : Nat) (r : ErrRec) : (s.domainRecord dom r).refs = s.refs := by
  simp only [State.domainRecord]
  (repeat' split) <;> simp

@[simp] theorem State.physRecord_refs (r : ErrRec) (virt : Bool) : (s.physRecord r virt).refs = s.refs := by
  simp only [State.physRecord]
  split <;> simp

@[simp] theorem State.record_refs (r : ErrRec) : (s.record r).refs = s.refs := by
  simp only [State.record]
  (repeat' split) <;> simp

@[simp] theorem State.changeSignal_refs (k : Nat) (c : SigChange) : (s.changeSignal k c).refs = s.refs := by
  unfold State.changeSignal
  (repeat' split) <;> simp

@[simp] theorem State.notifyDone_refs (dom : Nat) (notify : Bool) : (s.notifyDone dom notify).refs = s.refs := by
  unfold State.notifyDone
  split <;> rfl

@[simp] theorem State.signal_refs (launch dom va : Nat) (c : SigChange) (notify : Bool) :
    (s.signal launch dom va c notify).refs = s.refs := by
  unfold State.signal
  split
  · exact s.notifyDone_refs ..
  split
  · split
    · exact s.notifyDone_refs ..
    split
    · rfl
    · rw [State.notifyDone_refs, State.changeSignal_refs]
  · exact s.notifyDone_refs ..

@[simp] theorem State.setNodeState_refs (dom idx v : Nat) : (s.setNodeState dom idx v).refs = s.refs := s.vwrite_refs ..

@[simp] theorem State.writeBack_refs (die : Nat) : (s.writeBack die).refs = s.refs :=
  State.foldl_refs (fun u _ => u.vwrite_refs ..) _ _

@[simp] theorem State.touchCounter_refs (die dom idx : Nat) : (s.touchCounter die dom idx).refs = s.refs := State.writeBack_refs _ _

@[simp] theorem State.putNode_refs (n : Node) : (s.putNode n).refs = s.refs := State.touchCounter_refs _ _ _ _

@[simp] theorem State.enterPool_refs (dom : Nat) (node : Option Nat) (succ : List Nat) (home prio : Nat) (r : LaunchRec)
    (payload : Option DWord) (parent : Option (Nat × Nat)) : (s.enterPool dom node succ home prio r payload parent).refs = s.refs := rfl

@[simp] theorem State.nodeReady_refs (n : Node) : (s.nodeReady n).refs = s.refs := by
  unfold State.nodeReady
  dsimp only
  rw [State.enterPool_refs, State.touchCounter_refs, State.setNodeState_refs, State.vwrite_refs, State.withNodes_refs]

@[simp] theorem State.decNode_refs (dom idx n : Nat) : (s.decNode dom idx n).refs = s.refs := by
  unfold State.decNode
  split
  · exact s.record_refs _
  split
  · rw [State.record_refs, State.putNode_refs]
  split
  · exact State.nodeReady_refs _ _
  · exact s.putNode_refs _

theorem State.releaseAll_refs (dom : Nat) : ∀ (is : List Nat) (s : State), (s.releaseAll dom is).refs = s.refs
  | [], _ => rfl
  | i :: is, s => by rw [State.releaseAll, State.releaseAll_refs dom is, State.decNode_refs]

@[simp] theorem State.returnSwapped_refs (l g : Nat) : (s.returnSwapped l g).refs = s.refs := by
  unfold State.returnSwapped
  (repeat' split) <;> simp

@[simp] theorem State.joinFall_refs (p : Option (Nat × Nat)) : (s.joinFall p).refs = s.refs := by
  unfold State.joinFall
  split <;> simp

@[simp] theorem State.endLaunch_refs (l : Launch) (quiet : Bool) : (s.endLaunch l quiet).refs = s.refs := by
  unfold State.endLaunch
  split
  · extract_lets s1 s2 s3 s4
    have h1 : s1.refs = s.refs := by
      simp only [s1]
      split <;> simp
    have h2 : s2.refs = s.refs := by rw [State.modLaunch_refs, h1]
    have h4 : s4.refs = s.refs := by rw [State.record_refs, State.signal_refs, h2]
    (repeat' split) <;> simp [h2, h4]
  · extract_lets s1 s2 s3 s4 s5
    have h2 : s2.refs = s.refs := by
      simp only [s1, s2]
      split <;> simp
    rw [State.joinFall_refs, State.signal_refs, State.releaseAll_refs, State.modLaunch_refs, h2]

@[simp] theorem State.settleLaunch_refs (id : Nat) (quiet : Bool) : (s.settleLaunch id quiet).refs = s.refs := by
  unfold State.settleLaunch
  (repeat' split) <;> simp

@[simp] theorem State.failNode_refs (n : Node) : (s.failNode n).refs = s.refs := by
  unfold State.failNode
  rw [State.withNodes_refs, State.dropCounter_refs, State.setNodeState_refs]

end

/-! ### A kill (R315) -/

theorem State.keepWatches_watches (s : State) (p : Watch → Bool) : (s.keepWatches p).watches = s.watches.filter p := by
  have hf : s.watches.filter p = ((s.ctx :: s.others).filter p).filter (·.resident) := by
    rw [State.watches, List.filter_filter, List.filter_filter]
    exact List.filter_congr fun w _ => Bool.and_comm ..
  rw [hf, State.keepWatches]
  split
  · next hp => rw [List.filter_cons_of_pos hp, State.watches]
  · next hp =>
    rw [List.filter_cons_of_neg hp]
    split
    · next ho =>
      rw [ho]
      rfl
    · next w ws ho => rw [ho, State.watches]

/-- Less work leaves the names, whatever the state that it is put in. -/
theorem State.withWork_refs (s : State) (cmds : List EngCmd) (mats : List MatCmd) (caddyQ : List CaddyReq) (counts : List CountEntry)
    (prq : List PageReq) :
    ({ s with cmds := cmds, mats := mats, caddyQ := caddyQ, counts := counts, prq := prq } : State).refs = s.refs := rfl

/-- What a gang holds is freed; of the watches, only its own go. -/
theorem State.dropGang_refs (s : State) (l g : Nat) :
    (s.dropGang l g).refs = s.refs.filter (fun r => !(r.launch == l && r.gang == g)) := by
  unfold State.dropGang
  dsimp only
  rw [State.withWork_refs, State.dropImage_refs, State.refs, State.keepWatches_watches, ← State.enterGang_refs s l g, State.refs,
    List.filter_map]
  rfl

theorem State.foldl_refs_subset {α : Type} {f : State → α → State} (hf : ∀ s a, (f s a).refs ⊆ s.refs) (l : List α) (s : State) :
    (l.foldl f s).refs ⊆ s.refs :=
  List.foldlRecOn l f (List.Subset.refl _) fun u hu a _ => List.Subset.trans (hf u a) hu

/-- After a kill only watches are resident that are not the gang's. -/
theorem State.killGangFuel_succ_refs {fuel : Nat} (s : State) (l g : Nat) (again quiet : Bool)
    (hkid : ∀ (u : State) (l g : Nat) (again quiet : Bool), (State.killGangFuel fuel u l g again quiet).refs ⊆ u.refs) :
    (State.killGangFuel (fuel + 1) s l g again quiet).refs ⊆ (s.dropGang l g).refs := by
  unfold State.killGangFuel
  extract_lets s1 kids kidNodes s2 s3 s4 s5
  have h2 : s2.refs = s1.refs := State.foldl_refs (fun u n => by rw [State.record_refs, State.signal_refs, State.failNode_refs]) _ _
  have h3 : s3.refs ⊆ s2.refs := by
    refine State.foldl_refs_subset (fun u x => ?_) _ _
    dsimp only
    rw [State.settleLaunch_refs]
    exact State.foldl_refs_subset (fun u g => hkid u _ _ _ _) _ _
  rw [h2] at h3
  split
  · exact h3
  · rw [State.settleLaunch_refs]
    exact h3

theorem State.killGangFuel_refs_subset : ∀ (fuel : Nat) (s : State) (l g : Nat) (again quiet : Bool),
    (State.killGangFuel fuel s l g again quiet).refs ⊆ s.refs
  | 0, _, _, _, _, _ => List.Subset.refl _
  | fuel + 1, s, l, g, again, quiet => by
    refine List.Subset.trans (s.killGangFuel_succ_refs l g again quiet (State.killGangFuel_refs_subset fuel)) ?_
    rw [State.dropGang_refs]
    exact List.filter_subset_self _

/-- A kill leaves no watch of the gang (R315). -/
theorem State.killGang_lacks (s : State) (l g : Nat) (mayRelaunch : Bool) :
    ∀ w ∈ (s.killGang l g mayRelaunch).watches, w.of l g = false := by
  intro w hw
  have hr : w.ref ∈ (s.dropGang l g).refs :=
    s.killGangFuel_succ_refs l g _ false (State.killGangFuel_refs_subset _) (List.mem_map_of_mem hw)
  rw [State.dropGang_refs] at hr
  simpa only [Watch.of, Bool.not_eq_true'] using (List.mem_filter.1 hr).2

theorem State.consumePoison_lacks (s : State) (dom core : Nat) (r : WatchRef) (sub addr : Nat) :
    ∀ w ∈ (s.consumePoison dom core r sub addr).watches, w.of r.launch r.gang = false := State.killGang_lacks _ _ _ _

theorem State.unmappedPage_lacks (s : State) (r : WatchRef) (key : Nat) :
    ∀ w ∈ (s.unmappedPage r key).watches, w.of r.launch r.gang = false := State.killGang_lacks _ _ _ _

/-- A gang that starts and consumes poison, or meets a page that is not mapped, leaves no watch behind (R357, R384). -/
theorem State.startGang_lacks {s : State} {c : Cand} {os : List (Nat × Offer)}
    (hb : s.startBad ((os.head?.map (·.1)).getD 0) c.launch.dom c.launch.recd ≠ none) :
    ∀ w ∈ (s.startGang c os).watches, w.of c.launch.id c.idx = false := by
  rw [State.startGang_eq]
  split
  · exact State.consumePoison_lacks _ _ _ ⟨c.launch.id, c.idx, 0, 0⟩ _ _
  · exact State.unmappedPage_lacks _ ⟨c.launch.id, c.idx, 0, 0⟩ _
  · next h => exact absurd h hb

/-- Settles O52: the candidates stand in running order, a gang's watches join the resident ones at its start or return, and a kill at the
start leaves none. -/
theorem gangPlacement : Obligations.GangPlacement := by
  unfold Obligations.GangPlacement
  intro s cores c os die r hn
  refine ⟨State.nextCand_first hn, fun hc ho => ?_⟩
  have hhead := State.offers_head ho
  have hplaces : (placesOf c os).map (·.core) = cores := (placesOf_cores c os).trans (State.offers_cores ho)
  have starts := State.gangPlace_starts hn hc ho
  refine ⟨fun hg ha hb => ?_, fun hg ha hb => ?_, fun g hg hp hi hof => ?_⟩
  · obtain ⟨u, ht, hu, hbad⟩ := starts hg ha
    obtain ⟨hgang, hgrow, henter⟩ := State.startGang_placed (s := u) (c := c) (os := os) (by rw [hhead, hbad, hb])
    refine ⟨u.startGang c os, congrArg Host.Outcome.next ht, ⟨_, hgang, rfl, hplaces, rfl, rfl⟩, fun w h => hgrow w (hu.watches w h),
      fun b hb v hv => ?_⟩
    obtain ⟨o, ho⟩ := State.offers_getElem? hc ho hb
    have hw := henter b _ o ho v hv
    rw [hu.reg] at hw
    exact hw
  · obtain ⟨u, ht, -, hbad⟩ := starts hg ha
    exact ⟨_, congrArg Host.Outcome.next ht, State.startGang_lacks (by rwa [hhead, hbad])⟩
  · refine ⟨s.restoreBlocks c g os, congrArg Host.Outcome.next ((State.gangPlace_resumes hn hc ho hg hp).trans (s.resumeGang_intact c g os hi)),
      ⟨_, ((s.grows_restoreBlocks c g os).gangOf ..).trans (State.reinstate_gangOf os hof), rfl, hplaces, rfl, rfl, rfl⟩,
      fun w hw hr hb => ?_⟩
    obtain ⟨o, ho⟩ := State.offers_getElem? hc ho hb
    exact s.restoreBlocks_goesOn c hw hr ho

end Sys2Proof.Machine

namespace Sys2Proof

/-!
O1 and O2. A word decodes to the instruction that it encodes: each format's fields are read back (`packA_fields`, `packM_fields`,
`packC_fields`, `packE_fields`), so every constructor's word is parsed to it (`parse_encode`), and the operand fields that its class
ignores are 0x00 in it (`encode_not_ignored`).
-/

/-! ### Fields of words -/

theorem Opnd.ofCode_code (o : Opnd) : Opnd.ofCode o.code = some o := by
  cases o with
  | w a | s a | c a | imm a => revert a; decide

theorem Ty.ofCode_code (t : Ty) : Ty.ofCode t.code = t := by cases t <;> rfl
theorem Rnd.ofCode_code (r : Rnd) : Rnd.ofCode r.code = r := by cases r <;> rfl
theorem Cond.ofCode_code (c : Cond) : Cond.ofCode c.code = some c := by cases c <;> rfl
theorem FCond.ofCode_code (c : FCond) : FCond.ofCode c.code = some c := by cases c <;> rfl
theorem RedOp.ofCode_code (x : RedOp) : RedOp.ofCode x.code = some x := by cases x <;> rfl

theorem packA_fields (maj : BitVec 8) (func : BitVec 6) (f : FmtA) :
    majOf (packA maj func f) = maj ∧ funcOf (packA maj func f) = func ∧
    (packA maj func f).extractLsb' 46 4 = f.ty.code ∧ (packA maj func f).extractLsb' 43 3 = f.k ∧
    (packA maj func f).extractLsb' 41 2 = f.rnd.code ∧ (packA maj func f).getLsbD 40 = f.sat ∧
    opcOf (packA maj func f) = f.c.code ∧ opbOf (packA maj func f) = f.b.code ∧ opaOf (packA maj func f) = f.a.code ∧
    extOf (packA maj func f) = f.ext := by
  unfold majOf funcOf opcOf opbOf opaOf extOf packA
  refine ⟨?_, ?_, ?_, ?_, ?_, ?_, ?_, ?_, ?_, ?_⟩
  case refine_6 =>
    repeat rw [BitVec.getLsbD_append]
    simp
  all_goals
    repeat rw [BitVec.extractLsb'_append_eq_of_le (by decide)]
    try rw [BitVec.extractLsb'_append_eq_of_add_le (by decide)]
    simp

theorem packM_fields (maj : BitVec 8) (wt : BitVec 4) (m : FmtM) (d : BitVec 16) :
    majOf (packM maj wt m d) = maj ∧ (packM maj wt m d).extractLsb' 54 2 = m.ord ∧
    (packM maj wt m d).extractLsb' 51 3 = m.scope ∧ (packM maj wt m d).extractLsb' 48 3 = m.evict ∧
    (packM maj wt m d).extractLsb' 44 4 = m.seg ∧ (packM maj wt m d).extractLsb' 40 4 = wt ∧
    opcOf (packM maj wt m d) = m.c.code ∧ opbOf (packM maj wt m d) = m.b.code ∧ opaOf (packM maj wt m d) = m.a.code ∧
    extOf (packM maj wt m d) = d := by
  unfold majOf opcOf opbOf opaOf extOf packM
  refine ⟨?_, ?_, ?_, ?_, ?_, ?_, ?_, ?_, ?_, ?_⟩
  all_goals
    repeat rw [BitVec.extractLsb'_append_eq_of_le (by decide)]
    try rw [BitVec.extractLsb'_append_eq_of_add_le (by decide)]
    simp

theorem packC_fields (maj : BitVec 8) (func : BitVec 6) (k : BitVec 3) (n : BitVec 7) (disp : BitVec 24) (tab : BitVec 16) :
    majOf (packC maj func k n disp tab) = maj ∧ funcOf (packC maj func k n disp tab) = func ∧
    (packC maj func k n disp tab).extractLsb' 47 3 = k ∧ (packC maj func k n disp tab).extractLsb' 40 7 = n ∧
    (packC maj func k n disp tab).extractLsb' 16 24 = disp ∧ extOf (packC maj func k n disp tab) = tab := by
  unfold majOf funcOf extOf packC
  refine ⟨?_, ?_, ?_, ?_, ?_, ?_⟩
  all_goals
    repeat rw [BitVec.extractLsb'_append_eq_of_le (by decide)]
    try rw [BitVec.extractLsb'_append_eq_of_add_le (by decide)]
    simp

theorem packE_fields (maj : BitVec 8) (func : BitVec 6) (e : FmtE) :
    majOf (packE maj func e) = maj ∧ funcOf (packE maj func e) = func ∧ (packE maj func e).extractLsb' 46 4 = e.sha ∧
    (packE maj func e).extractLsb' 42 4 = e.shb ∧ (packE maj func e).extractLsb' 38 4 = e.shc ∧
    (packE maj func e).extractLsb' 32 6 = e.flags ∧ opbOf (packE maj func e) = e.b.code ∧
    opaOf (packE maj func e) = e.a.code ∧ extOf (packE maj func e) = e.ext := by
  unfold majOf funcOf opbOf opaOf extOf packE
  refine ⟨?_, ?_, ?_, ?_, ?_, ?_, ?_, ?_, ?_⟩
  all_goals
    repeat rw [BitVec.extractLsb'_append_eq_of_le (by decide)]
    try rw [BitVec.extractLsb'_append_eq_of_add_le (by decide)]
    simp

/-- A field inside EXT16. -/
theorem extractLsb'_of_ext {lo n : Nat} (h : lo + n ≤ 16) (w : DWord) : w.extractLsb' lo n = (extOf w).extractLsb' lo n := by
  rw [extOf, BitVec.extractLsb'_extractLsb'_of_le h]

theorem digit_eq (w : DWord) : w.extractLsb' 60 4 = (majOf w).extractLsb' 4 4 := by
  ext i hi
  simp [majOf]
  grind

theorem opndIf_code {use : Bool} {o : Opnd} (h : use = true ∨ o = .w 0) : opndIf use o.code = some o := by
  cases use with
  | true => exact o.ofCode_code
  | false => simpa [opndIf, eq_comm] using h

/-- A format A word is parsed to its fields when those of its operands that are not looked at are 0x00. -/
theorem parseA_packA {maj : BitVec 8} {func : BitVec 6} {f : FmtA} {a b c : Bool} (ha : a = true ∨ f.a = .w 0)
    (hb : b = true ∨ f.b = .w 0) (hc : c = true ∨ f.c = .w 0) : parseA (packA maj func f) a b c = some f := by
  obtain ⟨-, -, hty, hk, hrnd, hsat, eqc, eqb, eqa, hext⟩ := packA_fields maj func f
  simp only [parseA, eqc, eqb, eqa, opndIf_code ha, opndIf_code hb, opndIf_code hc, hty, hk, hrnd, hsat, hext, Ty.ofCode_code,
    Rnd.ofCode_code]

theorem parseM_packM (maj : BitVec 8) (wt : BitVec 4) (m : FmtM) (d : BitVec 16) (t : Ty) (d' : BitVec 16) :
    parseM (packM maj wt m d) t d' = some { m with ty := t, disp := d' } := by
  obtain ⟨-, hord, hscope, hevict, hseg, -, eqc, eqb, eqa, -⟩ := packM_fields maj wt m d
  simp only [parseM, eqc, eqb, eqa, Opnd.ofCode_code, hord, hscope, hevict, hseg]

theorem parseE_packE {maj : BitVec 8} {func : BitVec 6} {e : FmtE} {a b : Bool} (ha : a = true ∨ e.a = .w 0)
    (hb : b = true ∨ e.b = .w 0) : parseE (packE maj func e) a b = some e := by
  obtain ⟨-, -, hsha, hshb, hshc, hflags, eqb, eqa, hext⟩ := packE_fields maj func e
  simp only [parseE, eqb, eqa, opndIf_code ha, opndIf_code hb, hsha, hshb, hshc, hflags, hext]

/-- Clearing a field of a word that is 0. -/
theorem and_not_field {w : DWord} {lo n : Nat} (h : w.extractLsb' lo n = 0) :
    w &&& ~~~((BitVec.allOnes n).setWidth 64 <<< lo) = w := by
  ext i hi
  have hbit := congrArg (fun v => v.getLsbD (i - lo)) h
  simp only [BitVec.getLsbD_extractLsb'] at hbit
  simp
  grind

theorem Kind.ok_no (wide : Bool) (o : Opnd) : Kind.no.ok wide o = true ↔ o = .w 0 := by
  cases o <;> simp [Kind.ok]

/-! ### Words parse to what they encode -/

/-- The first word of an instruction is parsed to it, with its second word, or whatever follows it, behind (R44 to R46). -/
def Instr.Parses (i : Instr) : Prop :=
  ∀ lit, assigned (majOf ((encode i).getD 0 0)).toNat = true ∧ parse ((encode i).getD 0 0) ((encode i).getD 1 lit) = some i

theorem parses_scalar (f : FmtA) (x : Cond) : ∀ i ∈ [Instr.sadd f, .ssub f, .smul f, .smulh f, .sand f, .sor f, .sxor f,
    .snot f, .sshl f, .sshr f, .ssar f, .smin f, .smax f, .snmin f, .snmax f, .scmp x f, .ssel f, .slane f, .spick f],
    i.Parses := by
  simp only [List.forall_mem_cons, List.not_mem_nil, false_imp_iff, implies_true, and_true]
  constructorm* _ ∧ _
  all_goals
    simp [Instr.Parses, encode, parse, digit_eq, packA_fields, parseScalar, parseA_packA, Cond.ofCode_code]
    decide

theorem parses_integer (f : FmtA) (x : Cond) : ∀ i ∈ [Instr.iadd f, .isub f, .iadc f, .isbb f, .imul f, .imulh f, .imad f,
    .ineg f, .iabs f, .imin f, .imax f, .nmin f, .nmax f, .andv f, .orv f, .xorv f, .notv f, .andnv f, .shl f, .shr f,
    .sar f, .rot f, .bfx f, .bfi f, .popc f, .clz f, .brev f, .icmp x f, .sel f, .pick f, .ldi f, .ldiHi f, .stash f,
    .unstash f],
    i.Parses := by
  simp only [List.forall_mem_cons, List.not_mem_nil, false_imp_iff, implies_true, and_true]
  constructorm* _ ∧ _
  all_goals
    simp [Instr.Parses, encode, parse, digit_eq, packA_fields, parseInteger, parseA_packA, Cond.ofCode_code]
    decide

theorem parses_float (f : FmtA) (x : FCond) : ∀ i ∈ [Instr.fadd f, .fsub f, .fmul f, .ffma f, .ffms f, .fmin f, .fmax f,
    .fcmp x f, .fclass f, .frnd f, .fdiv f, .frcp f, .frsq f, .fsqrt f, .fexp2 f, .flog2 f, .fsin f, .fcos f, .ftanh f,
    .hadd2 f, .hmul2 f, .hfma2 f, .sfadd f, .sfmul f, .sffma f, .sfcmp f],
    i.wf = true → i.Parses := by
  simp only [List.forall_mem_cons, List.not_mem_nil, false_imp_iff, implies_true, and_true]
  constructorm* _ ∧ _
  all_goals
    intro hw
    simp only [Instr.wf, FmtA.ok, Bool.and_eq_true, Kind.ok_no] at hw
    simp [Instr.Parses, encode, parse, digit_eq, packA_fields, parseFloat, parseA_packA, FCond.ofCode_code, hw]
    decide

/-- Whether a conversion looks at B goes by the type that its word names (R142). -/
theorem readsB_packA {maj : BitVec 8} {func : BitVec 6} {f : FmtA}
    (h : (if f.ty.count == 1 then Kind.no else .any).ok false f.b = true) : readsB (packA maj func f) = true ∨ f.b = .w 0 := by
  by_cases hc : f.ty.count = 1
  · exact .inr ((Kind.ok_no _ _).1 (by simpa [hc] using h))
  · exact .inl (by simp [readsB, packA_fields, Ty.ofCode_code, hc])

theorem parses_convert (f : FmtA) : ∀ i ∈ [Instr.fcvt f, .icvt f, .ficvt f],
    i.wf = true → i.Parses := by
  simp only [List.forall_mem_cons, List.not_mem_nil, false_imp_iff, implies_true, and_true]
  constructorm* _ ∧ _
  all_goals
    intro hw
    simp only [Instr.wf, FmtA.ok, Bool.and_eq_true, Kind.ok_no] at hw
    obtain ⟨hb, hc⟩ : (if f.ty.count == 1 then Kind.no else .any).ok false f.b = true ∧ f.c = .w 0 := by tauto
    simp [Instr.Parses, encode, parse, digit_eq, packA_fields, parseFloat, parseA_packA (.inl rfl) (readsB_packA hb) (.inr hc)]
    decide

theorem parses_packed (f : FmtA) : ∀ i ∈ [Instr.dot4 f, .dot8 f, .fdot4 f, .fdot8 f, .mac2 f, .pack f, .unpk f, .shrr f,
    .fscl f],
    i.wf = true → i.Parses := by
  simp only [List.forall_mem_cons, List.not_mem_nil, false_imp_iff, implies_true, and_true]
  constructorm* _ ∧ _
  all_goals
    intro hw
    simp only [Instr.wf, FmtA.ok, Bool.and_eq_true, Kind.ok_no] at hw
    simp [Instr.Parses, encode, parse, digit_eq, packA_fields, parsePacked, parseA_packA, hw]
    decide

theorem parses_lane (f : FmtA) (x : RedOp) : ∀ i ∈ [Instr.shfl f, .shflx f, .slide f, .bcastl f, .red x f, .scan x f,
    .kbal f, .bset f, .bzero f, .bget f, .bdir f, .bnorm f, .btest f, .bscl f, .bneg f, .bmov f, .bdot f, .badd f, .bmix f,
    .bmatch f],
    i.Parses := by
  simp only [List.forall_mem_cons, List.not_mem_nil, false_imp_iff, implies_true, and_true]
  constructorm* _ ∧ _
  all_goals
    simp [Instr.Parses, encode, parse, digit_eq, packA_fields, parseLane, parseA_packA, RedOp.ofCode_code]
    decide

theorem parses_memory (m : FmtM) : ∀ i ∈ [Instr.ld m, .st m, .lds m, .sts m, .ldu m, .stu m, .ldw m, .stw m, .lea m, .pref m],
    i.Parses := by
  simp only [List.forall_mem_cons, List.not_mem_nil, false_imp_iff, implies_true, and_true]
  constructorm* _ ∧ _
  all_goals
    simp [Instr.Parses, encode, parse, digit_eq, packM_fields, parseMemory, parseM_packM, tyM, Ty.ofCode_code]
    decide

theorem parses_atomic (m : FmtM) : ∀ i ∈ [Instr.acas m, .afadd m, .axadd m, .lres m, .scnd m],
    i.Parses := by
  simp only [List.forall_mem_cons, List.not_mem_nil, false_imp_iff, implies_true, and_true]
  constructorm* _ ∧ _
  all_goals
    simp [Instr.Parses, encode, parse, digit_eq, packM_fields, parseOrder, parseM_packM, tyM, Ty.ofCode_code]
    decide

theorem parses_order (e : FmtE) : ∀ i ∈ [Instr.binit e, .barm e, .barrive e, .waitb e, .testb e],
    i.Parses := by
  simp only [List.forall_mem_cons, List.not_mem_nil, false_imp_iff, implies_true, and_true]
  constructorm* _ ∧ _
  all_goals
    simp [Instr.Parses, encode, parse, digit_eq, packE_fields, parseOrder, parseE_packE]
    decide

theorem parses_copy (e : FmtE) : ∀ i ∈ [Instr.shld e, .shst e, .shset e, .cpy e, .cpys e, .cpyp e, .gthr e, .scat e,
    .collRed e, .collBcast e, .collGath e, .collAllred e],
    i.wf = true → i.Parses := by
  simp only [List.forall_mem_cons, List.not_mem_nil, false_imp_iff, implies_true, and_true]
  constructorm* _ ∧ _
  all_goals
    intro hw
    simp only [Instr.wf, FmtE.ok, Bool.and_eq_true, Kind.ok_no] at hw
    simp [Instr.Parses, encode, parse, digit_eq, packE_fields, parseCopy, parseE_packE, hw]
    decide

theorem parses_matrix (e : FmtE) : ∀ i ∈ [Instr.mma e, .mmap e, .mmas e, .mmasp e, .accinit e, .anchor e, .accrd e,
    .accrdw e, .accadd e, .accstat e],
    i.Parses := by
  simp only [List.forall_mem_cons, List.not_mem_nil, false_imp_iff, implies_true, and_true]
  constructorm* _ ∧ _
  all_goals
    simp [Instr.Parses, encode, parse, digit_eq, packE_fields, parseMatrix, parseE_packE]
    decide

theorem FmtM.ty_of_ok {m : FmtM} {ords : List (BitVec 2)} {evict : Nat} {t : Ty} {a : Kind} {wa : Bool} {b : Kind} {wb : Bool}
    {c : Kind} {wc : Bool} (h : m.ok ords evict [t] a wa b wb c wc = true) : m.ty = t := by
  simp only [FmtM.ok, Bool.and_eq_true, List.contains_iff_mem, List.mem_singleton] at h
  exact h.1.1.1.2

/-- The mask registers that EXT16 of a mask instruction names (R110). -/
theorem mask_fields (d a b : BitVec 3) :
    (0#5 ++ d ++ 0#1 ++ a ++ 0#1 ++ b : BitVec 16).extractLsb' 8 3 = d ∧
    (0#5 ++ d ++ 0#1 ++ a ++ 0#1 ++ b : BitVec 16).extractLsb' 4 3 = a ∧
    (0#5 ++ d ++ 0#1 ++ a ++ 0#1 ++ b : BitVec 16).extractLsb' 0 3 = b := by
  refine ⟨?_, ?_, ?_⟩
  all_goals
    repeat rw [BitVec.extractLsb'_append_eq_of_le (by decide)]
    rw [BitVec.extractLsb'_append_eq_of_add_le (by decide)]
    simp

theorem mask_pair_fields (d a : BitVec 3) :
    (0#5 ++ d ++ 0#1 ++ a ++ 0#4 : BitVec 16).extractLsb' 8 3 = d ∧
    (0#5 ++ d ++ 0#1 ++ a ++ 0#4 : BitVec 16).extractLsb' 4 3 = a := by
  constructor
  all_goals
    repeat rw [BitVec.extractLsb'_append_eq_of_le (by decide)]
    rw [BitVec.extractLsb'_append_eq_of_add_le (by decide)]
    simp

theorem mask_single_fields (k : BitVec 3) :
    (0#5 ++ k ++ 0#8 : BitVec 16).extractLsb' 8 3 = k ∧ (0#9 ++ k ++ 0#4 : BitVec 16).extractLsb' 4 3 = k := by
  constructor
  all_goals
    repeat rw [BitVec.extractLsb'_append_eq_of_le (by decide)]
    rw [BitVec.extractLsb'_append_eq_of_add_le (by decide)]
    simp

/-- The two counts in EXT16 of a call or return (R87). -/
theorem byte_fields (m b : BitVec 8) : (m ++ b : BitVec 16).extractLsb' 8 8 = m ∧ (m ++ b : BitVec 16).extractLsb' 0 8 = b := by
  constructor
  · rw [BitVec.extractLsb'_append_eq_of_le (by decide)]
    simp
  · rw [BitVec.extractLsb'_append_eq_of_add_le (by decide)]
    simp

/-- The operation and the displacement in EXT16 of ATOM (R49). -/
theorem atom_fields (maj : BitVec 8) (wt : BitVec 4) (m : FmtM) (op : BitVec 4) (d : BitVec 12) :
    (packM maj wt m (op ++ d)).extractLsb' 12 4 = op ∧ (packM maj wt m (op ++ d)).extractLsb' 0 12 = d := by
  constructor <;> rw [extractLsb'_of_ext (by decide), (packM_fields ..).2.2.2.2.2.2.2.2.2]
  · rw [BitVec.extractLsb'_append_eq_of_le (by decide)]
    simp
  · rw [BitVec.extractLsb'_append_eq_of_add_le (by decide)]
    simp

/-- The direction bit and the register in the WIDTH/TYPE field of BLD and BST (R195). -/
theorem record_fields (maj : BitVec 8) (x : BitVec 1) (r : BitVec 3) (m : FmtM) (d : BitVec 16) :
    (packM maj (x ++ r) m d)[43] = x[0] ∧ (packM maj (x ++ r) m d).extractLsb' 40 3 = r := by
  have h : (packM maj (x ++ r) m d).extractLsb' 40 4 = x ++ r := (packM_fields ..).2.2.2.2.2.1
  have hr : (packM maj (x ++ r) m d).extractLsb' 40 3 = ((packM maj (x ++ r) m d).extractLsb' 40 4).extractLsb' 0 3 := by
    ext i hi
    simp
    omega
  constructor
  · have hx : (x ++ r : BitVec 4)[3] = x[0] := by
      clear h hr
      revert x r
      decide
    have hbit := congrArg (fun v : BitVec 4 => v[3]) h
    simpa [hx] using hbit
  · rw [hr, h, BitVec.extractLsb'_append_eq_of_add_le (by decide)]
    simp

theorem extractLsb'_setWidth_self {n k : Nat} (h : n ≤ k) (x : BitVec n) : (x.setWidth k).extractLsb' 0 n = x := by
  ext i hi
  simp [show i < k by omega, BitVec.getLsbD_eq_getElem hi]

/-- The first 48 bits of LDIL's literal word are its value (R51). -/
theorem literal_value (l : BitVec 48) : (0xFFFF#16 ++ l : DWord).extractLsb' 0 48 = l := by
  rw [BitVec.extractLsb'_append_eq_of_add_le (by decide)]
  simp

/-- The scalar age of a CALLI target stands in the low bits of DISP24 (R87). -/
theorem calli_age (maj : BitVec 8) (func : BitVec 6) (k : BitVec 3) (n : BitVec 7) (age : BitVec 4) (tab : BitVec 16) :
    (packC maj func k n (age.setWidth 24) tab).extractLsb' 16 4 = age := by
  have h : ∀ w : DWord, w.extractLsb' 16 4 = (w.extractLsb' 16 24).extractLsb' 0 4 := fun w => by ext i hi; simp; omega
  rw [h, (packC_fields ..).2.2.2.2.1, extractLsb'_setWidth_self (by decide)]

theorem packE_flag (maj : BitVec 8) (func : BitVec 6) (e : FmtE) : (packE maj func e)[32] = e.flags[0] := by
  rw [← (packE_fields maj func e).2.2.2.2.2.1]
  simp

/-- Every well-formed instruction that has a word is parsed from it, class by class. -/
theorem parse_encode {i : Instr} (hw : i.wf = true) (hn : encode i ≠ []) (hi : ∀ v, i ≠ .illegalMajor v) : i.Parses := by
  cases i with
  | sadd f | ssub f | smul f | smulh f | sand f | sor f | sxor f | snot f | sshl f | sshr f | ssar f | smin f | smax f | snmin f
      | snmax f | ssel f | slane f | spick f => exact parses_scalar f .eq _ (by simp)
  | scmp x f => exact parses_scalar f x _ (by simp)
  | iadd f | isub f | iadc f | isbb f | imul f | imulh f | imad f | ineg f | iabs f | imin f | imax f | nmin f | nmax f | andv f
      | orv f | xorv f | notv f | andnv f | shl f | shr f | sar f | rot f | bfx f | bfi f | popc f | clz f | brev f | sel f | pick f
      | ldi f | ldiHi f | stash f | unstash f => exact parses_integer f .eq _ (by simp)
  | icmp x f => exact parses_integer f x _ (by simp)
  | fadd f | fsub f | fmul f | ffma f | ffms f | fmin f | fmax f | fclass f | frnd f | fdiv f | frcp f | frsq f | fsqrt f | fexp2 f
      | flog2 f | fsin f | fcos f | ftanh f | hadd2 f | hmul2 f | hfma2 f | sfadd f | sfmul f | sffma f | sfcmp f =>
    exact parses_float f .eq _ (by simp) hw
  | fcmp x f => exact parses_float f x _ (by simp) hw
  | fcvt f | icvt f | ficvt f => exact parses_convert f _ (by simp) hw
  | dot4 f | dot8 f | fdot4 f | fdot8 f | mac2 f | pack f | unpk f | shrr f | fscl f => exact parses_packed f _ (by simp) hw
  | shfl f | shflx f | slide f | bcastl f | kbal f | bset f | bzero f | bget f | bdir f | bnorm f | btest f | bscl f | bneg f
      | bmov f | bdot f | badd f | bmix f | bmatch f => exact parses_lane f .add _ (by simp)
  | red x f | scan x f => exact parses_lane f x _ (by simp)
  | ld m | st m | lds m | sts m | ldu m | stu m | ldw m | stw m | lea m | pref m => exact parses_memory m _ (by simp)
  | acas m | afadd m | axadd m | lres m | scnd m => exact parses_atomic m _ (by simp)
  | binit e | barm e | barrive e | waitb e | testb e => exact parses_order e _ (by simp)
  | shld e | shst e | shset e | cpy e | cpys e | cpyp e | gthr e | scat e | collRed e | collBcast e | collGath e | collAllred e =>
    exact parses_copy e _ (by simp) hw
  | mma e | mmap e | mmas e | mmasp e | accinit e | anchor e | accrd e | accrdw e | accadd e | accstat e =>
    exact parses_matrix e _ (by simp)
  | bld | bst =>
    have hty := FmtM.ty_of_ok hw
    simp [Instr.Parses, encode, parse, digit_eq, packM_fields, parseLane, parseM_packM, record_fields, ← hty]
    decide
  | cwb | cinv =>
    have hty := FmtM.ty_of_ok hw
    simp [Instr.Parses, encode, parse, digit_eq, packM_fields, parseMemory, parseM_packM, ← hty]
    decide
  | atomAdd | atomAnd | atomOr | atomXor | atomMin | atomMax | atomNmin | atomNmax | atomXchg =>
    simp only [Instr.wf, Bool.and_eq_true, beq_iff_eq] at hw
    simp [Instr.Parses, encode, parse, digit_eq, packM_fields, parseOrder, parseM_packM, tyM, Ty.ofCode_code, atom_fields, ← hw.2]
    decide
  | trap | srd | swr | ctrrd | sleep | nop | cgrowWait | cgrowTry | cshrink =>
    simp [Instr.Parses, encode, parse, digit_eq, packA_fields, parseSystem, extractLsb'_of_ext, Opnd.ofCode_code,
      extractLsb'_setWidth_self]
    decide
  | featq b =>
    cases b <;> simp [Instr.Parses, encode, parse, digit_eq, packA_fields, parseSystem] <;> decide
  | tret | tretNext | gate | gret | yieldb | yield =>
    simp [Instr.Parses, encode, parse, digit_eq, packC_fields, parseSystem, extractLsb'_of_ext, byte_fields]
    decide
  | br | bany | ball | bnone | ifRegion | ifs | elseArm | rejoin | loop | endloop | brk | cont | call | calli | ret | exit =>
    simp [Instr.Parses, encode, parse, digit_eq, packC_fields, parseControl, extractLsb'_of_ext, byte_fields, calli_age]
    decide
  | sldi | sldiHi | ldil =>
    simp [Instr.Parses, encode, parse, digit_eq, packA_fields, parseScalar, Opnd.ofCode_code, literal_value]
    decide
  | kand | kor | kxor | kandn | knot | kmov | kset | kpop | kfirst =>
    simp [Instr.Parses, encode, parse, digit_eq, packA_fields, parseInteger, extractLsb'_of_ext, Opnd.ofCode_code, mask_fields,
      mask_pair_fields, mask_single_fields]
    decide
  | satclr =>
    simp [Instr.Parses, encode, parse, digit_eq, packA_fields, parsePacked]
    decide
  | fence | fencex =>
    simp [Instr.Parses, encode, parse, digit_eq, packM_fields, parseOrder]
    decide
  | barrierBlock | barrierGang | waitcLd =>
    simp [Instr.Parses, encode, parse, digit_eq, packE_fields, parseOrder, extractLsb'_of_ext, extractLsb'_setWidth_self]
    decide
  | waitcEng q =>
    cases q <;> simp [Instr.Parses, encode, parse, digit_eq, packE_fields, parseOrder, extractLsb'_of_ext,
      extractLsb'_setWidth_self, packE_flag] <;> decide
  | node | ndep | nrel | fork | join | arm | disarm | launchq =>
    simp [Instr.Parses, encode, parse, digit_eq, packE_fields, parseTask, extractLsb'_of_ext, Opnd.ofCode_code,
      extractLsb'_setWidth_self]
    decide
  | illegalMajor v => exact absurd rfl (hi v)
  | _ => simp [encode] at hn

/-! ### Ignored fields -/

theorem nothing_ignored (w : DWord) : w &&& ~~~0 = w := BitVec.and_allOnes

theorem opcOf_ignored {w : DWord} (h : opcOf w = 0) : w &&& ~~~0xff00000000 = w := and_not_field (lo := 32) (n := 8) h
theorem opbOf_ignored {w : DWord} (h : opbOf w = 0) : w &&& ~~~0xff000000 = w := and_not_field (lo := 24) (n := 8) h
theorem opaOf_ignored {w : DWord} (h : opaOf w = 0) : w &&& ~~~0xff0000 = w := and_not_field (lo := 16) (n := 8) h

theorem opbcOf_ignored {w : DWord} (hb : opbOf w = 0) (hc : opcOf w = 0) : w &&& ~~~0xffff000000 = w := by
  rw [show ~~~(0xffff000000 : DWord) = ~~~0xff000000 &&& ~~~0xff00000000 by decide, ← BitVec.and_assoc, opbOf_ignored hb,
    opcOf_ignored hc]

theorem opabcOf_ignored {w : DWord} (ha : opaOf w = 0) (hb : opbOf w = 0) (hc : opcOf w = 0) : w &&& ~~~0xffffff0000 = w := by
  rw [show ~~~(0xffffff0000 : DWord) = ~~~0xff0000 &&& ~~~0xffff000000 by decide, ← BitVec.and_assoc, opaOf_ignored ha,
    opbcOf_ignored hb hc]

/-- The word of a well-formed instruction has 0x00 in the operand fields that its class ignores. -/
theorem encode_not_ignored {i : Instr} (hw : i.wf = true) {w : DWord} (he : encode i = [w]) : w &&& ~~~(ignored i) = w := by
  cases i with
  | fadd | fsub | fmul | fmin | fmax | fcmp | fdiv | hadd2 | hmul2 | sfadd | sfmul | sfcmp | pack | shrr | fscl =>
    simp only [Instr.wf, FmtA.ok, Bool.and_eq_true, Kind.ok_no] at hw
    rw [← List.singleton_inj.1 he]
    exact opcOf_ignored (by simp [packA_fields, hw, Opnd.code])
  | fclass | frnd | frcp | frsq | fsqrt | fexp2 | flog2 | fsin | fcos | ftanh | unpk =>
    simp only [Instr.wf, FmtA.ok, Bool.and_eq_true, Kind.ok_no] at hw
    rw [← List.singleton_inj.1 he]
    exact opbcOf_ignored (by simp [packA_fields, hw, Opnd.code]) (by simp [packA_fields, hw, Opnd.code])
  | fcvt f | icvt f | ficvt f =>
    simp only [Instr.wf, FmtA.ok, Bool.and_eq_true, Kind.ok_no] at hw
    obtain ⟨hb, hc⟩ : (if f.ty.count == 1 then Kind.no else .any).ok false f.b = true ∧ f.c = .w 0 := by tauto
    rw [← List.singleton_inj.1 he, ignored]
    split
    next h1 => 
      have hb' : f.b = .w 0 := (Kind.ok_no _ _).1 (by simpa [h1] using hb)
      exact opbcOf_ignored (by simp [packA_fields, hb', Opnd.code]) (by simp [packA_fields, hc, Opnd.code])
    next => exact opcOf_ignored (by simp [packA_fields, hc, Opnd.code])
  | shld | shst | shset =>
    simp only [Instr.wf, FmtE.ok, Bool.and_eq_true, Kind.ok_no] at hw
    rw [← List.singleton_inj.1 he]
    exact opbOf_ignored (by simp [packE_fields, hw, Opnd.code])
  | cpy | cpyp | gthr | scat =>
    simp only [Instr.wf, FmtE.ok, Bool.and_eq_true, Kind.ok_no] at hw
    rw [← List.singleton_inj.1 he]
    exact opaOf_ignored (by simp [packE_fields, hw, Opnd.code])
  | trap | satclr =>
    rw [← List.singleton_inj.1 he]
    exact opabcOf_ignored (by simp [packA_fields, Opnd.code]) (by simp [packA_fields, Opnd.code])
      (by simp [packA_fields, Opnd.code])
  | _ => exact nothing_ignored w

theorem encode_length (i : Instr) : (encode i).length ≤ 2 := by
  cases i <;> simp only [encode, List.length_cons, List.length_nil] <;> decide
  
/-- LDIL alone has two words (R51). -/
theorem encode_two {i : Instr} {w lit : DWord} (h : encode i = [w, lit]) : ∃ l : BitVec 48, lit = 0xFFFF#16 ++ l := by
  cases i with
  | ldil l => exact ⟨l, by simpa [encode, eq_comm] using congrArg (·.getD 1 0) h⟩
  | _ => cases h

/-- A well-formed instruction's word decodes to it. -/
theorem decodeWord_encode {i : Instr} (hw : i.wf = true) (hn : encode i ≠ []) (lit : DWord) :
    decodeWord ((encode i).getD 0 0) ((encode i).getD 1 lit) = .ok i := by
  by_cases hi : ∃ v, i = .illegalMajor v
  · obtain ⟨v, rfl⟩ := hi
    exact if_pos hw
  · obtain ⟨hmaj, hparse⟩ := parse_encode hw hn (fun v hv => hi ⟨v, hv⟩) lit
    rw [decodeWord, hmaj, hparse]
    simp only [Bool.not_true, Bool.false_eq_true, if_false, hw, if_true]
    match he : encode i with
    | [] => exact absurd he hn
    | [w] => simp [encode_not_ignored hw he]
    | [w, l] => simp
    | w :: l :: x :: ws => exact absurd (encode_length i) (by simp [he])

/-! ### Bytes of words -/

theorem wordOf_leBytes (w : DWord) (bs : List Byte) : wordOf (Machine.leBytes 8 w.toNat ++ bs) = w := by
  rw [wordOf, List.take_left' (Machine.leBytes_length 8 _), Machine.leNat_leBytes]
  exact BitVec.eq_of_toNat_eq (by simp; omega)

theorem decode_encodeBytes_one {i : Instr} {w : DWord} (he : encode i = [w]) (rest : List Byte) :
    decode (encodeBytes i ++ rest) = decodeWord w (wordOf rest) := by
  have hb : encodeBytes i ++ rest = Machine.leBytes 8 w.toNat ++ rest := by simp [encodeBytes, he]
  rw [decode, hb, wordOf_leBytes, List.drop_left' (Machine.leBytes_length 8 _)]

theorem decode_encodeBytes_two {i : Instr} {w l : DWord} (he : encode i = [w, l]) (rest : List Byte) :
    decode (encodeBytes i ++ rest) = decodeWord w l := by
  have hb : encodeBytes i ++ rest = Machine.leBytes 8 w.toNat ++ (Machine.leBytes 8 l.toNat ++ rest) := by simp [encodeBytes, he]
  rw [decode, hb, wordOf_leBytes, List.drop_left' (Machine.leBytes_length 8 _), wordOf_leBytes]

/-- Settles O1: an instruction's bytes are those of its words (`wordOf_leBytes`), which decode to it (`decodeWord_encode`). -/
theorem decodeEncode : Obligations.DecodeEncode := by
  intro i rest hw hn
  match he : encode i with
  | [] => exact absurd he hn
  | [w] => simpa [he, decode_encodeBytes_one he] using decodeWord_encode hw hn (wordOf rest)
  | [w, l] => simpa [he, decode_encodeBytes_two he] using decodeWord_encode hw hn l
  | w :: l :: x :: ws => exact absurd (encode_length i) (by simp [he])

/-- Settles O2, by the checks that an accepted word has passed. -/
theorem encodeDecode : Obligations.EncodeDecode := by
  intro w lit i h
  unfold decodeWord at h
  split at h
  next hm =>
    cases h
    exact ⟨hm, .inl (congrArg (fun v => [v]) (nothing_ignored w).symm)⟩
  next =>
    split at h
    next => cases h
    next j hp =>
      split at h
      next hw =>
        split at h
        next v he =>
          split at h
          next hv =>
            cases h
            exact ⟨hw, .inl (by rw [he, hv])⟩
          next => cases h
        next v l he =>
          split at h
          next hv =>
            cases h
            obtain ⟨rfl, rfl⟩ := hv
            obtain ⟨l, rfl⟩ := encode_two he
            refine ⟨hw, .inr ⟨he, ?_⟩⟩
            rw [BitVec.extractLsb'_append_eq_of_le (by decide)]
            simp
          next => cases h
        next => cases h
      next => cases h

end Sys2Proof

namespace Sys2Proof.Machine

/-! ### Words, and what a step does with them (O3, O4, O14) -/

/-- Settles O3: each word by running the decoder on it. -/
theorem decodeWords : Obligations.DecodeWords := by
  unfold Obligations.DecodeWords
  decide

theorem mapOut_mapOut (f g : State → State) (o : Out) : mapOut f (mapOut g o) = mapOut (fun t => f (g t)) o := by
  cases o <;> rfl

/-- A step in which a split issues, chosen or by the model's policy. -/
theorem proceed_issue {s u : State} {core port : Nat} {rest : List Pick}
    (h : (s.sched = .issue core port :: rest ∧ (s.chose rest).take core port = some u) ∨ (s.sched = [] ∧ s.begin.takeAny = some u)) :
    proceed s = issue u := by
  unfold proceed
  obtain ⟨hs, hu⟩ | ⟨hs, hu⟩ := h
  · rw [hs]
    simp only [hu]
  · rw [hs]
    simp only [hu]

theorem issue_of_fetch {s : State} {i : Instr} (h : s.fetch = .ok i) :
    issue s = mapOut (fun t => t.countIssue s.ctx (s.portAt s.ctx s.ctx.sp)) (exec i s) := by
  rw [issue, h]

/-- A step whose split fetches an instruction runs it, and counts its issue (R43, R327). -/
theorem step_of_fetch {s u : State} {i : Instr} (hp : proceed s = issue u) (h : u.fetch = .ok i) :
    step s = mapOut (fun t => (s.noteAltered (t.countIssue u.ctx (u.portAt u.ctx u.ctx.sp))).renew) (exec i u) := by
  rw [step, hp, issue_of_fetch h, mapOut_mapOut]

theorem fetch_of_word {s : State} {w : DWord} {i : Instr} (hw : s.word8 s.ctx.sp.pc = .ok w) (hm : majOf w ≠ 0x27)
    (hd : decodeWord w 0 = .ok i) : s.fetch = .ok i := by
  simp only [State.fetch, hw, hm, if_false, hd]

/-- LDIL takes the word behind it (R51). -/
theorem fetch_of_words {s : State} {w lit : DWord} {i : Instr} (hw : s.word8 s.ctx.sp.pc = .ok w) (hm : majOf w = 0x27)
    (hl : s.word8 (s.ctx.sp.pc + 8) = .ok lit) (hd : decodeWord w lit = .ok i) : s.fetch = .ok i := by
  simp only [State.fetch, hw, hm, if_true, hl, hd]

theorem fetch_of_illField {s : State} {w : DWord} (hw : s.word8 s.ctx.sp.pc = .ok w) (hm : majOf w ≠ 0x27)
    (hd : decodeWord w 0 = .illField) : s.fetch = .illField (majOf w).toNat 8 := by
  simp only [State.fetch, hw, hm, if_false, hd]

theorem fetch_of_fault {s : State} {k : FetchFault} (hw : s.word8 s.ctx.sp.pc = .fault k) :
    s.fetch = .none s.ctx.sp.pc (.fault k) := by
  simp only [State.fetch, hw]

theorem runEvent_of_isEvent {i : Instr} (h : isEvent i = true) (s : State) : runEvent i s = exec i s := if_pos h

/-- Settles O4, by what a fetch gives and what is chosen. -/
theorem stepRuns : Obligations.StepRuns := by
  refine ⟨fun s u core port rest h => ?_, fun s i rest hi => ⟨fun hs => ?_, fun p m hp hs => ?_⟩⟩
  · have hp := proceed_issue h
    refine ⟨fun w i hw hm hd => ?_, fun w lit i hw hm hl hd => ?_, fun w hw hm hd => ?_, fun k hk => ?_⟩
    · exact step_of_fetch hp (fetch_of_word hw hm hd)
    · exact step_of_fetch hp (fetch_of_words hw hm hl hd)
    · rw [step, hp, issue, fetch_of_illField hw hm hd]
    · rw [step, hp, issue, fetch_of_fault hk]
  · rw [step, proceed, hs]
    simp only [runEvent_of_isEvent hi]
  · obtain ⟨rfl, rfl⟩ | ⟨rfl, rfl⟩ := hp
    · rw [step, proceed, hs]
      simp only [runManner, runEvent_of_isEvent hi, mapOut_mapOut]
    · rw [step, proceed, hs]
      simp only [runManner, runEvent_of_isEvent hi, mapOut_mapOut]

/-- The majors that R52 leaves unassigned (R54). -/
theorem not_assigned_of_unassigned {m : Nat}
    (h : m ∈ [0x00, 0x0F, 0x6F, 0x76, 0x77, 0x9F] ∨ (0x2A ≤ m ∧ m ≤ 0x2F) ∨ (0x3F ≤ m ∧ m ≤ 0x4F) ∨ (0x5E ≤ m ∧ m ≤ 0x67) ∨
      (0x8B ≤ m ∧ m ≤ 0x8F) ∨ (0xA8 ≤ m ∧ m ≤ 0xAF) ∨ (0xB9 ≤ m ∧ m ≤ 0xBF) ∨ 0xC8 ≤ m) : assigned m = false := by
  simp only [List.mem_cons, List.not_mem_nil, or_false] at h
  rw [Bool.eq_false_iff, ne_eq, assigned]
  simp only [Bool.or_eq_true, Bool.and_eq_true, decide_eq_true_eq, bne_iff_ne]
  omega

theorem exec_illegalMajor {s : State} (h : s.admits none) (w : DWord) :
    exec (.illegalMajor w) s = .next (s.takeTrap 0x01 s.ctx.k0 (if w.extractLsb' 48 16 = 0xFFFF then 2 else 0)) := by
  show execIllegalMajor w s = _
  rw [execIllegalMajor, State.enter_eq h]
  rfl

theorem exec_trap {s : State} (h : s.admits none) (k : BitVec 3) (code : BitVec 16) :
    exec (.trap k code) s =
      if s.ctx.gov k = 0 then .next (s.advance 8) else .next (s.takeTrap causeSwtrap (s.ctx.gov k) (code.zeroExtend 64)) := by
  show execTrap k code s = _
  rw [execTrap, State.enter_eq h]

theorem exec_instructionFetchFault {s : State} (h : s.admits none) (addr : DWord) (kind : FetchFault) :
    exec (.instructionFetchFault addr kind) s = .next (s.fetchFault addr kind) := by
  show execInstructionFetchFault addr kind s = _
  rw [execInstructionFetchFault, State.enter_eq h]

/-- Settles O14: TRAP and the failed fetches by their meanings, and an unassigned major by the decoder's first check. -/
theorem softwareTrap : Obligations.SoftwareTrap := by
  refine ⟨fun s k code word addr p h => ⟨fun hk => ?_, fun hk => ?_, exec_illegalMajor h word, ?_, ?_, ?_⟩,
    fun w lit s hm => ⟨?_, fun h => exec_illegalMajor h w⟩⟩
  · exact (exec_trap h k code).trans (if_neg hk)
  · exact (exec_trap h k code).trans (if_pos hk)
  · exact exec_instructionFetchFault h addr .pageFault
  · exact exec_instructionFetchFault h addr .protect
  · exact exec_instructionFetchFault h addr (.recoverable p)
  · rw [decodeWord, not_assigned_of_unassigned hm]
    rfl

end Sys2Proof.Machine

namespace Sys2Proof.Machine

/-! ### Pushes, masked features and void sources (O9, O15) -/

/-- Settles O9, by what a push leaves at each age. -/
theorem pushes : Obligations.Pushes := by
  refine ⟨fun w m e hw l hl => ?_, fun w e hw => ?_⟩
  · obtain ⟨hlanes, hwakes, -⟩ := hw
    have hlane := Watch.push_lane w m e l (by omega)
    refine ⟨fun hm => ?_, fun hm => by rw [hlane, hm]; rfl⟩
    have hring : (w.lane l).wake.ring.length = 32 := by
      rw [Watch.lane, List.getD_eq_getElem _ _ (by omega : l < w.lanes.length)]
      exact (hwakes _ (List.getElem_mem _)).1
    rw [hlane, hm]
    exact ⟨VWake.get_push_zero _ _ hring, fun a ha => VWake.get_push_succ _ _ hring a ha⟩
  · obtain ⟨-, -, -, -, -, -, ⟨hring, -⟩, -⟩ := hw
    exact ⟨SWake.get_push_zero _ _ hring, fun a ha => SWake.get_push_succ _ _ hring a ha⟩

/-- An instruction of a masked feature group traps, with a record in the physical log, whatever it would do (R55, R333). -/
theorem State.enter_masked {s : State} {g : Nat} (hr : s.ctx.resident = true) (hg : s.ctx.feat.getLsbD g = false) (maj : Nat)
    (k : State → Out) :
    s.enter (some g) maj k =
      .next ((s.physRecord { kind := 0x22, sub := g, dom := s.ctx.dom, gang := s.ctx.ref.gang, detail := maj } true).takeTrap
        0x01 s.ctx.k0 1) := by
  rw [State.enter, if_neg (by simp [hr])]
  simp only [hg, Bool.false_eq_true, if_false]
  rfl

theorem Src.voidIn_empty (w : Watch) (x : Src) : x.voidIn w 0 = 0 := by
  unfold Src.voidIn Src.lanesWhere
  split <;> simp

/-- Two sources inside the caddy frame of which one is void in an enabled lane: the front traps for all such lanes and names the first
void source (R32). -/
theorem State.vecFront_void {s : State} {m : Mask} {x y : Src} (hx : x.beyond s.ctx = false) (hy : y.beyond s.ctx = false)
    (h : x.voidIn s.ctx m ||| y.voidIn s.ctx m ≠ 0) :
    s.vecFront m [x, y] = some (s.takeTrap 0x03 (x.voidIn s.ctx m ||| y.voidIn s.ctx m)
      (if x.voidIn s.ctx m ≠ 0 then x.detail else y.detail)) := by
  have hm : m ≠ 0 := by
    rintro rfl
    rw [Src.voidIn_empty, Src.voidIn_empty] at h
    exact h rfl
  have hmask : ([x, y].map (Src.voidIn s.ctx m)).foldl (· ||| ·) 0 = x.voidIn s.ctx m ||| y.voidIn s.ctx m := by simp
  rw [State.vecFront, if_neg hm, if_neg (by simp [hx, hy]), hmask]
  by_cases hvx : x.voidIn s.ctx m = 0
  · have hvy : y.voidIn s.ctx m ≠ 0 := fun e => h (by rw [hvx, e]; rfl)
    have hfind : [x, y].find? (fun z => z.voidIn s.ctx m != 0) = some y :=
      (List.find?_cons_of_neg (by rw [hvx]; decide)).trans (List.find?_cons_of_pos (bne_iff_ne.2 hvy))
    rw [hfind, if_neg (not_not.2 hvx)]
    rfl
  · have hfind : [x, y].find? (fun z => z.voidIn s.ctx m != 0) = some x := List.find?_cons_of_pos (bne_iff_ne.2 hvx)
    rw [hfind, if_pos hvx]
    rfl

/-- A void scalar source: the front traps with k0 and names the first void one (R35). -/
theorem State.uniFront_void {s : State} {x y : Src} (h : x.uniIs s.ctx Entry.isVoid = true ∨ y.uniIs s.ctx Entry.isVoid = true) :
    s.uniFront [x, y] = some (s.takeTrap 0x03 s.ctx.k0 (if x.uniIs s.ctx Entry.isVoid = true then x.detail else y.detail)) := by
  by_cases hx : x.uniIs s.ctx Entry.isVoid = true
  · simp [State.uniFront, hx, causeVoidread]
  · have hy := h.resolve_left hx
    simp [State.uniFront, hx, hy, causeVoidread]

theorem Entry.isVoid_iff {α : Type} (e : Entry α) : e.isVoid = true ↔ e = .void := by
  cases e <;> simp [Entry.isVoid]

theorem exec_iadd_void {s : State} {f : FmtA} (h : s.admits none) (ha : (Src.of 0 f.ty f.a).beyond s.ctx = false)
    (hb : (Src.of 1 f.ty f.b).beyond s.ctx = false)
    (hv : (Src.of 0 f.ty f.a).voidIn s.ctx (s.ctx.gov f.k) ||| (Src.of 1 f.ty f.b).voidIn s.ctx (s.ctx.gov f.k) ≠ 0) :
    exec (.iadd f) s = .next (s.takeTrap 0x03
      ((Src.of 0 f.ty f.a).voidIn s.ctx (s.ctx.gov f.k) ||| (Src.of 1 f.ty f.b).voidIn s.ctx (s.ctx.gov f.k))
      (if (Src.of 0 f.ty f.a).voidIn s.ctx (s.ctx.gov f.k) ≠ 0 then (Src.of 0 f.ty f.a).detail else (Src.of 1 f.ty f.b).detail)) := by
  show execIadd f s = _
  rw [execIadd, State.elementwise, State.vector, State.enter_eq h, srcAB, State.vecFront_void ha hb hv, orElse_some]

theorem exec_sadd_void {s : State} {f : FmtA} (h : s.admits none)
    (hv : (⟨0, f.a, 1⟩ : Src).uniIs s.ctx Entry.isVoid = true ∨ (⟨1, f.b, 1⟩ : Src).uniIs s.ctx Entry.isVoid = true) :
    exec (.sadd f) s = .next (s.takeTrap 0x03 s.ctx.k0
      (if (⟨0, f.a, 1⟩ : Src).uniIs s.ctx Entry.isVoid = true then (⟨0, f.a, 1⟩ : Src).detail else (⟨1, f.b, 1⟩ : Src).detail)) := by
  show execSadd f s = _
  rw [execSadd, State.scalarOp, State.enter_eq h, State.uniFront_void hv, orElse_some]

/-- Settles O15: each masked instruction by `State.enter_masked`, and the additions by the fronts of their sources. -/
theorem issueChecks : Obligations.IssueChecks := by
  refine ⟨fun s f m r n g a hr => ?_, fun s f h => ⟨fun ha hb hv => ?_, fun x y hx hy => ⟨fun hvx => ?_, fun hvx hvy => ?_⟩⟩⟩
  · refine ⟨fun hg => ⟨?_, ?_⟩, fun hg => ?_, fun hg => ?_, fun hg => ?_, fun hg => ?_, fun hg => ?_, fun hg => ?_⟩
    · show execBset f s = _
      exact State.enter_masked hr hg _ _
    · show execBld r m s = _
      rw [execBld, State.bearRecord, State.enter_masked hr hg]
    · show execAfadd m s = _
      rw [execAfadd, State.atomic, State.enter_masked hr hg]
    · show execAxadd m s = _
      rw [execAxadd, State.atomic, State.enter_masked hr hg]
    · show execNode a s = _
      rw [execNode, State.taskFront, State.enter_masked hr hg]
    · show execCtrrd n s = _
      exact State.enter_masked hr hg _ _
    · show execGate g s = _
      exact State.enter_masked hr hg _ _
    · show execFsin f s = _
      exact State.enter_masked hr hg _ _
  · exact exec_iadd_void h ha hb hv
  · have hsrc : (⟨0, f.a, 1⟩ : Src).uniIs s.ctx Entry.isVoid = true := by rw [hx]; exact (Entry.isVoid_iff _).2 hvx
    rw [exec_sadd_void h (.inl hsrc), if_pos hsrc]
    rfl
  · have hsrc : ¬ (⟨0, f.a, 1⟩ : Src).uniIs s.ctx Entry.isVoid = true := by rw [hx]; exact fun e => hvx ((Entry.isVoid_iff _).1 e)
    have hsrc' : (⟨1, f.b, 1⟩ : Src).uniIs s.ctx Entry.isVoid = true := by rw [hy]; exact (Entry.isVoid_iff _).2 hvy
    rw [exec_sadd_void h (.inr hsrc'), if_neg hsrc]
    rfl

end Sys2Proof.Machine

namespace Sys2Proof.Machine

/-! ### Wakes that are kept in part, and wakes that are pushed to several times (R30, R87, R88) -/

theorem VWake.get_keep (v : VWake) (n a : Nat) (h : v.ring.length = 32) (ha : a < 32) :
    (v.keep n).get a = if a < n then v.get a else .void := by
  have hp : (v.head - BitVec.ofNat 5 a).toNat < v.ring.length := by omega
  have hage : (v.head - BitVec.ofNat 5 (v.head - BitVec.ofNat 5 a).toNat).toNat = a := by
    simp only [BitVec.toNat_sub, BitVec.toNat_ofNat]
    omega
  simp only [VWake.keep, VWake.get, List.getD_eq_getElem?_getD, mapFrom_getElem?, List.getElem?_eq_getElem hp, Option.map_some,
    Option.getD_some, Nat.zero_add, hage]

theorem SWake.get_keep (v : SWake) (n a : Nat) (h : v.ring.length = 16) (ha : a < 16) :
    (v.keep n).get a = if a < n then v.get a else .void := by
  have hp : (v.head - BitVec.ofNat 4 a).toNat < v.ring.length := by omega
  have hage : (v.head - BitVec.ofNat 4 (v.head - BitVec.ofNat 4 a).toNat).toNat = a := by
    simp only [BitVec.toNat_sub, BitVec.toNat_ofNat]
    omega
  simp only [SWake.keep, SWake.get, List.getD_eq_getElem?_getD, mapFrom_getElem?, List.getElem?_eq_getElem hp, Option.map_some,
    Option.getD_some, Nat.zero_add, hage]

/-- The last of several pushed entries stands at age 0, and what stood before lies behind the first. -/
theorem VWake.get_pushes : ∀ (es : List (Entry Word)) (v : VWake) (a : Nat), v.ring.length = 32 → a < 32 →
    (es.foldl VWake.push v).get a = if a < es.length then es.getD (es.length - 1 - a) .void else v.get (a - es.length)
  | [], v, a, _, _ => by simp
  | e :: es, v, a, h, ha => by
    rw [List.foldl_cons, VWake.get_pushes es (v.push e) a (by simpa using h) ha, List.length_cons]
    by_cases h1 : a < es.length
    · rw [if_pos h1, if_pos (by omega), show es.length + 1 - 1 - a = es.length - 1 - a + 1 by omega, List.getD_cons_succ]
    · rw [if_neg h1]
      by_cases h2 : a = es.length
      · subst h2
        rw [if_pos (by omega), show es.length + 1 - 1 - es.length = 0 by omega, Nat.sub_self, VWake.get_push_zero _ _ h,
          List.getD_cons_zero]
      · rw [if_neg (by omega), show a - es.length = a - (es.length + 1) + 1 by omega, VWake.get_push_succ _ _ h _ (by omega)]

theorem SWake.get_pushes : ∀ (es : List (Entry DWord)) (v : SWake) (a : Nat), v.ring.length = 16 → a < 16 →
    (es.foldl SWake.push v).get a = if a < es.length then es.getD (es.length - 1 - a) .void else v.get (a - es.length)
  | [], v, a, _, _ => by simp
  | e :: es, v, a, h, ha => by
    rw [List.foldl_cons, SWake.get_pushes es (v.push e) a (by simpa using h) ha, List.length_cons]
    by_cases h1 : a < es.length
    · rw [if_pos h1, if_pos (by omega), show es.length + 1 - 1 - a = es.length - 1 - a + 1 by omega, List.getD_cons_succ]
    · rw [if_neg h1]
      by_cases h2 : a = es.length
      · subst h2
        rw [if_pos (by omega), show es.length + 1 - 1 - es.length = 0 by omega, Nat.sub_self, SWake.get_push_zero _ _ h,
          List.getD_cons_zero]
      · rw [if_neg (by omega), show a - es.length = a - (es.length + 1) + 1 by omega, SWake.get_push_succ _ _ h _ (by omega)]

theorem Watch.pushEach_lane : ∀ (es : List (Nat → Entry Word)) (w : Watch) (m : Mask) (l : Nat), l < w.lanes.length →
    (w.pushEach m es).lane l =
      if has m l then { w.lane l with wake := (es.map (· l)).foldl VWake.push (w.lane l).wake } else w.lane l
  | [], w, m, l, _ => by simp [Watch.pushEach]
  | e :: es, w, m, l, h => by
    rw [Watch.pushEach, Watch.pushEach_lane es (w.push m e) m l (by simpa using h), Watch.push_lane w m e l h]
    split <;> simp

/-- Pushes to the lanes change the lanes and the depths in the open records (R71). -/
theorem Watch.pushEach_eq : ∀ (es : List (Nat → Entry Word)) (w : Watch) (m : Mask),
    ∃ ls rs, w.pushEach m es = { w with lanes := ls, sp := { w.sp with recs := rs } } ∧ rs.length = w.sp.recs.length
  | [], w, m => ⟨w.lanes, w.sp.recs, rfl, rfl⟩
  | e :: es, w, m => by
    obtain ⟨ls, rs, heq, hlen⟩ := Watch.pushEach_eq es (w.push m e) m
    exact ⟨ls, rs, heq, hlen.trans (List.length_map _)⟩

/-- Pushes to the scalar wake change nothing else. -/
theorem Watch.foldl_spush : ∀ (es : List (Entry DWord)) (w : Watch),
    es.foldl Watch.spush w = { w with sp := { w.sp with swake := es.foldl SWake.push w.sp.swake } }
  | [], _ => rfl
  | e :: es, w => by rw [List.foldl_cons, Watch.foldl_spush es (w.spush e)]; rfl

/-- A property of lanes that an update keeps selects the same lanes. -/
theorem maskWhere_mapFrom {p : Lane → Bool} {g : Nat → Lane → Lane} (h : ∀ i l, p (g i l) = p l) (ls : List Lane) :
    maskWhere p (mapFrom g 0 ls) = maskWhere p ls := by
  refine mask_ext fun l _ => ?_
  rw [has_maskWhere, has_maskWhere, mapFrom_getElem?, Option.map_map]
  congr 3
  exact funext fun x => h _ x

/-! ### Calls (R87) -/

section
variable (w : Watch) (fid pool : Nat) (blks : List Nat) (n m b : Nat) (target : DWord)

theorem Watch.call_lane (l : Nat) (h : l < w.lanes.length) :
    (w.call fid pool blks n m b target).lane l =
      if (w.lane l).split = w.sp.id then
        { w.lane l with
          saved := (w.lane l).wake :: (w.lane l).saved
          wake := if (w.lane l).exited then (w.lane l).wake else (w.lane l).wake.keep (if has w.k0 l then n else 0) }
      else w.lane l :=
  w.mapLanes_lane _ l h

/-- A call changes no lane's split, end or nesting, so the same lanes are active. -/
theorem Watch.call_k0 : (w.call fid pool blks n m b target).k0 = w.k0 := by
  refine maskWhere_mapFrom (fun i l => ?_) w.lanes
  by_cases hs : l.split = w.sp.id
  · cases hx : l.exited <;> simp [Lane.active, hs, hx, VWake.keep]
  · simp [Lane.active, hs]

theorem Watch.call_caddy :
    (w.call fid pool blks n m b target).caddy = { id := fid, pool := pool, blks := blks, slots := zeroBlocks b } := by
  simp [Watch.caddy, Watch.frameOf, Watch.call]

end

/-- The wake of a lane that a call keeps: its entries below age n, if it is active; all of them, if it has exited. -/
theorem Watch.call_wake {w : Watch} (hw : w.sound) (fid pool : Nat) (blks : List Nat) (n m b : Nat) (target : DWord) {l : Nat} (hl : l < 64)
    (hs : (w.lane l).split = w.sp.id) (a : Nat) (ha : a < 32) :
    ((w.call fid pool blks n m b target).lane l).wake.get a =
      if (w.lane l).exited = true ∨ (a < n ∧ has w.k0 l = true) then (w.lane l).wake.get a else .void := by
  obtain ⟨hlanes, hwakes, -⟩ := hw
  have hring : (w.lane l).wake.ring.length = 32 := by
    rw [Watch.lane, List.getD_eq_getElem _ _ (by omega : l < w.lanes.length)]
    exact (hwakes _ (List.getElem_mem _)).1
  rw [Watch.call_lane _ _ _ _ _ _ _ _ _ (by omega), if_pos hs]
  by_cases hx : (w.lane l).exited = true
  · simp [hx]
  · by_cases hk : has w.k0 l = true
    · simp [hx, hk, VWake.get_keep _ _ _ hring ha]
    · simp [hx, hk, VWake.get_keep _ _ _ hring ha]

/-- A call whose blocks fit the pool and whose frame fits the spill rows reads its arguments, and then starts or waits for its blocks. -/
theorem State.callTo_eq {s : State} {target : DWord} {n m b : Nat}
    (hfit : s.ctx.blocksHeld s.ctx.pool + b ≤ s.poolSize s.ctx.core s.ctx.pool)
    (hroom : ∀ fid blks target, (s.ctx.call fid s.ctx.pool blks n m b target).spillFits = true) :
    s.callTo target n m b = s.topReads n m
      (if b = 0 ∨ s.grantNow s.ctx.core s.ctx.pool b then
        .next ({ s.tick with
          ctx := s.ctx.call s.fresh s.ctx.pool ((s.freeBlocks s.ctx.core s.ctx.pool).take b) n m b target } : State)
      else .next (s.joinCaddyQ b (.call n m target))) := by
  simp only [State.callTo]
  rw [if_neg (by omega), if_neg (by simp [hroom])]

theorem State.topReads_eq {s : State} {n m : Nat} (h : s.ctx.topsRead n m) (k : Out) : s.topReads n m k = k := by
  obtain ⟨hbad, hpend⟩ := h
  simp [State.topReads, hbad, hpend]

theorem State.topReads_bad {s : State} {n m : Nat} (h : s.ctx.topBad n m = true) (k : Out) :
    s.topReads n m k = .next s.parityKill := by
  simp [State.topReads, h]

theorem State.topReads_pends {s : State} {n m : Nat} (hb : s.ctx.topBad n m = false) (hp : s.ctx.topPends n m = true) (k : Out) :
    s.topReads n m k = .next (s.hold .operand) := by
  simp [State.topReads, hb, hp]

/-! ### Returns (R88, R338) -/

/-- Leaving the top frame restores, in each lane of the split, the wake that the frame had saved. -/
theorem Watch.leave_lane (w : Watch) (f : Frame) (below : List Frame) (pc : DWord) (l : Nat) (h : l < w.lanes.length) :
    (w.leave 0 f below pc).lane l =
      if (w.lane l).split = w.sp.id then { w.lane l with wake := (w.lane l).saved.headD VWake.empty, saved := (w.lane l).saved.tail }
      else w.lane l := by
  have := w.mapLanes_lane (fun _ l =>
    if l.split = w.sp.id then { l with wake := l.saved.getD 0 VWake.empty, saved := l.saved.drop 1 } else l) l h
  refine this.trans ?_
  rw [List.headD_eq_head?_getD, List.getD_eq_getElem?_getD, List.head?_eq_getElem?, List.drop_one]

theorem Watch.leave_lanes_length (w : Watch) (f : Frame) (below : List Frame) (pc : DWord) :
    (w.leave 0 f below pc).lanes.length = w.lanes.length := w.mapLanes_length _

/-- The vector results of a return for lane l, oldest first, and the scalar ones. -/
def Watch.vecResults (w : Watch) (n l : Nat) : List (Entry Word) := (List.range n).map (fun i => (w.lane l).wake.get (n - 1 - i))
def Watch.scalarResults (w : Watch) (m : Nat) : List (Entry DWord) := (List.range m).map (fun i => w.sp.swake.get (m - 1 - i))

theorem Watch.vecResults_getD (w : Watch) {n l a : Nat} (h : a < n) :
    (w.vecResults n l).getD (n - 1 - a) .void = (w.lane l).wake.get a := by
  rw [Watch.vecResults, List.getD_eq_getElem?_getD, List.getElem?_map, List.getElem?_range (by omega)]
  simp only [Option.map_some, Option.getD_some]
  congr 1
  omega

theorem Watch.scalarResults_getD (w : Watch) {m a : Nat} (h : a < m) :
    (w.scalarResults m).getD (m - 1 - a) .void = w.sp.swake.get a := by
  rw [Watch.scalarResults, List.getD_eq_getElem?_getD, List.getElem?_map, List.getElem?_range (by omega)]
  simp only [Option.map_some, Option.getD_some]
  congr 1
  omega

/-- What a return leaves, but for the caddies: the caller's frame, with the results pushed. -/
theorem Watch.returnWith_eq (w : Watch) (f : Frame) (below : List Frame) (n m : Nat) :
    ∃ ls rs, w.returnWith f below n m = { w.leave 0 f below f.retNext with
        lanes := ls
        sp := { (w.leave 0 f below f.retNext).sp with
          recs := rs, swake := (w.scalarResults m).foldl SWake.push f.swake, depth := w.sp.depth - 1 } } ∧
      rs.length = f.recs.length := by
  obtain ⟨ls, rs, heq, hlen⟩ := (w.leave 0 f below f.retNext).pushEach_eq
    ((List.range n).map (fun i l => (w.lane l).wake.get (n - 1 - i))) w.k0
  refine ⟨ls, rs, ?_, hlen⟩
  rw [Watch.returnWith, heq]
  simp only [Watch.foldl_spush]
  rfl

theorem Watch.returnWith_lane (w : Watch) (f : Frame) (below : List Frame) (n m l : Nat) (h : l < w.lanes.length) :
    (w.returnWith f below n m).lane l =
      let x := (w.leave 0 f below f.retNext).lane l
      if has w.k0 l then { x with wake := (w.vecResults n l).foldl VWake.push x.wake } else x := by
  have hpush := (w.leave 0 f below f.retNext).pushEach_lane ((List.range n).map (fun i l => (w.lane l).wake.get (n - 1 - i)))
  have hlane : (w.returnWith f below n m).lane l = ((w.leave 0 f below f.retNext).pushEach w.k0
      ((List.range n).map (fun i l => (w.lane l).wake.get (n - 1 - i)))).lane l := by
    rw [Watch.returnWith, Watch.foldl_spush]
    rfl
  rw [hlane, Watch.pushEach_lane _ _ _ _ (by rwa [Watch.leave_lanes_length]), List.map_map]
  rfl

/-- The wake of a lane after a return: an active lane has its results over the wake that the frame had saved (R88). -/
theorem Watch.returnWith_wake {w : Watch} (hw : w.sound) (f : Frame) (below : List Frame) {n : Nat} (m : Nat) {l : Nat}
    (hl : l < 64) (hs : (w.lane l).split = w.sp.id) :
    (has w.k0 l = true → ∀ a < 32, ((w.returnWith f below n m).lane l).wake.get a =
      if a < n then (w.lane l).wake.get a else ((w.lane l).saved.headD VWake.empty).get (a - n)) ∧
    (has w.k0 l = false → ((w.returnWith f below n m).lane l).wake = (w.lane l).saved.headD VWake.empty) := by
  obtain ⟨hlanes, hwakes, -⟩ := hw
  have hlane := w.returnWith_lane f below n m l (by omega)
  rw [Watch.leave_lane w f below _ l (by omega), if_pos hs] at hlane
  refine ⟨fun hk a ha => ?_, fun hk => by rw [hlane, hk]; rfl⟩
  have hring : ((w.lane l).saved.headD VWake.empty).ring.length = 32 := by
    have hl' := (hwakes (w.lane l) (by
      rw [Watch.lane, List.getD_eq_getElem _ _ (by omega : l < w.lanes.length)]
      exact List.getElem_mem _)).2
    cases hsv : (w.lane l).saved with
    | nil => rfl
    | cons v vs => exact hl' v (by simp [hsv])
  simp only [hlane, hk, if_true]
  rw [VWake.get_pushes _ _ _ hring ha]
  simp only [show (w.vecResults n l).length = n by simp [Watch.vecResults]]
  split
  · next h => exact w.vecResults_getD h
  · rfl

/-- The scalar wake after a return. -/
theorem SWake.get_results {w : Watch} {f : Frame} (hf : f.swake.ring.length = 16) (m a : Nat) (ha : a < 16) :
    ((w.scalarResults m).foldl SWake.push f.swake).get a = if a < m then w.sp.swake.get a else f.swake.get (a - m) := by
  rw [SWake.get_pushes _ _ _ hf ha]
  simp only [show (w.scalarResults m).length = m by simp [Watch.scalarResults]]
  split
  · next h => exact w.scalarResults_getD h
  · rfl

end Sys2Proof.Machine

namespace Sys2Proof.Machine

theorem exec_call {s : State} (h : s.admits none) (n : BitVec 7) (disp : BitVec 24) (m b : BitVec 8) :
    exec (.call n disp m b) s =
      if s.ctx.sp.depth = 255 then .next (s.takeTrapFree 0x05 s.ctx.k0)
      else s.callTo (s.target disp) n.toNat m.toNat b.toNat := by
  show execCall n disp m b s = _
  rw [execCall, State.enter_eq h]
  rfl

theorem exec_calli {s : State} (h : s.admits none) (n : BitVec 7) (age : BitVec 4) (m b : BitVec 8) :
    exec (.calli n age m b) s =
      if s.ctx.sp.depth = 255 then .next (s.takeTrapFree 0x05 s.ctx.k0)
      else
        match s.ctx.sp.swake.get age.toNat with
        | .void => .next (s.takeTrapFree 0x03 s.ctx.k0)
        | .bad => .next s.parityKill
        | .pend _ _ => .next (s.hold .operand)
        | .val t =>
          if t.toNat % 8 ≠ 0 then .next (s.takeTrapFree 0x0B s.ctx.k0) else s.callTo t n.toNat m.toNat b.toNat := by
  show execCalli n age m b s = _
  rw [execCalli, State.enter_eq h] <;> rfl

theorem exec_ret {s : State} (h : s.admits none) (n : BitVec 7) (m : BitVec 8) :
    exec (.ret n m) s =
      match s.ctx.sp.frames with
      | [] => .next (s.layoutTrap 8)
      | f :: below =>
        if f.kind ≠ .call then .next (s.layoutTrap 8)
        else if ¬ s.ctx.sp.recs.isEmpty then .next (s.layoutTrap 7)
        else s.topReads n.toNat m.toNat <|
          .next ((s.mapCtx (fun w => w.returnWith f below n.toNat m.toNat)).settle) := by
  show execRet n m s = _
  rw [execRet, State.enter_eq h] <;> rfl

/-- A call that has all it needs: the caller's frame is kept, and the callee has its arguments, its blocks and nothing else (R87). -/
theorem State.callTo_enters {s : State} {target : DWord} {n m b : Nat} (hw : s.ctx.sound)
    (hfit : s.ctx.blocksHeld s.ctx.pool + b ≤ s.poolSize s.ctx.core s.ctx.pool)
    (hroom : ∀ fid blks target, (s.ctx.call fid s.ctx.pool blks n m b target).spillFits = true) (hread : s.ctx.topsRead n m)
    (hgrant : b = 0 ∨ s.grantNow s.ctx.core s.ctx.pool b = true) :
    let w := s.ctx
    ∃ t, s.callTo target n m b = .next t ∧ { t with ctx := w, fresh := s.fresh } = s ∧
      t.ctx.sp.pc = target ∧ t.ctx.sp.depth = w.sp.depth + 1 ∧ t.ctx.sp.recs = [] ∧ t.ctx.sp.wait = .none ∧
      t.ctx.caddy.slots = zeroBlocks b ∧ t.ctx.caddy.blks = (s.freeBlocks w.core w.pool).take b ∧ t.ctx.k0 = w.k0 ∧
      (∃ f, t.ctx.sp.frames = f :: w.sp.frames ∧ f.kind = .call ∧ f.retPc = w.sp.pc + 8 ∧ f.retNext = w.sp.pc + 8 ∧
        f.swake = w.sp.swake ∧ f.caddy = w.sp.caddy ∧ f.recs = w.sp.recs) ∧
      (∀ a < 16, t.ctx.sp.swake.get a = if a < m then w.sp.swake.get a else .void) ∧
      (∀ l < 64, (w.lane l).split = w.sp.id → (t.ctx.lane l).saved = (w.lane l).wake :: (w.lane l).saved ∧
        (t.ctx.lane l).wake.nest = (w.lane l).wake.nest ∧
        ∀ a < 32, (t.ctx.lane l).wake.get a =
          if (w.lane l).exited = true ∨ (a < n ∧ has w.k0 l = true) then (w.lane l).wake.get a else .void) ∧
      (∀ l < 64, (w.lane l).split ≠ w.sp.id → t.ctx.lane l = w.lane l) := by
  intro w
  have hlanes : w.lanes.length = 64 := hw.1
  have hring : w.sp.swake.ring.length = 16 := hw.2.2.2.2.2.2.1.1
  have hcaddy := w.call_caddy s.fresh w.pool ((s.freeBlocks w.core w.pool).take b) n m b target
  refine ⟨{ s.tick with ctx := w.call s.fresh w.pool ((s.freeBlocks w.core w.pool).take b) n m b target }, ?_, rfl, rfl, rfl, rfl, rfl,
    congrArg CaddyFrame.slots hcaddy, congrArg CaddyFrame.blks hcaddy, w.call_k0 .., ⟨_, rfl, rfl, rfl, rfl, rfl, rfl, rfl⟩,
    fun a ha => SWake.get_keep _ _ _ hring ha, fun l hl hs => ?_, fun l hl hs => ?_⟩
  · rw [State.callTo_eq hfit hroom, State.topReads_eq hread, if_pos hgrant]
  · have hlane := w.call_lane s.fresh w.pool ((s.freeBlocks w.core w.pool).take b) n m b target l (by omega)
    rw [if_pos hs] at hlane
    refine ⟨congrArg Lane.saved hlane, ?_, fun a ha => Watch.call_wake hw _ _ _ _ _ _ _ hl hs a ha⟩
    rw [hlane]
    cases (w.lane l).exited <;> rfl
  · exact (w.call_lane _ _ _ _ _ _ _ _ (by omega)).trans (if_neg hs)

theorem State.target_eq (s : State) (disp : BitVec 24) : s.target disp = s.ctx.sp.pc + 8 * disp.signExtend 64 := by
  rw [State.target, BitVec.mul_comm]

/-- Settles O20: CALL and CALLI by the order of their checks and `State.callTo_enters`, RET by `Watch.returnWith`. -/
theorem callsAndReturns : Obligations.CallsAndReturns := by
  refine ⟨fun s n m b disp age h hw => ?_, fun s n m b disp age h => ?_, fun s n m h hw hn hm => ?_⟩
  · intro w hdepth hfit hroom hread hgrant
    have hg : b.toNat = 0 ∨ s.grantNow w.core w.pool b.toNat = true := hgrant.imp_left fun e => by rw [e]; rfl
    have hcall (target : DWord) := State.callTo_enters (target := target) hw hfit hroom hread hg
    refine ⟨?_, fun t ht halign => ?_⟩
    · beta_reduce
      rw [exec_call h, if_neg hdepth, State.target_eq]
      exact hcall _
    · beta_reduce
      rw [exec_calli h, if_neg hdepth, ht]
      simp only [halign, ne_eq, not_true_eq_false, if_false]
      exact hcall t
  · intro w fits room
    have hcall (hdepth : w.sp.depth ≠ 255) :
        exec (.call n disp m b) s = s.callTo (s.target disp) n.toNat m.toNat b.toNat := (exec_call h n disp m b).trans (if_neg hdepth)
    have hcalli (hdepth : w.sp.depth ≠ 255) := (exec_calli h n age m b).trans (if_neg hdepth)
    refine ⟨fun hd => ⟨(exec_call h ..).trans (if_pos hd), (exec_calli h ..).trans (if_pos hd)⟩, fun hd hv => ?_, fun hd hp => ?_,
      fun hd t ht ha => ?_, fun hd hf => ?_, fun hd hf hr hb => ?_, fun hd hf hr hb hp => ?_, fun hd hf hr ht hb hg => ?_⟩
    · rw [hcalli hd, hv]
    · rw [hcalli hd]
      cases he : w.sp.swake.get age.toNat with
      | pend v id => rfl
      | void | val v | bad => rw [he] at hp; cases hp
    · rw [hcalli hd, ht]
      exact if_pos ha
    · rw [hcall hd]
      exact if_pos (Nat.lt_of_not_le hf)
    · rw [hcall hd, State.callTo_eq hf hr, State.topReads_bad hb]
    · rw [hcall hd, State.callTo_eq hf hr, State.topReads_pends hb hp]
    · have hb0 : b.toNat ≠ 0 := fun e => hb (BitVec.eq_of_toNat_eq e)
      refine ⟨s.joinCaddyQ b.toNat (.call n.toNat m.toNat (s.target disp)), ?_, rfl, rfl, ?_⟩
      · rw [hcall hd, State.callTo_eq hf hr, State.topReads_eq ht, if_neg]
        simpa [hb0] using hg
      · simp [State.joinCaddyQ]
  · intro w
    have hlanes : w.lanes.length = 64 := hw.1
    have hframes : ∀ f ∈ w.sp.frames, f.sound := hw.2.2.2.2.2.2.1.2.2
    refine ⟨fun f below hf hk hr ht => ?_, fun hf => ?_, fun f below hf hk hr => ?_⟩
    · obtain ⟨ls, rs, heq, hlen⟩ := w.returnWith_eq f below n.toNat m.toNat
      have hring : f.swake.ring.length = 16 := (hframes f (by rw [hf]; exact List.mem_cons_self)).1
      refine ⟨w.returnWith f below n.toNat m.toNat, ?_, by rw [heq]; rfl, by rw [heq]; rfl, by rw [heq], by rw [heq]; rfl,
        by rw [heq]; exact hlen, by rw [heq]; rfl, fun a ha => ?_, fun l hl hs a ha => ?_⟩
      · rw [exec_ret h, hf]
        simp only [hk, ne_eq, not_true_eq_false, if_false, State.topReads_eq ht]
        rw [if_neg (by rw [show s.ctx.sp.recs = [] from hr]; simp)]
        rfl
      · rw [heq]
        exact SWake.get_results hring _ a ha
      · obtain ⟨hin, hout⟩ := Watch.returnWith_wake hw f below (n := n.toNat) m.toNat hl hs
        exact ⟨fun hk => hin hk a ha, hout⟩
    · rw [exec_ret h]
      obtain hf | ⟨f, below, hf, hk⟩ := hf
      · rw [hf]
        rfl
      · rw [hf]
        exact if_pos hk
    · rw [exec_ret h, hf]
      simp only [hk, ne_eq, not_true_eq_false, if_false]
      exact if_pos (by simpa using hr)

end Sys2Proof.Machine

namespace Sys2Proof.Machine

/-! ### GATE and GRET (R336 to R339) -/

section
variable {s : State} {x : BitVec 16} (h : s.admits (some 11))
include h

theorem exec_gate_leeway (hc : s.ctx.cls = 2) : exec (.gate x) s = .next (s.takeTrap 0x16 s.ctx.k0 5) := by
  show execGate x s = _
  rw [execGate, State.enter_eq h]
  exact if_pos hc

variable (hc : s.ctx.cls ≠ 2)
include hc

theorem exec_gate_beyond (hx : s.regField .gtcount 0 16 ≤ x.toNat) : exec (.gate x) s = .next (s.takeTrap 0x12 s.ctx.k0 1) := by
  show execGate x s = _
  rw [execGate, State.enter_eq h]
  exact (if_neg hc).trans (if_pos hx)

variable (hx : x.toNat < s.regField .gtcount 0 16)
  {k : Nat} (hk : k = devKey 0 (s.regField .gtbase 6 46 * 64 + 64 * x.toNat)) (hmedia : s.mediaOk k = true)
  (hgood : s.poisoned k 64 = false)
include hx hk hmedia hgood

/-- GATE on a descriptor that can be read (R336, R339). -/
theorem exec_gate_read :
    exec (.gate x) s =
      let w := s.ctx
      let bs := s.bytes k 64
      let d := parseGate x.toNat bs
      if ¬ gateSound d bs then .next (s.gateTrap 3)
      else if ¬ d.allow.getLsbD w.dom then .next (s.gateTrap 2)
      else if ¬ s.mayRun w.core d.tdom ∨ s.poolFree w.core d.tdom < d.caddy then .next (s.gateTrap 4)
      else if w.sp.depth = 255 then .next (s.takeTrapFree 0x05 w.k0)
      else
        (s.gateSegs d).andThen fun segs =>
          s.topReads d.nv d.ns <|
          if w.flights.any Flight.inUnit then .next (s.hold .operand)
          else
            s.spillOr { s.tick with
              ctx := w.enterGate s.fresh ((s.freeBlocks w.core d.tdom).take d.caddy) d segs (s.reg (.featmask d.tdom)) } 1 := by
  subst hk
  show execGate x s = _
  rw [execGate, State.enter_eq h]
  simp only [hc, Nat.not_le.2 hx, hmedia, hgood, not_true_eq_false, Bool.false_eq_true, if_false]
  rfl

end

/-- The frame that GATE leaves, with the bank that it sets aside (R337). -/
def Watch.gateFrame (w : Watch) (d : GateDesc) : Frame :=
  { kind := .gate, retPc := w.sp.pc, retNext := w.sp.pc + 8, swake := w.sp.swake, caddy := w.sp.caddy, recs := w.sp.recs,
    ks := w.ks, bank := some w.bank, desc := some d }

theorem Watch.enterGate_caddy (w : Watch) (fid : Nat) (blks : List Nat) (d : GateDesc) (segs : List Seg) (feat : DWord) :
    (w.enterGate fid blks d segs feat).caddy = { id := fid, pool := d.tdom, blks := blks, slots := zeroBlocks d.caddy } :=
  w.call_caddy fid d.tdom blks d.nv d.ns d.caddy (d.code &&& ~~~7#64)

/-- The watch inside the gate (R337). -/
theorem Watch.enterGate_fields (w : Watch) (fid : Nat) (blks : List Nat) (d : GateDesc) (segs : List Seg) (feat : DWord) :
    let v := w.enterGate fid blks d segs feat
    v.sp.pc = d.code &&& ~~~7 ∧ v.dom = d.tdom ∧ v.home = w.home ∧ v.segs = segs ∧
      v.ks = List.replicate 7 0 ∧ v.bears = List.replicate 8 Bearing.zero ∧
      v.shapes = List.replicate 16 0 ∧ v.bovf = false ∧ v.ntid = 0 ∧
      v.sp.depth = w.sp.depth + 1 ∧ v.sp.recs = [] ∧ v.caddy.slots = zeroBlocks d.caddy ∧ v.caddy.pool = d.tdom ∧
      v.sibs = w.sibs.map (fun q => { q with stops := q.stops + 1 }) ∧ v.sp.frames = w.gateFrame d :: w.sp.frames := by
  intro v
  have hhome : v.home = w.home := by simp only [v, Watch.enterGate, Watch.call, Watch.stop, Watch.mapLanes]
  have hcaddy : v.caddy = _ := w.enterGate_caddy fid blks d segs feat
  exact ⟨rfl, rfl, hhome, rfl, rfl, rfl, rfl, rfl, rfl, rfl, rfl, congrArg CaddyFrame.slots hcaddy,
    congrArg CaddyFrame.pool hcaddy, rfl, rfl⟩

theorem exec_gret {s : State} (h : s.admits none) (n : BitVec 7) (m : BitVec 8) :
    exec (.gret n m) s =
      match s.ctx.sp.frames with
      | [] => .next (s.takeTrap 0x01 s.ctx.k0 3)
      | f :: below =>
        if f.kind ≠ .gate then .next (s.takeTrap 0x01 s.ctx.k0 3)
        else if ¬ s.ctx.sp.recs.isEmpty then .next (s.layoutTrap 7)
        else
          match f.desc, f.bank with
          | some d, some b =>
            if d.rv < n.toNat ∨ d.rs < m.toNat then .next (s.gateTrap 5)
            else s.topReads n.toNat m.toNat <|
              .next ((s.mapCtx (fun w => ((w.returnWith f below n.toNat m.toNat).restoreBank f.ks b).unstop)).settle)
          | _, _ => .next (s.gateTrap 5) := by
  show execGret n m s = _
  rw [execGret, State.enter_eq h] <;> rfl

/-- GRET in a gate frame without an open record (R338). -/
theorem exec_gret_frame {s : State} (h : s.admits none) (n : BitVec 7) (m : BitVec 8) {f : Frame} {below : List Frame} {d : GateDesc}
    {b : GateBank} (hf : s.ctx.sp.frames = f :: below) (hk : f.kind = .gate) (hd : f.desc = some d) (hb : f.bank = some b)
    (hr : s.ctx.sp.recs = []) :
    exec (.gret n m) s =
      if d.rv < n.toNat ∨ d.rs < m.toNat then .next (s.gateTrap 5)
      else s.topReads n.toNat m.toNat <|
        .next ((s.mapCtx (fun w => ((w.returnWith f below n.toNat m.toNat).restoreBank f.ks b).unstop)).settle) := by
  rw [exec_gret h, hf]
  simp only [hk, hd, hb, hr, ne_eq, not_true_eq_false, List.isEmpty_nil, if_false]

/-- Restoring a caller's bank changes only SATF in the lanes (R338). -/
theorem Watch.restoreBank_lane (w : Watch) (ks : List Mask) (b : GateBank) (l : Nat) (h : l < w.lanes.length) :
    (w.restoreBank ks b).lane l = { w.lane l with satf := b.satf.getD l false } :=
  w.mapLanes_lane (fun i l => { l with satf := b.satf.getD i false }) l h

theorem Watch.returnWith_lanes_length (w : Watch) (f : Frame) (below : List Frame) (n m : Nat) :
    (w.returnWith f below n m).lanes.length = w.lanes.length := by
  have hpush : ∀ (es : List (Nat → Entry Word)) (v : Watch), (v.pushEach w.k0 es).lanes.length = v.lanes.length := by
    intro es
    induction es with
    | nil => exact fun _ => rfl
    | cons e es ih => exact fun v => (ih _).trans (v.push_lanes_length _ _)
  rw [Watch.returnWith, Watch.foldl_spush]
  exact (hpush _ _).trans (w.leave_lanes_length f below f.retNext)

/-- Settles O23: GATE by the order of its checks (`exec_gate_read`) and `Watch.enterGate_fields`, GRET by `Watch.returnWith` and
`Watch.restoreBank`. -/
theorem gatesAndReturns : Obligations.GatesAndReturns := by
  refine ⟨fun s x h => ?_, fun s n m h hw hn hm => ?_⟩
  · intro w k d trap
    refine ⟨fun hc => exec_gate_leeway h hc, fun hc hx => exec_gate_beyond h hc hx, fun hc hx hmedia hgood => ?_⟩
    have hread := exec_gate_read h hc hx (k := k) rfl hmedia hgood
    refine ⟨fun hd => ?_, fun hd => ⟨fun ha => ?_, fun ha => ⟨fun hrun => ?_, fun hrun hpool hdep => ?_, fun hrun hpool hdep => ?_⟩⟩⟩
    · exact hread.trans (if_pos (by rw [hd]; simp))
    all_goals replace hread := hread.trans (if_neg (not_not.2 hd))
    · exact hread.trans (if_pos (by rw [ha]; simp))
    all_goals replace hread := hread.trans (if_neg (not_not.2 ha))
    · exact hread.trans (if_pos (hrun.imp_left fun e => by rw [e]; simp))
    all_goals replace hread := hread.trans (if_neg (by rw [hrun]; simpa using hpool))
    · exact hread.trans (if_pos hdep)
    replace hread := hread.trans (if_neg hdep)
    refine ⟨fun segs hsegs hbad hwait => ?_, fun segs hsegs htops hflights hfit => ?_⟩
    · rw [hread, hsegs]
      show s.topReads d.nv d.ns _ = _
      by_cases hp : w.topPends d.nv d.ns = true
      · exact State.topReads_pends hbad hp _
      · rw [State.topReads_eq ⟨hbad, by simpa using hp⟩]
        exact if_pos (hwait.resolve_left hp)
    · obtain ⟨hpc, hdom, hhome, hsg, hks, hbears, hshapes, hbovf, hntid, hdepth, hrecs, hslots, hp, hsibs, hframes⟩ :=
        w.enterGate_fields s.fresh ((s.freeBlocks w.core d.tdom).take d.caddy) d segs (s.reg (.featmask d.tdom))
      refine ⟨{ s.tick with
          ctx := w.enterGate s.fresh ((s.freeBlocks w.core d.tdom).take d.caddy) d segs
            (s.reg (.featmask d.tdom)) },
        ?_, rfl, hpc, hdom, hhome, hsg, hks, hbears, hshapes, hbovf, hntid, hdepth, hrecs, hslots, hp, hsibs, w.gateFrame d,
        hframes, rfl, rfl, rfl, rfl, rfl, rfl, rfl, rfl, rfl⟩
      rw [hread, hsegs]
      show s.topReads d.nv d.ns _ = _
      rw [State.topReads_eq htops, if_neg (by rw [hflights]; simp), State.spillOr, if_pos hfit]
  · intro w
    have hlanes : w.lanes.length = 64 := hw.1
    have hframes : ∀ f ∈ w.sp.frames, f.sound := hw.2.2.2.2.2.2.1.2.2
    refine ⟨fun f below d b hf hk hd hb => ⟨fun hr => ?_, fun hr hbeyond => ?_, fun hr hrv hrs ht => ?_⟩, fun hf => ?_⟩
    · rw [exec_gret h, hf]
      simp only [hk, ne_eq, not_true_eq_false, if_false]
      exact if_pos (by simpa using hr)
    · exact (exec_gret_frame h n m hf hk hd hb hr).trans (if_pos hbeyond)
    · obtain ⟨ls, rs, heq, -⟩ := w.returnWith_eq f below n.toNat m.toNat
      have hring : f.swake.ring.length = 16 := (hframes f (by rw [hf]; exact List.mem_cons_self)).1
      refine ⟨((w.returnWith f below n.toNat m.toNat).restoreBank f.ks b).unstop, ?_, by rw [heq]; rfl, by rw [heq]; rfl,
        by rw [heq]; rfl, rfl, rfl, rfl, rfl, rfl, rfl, rfl, rfl, by rw [heq]; rfl, fun a ha => ?_, fun l hl => ?_⟩
      · rw [exec_gret_frame h n m hf hk hd hb hr, if_neg (by omega), State.topReads_eq ht]
        rfl
      · rw [heq]
        exact SWake.get_results hring _ a ha
      · have hlane := (w.returnWith f below n.toNat m.toNat).restoreBank_lane f.ks b l (by
          rw [Watch.returnWith_lanes_length]
          omega)
        refine ⟨congrArg Lane.satf hlane, fun hs a ha hk => ?_⟩
        refine (congrArg (fun x : Lane => x.wake.get a) hlane).trans ?_
        exact (Watch.returnWith_wake hw f below (n := n.toNat) m.toNat hl hs).1 hk a ha
    · rw [exec_gret h]
      obtain hf | ⟨f, below, hf, hk⟩ := hf
      · rw [hf]
      · rw [hf]
        exact if_pos hk

end Sys2Proof.Machine

namespace Sys2Proof.Machine

/-!
O5. The one fault that a meaning can answer is `State.enter`'s, when no watch is in focus; so every combinator that a meaning is
made of goes on when what it is given goes on.
-/

/-! ### Outcomes that are a next state -/

/-- An outcome that is a next state. -/
def Out.goesOn (o : Out) : Prop := ∃ t, o = .next t

@[simp] theorem Out.goesOn_next (t : State) : Out.goesOn (.next t) := ⟨t, rfl⟩

@[simp] theorem Out.goesOn_ite_iff {c : Prop} [Decidable c] {a b : Out} :
    Out.goesOn (if c then a else b) ↔ if c then a.goesOn else b.goesOn := by split <;> rfl

theorem Out.goesOn_ite {c : Prop} [Decidable c] {a b : Out} (ha : a.goesOn) (hb : b.goesOn) :
    Out.goesOn (if c then a else b) := by split <;> assumption

@[simp] theorem orElse_goesOn {c : Option State} {k : Out} (hk : k.goesOn) : (orElse c k).goesOn := by
  cases c with
  | none => exact hk
  | some t => exact ⟨_, rfl⟩

@[simp] theorem Got.andThen_goesOn {α : Type} {g : Got α} {k : α → Out} (hk : ∀ a, (k a).goesOn) : (g.andThen k).goesOn := by
  cases g with
  | ok a => exact hk a
  | stop t => exact ⟨_, rfl⟩

@[simp] theorem mapOut_goesOn {f : State → State} {o : Out} (h : o.goesOn) : (mapOut f o).goesOn := by
  obtain ⟨t, rfl⟩ := h
  exact ⟨f t, rfl⟩

/-! ### Combinators that ask for no watch -/

section
variable {s : State}

@[simp] theorem State.byRegister_goesOn {f : State → State} : (s.byRegister f).goesOn := ⟨_, rfl⟩

@[simp] theorem State.layoutReads_goesOn {ms : List (Mask × List Nat)} {k : Out} (hk : k.goesOn) : (s.layoutReads ms k).goesOn := by
  simp [State.layoutReads, hk]

@[simp] theorem State.topReads_goesOn {n m : Nat} {k : Out} (hk : k.goesOn) : (s.topReads n m k).goesOn := by
  simp [State.topReads, hk]

@[simp] theorem State.spillOr_goesOn {t : State} {d : DWord} : (s.spillOr t d).goesOn := ⟨_, rfl⟩

@[simp] theorem State.depart_goesOn {k : BitVec 3} {entry : BitVec 16} {brk : Bool} : (s.depart k entry brk).goesOn := by
  unfold State.depart
  split
  · exact ⟨_, rfl⟩
  · exact Got.andThen_goesOn fun e => Out.goesOn_ite ⟨_, rfl⟩ (State.layoutReads_goesOn ⟨_, rfl⟩)

@[simp] theorem State.callTo_goesOn {target : DWord} {n m b : Nat} : (s.callTo target n m b).goesOn :=
  Out.goesOn_ite ⟨_, rfl⟩ (Out.goesOn_ite ⟨_, rfl⟩ (State.topReads_goesOn (Out.goesOn_ite ⟨_, rfl⟩ ⟨_, rfl⟩)))

@[simp] theorem State.returnFromTrap_goesOn {next : Bool} : (s.returnFromTrap next).goesOn := by
  unfold State.returnFromTrap
  (repeat' split) <;> exact ⟨_, rfl⟩

@[simp] theorem State.readsWell_goesOn {va n : Nat} {k : Out} (hk : k.goesOn) : (s.readsWell va n k).goesOn := by
  unfold State.readsWell
  dsimp only
  split
  · exact ⟨_, rfl⟩
  · exact ⟨_, rfl⟩
  · exact hk

@[simp] theorem State.launchWell_goesOn {va : Nat} {k : Out} (hk : k.goesOn) : (s.launchWell va k).goesOn := by
  refine Out.goesOn_ite hk (State.readsWell_goesOn ?_)
  split
  · refine State.readsWell_goesOn ?_
    split
    · exact State.readsWell_goesOn hk
    · exact hk
  · exact hk

@[simp] theorem State.nodeWell_goesOn {idx : Nat} {k : Out} (hk : k.goesOn) : (s.nodeWell idx k).goesOn := by
  refine Out.goesOn_ite hk (State.readsWell_goesOn ?_)
  split
  · exact State.launchWell_goesOn hk
  · exact hk

@[simp] theorem State.ordered_goesOn {m : FmtM} {k : Bool → Out} (hk : ∀ c, (k c).goesOn) : (s.ordered m k).goesOn :=
  orElse_goesOn (hk _)

@[simp] theorem State.orderedLanes_goesOn {m : FmtM} {k : Bool → Out} (hk : ∀ c, (k c).goesOn) : (s.orderedLanes m k).goesOn :=
  Out.goesOn_ite (hk _) (State.ordered_goesOn hk)

@[simp] theorem State.fenceScope_goesOn {scope : BitVec 3} {d : DWord} {k : Bool → Out} (hk : ∀ c, (k c).goesOn) :
    (s.fenceScope scope d k).goesOn := orElse_goesOn (hk _)

@[simp] theorem State.loadRecord_goesOn {r : BitVec 3} {m : FmtM} {x : RecordPart} : (s.loadRecord r m x).goesOn := by
  unfold State.loadRecord
  dsimp only
  (repeat' split) <;> exact ⟨_, rfl⟩

@[simp] theorem State.storeRecord_goesOn {m : FmtM} {x : RecordPart} : (s.storeRecord m x).goesOn := by
  unfold State.storeRecord
  dsimp only
  (repeat' split) <;> exact ⟨_, rfl⟩

@[simp] theorem State.queueCmd_goesOn {e : FmtE} {kind : EngKind} {place path obj bytes total : Nat} {group : Option Group}
    {message : Option (Nat × Nat × Nat)} {f : EngCmd → State → State} :
    (s.queueCmd e kind place path obj bytes total group message f).goesOn := by
  unfold State.queueCmd
  exact Out.goesOn_ite ⟨_, rfl⟩ ⟨_, rfl⟩

@[simp] theorem State.queueMat_goesOn {e : FmtE} {op : MatOp} {maj row col rows addr obj bytes total : Nat} {pair clear : Bool} :
    (s.queueMat e op maj row col rows addr obj bytes total pair clear).goesOn := by
  unfold State.queueMat
  exact Out.goesOn_ite ⟨_, rfl⟩ ⟨_, rfl⟩

@[simp] theorem State.withPacket_goesOn {cp ty : Nat} {k : Nat → Nat → Nat → List Byte → State → State} :
    (s.withPacket cp ty k).goesOn := by
  unfold State.withPacket
  split
  · exact ⟨_, rfl⟩
  split
  · exact ⟨_, rfl⟩
  · exact Out.goesOn_ite ⟨_, rfl⟩ ⟨_, rfl⟩

end

/-! ### The fronts of instructions -/

section
variable {s : State} (h : s.ctx.resident = true)
include h

@[simp] theorem State.enter_goesOn {g : Option Nat} {m : Nat} {k : State → Out} (hk : (k s).goesOn) : (s.enter g m k).goesOn := by
  unfold State.enter
  rw [if_neg (not_not.2 h)]
  cases g with
  | none => exact hk
  | some g => exact Out.goesOn_ite hk ⟨_, rfl⟩

@[simp] theorem State.illField_goesOn {maj len : Nat} : (s.illField maj len).goesOn := State.enter_goesOn h ⟨_, rfl⟩

@[simp] theorem State.taskFront_goesOn {g : Option Nat} {maj : Nat} {a : Opnd} {k : Nat → State → Out} (hk : ∀ n, (k n s).goesOn) :
    (s.taskFront g maj a k).goesOn := State.enter_goesOn h (Out.goesOn_ite ⟨_, rfl⟩ (orElse_goesOn (hk _)))

@[simp] theorem State.vector_goesOn {f : FmtA} {srcs : List Src} {k : Mask → State → Out} (hk : ∀ m, (k m s).goesOn) :
    (s.vector f srcs k).goesOn := State.enter_goesOn h (orElse_goesOn (hk _))

@[simp] theorem State.bearing_goesOn {maj : Nat} {srcs : List Src} {regs : List (BitVec 3)} {unit : Bool} {k : State → Out}
    (hk : (k s).goesOn) : (s.bearing maj srcs regs unit k).goesOn :=
  State.enter_goesOn h (orElse_goesOn (Out.goesOn_ite ⟨_, rfl⟩ hk))

@[simp] theorem State.engFront_goesOn {g : Option Nat} {maj : Nat} {srcs : List Src} {k : State → Out} (hk : (k s).goesOn) :
    (s.engFront g maj srcs k).goesOn := State.enter_goesOn h (Out.goesOn_ite ⟨_, rfl⟩ (orElse_goesOn hk))

@[simp] theorem State.matFront_goesOn {g : Option Nat} {maj : Nat} {srcs : List Src} {k : State → Out} (hk : (k s).goesOn) :
    (s.matFront g maj srcs k).goesOn :=
  State.enter_goesOn h (Out.goesOn_ite ⟨_, rfl⟩ (Out.goesOn_ite ⟨_, rfl⟩ (orElse_goesOn hk)))

@[simp] theorem State.cacheOp_goesOn {m : FmtM} {k : State → Nat → State} : (s.cacheOp m k).goesOn :=
  State.enter_goesOn h (orElse_goesOn (Got.andThen_goesOn fun _ => Got.andThen_goesOn fun _ => ⟨_, rfl⟩))

@[simp] theorem State.barFront_goesOn {e : FmtE} {write reads : Bool} {k : Nat → DWord → State → Out} (hk : ∀ key v, (k key v s).goesOn) :
    (s.barFront e write reads k).goesOn := by
  refine State.enter_goesOn h (orElse_goesOn (Got.andThen_goesOn fun ts => ?_))
  split
  · exact Out.goesOn_ite ⟨_, rfl⟩ (hk _ _)
  · exact ⟨_, rfl⟩

@[simp] theorem State.loadLanes_goesOn {m : FmtM} {spad : Bool} {n : Nat} {after : List (Nat × Target) → State → State} :
    (s.loadLanes m spad n after).goesOn := by
  refine State.enter_goesOn h (State.orderedLanes_goesOn fun c => orElse_goesOn (Out.goesOn_ite ⟨_, rfl⟩ (Out.goesOn_ite ⟨_, rfl⟩ ?_)))
  refine Got.andThen_goesOn fun ts => Got.andThen_goesOn fun _ => ?_
  split <;> exact ⟨_, rfl⟩

@[simp] theorem State.storeLanes_goesOn {m : FmtM} {spad : Bool} {n : Nat} : (s.storeLanes m spad n).goesOn :=
  State.enter_goesOn h (State.orderedLanes_goesOn fun _ => orElse_goesOn (Out.goesOn_ite ⟨_, rfl⟩
    (Got.andThen_goesOn fun _ => Got.andThen_goesOn fun _ => ⟨_, rfl⟩)))

@[simp] theorem State.bearRecord_goesOn {r : BitVec 3} {m : FmtM} {write : Bool} {k : RecordPart → State → Out}
    (hk : ∀ x u, (k x u).goesOn) : (s.bearRecord r m write k).goesOn :=
  State.enter_goesOn h (Out.goesOn_ite (hk _ _) (State.ordered_goesOn fun _ => orElse_goesOn (Out.goesOn_ite ⟨_, rfl⟩
    (Got.andThen_goesOn fun _ => Got.andThen_goesOn fun _ => hk _ _))))

@[simp] theorem State.atomic_goesOn {m : FmtM} {x : AtomicShape} {k : List (Nat × Target) → State → Out} (hk : ∀ ts u, (k ts u).goesOn) :
    (s.atomic m x k).goesOn := by
  refine State.enter_goesOn h (State.orderedLanes_goesOn fun c => orElse_goesOn (Out.goesOn_ite ⟨_, rfl⟩ (Out.goesOn_ite ⟨_, rfl⟩ ?_)))
  refine Got.andThen_goesOn fun ts => Got.andThen_goesOn fun _ => ?_
  split
  · exact ⟨_, rfl⟩
  · exact hk _ _

@[simp] theorem State.scalarOp_goesOn {f : FmtA} {g : Nat → Nat → Nat → Nat} : (s.scalarOp f g).goesOn :=
  State.enter_goesOn h (orElse_goesOn ⟨_, rfl⟩)

@[simp] theorem State.vectorOp_goesOn {f : FmtA} {srcs : List Src} {g : Nat → Nat → Nat → Nat} : (s.vectorOp f srcs g).goesOn :=
  State.vector_goesOn h fun _ => ⟨_, rfl⟩

@[simp] theorem State.elementwise_goesOn {f : FmtA} {srcs : List Src} {sgn : Bool} {x : Int → Int → Int → Int} :
    (s.elementwise f srcs sgn x).goesOn := State.vector_goesOn h fun _ => ⟨_, rfl⟩

@[simp] theorem State.shift_goesOn {f : FmtA} {g : Nat → Nat → Nat → Nat} : (s.shift f g).goesOn := State.vectorOp_goesOn h

@[simp] theorem State.maskOp_goesOn {d : BitVec 3} {v : Watch → Mask} : (s.maskOp d v).goesOn := State.enter_goesOn h ⟨_, rfl⟩

@[simp] theorem State.floatOp_goesOn {f : FmtA} {srcs : List Src} {g : FFun} : (s.floatOp f srcs g).goesOn :=
  State.vector_goesOn h fun _ => ⟨_, rfl⟩

omit h in
@[simp] theorem State.sfuOp_goesOn {f : FmtA} {srcs : List Src} {g : FFun} : (s.sfuOp f srcs g).goesOn :=
  orElse_goesOn (Out.goesOn_ite ⟨_, rfl⟩ (Out.goesOn_ite ⟨_, rfl⟩ ⟨_, rfl⟩))

@[simp] theorem State.convert_goesOn {f : FmtA} {g : Nat → Converted} : (s.convert f g).goesOn :=
  State.enter_goesOn h (orElse_goesOn (Out.goesOn_ite ⟨_, rfl⟩ (Out.goesOn_ite ⟨_, rfl⟩ ⟨_, rfl⟩)))

@[simp] theorem State.scalarFloat_goesOn {f : FmtA} {srcs : List Src} {g : FFun} : (s.scalarFloat f srcs g).goesOn :=
  State.enter_goesOn h (orElse_goesOn ⟨_, rfl⟩)

@[simp] theorem State.packedOp_goesOn {f : FmtA} {srcs : List Src} {g : Watch → Nat → Narrowed} : (s.packedOp f srcs g).goesOn :=
  State.vector_goesOn h fun _ => ⟨_, rfl⟩

@[simp] theorem State.dot_goesOn {f : FmtA} : (s.dot f).goesOn := State.packedOp_goesOn h
@[simp] theorem State.fdot_goesOn {f : FmtA} : (s.fdot f).goesOn := State.packedOp_goesOn h

@[simp] theorem State.exchange_goesOn {f : FmtA} {idx : List Src} {j : Watch → Nat → Nat} : (s.exchange f idx j).goesOn :=
  State.enter_goesOn h (orElse_goesOn (Out.goesOn_ite ⟨_, rfl⟩ (Out.goesOn_ite ⟨_, rfl⟩ ⟨_, rfl⟩)))

@[simp] theorem State.redWith_goesOn {α : Type} {f : FmtA} {c : Combiner α} : (s.redWith f c).goesOn := by
  refine State.vector_goesOn h fun m => ?_
  dsimp only
  split <;> exact ⟨_, rfl⟩

@[simp] theorem State.scanWith_goesOn {α : Type} {f : FmtA} {c : Combiner α} : (s.scanWith f c).goesOn :=
  State.vector_goesOn h fun _ => ⟨_, rfl⟩

omit h in
@[simp] theorem State.mix_goesOn {f : FmtA} {a b : FVal} : (s.mix f a b).goesOn := Out.goesOn_ite ⟨_, rfl⟩ ⟨_, rfl⟩

omit h in
@[simp] theorem State.openIf_goesOn {k : BitVec 3} {disp : BitVec 24} {origin : Bool} : (s.openIf k disp origin).goesOn :=
  Out.goesOn_ite ⟨_, rfl⟩ State.spillOr_goesOn

@[simp] theorem State.atom_goesOn {m : FmtM} {op : BitVec 4} {host : Bool} {g : Nat → Nat → Nat → Nat} : (s.atom m op host g).goesOn := by
  unfold State.atom
  exact State.atomic_goesOn h fun _ _ => ⟨_, rfl⟩

@[simp] theorem State.rowsCmd_goesOn {e : FmtE} {gather : Bool} {maj : Nat} : (s.rowsCmd e gather maj).goesOn :=
  State.engFront_goesOn h (orElse_goesOn State.queueCmd_goesOn)

@[simp] theorem State.collCmd_goesOn {e : FmtE} {kind : BitVec 2} : (s.collCmd e kind).goesOn := by
  refine State.engFront_goesOn h (orElse_goesOn (Out.goesOn_ite ⟨_, rfl⟩ ?_))
  split
  · exact ⟨_, rfl⟩
  · exact ⟨_, rfl⟩
  · exact ⟨_, rfl⟩
  · exact State.queueCmd_goesOn

@[simp] theorem State.product_goesOn {e : FmtE} {group maj : Nat} {sparse paired : Bool} : (s.product e group maj sparse paired).goesOn :=
  State.matFront_goesOn h (orElse_goesOn State.queueMat_goesOn)

@[simp] theorem State.tileCmd_goesOn {e : FmtE} {group : Option Nat} {maj : Nat} {op : MatOp} {clear : Bool} {format units : Shape → Nat} :
    (s.tileCmd e group maj op clear format units).goesOn :=
  State.matFront_goesOn h (orElse_goesOn State.queueMat_goesOn)

end

/-! ### Instructions with branches of their own -/

section
variable {s : State} (h : s.ctx.resident = true)
include h

@[simp] theorem execIfs_goesOn {k : BitVec 3} {disp : BitVec 24} : (execIfs k disp s).goesOn := by
  refine State.enter_goesOn h ?_
  dsimp only
  split
  · refine Out.goesOn_ite ⟨_, rfl⟩ (Out.goesOn_ite State.openIf_goesOn (Out.goesOn_ite ?_ ?_)) <;> exact State.spillOr_goesOn
  · exact ⟨_, rfl⟩

@[simp] theorem execElseArm_goesOn {disp : BitVec 24} : (execElseArm disp s).goesOn := by
  refine State.enter_goesOn h ?_
  dsimp only
  split
  · exact Out.goesOn_ite ⟨_, rfl⟩ (Out.goesOn_ite (Out.goesOn_ite ⟨_, rfl⟩ ⟨_, rfl⟩) ⟨_, rfl⟩)
  · exact ⟨_, rfl⟩

@[simp] theorem execRejoin_goesOn {entry : BitVec 16} : (execRejoin entry s).goesOn := by
  refine State.enter_goesOn h ?_
  split
  · exact ⟨_, rfl⟩
  refine Out.goesOn_ite ⟨_, rfl⟩ (Got.andThen_goesOn fun e => Out.goesOn_ite ⟨_, rfl⟩ (State.layoutReads_goesOn ?_))
  refine Out.goesOn_ite ⟨_, rfl⟩ ?_
  split <;> exact ⟨_, rfl⟩

@[simp] theorem execEndloop_goesOn {k : BitVec 3} {disp : BitVec 24} {entry : BitVec 16} : (execEndloop k disp entry s).goesOn := by
  refine State.enter_goesOn h ?_
  split
  · exact ⟨_, rfl⟩
  · exact Out.goesOn_ite ⟨_, rfl⟩ (Got.andThen_goesOn fun e =>
      Out.goesOn_ite ⟨_, rfl⟩ (Out.goesOn_ite ⟨_, rfl⟩ (State.layoutReads_goesOn ⟨_, rfl⟩)))

@[simp] theorem execCalli_goesOn {n : BitVec 7} {age : BitVec 4} {m b : BitVec 8} : (execCalli n age m b s).goesOn := by
  refine State.enter_goesOn h (Out.goesOn_ite ⟨_, rfl⟩ ?_)
  split
  · exact ⟨_, rfl⟩
  · exact ⟨_, rfl⟩
  · exact ⟨_, rfl⟩
  · exact Out.goesOn_ite ⟨_, rfl⟩ State.callTo_goesOn

@[simp] theorem execRet_goesOn {n : BitVec 7} {m : BitVec 8} : (execRet n m s).goesOn := by
  refine State.enter_goesOn h ?_
  split
  · exact ⟨_, rfl⟩
  · exact Out.goesOn_ite ⟨_, rfl⟩ (Out.goesOn_ite ⟨_, rfl⟩ (State.topReads_goesOn ⟨_, rfl⟩))

@[simp] theorem execYieldb_goesOn : (execYieldb s).goesOn := by
  refine State.enter_goesOn h (Out.goesOn_ite ⟨_, rfl⟩ ?_)
  split
  · exact ⟨_, rfl⟩
  · exact Out.goesOn_ite ⟨_, rfl⟩ ⟨_, rfl⟩

@[simp] theorem execGate_goesOn {index : BitVec 16} : (execGate index s).goesOn := by
  refine State.enter_goesOn h ?_
  repeat refine Out.goesOn_ite ⟨_, rfl⟩ ?_
  exact Got.andThen_goesOn fun segs => State.topReads_goesOn (Out.goesOn_ite ⟨_, rfl⟩ State.spillOr_goesOn)

@[simp] theorem execGret_goesOn {n : BitVec 7} {m : BitVec 8} : (execGret n m s).goesOn := by
  refine State.enter_goesOn h ?_
  split
  · exact ⟨_, rfl⟩
  refine Out.goesOn_ite ⟨_, rfl⟩ (Out.goesOn_ite ⟨_, rfl⟩ ?_)
  split
  · exact Out.goesOn_ite ⟨_, rfl⟩ (State.topReads_goesOn ⟨_, rfl⟩)
  · exact ⟨_, rfl⟩

@[simp] theorem execNode_goesOn {a : Opnd} : (execNode a s).goesOn := by
  refine State.taskFront_goesOn h fun idx => State.nodeWell_goesOn ?_
  split <;> exact ⟨_, rfl⟩

@[simp] theorem execNdep_goesOn {a : Opnd} {n : BitVec 16} : (execNdep a n s).goesOn := by
  refine State.taskFront_goesOn h fun idx => Out.goesOn_ite ⟨_, rfl⟩ ?_
  split
  · exact ⟨_, rfl⟩
  · exact Out.goesOn_ite ⟨_, rfl⟩ ⟨_, rfl⟩

@[simp] theorem execNrel_goesOn {a : Opnd} {n : BitVec 16} : (execNrel a n s).goesOn := by
  refine State.taskFront_goesOn h fun idx => Out.goesOn_ite ⟨_, rfl⟩ ?_
  split
  · exact ⟨_, rfl⟩
  · exact Out.goesOn_ite ⟨_, rfl⟩ ⟨_, rfl⟩

@[simp] theorem execFork_goesOn {a : Opnd} {k : BitVec 8} : (execFork a k s).goesOn := by
  refine State.enter_goesOn h (Out.goesOn_ite ⟨_, rfl⟩ (State.taskFront_goesOn h fun idx => ?_))
  refine List.foldrRecOn _ _ ?_ fun _ ho _ _ => State.nodeWell_goesOn ho
  split
  · exact ⟨_, rfl⟩
  · exact ⟨_, rfl⟩
  · exact ⟨_, rfl⟩
  · exact Out.goesOn_ite ⟨_, rfl⟩ ⟨_, rfl⟩

@[simp] theorem execArm_goesOn {a : Opnd} : (execArm a s).goesOn := by
  refine State.taskFront_goesOn h fun v => Out.goesOn_ite ⟨_, rfl⟩ (Out.goesOn_ite ⟨_, rfl⟩ ?_)
  split
  · exact ⟨_, rfl⟩
  refine Out.goesOn_ite ⟨_, rfl⟩ (State.launchWell_goesOn ?_)
  split
  · exact Out.goesOn_ite ⟨_, rfl⟩ ⟨_, rfl⟩
  · exact ⟨_, rfl⟩
  · exact Out.goesOn_ite ⟨_, rfl⟩ ⟨_, rfl⟩

@[simp] theorem execLaunchq_goesOn {a : Opnd} : (execLaunchq a s).goesOn := by
  refine State.taskFront_goesOn h fun va => State.launchWell_goesOn ?_
  split
  · exact Out.goesOn_ite ⟨_, rfl⟩ ⟨_, rfl⟩
  · exact ⟨_, rfl⟩
  · exact Out.goesOn_ite ⟨_, rfl⟩ ⟨_, rfl⟩

@[simp] theorem execRed_goesOn {op : RedOp} {f : FmtA} : (execRed op f s).goesOn := by
  cases op <;> exact State.redWith_goesOn h

@[simp] theorem execScan_goesOn {op : RedOp} {f : FmtA} : (execScan op f s).goesOn := by
  cases op <;> exact State.scanWith_goesOn h

@[simp] theorem execLdu_goesOn {m : FmtM} : (execLdu m s).goesOn := by
  refine State.enter_goesOn h (State.ordered_goesOn fun c => orElse_goesOn (Out.goesOn_ite ⟨_, rfl⟩ ?_))
  refine Got.andThen_goesOn fun ts => Got.andThen_goesOn fun _ => ?_
  split <;> exact ⟨_, rfl⟩

@[simp] theorem execStu_goesOn {m : FmtM} : (execStu m s).goesOn :=
  State.enter_goesOn h (State.ordered_goesOn fun _ => orElse_goesOn
    (Got.andThen_goesOn fun _ => Got.andThen_goesOn fun _ => ⟨_, rfl⟩))

@[simp] theorem execLea_goesOn {m : FmtM} : (execLea m s).goesOn :=
  State.enter_goesOn h (orElse_goesOn (Got.andThen_goesOn fun _ => ⟨_, rfl⟩))

@[simp] theorem execWaitb_goesOn {e : FmtE} : (execWaitb e s).goesOn :=
  State.barFront_goesOn h fun _ _ => Out.goesOn_ite ⟨_, rfl⟩ (Out.goesOn_ite ⟨_, rfl⟩ ⟨_, rfl⟩)

@[simp] theorem execTestb_goesOn {e : FmtE} : (execTestb e s).goesOn :=
  State.barFront_goesOn h fun _ _ => Out.goesOn_ite ⟨_, rfl⟩ (Out.goesOn_ite ⟨_, rfl⟩ ⟨_, rfl⟩)

@[simp] theorem execShld_goesOn {e : FmtE} : (execShld e s).goesOn := by
  refine State.enter_goesOn h (orElse_goesOn (Got.andThen_goesOn fun ts => Got.andThen_goesOn fun _ => ?_))
  split
  · exact ⟨_, rfl⟩
  · exact Out.goesOn_ite ⟨_, rfl⟩ ⟨_, rfl⟩

@[simp] theorem execShst_goesOn {e : FmtE} : (execShst e s).goesOn :=
  State.enter_goesOn h (orElse_goesOn (Got.andThen_goesOn fun _ => Got.andThen_goesOn fun _ => ⟨_, rfl⟩))

@[simp] theorem execCpys_goesOn {e : FmtE} : (execCpys e s).goesOn :=
  State.engFront_goesOn h (orElse_goesOn State.queueCmd_goesOn)

@[simp] theorem execAccstat_goesOn {e : FmtE} : (execAccstat e s).goesOn :=
  State.matFront_goesOn h (orElse_goesOn State.queueMat_goesOn)

end

/-! ### Events and instructions -/

/-- An event asks for no watch in focus. -/
theorem event_goesOn (i : Instr) (s : State) (hi : isEvent i = true) : Out.goesOn (exec i s) := by
  cases i with
  | caddyGrant | fairnessSwitch | reservationDeferEnd | graceExpiry | killTimerExpiry | responseTimeout | sliceEnd
      | lendReclaim | sightDrain | sightPassEnd | pageTableWalk | pageMove | queueServe | queueReread | signalAtomicCompletion
      | hostAccess | linkError | taggedMessage | pageRequestRetry | invalidationComplete | trackingPeriodEnd | zpBackgroundClear =>
    simp only [exec, execCaddyGrant, execFairnessSwitch, execReservationDeferEnd, execGraceExpiry, execKillTimerExpiry,
      execResponseTimeout, execSliceEnd, execLendReclaim, execSightDrain, execSightPassEnd, execPageTableWalk, execPageMove,
      execQueueServe, execQueueReread, execSignalAtomicCompletion, execHostAccess, execLinkError,
      execTaggedMessage, execPageRequestRetry, execInvalidationComplete, execTrackingPeriodEnd, execZpBackgroundClear]
    (repeat' split) <;> exact ⟨_, rfl⟩
  | nopPacket | launchPacket | insertPacket | releasePacket =>
    simp [exec, execNopPacket, execLaunchPacket, execInsertPacket, execReleasePacket]
  | sleepEnd | unitOperationComplete | pendingValueArrival | engineDelivery | engineCommandComplete | collAbort | passGrant
      | pairedHold | passEnd | gangPlace | gangEnd | pilotDieLoss | preqWithdraw | preqSoft | preqHard | responseWindowExpiry
      | queueNotify | fabricMemoryAccess | prqResponse | prqDecline | invalidatePage
      | invalidateRange | invalidateAll | idtMap | idtUnmap | idtSetpin | idtClrpin
      | keyLoad | keyRetire | vfReset | functionLevelReset | vfEnable | queueEnable | quotaWrite
      | partWrite | qrangeWrite | ctrownWrite | ctrcfgClear | rsvctlWrite | lendConfigWrite | eqringWrite | registerWrite
      | powerInterval | clockStepDown | clockStepUp | thermalThrottle | thermalShutdown | undervoltage | powerOn
      | fundamentalReset | attestationRequest | flashImageWrite | prqheadWrite | msgheadWrite =>
    exact ⟨_, rfl⟩
  | _ => cases hi

section
variable {s : State} (h : s.ctx.resident = true)
include h

/-- With a watch in focus every instruction and event goes on; the instructions are named by family. -/
theorem exec_goesOn (i : Instr) : Out.goesOn (exec i s) := by
  cases i with
  | trap | tret | tretNext | srd | swr | ctrrd | sleep | yield | nop | cgrowWait | cgrowTry | cshrink | featq | br | bany
      | ball | bnone | ifRegion | loop | brk | cont | call | exit | join | disarm | illegalMajor | instructionFetchFault =>
    simp [exec, execTrap, execTret, execTretNext, execSrd, execSwr, execCtrrd, execSleep, execYield, execNop, execCgrowWait,
      execCgrowTry, execCshrink, execFeatq, execBr, execBany, execBall, execBnone, execIfRegion, execLoop, execBrk, execCont,
      execCall, execExit, execJoin, execDisarm, execIllegalMajor, execInstructionFetchFault, h]
  | sadd | ssub | smul | smulh | sand | sor | sxor | snot | sshl | sshr | ssar | smin | smax | snmin | snmax | scmp | ssel
      | sldi | sldiHi | ldil | slane | spick =>
    simp [exec, execSadd, execSsub, execSmul, execSmulh, execSand, execSor, execSxor, execSnot, execSshl, execSshr, execSsar,
      execSmin, execSmax, execSnmin, execSnmax, execScmp, execSsel, execSldi, execSldiHi, execLdil, execSlane, execSpick, h]
  | iadd | isub | iadc | isbb | imul | imulh | imad | ineg | iabs | imin | imax | nmin | nmax | andv | orv | xorv | notv
      | andnv | shl | shr | sar | rot | bfx | bfi | popc | clz | brev | icmp | sel | pick | ldi | ldiHi | stash | unstash
      | kand | kor | kxor | kandn | knot | kmov | kset | kpop | kfirst =>
    simp [exec, execIadd, execIsub, execIadc, execIsbb, execImul, execImulh, execImad, execIneg, execIabs, execImin, execImax,
      execNmin, execNmax, execAndv, execOrv, execXorv, execNotv, execAndnv, execShl, execShr, execSar, execRot, execBfx,
      execBfi, execPopc, execClz, execBrev, execIcmp, execSel, execPick, execLdi, execLdiHi, execStash, execUnstash, execKand,
      execKor, execKxor, execKandn, execKnot, execKmov, execKset, execKpop, execKfirst, h]
  | fadd | fsub | fmul | ffma | ffms | fmin | fmax | fcmp | fclass | frnd | fdiv | frcp | frsq | fsqrt | fexp2 | flog2 | fsin
      | fcos | ftanh | fcvt | icvt | ficvt | hadd2 | hmul2 | hfma2 | sfadd | sfmul | sffma | sfcmp | dot4 | dot8 | fdot4
      | fdot8 | mac2 | pack | unpk | shrr | fscl | satclr | shfl | shflx | slide | bcastl | kbal =>
    simp [exec, execFadd, execFsub, execFmul, execFfma, execFfms, execFmin, execFmax, execFcmp, execFclass, execFrnd, execFdiv,
      execFrcp, execFrsq, execFsqrt, execFexp2, execFlog2, execFsin, execFcos, execFtanh, execFcvt, execIcvt, execFicvt,
      execHadd2, execHmul2, execHfma2, execSfadd, execSfmul, execSffma, execSfcmp, execDot4, execDot8, execFdot4, execFdot8,
      execMac2, execPack, execUnpk, execShrr, execFscl, execSatclr, execShfl, execShflx, execSlide, execBcastl, execKbal, h]
  | bset | bzero | bget | bdir | bnorm | btest | bscl | bneg | bmov | bdot | badd | bmix | bmatch | bld | bst =>
    simp [exec, execBset, execBzero, execBget, execBdir, execBnorm, execBtest, execBscl, execBneg, execBmov, execBdot,
      execBadd, execBmix, execBmatch, execBld, execBst, h]
  | ld | st | lds | sts | ldw | stw | pref | cwb | cinv | atomAdd | atomAnd | atomOr | atomXor | atomMin | atomMax | atomNmin
      | atomNmax | atomXchg | acas | afadd | axadd | lres | scnd | fence | fencex | barrierBlock | barrierGang | binit | barm
      | barrive | waitcLd | waitcEng | shset | cpy | cpyp | gthr | scat | collRed | collBcast | collGath | collAllred | mma
      | mmap | mmas | mmasp | accinit | anchor | accrd | accrdw | accadd =>
    simp [exec, execLd, execSt, execLds, execSts, execLdw, execStw, execPref, execCwb, execCinv, execAtomAdd, execAtomAnd,
      execAtomOr, execAtomXor, execAtomMin, execAtomMax, execAtomNmin, execAtomNmax, execAtomXchg, execAcas, execAfadd,
      execAxadd, execLres, execScnd, execFence, execFencex, execBarrierBlock, execBarrierGang, execBinit, execBarm,
      execBarrive, execWaitcLd, execWaitcEng, execShset, execCpy, execCpyp, execGthr, execScat, execCollRed, execCollBcast,
      execCollGath, execCollAllred, execMma, execMmap, execMmas, execMmasp, execAccinit, execAnchor, execAccrd, execAccrdw,
      execAccadd, h]
  | gate | gret | yieldb | ifs | elseArm | rejoin | endloop | calli | ret | red | scan | ldu | stu | lea | waitb | testb
      | shld | shst | cpys | accstat | node | ndep | nrel | fork | arm | launchq =>
    simp [exec, h]
  | _ => exact event_goesOn _ _ rfl

end

/-! ### The split that is granted a port (R65) -/

theorem Watch.focus_resident (w : Watch) (id : Nat) : (w.focus id).resident = w.resident := by
  unfold Watch.focus
  (repeat' split) <;> rfl

/-- A resident watch can be brought into focus by its name. -/
theorem State.focus_resident {s : State} {w : Watch} (hw : w ∈ s.watches) (id : Nat) : (s.focus w.ref id).ctx.resident = true := by
  obtain ⟨hmem, hres⟩ := State.mem_watches.1 hw
  unfold State.focus
  split
  · next hctx => exact (s.ctx.focus_resident id).trans hctx.1
  · next hctx =>
    have hothers : w ∈ s.others := hmem.resolve_left fun e => hctx (e ▸ ⟨hres, rfl⟩)
    split
    · next v hv =>
      have hvres := List.find?_some hv
      rw [Bool.and_eq_true] at hvres
      exact (v.focus_resident id).trans hvres.1
    · next hnone => simpa [hres] using List.find?_eq_none.1 hnone w hothers

theorem State.countHeld_resident (s : State) (core port : Nat) : (s.countHeld core port).ctx.resident = s.ctx.resident := by
  simp only [State.countHeld, State.mapWatches]
  split <;> rfl

theorem firstOf_mem {α : Type} {before : α → α → Bool} : ∀ {l : List α} {a : α}, firstOf before l = some a → a ∈ l
  | b :: l, a, h => by
    unfold firstOf at h
    split at h
    · exact List.mem_cons.2 (.inl (by simpa using h.symm))
    · next c hc =>
      split at h <;> obtain rfl := Option.some.inj h
      · exact List.mem_cons_of_mem _ (firstOf_mem hc)
      · exact List.mem_cons_self

theorem State.eligible_watch {s : State} {core port : Nat} {e : Watch × Split} (he : e ∈ s.eligible core port) : e.1 ∈ s.watches := by
  simp only [State.eligible, List.mem_flatten, List.mem_map, List.mem_filter] at he
  obtain ⟨_, ⟨w, hw, rfl⟩, he⟩ := he
  obtain ⟨p, _, rfl⟩ := List.mem_map.1 he
  exact hw.1

/-- What a port grants is the name of a resident watch's split. -/
theorem State.grant_watch {s : State} {core port : Nat} {g : WatchRef × Nat} (h : s.grant core port = some g) :
    ∃ w ∈ s.watches, w.ref = g.1 := by
  unfold State.grant at h
  dsimp only at h
  split at h
  · next t ht =>
    obtain rfl := Option.some.inj h
    have hany := List.find?_some ht
    rw [Bool.and_eq_true] at hany
    obtain ⟨e, he, heq⟩ := List.any_eq_true.1 hany.2
    exact ⟨e.1, State.eligible_watch he, by simpa using (Bool.and_eq_true_iff.1 heq).1⟩
  · obtain ⟨e, he, rfl⟩ := Option.map_eq_some_iff.1 h
    exact ⟨e.1, State.eligible_watch (firstOf_mem he), rfl⟩

theorem State.take_resident {s u : State} {core port : Nat} (h : s.take core port = some u) : u.ctx.resident = true := by
  obtain ⟨g, hg, rfl⟩ := Option.map_eq_some_iff.1 h
  obtain ⟨w, hw, hr⟩ := State.grant_watch hg
  rw [State.countHeld_resident, ← hr]
  exact State.focus_resident hw g.2

theorem State.takeSplit_resident {s u : State} {core port : Nat} {g : WatchRef × Nat} (h : s.takeSplit core port g = some u) :
    u.ctx.resident = true := by
  unfold State.takeSplit at h
  split at h
  · next hany =>
    obtain rfl := Option.some.inj h
    obtain ⟨e, he, heq⟩ := List.any_eq_true.1 hany
    have hr : e.1.ref = g.1 := by simpa using (Bool.and_eq_true_iff.1 heq).1
    rw [State.countHeld_resident, ← hr]
    exact State.focus_resident (State.eligible_watch he) g.2
  · cases h

theorem State.takeAny_resident {s u : State} (h : s.takeAny = some u) : u.ctx.resident = true := by
  obtain ⟨c, _, hc⟩ := List.exists_of_findSome?_eq_some h
  obtain ⟨p, _, hp⟩ := List.exists_of_findSome?_eq_some hc
  exact State.take_resident hp

/-! ### Steps -/

theorem issue_goesOn {s : State} (h : s.ctx.resident = true) : Out.goesOn (issue s) := by
  unfold issue
  split
  · exact mapOut_goesOn (exec_goesOn h _)
  · exact State.illField_goesOn h
  · exact exec_goesOn h _
  · exact ⟨_, rfl⟩

theorem issuePart_goesOn {s : State} (h : s.ctx.resident = true) (n : Nat) : Out.goesOn (issuePart s n) :=
  mapOut_goesOn (issue_goesOn (by exact h))

theorem issueIn_goesOn {s : State} (s0 : State) (h : s.ctx.resident = true) : Out.goesOn (issueIn s0 s) := by
  unfold issueIn
  split
  · exact Out.goesOn_ite (issue_goesOn h) (mapOut_goesOn (issue_goesOn (by exact h)))
  · exact issue_goesOn h

theorem runEvent_goesOn (i : Instr) (s : State) : Out.goesOn (runEvent i s) := by
  unfold runEvent
  split
  · next hi => exact event_goesOn i s hi
  · exact ⟨_, rfl⟩

theorem runAct_goesOn (s0 : State) (as : List Act) (a : Act) (s : State) : Out.goesOn (runAct s0 as a s) := by
  cases a with
  | event i => exact runEvent_goesOn i s
  | issue core port =>
    simp only [runAct]
    split
    · next u hu =>
      obtain ⟨g, _, hg⟩ := Option.bind_eq_some_iff.1 hu
      split at hg
      · cases hg
      · exact issueIn_goesOn s0 (State.takeSplit_resident hg)
    · exact ⟨_, rfl⟩

theorem runActs_goesOn (s0 : State) (bs : List Act) : ∀ (as : List Act) (s : State), Out.goesOn (runActs s0 bs as s)
  | [], _ => ⟨_, rfl⟩
  | a :: as, s => by
    obtain ⟨t, ht⟩ := runAct_goesOn s0 bs a s
    rw [runActs, ht]
    exact runActs_goesOn s0 bs as t

/-- The machine's own choice among its events is one that goes on. -/
theorem State.background_goesOn (s : State) : s.background.goesOn := by
  unfold State.background
  split
  · next f hf =>
    have hmoved := List.find?_some hf
    unfold State.movedBy at hmoved
    split at hmoved
    · next e => rw [e]; exact ⟨_, rfl⟩
    · cases hmoved
  · exact ⟨_, rfl⟩

theorem proceed_goesOn (s : State) : Out.goesOn (proceed s) := by
  unfold proceed
  split
  case h_1 => exact runEvent_goesOn _ _
  case h_2 =>
    split
    · next hu => exact issue_goesOn (State.take_resident hu)
    · exact ⟨_, rfl⟩
  case h_3 => exact runActs_goesOn _ _ _ _
  case h_4 =>
    split
    · next hu => exact issuePart_goesOn (State.take_resident hu) _
    · exact ⟨_, rfl⟩
  case h_5 => exact mapOut_goesOn (runEvent_goesOn _ _)
  case h_6 => exact mapOut_goesOn (runEvent_goesOn _ _)
  case h_11 => exact runActs_goesOn _ _ _ _
  case h_13 =>
    cases hu : s.begin.takeAny with
    | some u => exact issue_goesOn (State.takeAny_resident hu)
    | none => exact s.begin.enterAll.background_goesOn
  all_goals exact ⟨_, rfl⟩

/-- Settles O5: with a watch in focus every meaning goes on (`exec_goesOn`); what issues in a step is a resident watch's split
(`State.take_resident`), and an event asks for no watch (`event_goesOn`). -/
theorem nothingStops : Obligations.NothingStops :=
  ⟨fun i _ h => exec_goesOn h i, fun s => mapOut_goesOn (proceed_goesOn s)⟩

end Sys2Proof.Machine

namespace Sys2Proof.Machine

/-! ### The values of the codes of a format (R122 to R126) -/

/-- The value of a magnitude code, on the grid that the format would have with no largest exponent. -/
def FFmt.magVal (f : FFmt) (mag : Nat) : ℚ :=
  (mag - (mag / 2 ^ (f.prec - 1) - 1) * 2 ^ (f.prec - 1) : Nat) * (2 : ℚ) ^ (f.qmin + (mag / 2 ^ (f.prec - 1) - 1 : Nat))

/-- Code k * 2^(prec - 1) + a is a steps of 2^(qmin + k), up to and with the first code of the next binade. -/
theorem FFmt.magVal_grid (f : FFmt) {k a : Nat} (hk : k = 0 ∨ 2 ^ (f.prec - 1) ≤ a) (ha : a ≤ 2 * 2 ^ (f.prec - 1)) :
    f.magVal (k * 2 ^ (f.prec - 1) + a) = a * (2 : ℚ) ^ (f.qmin + k) := by
  have hpos : 0 < 2 ^ (f.prec - 1) := by positivity
  unfold FFmt.magVal
  generalize 2 ^ (f.prec - 1) = p at *
  rcases Nat.lt_or_ge a p with hp | hp
  · obtain rfl : k = 0 := by omega
    simp [Nat.div_eq_of_lt hp]
  · obtain hlt | rfl : a < 2 * p ∨ a = 2 * p := by omega
    · have hd : (k * p + a) / p = k + 1 := by
        rw [Nat.mul_comm, Nat.mul_add_div hpos, Nat.div_eq_of_lt_le (k := 1) (by omega) (by omega)]
      rw [hd, Nat.add_sub_cancel, Nat.add_sub_cancel_left]
    · have hd : (k * p + 2 * p) / p = k + 2 := by rw [← Nat.add_mul, Nat.mul_div_cancel _ hpos]
      have hs : k * p + 2 * p - (k + 2 - 1) * p = p := by
        rw [← Nat.add_mul, ← Nat.sub_mul, show k + 2 - (k + 2 - 1) = 1 by omega, Nat.one_mul]
      rw [hd, hs, show f.qmin + ((k + 2 - 1 : Nat) : Int) = f.qmin + k + 1 by omega, zpow_add_one₀ two_ne_zero]
      push_cast
      ring

theorem FFmt.magVal_succ (f : FFmt) (mag : Nat) :
    f.magVal (mag + 1) = f.magVal mag + (2 : ℚ) ^ (f.qmin + (mag / 2 ^ (f.prec - 1) - 1 : Nat)) := by
  have hpos : 0 < 2 ^ (f.prec - 1) := by positivity
  have hdiv := Nat.div_add_mod mag (2 ^ (f.prec - 1))
  have hmod := Nat.mod_lt mag hpos
  generalize hk : mag / 2 ^ (f.prec - 1) - 1 = k
  obtain ⟨a, ha, hlo, hhi⟩ : ∃ a, mag = k * 2 ^ (f.prec - 1) + a ∧ (k = 0 ∨ 2 ^ (f.prec - 1) ≤ a) ∧ a < 2 * 2 ^ (f.prec - 1) := by
    generalize 2 ^ (f.prec - 1) = p at *
    obtain h0 | ⟨d, hd⟩ : mag / p = 0 ∨ ∃ d, mag / p = d + 1 := by cases mag / p <;> simp
    · exact ⟨mag, by simp [← hk, h0], .inl (by omega), by rw [h0] at hdiv; omega⟩
    · obtain rfl : k = d := by omega
      refine ⟨p + mag % p, ?_, .inr (by omega), by omega⟩
      rw [hd, Nat.mul_comm, Nat.add_mul] at hdiv
      omega
  have hne : 2 ^ (f.prec - 1) ≤ a → 2 ^ (f.prec - 1) ≤ a + 1 := by omega
  rw [ha, Nat.add_assoc, f.magVal_grid (hlo.imp_right hne) (by omega), f.magVal_grid hlo (by omega)]
  push_cast
  ring

theorem FFmt.magVal_strictMono (f : FFmt) : StrictMono f.magVal :=
  strictMono_nat_of_lt_succ fun n => by
    rw [f.magVal_succ]
    exact lt_add_of_pos_right _ (by positivity)

theorem FFmt.magVal_zero (f : FFmt) : f.magVal 0 = 0 := by simp [FFmt.magVal]

/-- A code that stands for a number has a magnitude code up to the largest, whose value it has, and its sign bit. -/
theorem FFmt.decode_num {f : FFmt} {code : Nat} {n : Bool} {m : Nat} {e : Int} (h : f.decode code = .num n m e) :
    (m : ℚ) * 2 ^ e = f.magVal (code % 2 ^ (f.bits - 1)) ∧ code % 2 ^ (f.bits - 1) ≤ f.maxCode ∧
      n = decide (1 ≤ code / 2 ^ (f.bits - 1) % 2) := by
  unfold FFmt.decode at h
  dsimp only at h
  have hpos : 0 < 2 ^ (f.prec - 1) := by positivity
  have hlt : code % 2 ^ (f.bits - 1) < 2 ^ (f.bits - 1) := Nat.mod_lt _ (by positivity)
  generalize code % 2 ^ (f.bits - 1) = mag at *
  split at h
  · split at h <;> cases h
  next hfin =>
  have hmax : mag ≤ f.maxCode := by
    unfold FFmt.maxCode FFmt.allOnes
    split <;> simp_all <;> omega
  split at h
  · cases h
  split at h
  · next hef =>
    cases h
    refine ⟨?_, hmax, rfl⟩
    have hm : mag % 2 ^ (f.prec - 1) = mag := Nat.mod_eq_of_lt ((Nat.div_eq_zero_iff_lt hpos).1 hef)
    simp [FFmt.magVal, hef, hm]
  · next hef =>
    cases h
    refine ⟨?_, hmax, rfl⟩
    have hdiv := Nat.div_add_mod mag (2 ^ (f.prec - 1))
    have hm : mag - (mag / 2 ^ (f.prec - 1) - 1) * 2 ^ (f.prec - 1) = 2 ^ (f.prec - 1) + mag % 2 ^ (f.prec - 1) := by
      rw [Nat.sub_mul, Nat.one_mul, Nat.mul_comm]
      have := Nat.le_mul_of_pos_right (2 ^ (f.prec - 1)) (Nat.pos_of_ne_zero hef)
      omega
    rw [FFmt.magVal, hm]

/-! ### Rounding (R44, R128) -/

end Sys2Proof.Machine

namespace Sys2Proof

/-- Mode r leaves a magnitude x, between the neighbours lo and hi, at lo. -/
def Rnd.keeps (r : Rnd) (neg : Bool) (x lo hi : ℚ) : Prop :=
  match r with
  | .ne => x - lo ≤ hi - x
  | .tz => True
  | .dn => neg = true → x = lo
  | .up => neg = false → x = lo

/-- Mode r takes it to hi. -/
def Rnd.lifts (r : Rnd) (neg : Bool) (x lo hi : ℚ) : Prop :=
  match r with
  | .ne => hi - x ≤ x - lo
  | .tz => False
  | .dn => neg = true ∧ lo < x
  | .up => neg = false ∧ lo < x

/-- Whether a directed mode takes a number of this sign away from zero. -/
def Rnd.away (r : Rnd) (neg : Bool) : Bool :=
  match r with
  | .dn => neg
  | .up => !neg
  | _ => false

/-- Among magnitudes, y is at least as good a result for x as z: to nearest no farther, and otherwise on the mode's side of x and
no farther on it. -/
def Rnd.best (r : Rnd) (neg : Bool) (x y z : ℚ) : Prop :=
  if r = .ne then |y - x| ≤ |z - x|
  else if r.away neg then x ≤ y ∧ (x ≤ z → y ≤ z) else y ≤ x ∧ (z ≤ x → z ≤ y)

/-- The lower neighbour, where the mode keeps to it, is the best of the numbers outside the gap. -/
theorem Rnd.best_of_keeps {r : Rnd} {neg : Bool} {x lo hi z : ℚ} (h : r.keeps neg x lo hi) (hlo : lo ≤ x) (hhi : x < hi)
    (hz : z ≤ lo ∨ hi ≤ z) : r.best neg x lo z := by
  have haway : r.away neg = true → x = lo := by cases r <;> simp_all [Rnd.keeps, Rnd.away]
  unfold Rnd.best
  split
  · next hr =>
    subst hr
    have h : x - lo ≤ hi - x := h
    rw [abs_sub_comm, abs_of_nonneg (by linarith : 0 ≤ x - lo), le_abs]
    exact hz.elim (fun hz => .inr (by linarith)) fun hz => .inl (by linarith)
  split
  · next ha =>
    obtain rfl := haway ha
    exact ⟨le_rfl, id⟩
  · exact ⟨hlo, fun hzx => hz.elim id fun hz => by linarith⟩

/-- The upper neighbour, where the mode lifts to it, is the best of the numbers outside the gap. -/
theorem Rnd.best_of_lifts {r : Rnd} {neg : Bool} {x lo hi z : ℚ} (h : r.lifts neg x lo hi) (hhi : x < hi)
    (hz : z ≤ lo ∨ hi ≤ z) : r.best neg x hi z := by
  have haway : r ≠ .ne → r.away neg = true ∧ lo < x := by cases r <;> simp_all [Rnd.lifts, Rnd.away]
  unfold Rnd.best
  split
  · next hr =>
    subst hr
    have h : hi - x ≤ x - lo := h
    rw [abs_of_nonneg (by linarith : 0 ≤ hi - x), le_abs]
    exact hz.elim (fun hz => .inr (by linarith)) fun hz => .inl (by linarith)
  · next hr =>
    obtain ⟨ha, hlt⟩ := haway hr
    rw [if_pos ha]
    exact ⟨hhi.le, fun hxz => hz.elim (fun hz => by linarith) id⟩

/-- The largest of some numbers is the best of them for an x above it, where the mode does not take x away from zero. -/
theorem Rnd.best_of_largest {r : Rnd} {neg : Bool} {x y z : ℚ} (ha : r.away neg = false) (hx : y ≤ x) (hz : z ≤ y) :
    r.best neg x y z := by
  unfold Rnd.best
  split
  · rw [abs_sub_comm, abs_of_nonneg (by linarith : 0 ≤ x - y), le_abs]
    exact .inr (by linarith)
  · rw [if_neg (by simp [ha])]
    exact ⟨hx, fun _ => hz⟩

/-- A number of a sign and a magnitude. -/
def signedVal (n : Bool) (x : ℚ) : ℚ := (if n then -1 else 1) * x

/-- What is best among magnitudes is so among numbers of either sign. -/
theorem Rnd.best_signed {r : Rnd} {n k : Bool} {x y z : ℚ} (h : r.best n x y z) (hx : 0 ≤ x) (hy : 0 ≤ y) (hz : 0 ≤ z) :
    (r = .ne → |signedVal n y - signedVal n x| ≤ |signedVal k z - signedVal n x|) ∧
    (r = .tz → |signedVal n y| ≤ |signedVal n x| ∧ (|signedVal k z| ≤ |signedVal n x| → |signedVal k z| ≤ |signedVal n y|)) ∧
    (r = .up → signedVal n x ≤ signedVal n y ∧ (signedVal n x ≤ signedVal k z → signedVal n y ≤ signedVal k z)) ∧
    (r = .dn → signedVal n y ≤ signedVal n x ∧ (signedVal k z ≤ signedVal n x → signedVal k z ≤ signedVal n y)) := by
  have habs : ∀ (b : Bool) (v : ℚ), 0 ≤ v → |signedVal b v| = v := fun b v hv => by cases b <;> simp [signedVal, abs_of_nonneg hv]
  refine ⟨?_, ?_, ?_, ?_⟩ <;> rintro rfl
  · have h : |y - x| ≤ |z - x| := h
    calc |signedVal n y - signedVal n x| = |y - x| := by cases n <;> simp [signedVal, abs_sub_comm, ← sub_eq_neg_add]
      _ ≤ |z - x| := h
      _ = |(|signedVal k z| - |signedVal n x|)| := by rw [habs k z hz, habs n x hx]
      _ ≤ |signedVal k z - signedVal n x| := abs_abs_sub_abs_le _ _
  · rw [habs n y hy, habs n x hx, habs k z hz]
    exact h
  · cases n <;> cases k <;> simp [Rnd.best, Rnd.away, signedVal] at h ⊢
    case false.false | true.true => exact h
    case false.true => exact ⟨h.1, fun hxz => by linarith [h.2 (by linarith)]⟩
    case true.false => exact ⟨h.1, fun _ => by linarith⟩
  · cases n <;> cases k <;> simp [Rnd.best, Rnd.away, signedVal] at h ⊢
    case false.false | true.true => exact h
    case false.true => exact ⟨h.1, fun _ => by linarith⟩
    case true.false => exact ⟨h.1, fun hxz => by linarith [h.2 (by linarith)]⟩

end Sys2Proof

namespace Sys2Proof.Machine

/-- A number rounded to a multiple of 2^q is one of the two next to it, as the mode says. -/
theorem roundAt_bracket (r : Rnd) (neg : Bool) (m : Nat) (e q : Int) :
    ∃ a : Nat, (a : ℚ) * 2 ^ q ≤ m * 2 ^ e ∧ (m : ℚ) * 2 ^ e < (a + 1 : Nat) * 2 ^ q ∧
      (roundAt r neg m e q = a ∧ r.keeps neg (m * 2 ^ e) (a * 2 ^ q) ((a + 1 : Nat) * 2 ^ q) ∨
       roundAt r neg m e q = a + 1 ∧ r.lifts neg (m * 2 ^ e) (a * 2 ^ q) ((a + 1 : Nat) * 2 ^ q)) := by
  have hq : (0 : ℚ) < 2 ^ q := by positivity
  unfold roundAt
  split
  · next hle =>
    have hx : ((m * 2 ^ (e - q).toNat : Nat) : ℚ) * 2 ^ q = m * 2 ^ e := by
      rw [Nat.cast_mul, Nat.cast_pow, mul_assoc, ← zpow_natCast, Nat.cast_ofNat, ← zpow_add₀ two_ne_zero]
      congr 2
      omega
    refine ⟨m * 2 ^ (e - q).toNat, hx.le, ?_, .inl ⟨rfl, ?_⟩⟩
    · rw [← hx, Nat.cast_succ]
      linarith
    · rw [hx, Nat.cast_succ, add_mul, hx]
      cases r
      case ne => simp [Rnd.keeps, hq.le]
      all_goals simp [Rnd.keeps]
  · next hlt =>
    have he : (0 : ℚ) < 2 ^ e := by positivity
    have hu : (2 : ℚ) ^ q = (2 ^ (q - e).toNat : Nat) * 2 ^ e := by
      rw [Nat.cast_pow, ← zpow_natCast, Nat.cast_ofNat, ← zpow_add₀ two_ne_zero]
      congr 1
      omega
    have hpos : 0 < 2 ^ (q - e).toNat := by positivity
    dsimp only
    rw [hu]
    generalize 2 ^ (q - e).toNat = u at *
    have hdiv : u * (m / u) + m % u = m := Nat.div_add_mod m u
    have hmod : m % u < u := Nat.mod_lt m hpos
    have hx : (m : ℚ) * 2 ^ e = (m / u : Nat) * (u * 2 ^ e) + (m % u : Nat) * 2 ^ e := by
      rw [← mul_assoc, ← add_mul, mul_comm ((m / u : Nat) : ℚ), ← Nat.cast_mul, ← Nat.cast_add, hdiv]
    have hrem : ((m % u : Nat) : ℚ) * 2 ^ e < u * 2 ^ e := by gcongr
    have hrem0 : (0 : ℚ) ≤ (m % u : Nat) * 2 ^ e := by positivity
    refine ⟨m / u, by rw [hx]; linarith, by rw [hx, Nat.cast_succ]; linarith, ?_⟩
    have hdown : (m : ℚ) * 2 ^ e - (m / u : Nat) * (u * 2 ^ e) = (m % u : Nat) * 2 ^ e := by rw [hx]; ring
    have hup : (m / u + 1 : Nat) * ((u : ℚ) * 2 ^ e) - m * 2 ^ e = u * 2 ^ e - (m % u : Nat) * 2 ^ e := by
      rw [hx, Nat.cast_succ]
      ring
    have hhalf : (2 * (m % u) ≤ u → (m % u : Nat) * (2 : ℚ) ^ e ≤ u * 2 ^ e - (m % u : Nat) * 2 ^ e) ∧
        (u ≤ 2 * (m % u) → u * (2 : ℚ) ^ e - (m % u : Nat) * 2 ^ e ≤ (m % u : Nat) * 2 ^ e) := by
      constructor <;> intro h <;> have hc := mul_le_mul_of_nonneg_right (Nat.cast_le (α := ℚ).2 h) he.le <;> push_cast at hc <;>
        linarith
    have hzero : m % u ≠ 0 → (0 : ℚ) < (m % u : Nat) * 2 ^ e := fun h =>
      mul_pos (Nat.cast_pos.2 (Nat.pos_of_ne_zero h)) he
    by_cases hr : roundsUp r neg (m / u) (m % u) u = true
    · rw [if_pos hr]
      refine .inr ⟨rfl, ?_⟩
      cases r with
      | ne =>
        simp only [roundsUp, Bool.or_eq_true, decide_eq_true_eq, Bool.and_eq_true, beq_iff_eq] at hr
        simpa only [Rnd.lifts, hup, hdown] using hhalf.2 (by omega)
      | tz => cases hr
      | dn | up =>
        simp only [roundsUp, Bool.and_eq_true, Bool.not_eq_true', bne_iff_ne] at hr
        exact ⟨hr.1, by linarith [hzero hr.2]⟩
    · rw [if_neg hr]
      refine .inl ⟨rfl, ?_⟩
      cases r with
      | ne =>
        simp only [roundsUp, Bool.or_eq_true, decide_eq_true_eq, Bool.and_eq_true, beq_iff_eq] at hr
        simpa only [Rnd.keeps, hup, hdown] using hhalf.1 (by omega)
      | tz => exact trivial
      | dn | up =>
        simp only [roundsUp, Bool.and_eq_true, Bool.not_eq_true', bne_iff_ne, not_and, not_not] at hr
        intro hn
        simpa [hr hn, sub_eq_zero] using hdown

theorem magnitude_lt (m : Nat) (e : Int) : (m : ℚ) * 2 ^ e < 2 ^ ((Nat.log2 m : Int) + 1 + e) := by
  rw [zpow_add₀ two_ne_zero, ← Nat.cast_succ, zpow_natCast]
  have : (m : ℚ) < 2 ^ (Nat.log2 m + 1) := by exact_mod_cast Nat.lt_log2_self
  gcongr

theorem le_magnitude {m : Nat} (hm : 0 < m) (e : Int) : (2 : ℚ) ^ ((Nat.log2 m : Int) + e) ≤ m * 2 ^ e := by
  rw [zpow_add₀ two_ne_zero, zpow_natCast]
  have : (2 : ℚ) ^ Nat.log2 m ≤ m := by exact_mod_cast Nat.log2_self_le hm.ne'
  gcongr

/-- A magnitude is rounded to one of the two codes next to it, as the mode says. -/
theorem FFmt.magnitude_bracket (f : FFmt) (hp : 0 < f.prec) (r : Rnd) (neg : Bool) (m : Nat) (e : Int) :
    ∃ lo : Nat, f.magVal lo ≤ m * 2 ^ e ∧ (m : ℚ) * 2 ^ e < f.magVal (lo + 1) ∧
      (f.magnitude r neg m e = lo ∧ r.keeps neg (m * 2 ^ e) (f.magVal lo) (f.magVal (lo + 1)) ∨
       f.magnitude r neg m e = lo + 1 ∧ r.lifts neg (m * 2 ^ e) (f.magVal lo) (f.magVal (lo + 1))) := by
  have hmono := f.magVal_strictMono Nat.zero_lt_one
  rw [f.magVal_zero] at hmono
  obtain rfl | hm := Nat.eq_zero_or_pos m
  · refine ⟨0, by simp [f.magVal_zero], by simpa using hmono, .inl ⟨rfl, ?_⟩⟩
    cases r <;> simp [Rnd.keeps, f.magVal_zero, hmono.le]
  unfold FFmt.magnitude
  rw [if_neg hm.ne']
  dsimp only
  generalize hq : max ((Nat.log2 m : Nat) + e) f.emin - (f.prec - 1 : Nat) = q
  have hqmin : f.qmin ≤ q := by unfold FFmt.qmin; omega
  obtain ⟨k, hk⟩ : ∃ k : Nat, q = f.qmin + k := ⟨(q - f.qmin).toNat, by omega⟩
  have hkq : (q - f.qmin).toNat = k := by omega
  obtain ⟨a, hlo, hhi, hround⟩ := roundAt_bracket r neg m e q
  have hpow : ∀ x : Nat, ((2 ^ x : Nat) : ℚ) * 2 ^ q = 2 ^ ((x : Int) + q) := fun x => by
    rw [Nat.cast_pow, ← zpow_natCast, Nat.cast_ofNat, ← zpow_add₀ two_ne_zero]
  have hq2 : (0 : ℚ) < 2 ^ q := by positivity
  have ha : a < 2 ^ f.prec := by
    have hbinade : (m : ℚ) * 2 ^ e < (2 ^ f.prec : Nat) * 2 ^ q := by
      refine (magnitude_lt m e).trans_le ((hpow _).symm ▸ zpow_le_zpow_right₀ one_le_two ?_)
      omega
    exact Nat.cast_lt.1 (lt_of_mul_lt_mul_right (hlo.trans_lt hbinade) hq2.le)
  have hka : k = 0 ∨ 2 ^ (f.prec - 1) ≤ a := by
    refine or_iff_not_imp_left.2 fun hk0 => ?_
    have hnormal : ((2 ^ (f.prec - 1) : Nat) : ℚ) * 2 ^ q ≤ m * 2 ^ e := by
      refine le_trans ((hpow _).symm ▸ zpow_le_zpow_right₀ one_le_two ?_) (le_magnitude hm e)
      unfold FFmt.qmin at hk
      omega
    exact Nat.lt_succ_iff.1 (Nat.cast_lt.1 (lt_of_mul_lt_mul_right (hnormal.trans_lt hhi) hq2.le))
  have htwo : 2 ^ f.prec = 2 * 2 ^ (f.prec - 1) := by rw [← Nat.pow_succ', Nat.succ_eq_add_one, Nat.sub_add_cancel hp]
  have hval : f.magVal (k * 2 ^ (f.prec - 1) + a) = a * 2 ^ q := by rw [f.magVal_grid hka (by omega), hk]
  have hval1 : f.magVal (k * 2 ^ (f.prec - 1) + a + 1) = (a + 1 : Nat) * 2 ^ q := by
    rw [Nat.add_assoc, f.magVal_grid (hka.imp_right (by omega)) (by omega), hk]
  refine ⟨k * 2 ^ (f.prec - 1) + a, hval ▸ hlo, hval1 ▸ hhi, ?_⟩
  rw [hkq, hval, hval1]
  exact hround.imp (fun h => ⟨by rw [h.1], h.2⟩) fun h => ⟨by rw [h.1, Nat.add_assoc], h.2⟩

/-- What a number rounds to (R128): the code of its rounded magnitude, with no sign where the format has no zero of it, or, beyond
the largest number, that number or an infinity. -/
theorem FFmt.round_num (f : FFmt) (hinf : 0 < f.infCode) {r : Rnd} {n : Bool} {m : Nat} {e : Int} (hr : f.ieee = true ∨ r = .ne) :
    (f.magnitude r n m e ≤ f.maxCode ∧
      ((f.round r (.num n m e)).1 = f.signed n (f.magnitude r n m e) ∨
        f.magnitude r n m e = 0 ∧ (f.round r (.num n m e)).1 = 0)) ∨
    (f.maxCode < f.magnitude r n m e ∧ r.away n = false ∧ (f.round r (.num n m e)).1 = f.signed n f.maxCode) ∨
    (f.ieee = true ∧ (f.round r (.num n m e)).1 = f.signed n f.infCode) := by
  cases hf : f.ieee with
  | true =>
    have hmax : f.maxCode = f.infCode - 1 := by simp [FFmt.maxCode, hf]
    simp only [FFmt.round, hf, if_true, hmax]
    by_cases hlt : f.magnitude r n m e < f.infCode
    · simp only [hlt, if_true]
      exact .inl ⟨by omega, .inl trivial⟩
    · simp only [hlt, if_false]
      have hover : f.infCode - 1 < f.magnitude r n m e := by omega
      cases r <;> cases n <;> simp [Rnd.away, hover]
  | false =>
    obtain rfl : r = .ne := by simpa [hf] using hr
    simp only [FFmt.round, hf, Bool.false_eq_true, if_false]
    by_cases hover : f.maxCode < f.magnitude .ne n m e
    · exact .inr (.inl ⟨hover, rfl, by rw [if_pos hover]⟩)
    · rw [if_neg hover]
      refine .inl ⟨Nat.not_lt.1 hover, ?_⟩
      by_cases h0 : f.magnitude .ne n m e = 0
      · exact .inr ⟨h0, by rw [if_pos h0]⟩
      · exact .inl (by rw [if_neg h0])

theorem FFmt.signed_mod (f : FFmt) (n : Bool) {mag : Nat} (h : mag < 2 ^ (f.bits - 1)) : f.signed n mag % 2 ^ (f.bits - 1) = mag := by
  cases n <;> simp [FFmt.signed, Nat.mod_eq_of_lt h]

theorem FFmt.signed_div (f : FFmt) (n : Bool) {mag : Nat} (h : mag < 2 ^ (f.bits - 1)) :
    decide (1 ≤ f.signed n mag / 2 ^ (f.bits - 1) % 2) = n := by
  have hpos : 0 < 2 ^ (f.bits - 1) := by positivity
  cases n <;> simp [FFmt.signed, Nat.div_eq_of_lt h, Nat.add_div_left _ hpos]

/-- A finite result is the best of all numbers of the format. -/
theorem FFmt.round_best (f : FFmt) (hp : 0 < f.prec) (hb : f.prec < f.bits) {r : Rnd} {n k : Bool} {m j : Nat} {e q : Int}
    (hr : f.ieee = true ∨ r = .ne) (h : f.decode (f.round r (.num n m e)).1 = .num k j q) :
    (k = n ∨ (j : ℚ) * 2 ^ q = 0) ∧ ∀ mag ≤ f.maxCode, r.best n (m * 2 ^ e) (j * 2 ^ q) (f.magVal mag) := by
  have hinf : 0 < f.infCode ∧ f.infCode < 2 ^ (f.bits - 1) := by
    have hlt : 2 ^ (f.prec - 1) < 2 ^ (f.bits - 1) := Nat.pow_lt_pow_right (by omega) (by omega)
    have hpos : 0 < 2 ^ (f.prec - 1) := by positivity
    unfold FFmt.infCode
    omega
  have hmax : f.maxCode < 2 ^ (f.bits - 1) := by
    have hpos : 0 < 2 ^ (f.bits - 1) := by positivity
    unfold FFmt.maxCode FFmt.allOnes
    split <;> omega
  obtain ⟨hval, hle, hsign⟩ := FFmt.decode_num h
  obtain ⟨lo, hlo, hhi, hround⟩ := f.magnitude_bracket hp r n m e
  have hgap : ∀ mag, f.magVal mag ≤ f.magVal lo ∨ f.magVal (lo + 1) ≤ f.magVal mag := fun mag => by
    rw [f.magVal_strictMono.le_iff_le, f.magVal_strictMono.le_iff_le]
    omega
  rw [hval]
  obtain ⟨hfin, hcode⟩ | ⟨hover, haway, hcode⟩ | ⟨hieee, hcode⟩ := f.round_num hinf.1 (n := n) (m := m) (e := e) hr
  · have hmag : f.magVal ((f.round r (.num n m e)).1 % 2 ^ (f.bits - 1)) = f.magVal (f.magnitude r n m e) := by
      obtain hcode | ⟨h0, hcode⟩ := hcode
      · rw [hcode, f.signed_mod n (hfin.trans_lt hmax)]
      · rw [hcode, h0, Nat.zero_mod]
    refine ⟨?_, fun mag hm => ?_⟩
    · obtain hcode | ⟨h0, -⟩ := hcode
      · exact .inl (by rw [hsign, hcode, f.signed_div n (hfin.trans_lt hmax)])
      · exact .inr (by rw [hmag, h0, f.magVal_zero])
    · rw [hmag]
      obtain ⟨heq, hk⟩ | ⟨heq, hl⟩ := hround
      · exact heq ▸ Rnd.best_of_keeps hk hlo hhi (hgap mag)
      · exact heq ▸ Rnd.best_of_lifts hl hhi (hgap mag)
  · rw [hcode, f.signed_mod n hmax]
    have hlast : f.maxCode ≤ lo := by
      obtain ⟨heq, -⟩ | ⟨heq, -⟩ := hround <;> omega
    refine ⟨.inl (by rw [hsign, hcode, f.signed_div n hmax]), fun mag hm => Rnd.best_of_largest haway ?_ ?_⟩
    · exact (f.magVal_strictMono.monotone hlast).trans hlo
    · exact f.magVal_strictMono.monotone hm
  · rw [hcode, f.signed_mod n hinf.2] at hle
    simp only [FFmt.maxCode, hieee, if_true] at hle
    omega

theorem Ty.ffmt_sizes (t : Ty) : 0 < t.ffmt.prec ∧ t.ffmt.prec < t.ffmt.bits := by cases t <;> decide

/-- Settles O30: a code's value is that of its magnitude code with its sign (`FFmt.decode_num`), and the rounded magnitude code is the
best of all (`FFmt.round_best`, from `FFmt.magnitude_bracket`), which carries over to signed numbers (`Rnd.best_signed`). -/
theorem floatRounding : Obligations.FloatRounding := by
  unfold Obligations.FloatRounding
  intro val t r n k m j e q _ hr h code k' j' q' hz
  obtain ⟨hp, hb⟩ := Ty.ffmt_sizes t
  obtain ⟨hsign, hbest⟩ := t.ffmt.round_best hp hb hr h
  obtain ⟨hzval, hzle, -⟩ := FFmt.decode_num hz
  have hb := hbest _ hzle
  rw [← hzval] at hb
  have hv : ∀ (n : Bool) (m : Nat) (e : Int), val n m e = signedVal n (m * 2 ^ e) := fun n m e => mul_assoc _ _ _
  have hy : val k j q = signedVal n (j * 2 ^ q) := by
    rw [hv]
    obtain rfl | h0 := hsign
    · rfl
    · simp [signedVal, h0]
  dsimp only
  rw [hy, hv, hv]
  exact Rnd.best_signed hb (by positivity) (by positivity) (by positivity)

end Sys2Proof.Machine

namespace Sys2Proof.Machine

/-! ### Values that arrive for a watch whose wakes are too long (R342, R348)

Statement O33 asks for the bytes of every pending entry of a saved watch, but not that its rings have the 32 entries of R30. Entry
32 of one lane has the place of entry 0 of the next lane, so that a watch with both asks for two values of one byte.
-/

/-- A saved watch with one load on its way: entry 32 of lane 0 and entry 0 of lane 1 wait for it. -/
def longWakes : Watch :=
  { Watch.empty with
    flights := [{ id := 7, unit := .load, path := .host, bear := none }]
    lanes := [{ Lane.empty with wake := { VWake.empty with ring := List.replicate 32 .void ++ [.pend 1 7] } },
      { Lane.empty with wake := { VWake.empty with ring := [.pend 2 7] } }] }

/-- The launch of its gang. -/
def longWakesLaunch : Launch :=
  { id := 0, dom := 0, node := none, succ := [], home := 0, prio := 8, seq := 0, readyAt := 0, phase := .running, handed := 1,
    batches := [], faulted := false, payload := none, parent := none, vouch := [], reset := false
    recd :=
      { va := 0, gangs := 1, blocks := 1, watches := 1, ewidth := 64, cls := 1, prio := 8, caddy := 0, sprows := 0, spill := 0,
        accrows := 0, code := 0, entry := 0, traph := 0, argptr := 0, argsize := 0, segs := [], signal := 0, cntbuf := 0,
        pilot := none, replay := false, notify := false, rejoinAt := 0, rejoinN := 0 } }

/-- Its gang, with an image in one stretch of memory. -/
def longWakesGang : Gang :=
  { launch := 0, idx := 0, phase := .saved, places := [], join := 0, bgen := [0], ggen := 0, jgen := 0, staging := [], tids := [],
    seq := 0, back := 0, image := [(0, 65536)], watches := [longWakes] }

def longWakesState : State := { State.reset with gangs := [longWakesGang], launches := [longWakesLaunch] }

theorem keyIn_one {o n a : Nat} (h : keyIn o [(0, n)] = some a) : a = o := by
  unfold keyIn at h
  split at h
  · simpa using h.symm
  · cases h

theorem longWakesState_isZp (a : Nat) : longWakesState.isZp a = false := by
  simp [State.isZp, State.idtOf, longWakesState, State.reset]

/-- The place of entry 32 of lane 0 is that of entry 0 of lane 1: byte 6,400 + 2,048 + 128 of the image. -/
theorem longWakes_place :
    keyIn (longWakesLaunch.recd.imageAt [longWakes] ⟨0, 0, 0, 0⟩ + (2048 + 128 * 0 + 4 * 32) + 0) [(0, 65536)] = some 8576 ∧
    keyIn (longWakesLaunch.recd.imageAt [longWakes] ⟨0, 0, 0, 0⟩ + (2048 + 128 * 1 + 4 * 0) + 0) [(0, 65536)] = some 8576 := by
  decide +kernel

/-- Refutes O33: the clause on the bytes of an image does not hold of a watch with a wake of 33 entries (`longWakes`): byte 8,576 of
its image would have to be 1, for entry 32 of lane 0, and 2, for entry 0 of lane 1. -/
theorem not_unitOperations : ¬ Obligations.UnitOperations := by
  rintro ⟨⟨-, -, himage⟩, -⟩
  obtain ⟨t, -, hbytes, -⟩ := himage longWakesState ⟨0, 0, 0, 0⟩ 7 longWakes
    { id := 7, unit := .load, path := .host, bear := none } longWakesGang longWakesLaunch (by rfl) (by rfl) (by decide) (by rfl)
    (by decide) rfl rfl (by decide) (fun o o' a h h' => (keyIn_one h).symm.trans (keyIn_one h'))
    (fun _ a _ => longWakesState_isZp a)
  have h1 : t.byte 8576 = 1 := hbytes 0 (by decide) 32 1 rfl 0 (by decide) 8576 longWakes_place.1
  have h2 : t.byte 8576 = 2 := hbytes 1 (by decide) 0 2 rfl 0 (by decide) 8576 longWakes_place.2
  exact absurd (h1.symm.trans h2) (by decide)

end Sys2Proof.Machine

namespace Sys2Proof.Machine

/-!
O7. Every operation on a watch keeps the sizes of `Watch.sound`: one lemma for each operation, from the wakes, records and frames up
to the watch. A watch's lists change by `mapFrom`, `setAt`, `modAt` and `map`, which keep lengths, or come from a frame that
`Frame.sound` speaks of.
-/

/-! ### Lists -/

theorem forall_mem_mapFrom {α β : Type} {P : α → Prop} {Q : β → Prop} {f : Nat → α → β} {l : List α} (hl : ∀ a ∈ l, P a)
    (hf : ∀ i a, P a → Q (f i a)) (n : Nat) : ∀ b ∈ mapFrom f n l, Q b := by
  induction l generalizing n with
  | nil => exact fun b hb => absurd hb List.not_mem_nil
  | cons a l ih =>
    intro b hb
    obtain rfl | hb := List.mem_cons.1 hb
    · exact hf n a (hl a List.mem_cons_self)
    · exact ih (fun a ha => hl a (List.mem_cons_of_mem _ ha)) (n + 1) b hb

theorem forall_mem_map {α β : Type} {P : α → Prop} {Q : β → Prop} {f : α → β} {l : List α} (hl : ∀ a ∈ l, P a)
    (hf : ∀ a, P a → Q (f a)) : ∀ b ∈ l.map f, Q b := by
  intro b hb
  obtain ⟨a, ha, rfl⟩ := List.mem_map.1 hb
  exact hf a (hl a ha)

theorem forall_mem_modAt {α : Type} {P : α → Prop} {f : α → α} (hf : ∀ a, P a → P (f a)) :
    ∀ {l : List α} (n : Nat), (∀ a ∈ l, P a) → ∀ b ∈ modAt f l n, P b
  | [], _, _ => fun b hb => absurd hb List.not_mem_nil
  | a :: l, 0, h => by
    intro b hb
    obtain rfl | hb := List.mem_cons.1 hb
    · exact hf a (h a List.mem_cons_self)
    · exact h b (List.mem_cons_of_mem _ hb)
  | a :: l, n + 1, h => by
    intro b hb
    obtain rfl | hb := List.mem_cons.1 hb
    · exact h _ List.mem_cons_self
    · exact forall_mem_modAt hf n (fun c hc => h c (List.mem_cons_of_mem _ hc)) b hb

theorem mem_insertBy {α : Type} {before : α → α → Bool} {a b : α} :
    ∀ {l : List α}, b ∈ insertBy before a l → b = a ∨ b ∈ l
  | [], h => .inl (List.mem_singleton.1 h)
  | c :: l, h => by
    unfold insertBy at h
    split at h
    · exact List.mem_cons.1 h
    · obtain rfl | h := List.mem_cons.1 h
      · exact .inr List.mem_cons_self
      · exact (mem_insertBy h).imp_right (List.mem_cons_of_mem c)

theorem forall_mem_getD {α : Type} {P : α → Prop} {l : List α} {d : α} (hl : ∀ a ∈ l, P a) (hd : P d) (n : Nat) :
    P (l.getD n d) := by
  rw [List.getD_eq_getElem?_getD]
  cases h : l[n]? with
  | none => exact hd
  | some a => exact hl a (List.mem_of_getElem? h)

/-! ### Wakes -/

@[simp] theorem VWake.keep_length (v : VWake) (n : Nat) : (v.keep n).ring.length = v.ring.length := by simp [VWake.keep]
@[simp] theorem SWake.keep_length (v : SWake) (n : Nat) : (v.keep n).ring.length = v.ring.length := by simp [SWake.keep]

@[simp] theorem VWake.layout_length (v : VWake) (mark : BitVec 5) (depth : Nat) (ages : List Nat) :
    (v.layout mark depth ages).ring.length = v.ring.length := by simp [VWake.layout]

@[simp] theorem VWake.mapEntries_length (v : VWake) (f : Entry Word → Entry Word) :
    (v.mapEntries f).ring.length = v.ring.length := by simp [VWake.mapEntries]

@[simp] theorem SWake.mapEntries_length (v : SWake) (f : Entry DWord → Entry DWord) :
    (v.mapEntries f).ring.length = v.ring.length := by simp [SWake.mapEntries]

@[simp] theorem VWake.openedFrom_length (v : VWake) (n : Nat) : (v.openedFrom n).ring.length = v.ring.length := by
  simp [VWake.openedFrom]

@[simp] theorem SWake.openedFrom_length (v : SWake) (n : Nat) : (v.openedFrom n).ring.length = v.ring.length := by
  simp [SWake.openedFrom]

@[simp] theorem VWake.upset_length (v : VWake) (n : Nat) : (v.upset n).ring.length = v.ring.length := by simp [VWake.upset]
@[simp] theorem SWake.upset_length (v : SWake) (n : Nat) : (v.upset n).ring.length = v.ring.length := by simp [SWake.upset]

theorem entryScalars_length (args : List DWord) : (entryScalars args).ring.length = 16 :=
  List.foldlRecOn (motive := fun v : SWake => v.ring.length = 16) _ _ rfl fun v hv _ _ => (v.push_length _).trans hv

/-! ### Records, frames and splits -/

theorem Region.touch_sound {r : Region} (h : r.sound) (m : Mask) (pos : List (BitVec 5)) : (r.touch m pos).sound := by
  obtain ⟨hm, hd, hs⟩ := h
  exact ⟨hm, by simpa [Region.touch] using hd, hs⟩

theorem Region.mapEntries_sound {r : Region} (h : r.sound) (f : Entry DWord → Entry DWord) : (r.mapEntries f).sound := by
  obtain ⟨hm, hd, hs⟩ := h
  exact ⟨hm, hd, by simpa [Region.mapEntries] using hs⟩

theorem Region.opened_sound {r : Region} (h : r.sound) (n : Nat) : (r.opened n).sound := by
  obtain ⟨hm, hd, hs⟩ := h
  exact ⟨by simpa [Region.opened] using hm, by simpa [Region.opened] using hd, by simpa [Region.opened] using hs⟩

theorem Region.mergeWith_sound {a : Region} (h : a.sound) (m : Mask) (b : Region) : (a.mergeWith m b).sound := by
  obtain ⟨hm, hd, hs⟩ := h
  exact ⟨by simpa [Region.mergeWith] using hm, by simpa [Region.mergeWith] using hd, hs⟩

theorem openedRecs_sound {rs : List Region} (h : ∀ r ∈ rs, r.sound) (n : Nat) : ∀ r ∈ openedRecs n rs, r.sound :=
  forall_mem_mapFrom h (fun _ _ hr => Region.opened_sound hr _) 0

theorem Frame.mapEntries_sound {f : Frame} (h : f.sound) (g : Entry DWord → Entry DWord) : (f.mapEntries g).sound := by
  obtain ⟨hs, hr, hk, hb⟩ := h
  exact ⟨by simpa [Frame.mapEntries] using hs, forall_mem_map hr fun _ hr => Region.mapEntries_sound hr g, hk, hb⟩

theorem Frame.opened_sound {f : Frame} (h : f.sound) (n : Nat) : (f.opened n).sound := by
  obtain ⟨hs, hr, hk, hb⟩ := h
  exact ⟨by simpa [Frame.opened] using hs, hr, hk, hb⟩

/-- A frame with other records. -/
theorem Frame.sound_withRecs {f : Frame} (h : f.sound) {rs : List Region} (hr : ∀ r ∈ rs, r.sound) :
    ({ f with recs := rs } : Frame).sound := by
  obtain ⟨hs, -, hk, hb⟩ := h
  exact ⟨hs, hr, hk, hb⟩

/-- A frame with other masks set aside. -/
theorem Frame.sound_withKs {f : Frame} (h : f.sound) {ks : List Mask} (hk : f.kind ≠ .call → ks.length = 7) :
    ({ f with ks := ks } : Frame).sound := by
  obtain ⟨hs, hr, -, hb⟩ := h
  exact ⟨hs, hr, hk, hb⟩

theorem Split.sound_withSwake {p : Split} (h : p.sound) {v : SWake} (hv : v.ring.length = 16) :
    ({ p with swake := v } : Split).sound := by
  obtain ⟨-, hr, hf⟩ := h
  exact ⟨hv, hr, hf⟩

theorem Split.sound_withRecs {p : Split} (h : p.sound) {rs : List Region} (hr : ∀ r ∈ rs, r.sound) :
    ({ p with recs := rs } : Split).sound := by
  obtain ⟨hs, -, hf⟩ := h
  exact ⟨hs, hr, hf⟩

theorem Split.sound_withFrames {p : Split} (h : p.sound) {fs : List Frame} (hf : ∀ f ∈ fs, f.sound) :
    ({ p with frames := fs } : Split).sound := by
  obtain ⟨hs, hr, -⟩ := h
  exact ⟨hs, hr, hf⟩

theorem Split.mapEntries_sound {p : Split} (h : p.sound) (g : Entry DWord → Entry DWord) : (p.mapEntries g).sound := by
  obtain ⟨hs, hr, hf⟩ := h
  exact ⟨by simpa [Split.mapEntries] using hs, forall_mem_map hr fun _ hr => Region.mapEntries_sound hr g,
    forall_mem_map hf fun _ hf => Frame.mapEntries_sound hf g⟩

theorem Split.empty_sound : Split.empty.sound := ⟨rfl, by simp [Split.empty], by simp [Split.empty]⟩

theorem gateBelow_mem : ∀ {fs below : List Frame} {f : Frame}, gateBelow fs = some (f, below) →
    f ∈ fs ∧ f.kind = .gate ∧ ∀ g ∈ below, g ∈ fs
  | g :: gs, below, f, h => by
    unfold gateBelow at h
    split at h
    · next hg =>
      cases h
      exact ⟨List.mem_cons_self, hg, fun x hx => List.mem_cons_of_mem _ hx⟩
    · obtain ⟨hf, hk, hb⟩ := gateBelow_mem h
      exact ⟨List.mem_cons_of_mem _ hf, hk, fun x hx => List.mem_cons_of_mem _ (hb x hx)⟩

/-! ### Watches -/

/-- The wakes of a lane have 32 entries. -/
def Lane.sound (l : Lane) : Prop := l.wake.ring.length = 32 ∧ ∀ v ∈ l.saved, v.ring.length = 32

/-- The slots of a caddy frame have an entry for each lane. -/
def CaddyFrame.sound (f : CaddyFrame) : Prop := ∀ row ∈ f.slots, row.length = 64

/-- The parts of `Watch.sound` by name. -/
structure Watch.Sizes (w : Watch) : Prop where
  lanes : w.lanes.length = 64
  lane : ∀ l ∈ w.lanes, l.sound
  ks : w.ks.length = 7
  bears : w.bears.length = 8
  shapes : w.shapes.length = 16
  caddies : ∀ f ∈ w.caddies, f.sound
  sp : w.sp.sound
  sibs : ∀ p ∈ w.sibs, p.sound

theorem Watch.sound_iff {w : Watch} : w.sound ↔ w.Sizes :=
  ⟨fun ⟨lanes, lane, ks, bears, shapes, caddies, sp, sibs⟩ => ⟨lanes, lane, ks, bears, shapes, caddies, sp, sibs⟩,
    fun ⟨lanes, lane, ks, bears, shapes, caddies, sp, sibs⟩ => ⟨lanes, lane, ks, bears, shapes, caddies, sp, sibs⟩⟩

theorem Lane.empty_sound : Lane.empty.sound := ⟨rfl, by simp [Lane.empty]⟩

theorem zeroBlocks_sound (n : Nat) : ∀ row ∈ zeroBlocks n, row.length = 64 := by simp [zeroBlocks]

section
variable {w : Watch} (h : w.sound)
include h

theorem Watch.sound_frames : ∀ f ∈ w.sp.frames, f.sound := by
  obtain ⟨-, -, hf⟩ := (Watch.sound_iff.1 h).sp
  exact hf

theorem Watch.sound_recs : ∀ r ∈ w.sp.recs, r.sound := by
  obtain ⟨-, hr, -⟩ := (Watch.sound_iff.1 h).sp
  exact hr

theorem Watch.sound_swake : w.sp.swake.ring.length = 16 := (Watch.sound_iff.1 h).sp.1

/-- A watch with another split in focus. -/
theorem Watch.sound_withSp {p : Split} (hp : p.sound) : ({ w with sp := p } : Watch).sound :=
  Watch.sound_iff.2 { Watch.sound_iff.1 h with sp := hp }

/-- A watch with other splits out of focus. -/
theorem Watch.sound_withSibs {ps : List Split} (hp : ∀ p ∈ ps, p.sound) : ({ w with sibs := ps } : Watch).sound :=
  Watch.sound_iff.2 { Watch.sound_iff.1 h with sibs := hp }

theorem Watch.sound_withKs {ks : List Mask} (hk : ks.length = 7) : ({ w with ks := ks } : Watch).sound :=
  Watch.sound_iff.2 { Watch.sound_iff.1 h with ks := hk }

theorem Watch.sound_withBears {bs : List Bearing} (hb : bs.length = 8) : ({ w with bears := bs } : Watch).sound :=
  Watch.sound_iff.2 { Watch.sound_iff.1 h with bears := hb }

theorem Watch.sound_withShapes {hs : List Shape} (hl : hs.length = 16) : ({ w with shapes := hs } : Watch).sound :=
  Watch.sound_iff.2 { Watch.sound_iff.1 h with shapes := hl }

theorem Watch.sound_withCaddies {fs : List CaddyFrame} (hf : ∀ f ∈ fs, f.sound) : ({ w with caddies := fs } : Watch).sound :=
  Watch.sound_iff.2 { Watch.sound_iff.1 h with caddies := hf }

theorem Watch.sound_withLanes {ls : List Lane} (hn : ls.length = 64) (hl : ∀ l ∈ ls, l.sound) :
    ({ w with lanes := ls } : Watch).sound :=
  Watch.sound_iff.2 { Watch.sound_iff.1 h with lanes := hn, lane := hl }

/-- A watch with other operations in flight. -/
theorem Watch.sound_withFlights {fs : List Flight} : ({ w with flights := fs } : Watch).sound :=
  Watch.sound_iff.2 { Watch.sound_iff.1 h with }

@[simp] theorem Watch.mapLanes_sound {f : Nat → Lane → Lane} (hf : ∀ i l, l.sound → (f i l).sound) : (w.mapLanes f).sound := by
  have hw := Watch.sound_iff.1 h
  exact Watch.sound_withLanes h (by rw [mapFrom_length, hw.lanes]) (forall_mem_mapFrom hw.lane hf 0)

@[simp] theorem Watch.mapSplits_sound {f : Split → Split} (hf : ∀ p, p.sound → (f p).sound) : (w.mapSplits f).sound := by
  have hw := Watch.sound_iff.1 h
  exact Watch.sound_withSibs (Watch.sound_withSp h (hf _ hw.sp)) (forall_mem_map hw.sibs hf)

/-- A change of caddy frames, one by one. -/
theorem Watch.mapCaddies_sound {f : CaddyFrame → CaddyFrame} (hf : ∀ c, c.sound → (f c).sound) :
    ({ w with caddies := w.caddies.map f } : Watch).sound :=
  Watch.sound_withCaddies h (forall_mem_map (Watch.sound_iff.1 h).caddies hf)

@[simp] theorem Watch.push_sound {m : Mask} {e : Nat → Entry Word} : (w.push m e).sound := by
  have hl : (w.mapLanes fun i l => if has m i then { l with wake := l.wake.push (e i) } else l).sound := by
    refine Watch.mapLanes_sound h fun i l hl => ?_
    split
    · exact ⟨(l.wake.push_length _).trans hl.1, hl.2⟩
    · exact hl
  exact Watch.sound_withSp hl (Split.sound_withRecs (Watch.sound_iff.1 h).sp
    (forall_mem_map (Watch.sound_recs h) fun _ hr => Region.touch_sound hr _ _))

omit h in
@[simp] theorem Watch.pushEach_sound {m : Mask} : ∀ {es : List (Nat → Entry Word)} {w : Watch}, w.sound → (w.pushEach m es).sound
  | [], _, h => h
  | e :: es, w, h => Watch.pushEach_sound (es := es) (w := w.push m e) (Watch.push_sound h)

@[simp] theorem Watch.spush_sound {e : Entry DWord} : (w.spush e).sound :=
  Watch.sound_withSp h (Split.sound_withSwake (Watch.sound_iff.1 h).sp ((SWake.push_length _ _).trans (Watch.sound_swake h)))

@[simp] theorem Watch.setSatf_sound {m : Mask} : (w.setSatf m).sound :=
  Watch.mapLanes_sound h fun i l hl => by split <;> exact hl

@[simp] theorem Watch.setK_sound {n : Nat} {v : Mask} : (w.setK n v).sound :=
  Watch.sound_withKs h ((setAt_length _ _ _).trans (Watch.sound_iff.1 h).ks)

@[simp] theorem Watch.setBear_sound {r : BitVec 3} {b : Bearing} : (w.setBear r b).sound :=
  Watch.sound_withBears h ((setAt_length _ _ _).trans (Watch.sound_iff.1 h).bears)

@[simp] theorem Watch.setShape_sound {r : BitVec 4} {x : Shape} : (w.setShape r x).sound :=
  Watch.sound_withShapes h ((setAt_length _ _ _).trans (Watch.sound_iff.1 h).shapes)

@[simp] theorem Watch.compare_sound {d : Nat} {m : Mask} {p : Nat → Bool} : (w.compare d m p).sound := Watch.setK_sound h

@[simp] theorem Watch.push64_sound {m : Mask} {v : Nat → Nat} : (w.push64 m v).sound := Watch.push_sound (Watch.push_sound h)

@[simp] theorem Watch.pushVal_sound {m : Mask} {t : Ty} {v : Nat → Nat} : (w.pushVal m t v).sound := by
  unfold Watch.pushVal
  split
  · exact Watch.push64_sound h
  · exact Watch.push_sound h

@[simp] theorem Watch.pushUni_sound {v : DWord} : (w.pushUni v).sound := Watch.spush_sound h
@[simp] theorem Watch.pushComps_sound {m : Mask} {t : Ty} {id : Nat} {code : Nat → Nat} : (w.pushComps m t id code).sound :=
  Watch.pushEach_sound h

omit h in
/-- Pushes to the scalar wake, one after the other. -/
theorem Watch.foldl_spush_sound {α : Type} {f : α → Entry DWord} : ∀ {vs : List α} {w : Watch}, w.sound →
    (vs.foldl (fun w v => w.spush (f v)) w).sound
  | [], _, h => h
  | v :: vs, w, h => Watch.foldl_spush_sound (vs := vs) (w := w.spush (f v)) (Watch.spush_sound h)

@[simp] theorem Watch.spushPend_sound {id : Nat} {vs : List DWord} : (w.spushPend id vs).sound := Watch.foldl_spush_sound h

@[simp] theorem Watch.focus_sound {id : Nat} : (w.focus id).sound := by
  have hw := Watch.sound_iff.1 h
  unfold Watch.focus
  split
  · exact h
  split
  · next p hp =>
    refine Watch.sound_iff.2 { hw with sp := hw.sibs p (List.mem_of_find?_eq_some hp), sibs := fun q hq => ?_ }
    obtain rfl | hq := List.mem_cons.1 hq
    · exact hw.sp
    · exact hw.sibs q (List.mem_of_mem_filter hq)
  · exact h

@[simp] theorem Watch.stash_sound {slot : Nat} {m : Mask} {v : Nat → Word} : (w.stash slot m v).sound := by
  refine Watch.mapCaddies_sound h fun f hf => ?_
  split
  · exact forall_mem_modAt (P := fun row : List Word => row.length = 64) (fun row hr => by rw [mapFrom_length, hr]) slot hf
  · exact hf

@[simp] theorem Watch.release_sound {p : Wait → Bool} : (w.release p).sound :=
  Watch.mapSplits_sound h fun q hq => by split <;> exact hq

@[simp] theorem Watch.dropCaddies_sound : w.dropCaddies.sound :=
  Watch.sound_withCaddies h fun f hf => (Watch.sound_iff.1 h).caddies f (List.mem_of_mem_filter hf)

@[simp] theorem Watch.unwind_sound {n : Nat} : (w.unwind n).sound :=
  Watch.mapLanes_sound h fun i l hl => by
    split
    · exact ⟨forall_mem_getD (P := fun v : VWake => v.ring.length = 32) hl.2 rfl n, fun v hv => hl.2 v (List.mem_of_mem_drop hv)⟩
    · exact hl

theorem Watch.restoreBank_sound {ks : List Mask} {b : GateBank} (hk : ks.length = 7) (hb : b.sound) : (w.restoreBank ks b).sound := by
  have hw := Watch.sound_iff.1 (Watch.mapLanes_sound h (f := fun i l => { l with satf := b.satf.getD i false }) fun _ _ hl => hl)
  exact Watch.sound_iff.2 { hw with ks := hk, bears := hb.1, shapes := hb.2 }

@[simp] theorem Watch.unstop_sound : w.unstop.sound := Watch.sound_withSibs h (forall_mem_map (Watch.sound_iff.1 h).sibs fun _ hp => hp)
@[simp] theorem Watch.stop_sound : w.stop.sound := Watch.sound_withSibs h (forall_mem_map (Watch.sound_iff.1 h).sibs fun _ hp => hp)

theorem Watch.leave_sound {n : Nat} {f : Frame} {below : List Frame} {pc : DWord} (hf : f.sound) (hb : ∀ g ∈ below, g.sound) :
    (w.leave n f below pc).sound := by
  obtain ⟨hs, hr, -, -⟩ := hf
  exact Watch.dropCaddies_sound (Watch.sound_withSp (Watch.unwind_sound h) ⟨hs, hr, hb⟩)

@[simp] theorem Watch.gatherGate_sound {f : Frame} {below : List Frame} : (w.gatherGate f below).sound := by
  have hw := Watch.sound_iff.1 h
  unfold Watch.gatherGate
  extract_lets inside gone id v
  have hv : v.sound := by
    refine Watch.mapLanes_sound h fun i l hl => ?_
    split
    · exact ⟨hl.1, fun x hx => hl.2 x (List.mem_of_mem_drop hx)⟩
    · exact hl
  exact Watch.sound_withSibs (Watch.sound_withSp hv (Watch.sound_iff.1 hv).sp) fun q hq => hw.sibs q (List.mem_of_mem_filter hq)

theorem Watch.abortGate_sound {f : Frame} {below : List Frame} (hf : f.sound) (hk : f.kind = .gate) (hb : ∀ g ∈ below, g.sound) :
    (w.abortGate f below).sound := by
  have hl : (((w.gatherGate f below).leave 0 f below f.retPc).unstop).sound :=
    Watch.unstop_sound (Watch.leave_sound (Watch.gatherGate_sound h) hf hb)
  obtain ⟨-, -, hks, hbank⟩ := hf
  unfold Watch.abortGate
  dsimp only
  split
  · next b hb => exact Watch.restoreBank_sound (Watch.sound_withSp hl (Watch.sound_iff.1 hl).sp) (hks (by simp [hk])) (hbank b hb)
  · exact Watch.sound_withSp hl (Watch.sound_iff.1 hl).sp

@[simp] theorem Watch.enterHandler_sound {fid cause : Nat} {mask : Mask} {detail pc : DWord} {len : Nat} :
    (w.enterHandler fid cause mask detail pc len).sound := by
  have hw := Watch.sound_iff.1 h
  unfold Watch.enterHandler
  extract_lets gated s3 sw f v
  have hv : v.stop.sound := by
    refine Watch.stop_sound (Watch.mapLanes_sound h fun i l hl => ?_)
    dsimp only
    split
    · exact ⟨rfl, fun x hx => (List.mem_cons.1 hx).elim (fun e => e ▸ hl.1) (hl.2 x)⟩
    · exact hl
  have hf : f.sound := ⟨Watch.sound_swake h, Watch.sound_recs h, fun _ => hw.ks, fun b hb => by cases hb⟩
  refine Watch.sound_iff.2 { Watch.sound_iff.1 hv with ks := rfl, caddies := fun c hc => ?_, sp := ⟨rfl, by simp, fun g hg => ?_⟩ }
  · obtain rfl | hc := List.mem_cons.1 hc
    · exact fun row hr => by cases hr
    · exact hw.caddies c hc
  · obtain rfl | hg := List.mem_cons.1 hg
    · exact hf
    · exact Watch.sound_frames h g hg

theorem Watch.exitHandler_sound {f : Frame} {below : List Frame} {pc : DWord} (hf : f.sound) (hk : f.kind = .handler)
    (hb : ∀ g ∈ below, g.sound) : (w.exitHandler f below pc).sound :=
  Watch.sound_withKs (Watch.unstop_sound (Watch.leave_sound h hf hb)) (hf.2.2.1 (by simp [hk]))

@[simp] theorem Watch.mapEntries_sound {f : Entry Word → Entry Word} {g : Entry DWord → Entry DWord} : (w.mapEntries f g).sound := by
  have hw := Watch.sound_iff.1 h
  refine Watch.sound_iff.2 { hw with
    lanes := by rw [Watch.mapEntries, List.length_map, hw.lanes], lane := forall_mem_map hw.lane fun l hl => ?_,
    sp := Split.mapEntries_sound hw.sp g, sibs := forall_mem_map hw.sibs fun _ hp => Split.mapEntries_sound hp g }
  exact ⟨(VWake.mapEntries_length _ _).trans hl.1,
    forall_mem_map (P := fun v : VWake => v.ring.length = 32) hl.2 fun v hv => (VWake.mapEntries_length _ _).trans hv⟩

@[simp] theorem Watch.complete_sound {id : Nat} : (w.complete id).sound := by
  have hv : ({ w.mapEntries (Entry.settle id) (Entry.settle id) with flights := w.flights.filter (fun f => f.id != id) } : Watch).sound :=
    Watch.sound_iff.2 { Watch.sound_iff.1 (Watch.mapEntries_sound h) with }
  unfold Watch.complete
  dsimp only
  split
  · exact hv
  · exact Watch.setSatf_sound hv

@[simp] theorem Watch.completeZero_sound {id : Nat} : (w.completeZero id).sound := by
  unfold Watch.completeZero
  extract_lets m zeros
  have hz : ∀ i (v : VWake), v.ring.length = 32 → (zeros i v).ring.length = 32 := fun i v hv => by
    simp only [zeros]
    split
    · rwa [VWake.mapEntries_length]
    · exact hv
  refine Watch.complete_sound (Watch.mapEntries_sound (Watch.mapLanes_sound h fun i l hl => ?_))
  exact ⟨hz i _ hl.1, forall_mem_map (P := fun v : VWake => v.ring.length = 32) hl.2 (hz i)⟩

@[simp] theorem Watch.drain_sound : w.drain.sound :=
  List.foldlRecOn (motive := fun v : Watch => v.sound) _ _ h fun _ hv _ _ => Watch.complete_sound hv

@[simp] theorem Watch.image_sound {joined : Bool} : (w.image joined).sound := by
  refine Watch.mapSplits_sound (Watch.mapLanes_sound (Watch.drain_sound h) ?_) ?_
  · exact fun _ _ hl => hl
  · exact fun _ hp => hp

end

end Sys2Proof.Machine

namespace Sys2Proof.Machine

/-! ### Gates and altered images -/

/-- Frames whose records are changed one by one. -/
theorem frames_mapRecs_sound {fs : List Frame} (h : ∀ f ∈ fs, f.sound) {g : Nat → Frame → List Region}
    (hg : ∀ i f, f.sound → ∀ r ∈ g i f, r.sound) : ∀ f ∈ mapFrom (fun i (f : Frame) => { f with recs := g i f }) 0 fs, f.sound :=
  forall_mem_mapFrom h (fun i f hf => Frame.sound_withRecs hf (hg i f hf)) 0

theorem Frame.openKs_sound {f : Frame} (h : f.sound) (n : Nat) :
    ({ f with ks := mapFrom (fun i _ => Config.freeWord (n + i)) 0 f.ks } : Frame).sound :=
  Frame.sound_withKs h fun hk => (mapFrom_length _ _ _).trans (h.2.2.1 hk)

/-- A frame with another bank of the same sizes. -/
theorem Frame.mapBank_sound {f : Frame} (h : f.sound) {g : GateBank → GateBank} (hg : ∀ b, b.sound → (g b).sound) :
    ({ f with bank := f.bank.map g } : Frame).sound := by
  obtain ⟨hs, hr, hk, hb⟩ := h
  refine ⟨hs, hr, hk, fun b e => ?_⟩
  obtain ⟨c, hc, rfl⟩ := Option.map_eq_some_iff.1 e
  exact hg c (hb c hc)

/-- A split whose frames are changed one by one. -/
theorem Split.mapFrames_sound {p : Split} (h : p.sound) {g : Frame → Frame} (hg : ∀ f, f.sound → (g f).sound) :
    ({ p with frames := p.frames.map g } : Split).sound :=
  Split.sound_withFrames h (forall_mem_map h.2.2 hg)

section
variable {w : Watch} (h : w.sound)
include h

theorem Watch.openHeader_sound (n : Nat) : (w.openHeader n).sound := by
  have hw := Watch.sound_iff.1 h
  have hv : (w.mapLanes fun i l => if w.ewidth ≤ i then l else
      { l with
        satf := (Config.freeWord n).getLsbD i, exited := (Config.freeWord (n + 1)).getLsbD i
        wake := { l.wake with
          head := (Config.freeWord (n + 64 + i)).setWidth 5, nest := (Config.freeWord (n + 128 + i)).setWidth 8 } }).sound :=
    Watch.mapLanes_sound h fun i l hl => by split <;> exact hl
  refine Watch.sound_iff.2 { Watch.sound_iff.1 hv with
    ks := (mapFrom_length _ _ _).trans hw.ks, bears := (mapFrom_length _ _ _).trans hw.bears
    sp := Split.mapFrames_sound hw.sp fun f hf => Frame.openKs_sound hf _
    sibs := forall_mem_map hw.sibs fun p hp => Split.mapFrames_sound hp fun f hf => Frame.openKs_sound hf _ }

theorem Watch.openSplit_sound (n id : Nat) : (w.openSplit n id).sound :=
  Watch.mapSplits_sound h fun p hp => by
    split
    · exact ⟨(SWake.openedFrom_length _ _).trans hp.1, hp.2⟩
    · exact hp

theorem Watch.openRecs_sound (n : Nat) : (w.openRecs n).sound :=
  Watch.mapSplits_sound h fun p hp => by
    obtain ⟨hs, hr, hf⟩ := hp
    exact ⟨hs, openedRecs_sound hr _, frames_mapRecs_sound hf fun i f hf => openedRecs_sound hf.2.1 _⟩

theorem Watch.openFrames_sound (n lo hi : Nat) : (w.openFrames n lo hi).sound := by
  refine Watch.mapSplits_sound (Watch.mapLanes_sound h ?_) ?_
  · intro i l hl
    refine ⟨hl.1, forall_mem_mapFrom (P := fun v : VWake => v.ring.length = 32) hl.2 (fun j v hv => ?_) 0⟩
    split
    · exact (VWake.openedFrom_length _ _).trans hv
    · exact hv
  · intro p hp
    refine Split.sound_withFrames hp (forall_mem_mapFrom hp.2.2 (fun j f hf => ?_) 0)
    split
    · exact Frame.opened_sound hf _
    · exact hf

theorem Watch.openCaddies_sound (n : Nat) : (w.openCaddies n).sound := by
  refine Watch.sound_withCaddies h (forall_mem_mapFrom (Watch.sound_iff.1 h).caddies (fun i f hf => ?_) 0)
  refine forall_mem_mapFrom (P := fun row : List Word => row.length = 64) (Q := fun row : List Word => row.length = 64) hf ?_ 0
  exact fun j row hr => (mapFrom_length _ _ _).trans hr

theorem Watch.reread_sound (x : Altered) : (w.reread x).sound := by
  have hw := Watch.sound_iff.1 h
  refine Watch.sound_iff.2 { hw with
    lanes := (mapFrom_length _ _ _).trans hw.lanes, lane := forall_mem_mapFrom hw.lane (fun i l hl => ⟨?_, hl.2⟩) 0
    bears := (mapFrom_length _ _ _).trans hw.bears, shapes := (mapFrom_length _ _ _).trans hw.shapes }
  exact (mapFrom_length _ _ _).trans hl.1

theorem Watch.when_sound (b : Bool) {f : Watch → Watch} (hf : (f w).sound) : (w.when b f).sound := by
  unfold Watch.when
  split
  · exact hf
  · exact h

theorem Watch.alter_sound (x : Altered) (spill : Bool) (n : Nat) : (w.alter x spill n).sound := by
  unfold Watch.alter
  extract_lets g f v1 v2 v3 v4 v5
  have h0 : (w.reread x).sound := Watch.reread_sound h x
  have h1 : v1.sound := Watch.when_sound h0 _ (Watch.openHeader_sound h0 _)
  have h2 : v2.sound := List.foldlRecOn (motive := fun v : Watch => v.sound) _ _ h1 fun _ hv _ _ =>
    Watch.when_sound hv _ (Watch.openSplit_sound hv _ _)
  have h3 : v3.sound := Watch.when_sound h2 _ (Watch.openRecs_sound h2 _)
  have h4 : v4.sound := Watch.when_sound h3 _ (Watch.openFrames_sound h3 _ _ _)
  have h5 : v5.sound := Watch.when_sound h4 _ (Watch.openFrames_sound h4 _ _ _)
  exact Watch.when_sound h5 _ (Watch.openCaddies_sound h5 _)

theorem Watch.opened_sound (n : Nat) : (w.opened n).sound := by
  unfold Watch.opened
  extract_lets v1 v2 norm bank
  have h1 : v1.sound :=
    Watch.openCaddies_sound (Watch.openFrames_sound (Watch.openRecs_sound (Watch.openHeader_sound h _) _) _ _ _) _
  have h2 : v2.sound := List.foldlRecOn (motive := fun v : Watch => v.sound) _ _ h1 fun _ hv _ _ => Watch.openSplit_sound hv _ _
  have hb : ∀ b : GateBank, b.sound → (bank b).sound := fun b hb =>
    ⟨(List.length_map _).trans hb.1, (mapFrom_length _ _ _).trans hb.2⟩
  have hp : ∀ p : Split, p.sound → ({ p with frames := p.frames.map fun f => { f with bank := f.bank.map bank } } : Split).sound :=
    fun p hp => Split.mapFrames_sound hp fun f hf => Frame.mapBank_sound hf hb
  have hl : (v2.mapLanes fun l x => { x with wake := x.wake.openedFrom (n + 2 ^ 15 + 32 * l) }).sound :=
    Watch.mapLanes_sound h2 fun i l hl => ⟨(VWake.openedFrom_length _ _).trans hl.1, hl.2⟩
  have hw := Watch.sound_iff.1 h2
  exact Watch.sound_iff.2 { Watch.sound_iff.1 hl with
    bears := (List.length_map _).trans hw.bears, shapes := (mapFrom_length _ _ _).trans hw.shapes
    sp := hp _ hw.sp, sibs := forall_mem_map hw.sibs hp }

theorem Gang.returned_sound (g : Gang) (r : LaunchRec) (x : Altered) (n : Nat) : (g.returned r x w n).sound := by
  unfold Gang.returned
  dsimp only
  split
  · exact Watch.when_sound h _ (Watch.opened_sound h n)
  · exact Watch.alter_sound h _ _ n

/-! ### Regions, loops and splits -/

theorem Watch.addNest_sound (m : Mask) (d : BitVec 8) : (w.addNest m d).sound :=
  Watch.mapLanes_sound h fun i l hl => by split <;> exact hl

theorem Watch.subNest_sound (m : Mask) : (w.subNest m).sound :=
  Watch.mapLanes_sound h fun i l hl => by split <;> exact hl

theorem Watch.sound_withRecs {rs : List Region} (hr : ∀ r ∈ rs, r.sound) : ({ w with sp := { w.sp with recs := rs } } : Watch).sound :=
  Watch.sound_withSp h (Split.sound_withRecs (Watch.sound_iff.1 h).sp hr)

@[simp] theorem Watch.redirect_sound : w.redirect.sound := by
  unfold Watch.redirect
  split
  · exact h
  split
  · exact h
  · exact Watch.sound_withSp h (Watch.sound_iff.1 h).sp

omit h in
theorem Watch.dropFrames_sound : ∀ {fs : List Frame} {w : Watch}, w.sound → (∀ f ∈ fs, f.sound) → (w.dropFrames fs).sound
  | [], _, h, _ => h
  | f :: fs, w, h, hfs => by
    obtain ⟨-, -, hk, hb⟩ := hfs f List.mem_cons_self
    have htl : ∀ g ∈ fs, g.sound := fun g hg => hfs g (List.mem_cons_of_mem _ hg)
    unfold Watch.dropFrames
    split
    · next b hkind hbank =>
      exact Watch.dropFrames_sound (Watch.unstop_sound (Watch.restoreBank_sound h (hk (by simp [hkind])) (hb b hbank))) htl
    · next hkind =>
      exact Watch.dropFrames_sound (Watch.unstop_sound (Watch.sound_withKs h (hk (by simp [hkind])))) htl
    · exact Watch.dropFrames_sound h htl

@[simp] theorem Watch.dropSplit_sound : w.dropSplit.sound := by
  have hv := Watch.dropFrames_sound h (Watch.sound_frames h)
  have hw := Watch.sound_iff.1 hv
  unfold Watch.dropSplit
  dsimp only
  split
  · exact hv
  · next p ps e =>
    have hps : ∀ q ∈ p :: ps, q.sound := e ▸ hw.sibs
    exact Watch.dropCaddies_sound (Watch.sound_iff.2 { hw with
      sp := hps p List.mem_cons_self, sibs := fun q hq => hps q (List.mem_cons_of_mem _ hq) })

theorem Watch.layout_sound (m : Mask) (r : Region) (ages : List Nat) : (w.layout m r ages).sound := by
  have hw := Watch.sound_iff.1 h
  refine Watch.sound_iff.2 { hw with
    lanes := (mapFrom_length _ _ _).trans hw.lanes, lane := forall_mem_mapFrom hw.lane (fun i l hl => ?_) 0
    sp := Split.sound_withRecs hw.sp ?_ }
  · split
    · exact ⟨(VWake.layout_length _ _ _ _).trans hl.1, hl.2⟩
    · exact hl
  · exact List.foldlRecOn (motive := fun rs : List Region => ∀ r ∈ rs, r.sound) _ _ (Watch.sound_recs h) fun _ hrs _ _ =>
      forall_mem_map hrs fun _ hr => Region.touch_sound hr _ _

theorem Watch.layoutArms_sound (m : Mask) (r : Region) (l0 l1 : List Nat) : (w.layoutArms m r l0 l1).sound :=
  Watch.layout_sound (Watch.layout_sound h _ _ _) _ _ _

theorem Watch.heads_length : w.heads.length = 64 := by
  rw [Watch.heads, List.length_map, (Watch.sound_iff.1 h).lanes]

theorem Watch.newRegion_sound {rid : Nat} {kind : RegionKind} {resume rejoin : DWord} {t e : Mask} {origin : Bool} {n x : Nat} :
    (w.newRegion rid kind resume rejoin t e origin n x).sound :=
  ⟨Watch.heads_length h, List.length_replicate, Watch.sound_swake h⟩

theorem Watch.closeRegion_sound {r : Region} (hr : r.sound) (pc : DWord) : (w.closeRegion r pc).sound := by
  have hv := Watch.subNest_sound h (r.arm0 ||| r.arm1)
  obtain ⟨-, hrs, hf⟩ := (Watch.sound_iff.1 hv).sp
  exact Watch.sound_withSp hv ⟨hr.2.2, fun q hq => hrs q (List.mem_of_mem_drop hq), hf⟩

theorem Watch.mergeTwins_sound (q : Split) (la lb qa qb : List Nat) : (w.mergeTwins q la lb qa qb).sound := by
  have hw := Watch.sound_iff.1 h
  unfold Watch.mergeTwins
  split
  · exact h
  extract_lets mine theirs recs frames parent sp0 sp u v
  have hrecs : ∀ r ∈ recs, r.sound := forall_mem_mapFrom (Watch.sound_recs h) (fun _ _ hr => Region.mergeWith_sound hr _ _) 0
  have hframes : ∀ f ∈ frames, f.sound := frames_mapRecs_sound (Watch.sound_frames h) fun i f hf =>
    forall_mem_mapFrom hf.2.1 (fun _ _ hr => Region.mergeWith_sound hr _ _) 0
  have hu : u.sound := Watch.mapLanes_sound h fun i l hl => by split <;> exact hl
  have hsp : sp.sound := ⟨Watch.sound_swake h, hrecs, hframes⟩
  have hv : v.sound := Watch.sound_withSibs (Watch.sound_withSp hu hsp) fun p hp => hw.sibs p (List.mem_of_mem_filter hp)
  clear_value recs
  split
  · exact hv
  · next r rs =>
    exact Watch.closeRegion_sound (Watch.layoutArms_sound (Watch.layoutArms_sound hv _ _ _ _) _ _ _ _)
      (hrecs r List.mem_cons_self) _

theorem Watch.endIteration_sound {r : Region} (hr : r.sound) (k : BitVec 3) (e : RejoinEntry) (back : DWord) :
    (w.endIteration r k e back).sound := by
  unfold Watch.endIteration
  extract_lets c x v1 v2 broken rs top s2 v3
  have h2 : v2.sound :=
    Watch.subNest_sound (Watch.addNest_sound (Watch.layout_sound (Watch.layout_sound h _ _ _) _ _ _) _ _) _
  obtain ⟨hs2, hr2, hf2⟩ := (Watch.sound_iff.1 h2).sp
  have hrs : ∀ q ∈ rs, q.sound := fun q hq => hr2 q (List.mem_of_mem_drop hq)
  have htop : top.sound := by
    simp only [top]
    cases hd : v2.sp.recs.head? with
    | none => exact hr
    | some q => exact hr2 q (List.mem_of_head? hd)
  split
  · refine Watch.sound_withSp h2 ⟨hs2, fun q hq => ?_, hf2⟩
    obtain rfl | hq := List.mem_cons.1 hq
    · exact htop
    · exact hrs q hq
  · have h3 : v3.sound := Watch.subNest_sound h2 _
    obtain ⟨hs3, -, hf3⟩ := (Watch.sound_iff.1 h3).sp
    exact Watch.sound_withSp h3 ⟨hs3, hrs, hf3⟩

@[simp] theorem Watch.exitLanes_sound {d : Mask} : (w.exitLanes d).sound := by
  have hw := Watch.sound_iff.1 h
  have hl : (w.mapLanes fun i l => if has d i then { l with exited := true, resv := none } else l).sound :=
    Watch.mapLanes_sound h fun i l hl => by split <;> exact hl
  refine Watch.sound_withSp hl ⟨hw.sp.1, forall_mem_map (Watch.sound_recs h) fun r hr => hr, ?_⟩
  exact forall_mem_map (Watch.sound_frames h) fun f hf => Frame.sound_withRecs hf (forall_mem_map hf.2.1 fun r hr => hr)

/-! ### Calls, gates and caddies -/

theorem Watch.call_sound {fid pool : Nat} {blks : List Nat} {n m b : Nat} {target : DWord} :
    (w.call fid pool blks n m b target).sound := by
  have hw := Watch.sound_iff.1 h
  unfold Watch.call
  extract_lets f live v
  have hv : v.sound := by
    refine Watch.mapLanes_sound h fun i l hl => ?_
    split
    · refine ⟨?_, fun x hx => (List.mem_cons.1 hx).elim (fun e => e ▸ hl.1) (hl.2 x)⟩
      dsimp only
      split
      · exact hl.1
      · exact (VWake.keep_length _ _).trans hl.1
    · exact hl
  have hf : f.sound := ⟨Watch.sound_swake h, Watch.sound_recs h, fun hk => absurd rfl hk, fun b hb => by cases hb⟩
  refine Watch.sound_iff.2 { Watch.sound_iff.1 hv with
    caddies := fun c hc => ?_, sp := ⟨(SWake.keep_length _ _).trans hw.sp.1, by simp, fun g hg => ?_⟩ }
  · obtain rfl | hc := List.mem_cons.1 hc
    · exact zeroBlocks_sound b
    · exact hw.caddies c hc
  · obtain rfl | hg := List.mem_cons.1 hg
    · exact hf
    · exact Watch.sound_frames h g hg

theorem Watch.returnWith_sound {f : Frame} {below : List Frame} {n m : Nat} (hf : f.sound) (hb : ∀ g ∈ below, g.sound) :
    (w.returnWith f below n m).sound := by
  unfold Watch.returnWith
  extract_lets live vs ss v1 v2 v3
  have h2 : v2.sound := Watch.pushEach_sound (Watch.leave_sound h hf hb)
  have h3 : v3.sound := List.foldlRecOn (motive := fun v : Watch => v.sound) _ _ h2 fun _ hv _ _ => Watch.spush_sound hv
  exact Watch.sound_withSp h3 (Watch.sound_iff.1 h3).sp

@[simp] theorem Watch.growCaddy_sound {blks : List Nat} {n : Nat} : (w.growCaddy blks n).sound :=
  Watch.mapCaddies_sound h fun f hf => by
    split
    · exact fun row hr => (List.mem_append.1 hr).elim (hf row) (zeroBlocks_sound n row)
    · exact hf

theorem Watch.shrinkCaddy_sound {n : Nat} :
    ({ w with caddies := w.caddies.map fun f => if f.id = w.sp.caddy then f.shrink n else f } : Watch).sound :=
  Watch.mapCaddies_sound h fun f hf => by
    split
    · exact fun row hr => hf row (List.mem_of_mem_take hr)
    · exact hf

theorem Watch.bank_sound : w.bank.sound := by
  have hw := Watch.sound_iff.1 h
  exact ⟨hw.bears, hw.shapes⟩

theorem Watch.enterGate_sound {fid : Nat} {blks : List Nat} {d : GateDesc} {segs : List Seg} {feat : DWord} :
    (w.enterGate fid blks d segs feat).sound := by
  have hw := Watch.sound_iff.1 h
  unfold Watch.enterGate
  extract_lets pc v frames
  have hv : v.sound := Watch.stop_sound (Watch.call_sound h)
  have hl : (v.mapLanes fun _ l => { l with satf := false }).sound := Watch.mapLanes_sound hv fun _ _ hl => hl
  have hframes : ∀ f ∈ frames, f.sound := by
    have hvf := Watch.sound_frames hv
    simp only [frames]
    split
    · next f fs e =>
      rw [e] at hvf
      intro g hg
      obtain rfl | hg := List.mem_cons.1 hg
      · obtain ⟨hs, hr, -, -⟩ := hvf f List.mem_cons_self
        exact ⟨hs, hr, fun _ => hw.ks, fun b hb => by cases hb; exact Watch.bank_sound h⟩
      · exact hvf g (List.mem_cons_of_mem _ hg)
    · simp
  exact Watch.sound_iff.2 { Watch.sound_iff.1 hl with
    ks := List.length_replicate, bears := List.length_replicate, shapes := List.length_replicate
    sp := Split.sound_withFrames (Watch.sound_iff.1 hv).sp hframes }

/-! ### Masks of two issues in a cycle -/

theorem Watch.masksOver_sound {left : List Mask} (hk : left.length = 7) (d : Option (BitVec 3)) : (w.masksOver left d).sound := by
  unfold Watch.masksOver
  split
  · exact Watch.setK_sound (Watch.sound_withKs h hk)
  · exact Watch.sound_withKs h hk

theorem Watch.masksAfter_sound {left : List Mask} (hk : left.length = 7) (d : Option (BitVec 3)) (depth : Nat) (ret : Bool) :
    (w.masksAfter left d depth ret).sound := by
  have hfs := Watch.sound_frames h
  unfold Watch.masksAfter
  split
  · split
    · exact Watch.masksOver_sound h hk d
    · exact h
  split
  · next f fs e =>
    rw [e] at hfs
    split
    · refine Watch.sound_withSp h (Split.sound_withFrames (Watch.sound_iff.1 h).sp fun g hg => ?_)
      obtain rfl | hg := List.mem_cons.1 hg
      · exact Frame.sound_withKs (hfs f List.mem_cons_self) fun _ => hk
      · exact hfs g (List.mem_cons_of_mem _ hg)
    · exact Watch.masksOver_sound h hk d
  · exact Watch.masksOver_sound h hk d

end

/-! ### Starting and restoring watches -/

theorem startWatch_sound {l : Launch} {idx block watch core slot : Nat} {feat : DWord} {args : List DWord} {time fid : Nat}
    {blks : List Nat} : (startWatch l idx block watch core slot feat args time fid blks).sound := by
  unfold startWatch
  refine Watch.sound_iff.2
    { lanes := by simp [Config.lanes], lane := fun x hx => ?_, ks := List.length_replicate, bears := List.length_replicate
      shapes := List.length_replicate, caddies := fun f hf => ?_, sp := ⟨entryScalars_length _, by simp [Split.empty], by simp [Split.empty]⟩
      sibs := fun p hp => absurd hp List.not_mem_nil }
  · obtain ⟨i, -, rfl⟩ := List.mem_map.1 hx
    exact ⟨(VWake.push_length _ _).trans rfl, by simp [Lane.empty]⟩
  · rw [List.mem_singleton.1 hf]
    exact zeroBlocks_sound _

section
variable {w : Watch} (h : w.sound) (s : State)
include h

theorem State.refeature_sound : (s.refeature w).sound := by
  have hp : ∀ p : Split, p.sound → ({ p with frames := p.frames.map fun f =>
      { f with bank := f.bank.map fun b => { b with feat := s.reg (.featmask b.dom) } } } : Split).sound :=
    fun p hp => Split.mapFrames_sound hp fun f hf => Frame.mapBank_sound hf fun b hb => hb
  exact Watch.sound_iff.2 { Watch.sound_iff.1 (Watch.mapSplits_sound h hp) with }

theorem State.rehouse_sound : (s.rehouse w).sound := by
  refine Watch.sound_withCaddies h ?_
  refine List.foldlRecOn (motive := fun fs : List CaddyFrame => ∀ f ∈ fs, f.sound) _ _ (by simp) fun done hd f hf => ?_
  intro g hg
  obtain hg | hg := List.mem_append.1 hg
  · exact hd g hg
  · rw [List.mem_singleton.1 hg]
    exact (Watch.sound_iff.1 h).caddies f hf

end

end Sys2Proof.Machine

namespace Sys2Proof.Machine

/-!
A state's watches, in focus, resident and in images, keep their sizes under what a step is made of: `State.sized_f` says so of the
operation `f`, as an equivalence where `f` leaves every watch as it is.
-/

/-! ### The watches of a state -/

/-- The watches in a gang's image have their sizes. -/
def Gang.sound (g : Gang) : Prop := ∀ w ∈ g.watches, w.sound

/-- `State.sound`, of the three fields that hold watches. -/
def WatchesSound (ctx : Watch) (others : List Watch) (gangs : List Gang) : Prop :=
  ctx.sound ∧ (∀ w ∈ others, w.sound) ∧ ∀ g ∈ gangs, g.sound

/-- `State.sound`, so that `simp` sees through an update of other fields. -/
abbrev State.Sized (s : State) : Prop := WatchesSound s.ctx s.others s.gangs

theorem State.sized_iff {s : State} : s.Sized ↔ s.sound := Iff.rfl

section
variable {s : State} (h : s.Sized)
include h

theorem State.Sized.ctx : s.ctx.sound := h.1
theorem State.Sized.others : ∀ w ∈ s.others, w.sound := h.2.1
theorem State.Sized.gangs : ∀ g ∈ s.gangs, g.sound := h.2.2

theorem State.Sized.watches : ∀ w ∈ s.watches, w.sound := fun _ hw =>
  (List.mem_cons.1 (List.mem_of_mem_filter hw)).elim (fun e => e ▸ h.ctx) (h.others _)

/-- A state with another watch in focus. -/
theorem State.sized_withCtx {w : Watch} (hw : w.sound) : ({ s with ctx := w } : State).Sized := ⟨hw, h.2⟩

/-- A state with other gangs. -/
theorem State.sized_withGangs {gs : List Gang} (hg : ∀ g ∈ gs, g.sound) : ({ s with gangs := gs } : State).Sized :=
  ⟨h.ctx, h.others, hg⟩

@[simp] theorem State.sized_mapWatches {f : Watch → Watch} (hf : ∀ w, w.sound → (f w).sound) : (State.mapWatches f s).Sized :=
  ⟨hf _ h.ctx, forall_mem_map h.others hf, h.gangs⟩

theorem State.sized_filterGangs (p : Gang → Bool) : ({ s with gangs := s.gangs.filter p } : State).Sized :=
  State.sized_withGangs h fun g hg => h.gangs g (List.mem_of_mem_filter hg)

theorem State.sized_mapGangs {f : Gang → Gang} (hf : ∀ g, g.sound → (f g).sound) :
    ({ s with gangs := s.gangs.map f } : State).Sized :=
  State.sized_withGangs h (forall_mem_map h.gangs hf)

theorem State.sized_appendGangs {gs : List Gang} (hg : ∀ g ∈ gs, g.sound) : ({ s with gangs := s.gangs ++ gs } : State).Sized :=
  State.sized_withGangs h fun g hm => (List.mem_append.1 hm).elim (h.gangs g) (hg g)

theorem State.sized_mapCtx {f : Watch → Watch} (hf : (f s.ctx).sound) : (s.mapCtx f).Sized := ⟨hf, h.2⟩

@[simp] theorem State.sized_modGang {launch idx : Nat} {f : Gang → Gang} (hf : ∀ g, g.sound → (f g).sound) :
    (s.modGang launch idx f).Sized :=
  State.sized_mapGangs h fun g hg => by
    split
    · exact hf g hg
    · exact hg

omit h in
/-- A change of a gang that leaves its image's watches. -/
@[simp] theorem State.sized_modGang_same {launch idx : Nat} {f : Gang → Gang} (s : State) (hf : ∀ g, (f g).watches = g.watches) :
    (s.modGang launch idx f).Sized ↔ s.Sized := by
  refine and_congr_right fun _ => and_congr_right fun _ => ?_
  have hg : ∀ g, (if g.launch = launch ∧ g.idx = idx then f g else g).sound ↔ g.sound := fun g => by
    split
    · simp only [Gang.sound, hf]
    · rfl
  simp [State.modGang, hg]

@[simp] theorem State.sized_modWatch {r : WatchRef} {f : Watch → Watch} (hf : ∀ w, w.sound → (f w).sound) :
    (s.modWatch r f).Sized :=
  State.sized_mapWatches h fun w hw => by
    split
    · exact hf w hw
    · exact hw

theorem State.sized_modWatchOrImage {r : WatchRef} {f : Watch → Watch} (hf : ∀ w, w.sound → (f w).sound) :
    (s.modWatchOrImage r f).Sized := by
  refine State.sized_withGangs (State.sized_modWatch h hf) (forall_mem_map h.gangs fun g hg => ?_)
  split
  · refine forall_mem_map hg fun w hw => ?_
    split
    · exact hf w hw
    · exact hw
  · exact hg

@[simp] theorem State.sized_modSplit {r : WatchRef} {id : Nat} {f : Split → Split} (hf : ∀ p, p.sound → (f p).sound) :
    (s.modSplit r id f).Sized :=
  State.sized_modWatchOrImage h fun w hw => Watch.mapSplits_sound hw fun p hp => by
    split
    · exact hf p hp
    · exact hp

end

section
variable (s : State)

@[simp] theorem State.sized_setPc (pc : DWord) : (s.setPc pc).Sized ↔ s.Sized := Iff.rfl
@[simp] theorem State.sized_advance (n : Nat) : (s.advance n).Sized ↔ s.Sized := Iff.rfl
@[simp] theorem State.sized_hold (x : Wait) : (s.hold x).Sized ↔ s.Sized := Iff.rfl
@[simp] theorem State.sized_setRecord (r : RecordPart) : (s.setRecord r).Sized ↔ s.Sized := Iff.rfl
@[simp] theorem State.sized_setReg (r : Reg) (v : DWord) : (s.setReg r v).Sized ↔ s.Sized := Iff.rfl
@[simp] theorem State.sized_setRegField (r : Reg) (lo n v : Nat) : (s.setRegField r lo n v).Sized ↔ s.Sized := Iff.rfl
@[simp] theorem State.sized_raiseMsix (f v : Nat) : (s.raiseMsix f v).Sized ↔ s.Sized := Iff.rfl
@[simp] theorem State.sized_tick : s.tick.Sized ↔ s.Sized := Iff.rfl
@[simp] theorem State.sized_modLaunch (i : Nat) (f : Launch → Launch) : (s.modLaunch i f).Sized ↔ s.Sized := Iff.rfl

end

/-! ### Choices, loops and outcomes -/

@[simp] theorem State.sized_ite (c : Prop) [Decidable c] (a b : State) :
    (if c then a else b).Sized ↔ if c then a.Sized else b.Sized := by
  split <;> rfl

theorem Watch.sound_ite {c : Prop} [Decidable c] {a b : Watch} (ha : a.sound) (hb : b.sound) : (if c then a else b).sound := by
  split <;> assumption

/-- A loop whose body keeps the sizes keeps them. -/
@[simp] theorem State.sized_foldl {α : Type} {f : State → α → State} (hf : ∀ s a, s.Sized → (f s a).Sized) (l : List α)
    {s : State} (h : s.Sized) : (l.foldl f s).Sized :=
  List.foldlRecOn l f h fun u hu a _ => hf u a hu

/-- A loop whose body leaves every watch as it is leaves them so. -/
theorem State.sized_foldl_iff {α : Type} {f : State → α → State} (hf : ∀ s a, (f s a).Sized ↔ s.Sized) (l : List α) (s : State) :
    (l.foldl f s).Sized ↔ s.Sized := by
  induction l generalizing s with
  | nil => rfl
  | cons a l ih => rw [List.foldl_cons, ih, hf]

/-- The state that an outcome holds has watches of the right sizes. -/
def Out.Sized (o : Out) : Prop := ∀ t, o = .next t → t.Sized

@[simp] theorem Out.sized_next (t : State) : Out.Sized (.next t) ↔ t.Sized := ⟨fun h => h t rfl, fun h _ e => by cases e; exact h⟩
@[simp] theorem Out.sized_fault (x : Fault) : Out.Sized (.fault x) := fun _ e => by cases e
@[simp] theorem Out.sized_ite_iff (c : Prop) [Decidable c] (a b : Out) :
    Out.Sized (if c then a else b) ↔ if c then Out.Sized a else Out.Sized b := by
  split <;> rfl
theorem Out.sized_ite {c : Prop} [Decidable c] {a b : Out} (ha : Out.Sized a) (hb : Out.Sized b) : Out.Sized (if c then a else b) := by
  split <;> assumption

/-- The state in which a check ends an instruction, if it does, has watches of the right sizes. -/
def CheckSized (c : Option State) : Prop := ∀ t, c = some t → t.Sized

@[simp] theorem checkSized_some (t : State) : CheckSized (some t) ↔ t.Sized := ⟨fun h => h t rfl, fun h _ e => by cases e; exact h⟩
@[simp] theorem checkSized_none : CheckSized none := fun _ e => by cases e
@[simp] theorem checkSized_ite_iff (c : Prop) [Decidable c] (a b : Option State) :
    CheckSized (if c then a else b) ↔ if c then CheckSized a else CheckSized b := by
  split <;> rfl
theorem checkSized_ite {c : Prop} [Decidable c] {a b : Option State} (ha : CheckSized a) (hb : CheckSized b) :
    CheckSized (if c then a else b) := by
  split <;> assumption

theorem checkSized_findSome {α : Type} {f : α → Option State} (hf : ∀ a, CheckSized (f a)) (l : List α) :
    CheckSized (l.findSome? f) := by
  intro t e
  obtain ⟨a, -, ha⟩ := List.exists_of_findSome?_eq_some e
  exact hf a t ha

theorem checkSized_bind {α : Type} {o : Option α} {f : α → Option State} (hf : ∀ a, CheckSized (f a)) : CheckSized (o.bind f) := by
  intro t e
  obtain ⟨a, -, ha⟩ := Option.bind_eq_some_iff.1 e
  exact hf a t ha

theorem checkSized_getD {o : Option State} {t : State} (ho : CheckSized o) (ht : t.Sized) : (o.getD t).Sized := by
  cases o with
  | none => exact ht
  | some u => exact ho u rfl

@[simp] theorem sized_orElse {c : Option State} {k : Out} (hc : CheckSized c) (hk : Out.Sized k) : Out.Sized (orElse c k) := by
  cases c with
  | some t => exact (Out.sized_next t).2 (hc t rfl)
  | none => exact hk

/-- The state in which a read ends an instruction, if it does, has watches of the right sizes. -/
def Got.Sized {α : Type} (g : Got α) : Prop := ∀ t, g = .stop t → t.Sized

@[simp] theorem Got.sized_stop {α : Type} (t : State) : Got.Sized (.stop t : Got α) ↔ t.Sized :=
  ⟨fun h => h t rfl, fun h _ e => by cases e; exact h⟩
@[simp] theorem Got.sized_ok {α : Type} (a : α) : Got.Sized (.ok a) := fun _ e => by cases e

@[simp] theorem Got.sized_ite_iff {α : Type} (c : Prop) [Decidable c] (a b : Got α) :
    Got.Sized (if c then a else b) ↔ if c then Got.Sized a else Got.Sized b := by
  split <;> rfl
theorem Got.sized_ite {α : Type} {c : Prop} [Decidable c] {a b : Got α} (ha : Got.Sized a) (hb : Got.Sized b) :
    Got.Sized (if c then a else b) := by
  split <;> assumption

@[simp] theorem sized_andThen {α : Type} {g : Got α} {k : α → Out} (hg : Got.Sized g) (hk : ∀ a, Out.Sized (k a)) :
    Out.Sized (g.andThen k) := by
  cases g with
  | ok a => exact hk a
  | stop t => exact (Out.sized_next t).2 (hg t rfl)

/-- The state after work that was done has watches of the right sizes. -/
def Work.Sized (x : Work State) : Prop := ∀ t, x = .ok t → t.Sized

@[simp] theorem Work.sized_ok (t : State) : Work.Sized (.ok t) ↔ t.Sized := ⟨fun h => h t rfl, fun h _ e => by cases e; exact h⟩
@[simp] theorem Work.sized_fault (u a : Nat) : Work.Sized (.fault u a) := fun _ e => by cases e
@[simp] theorem Work.sized_poison (k a : Nat) : Work.Sized (.poison k a) := fun _ e => by cases e

@[simp] theorem Work.sized_ite_iff (c : Prop) [Decidable c] (a b : Work State) :
    Work.Sized (if c then a else b) ↔ if c then Work.Sized a else Work.Sized b := by
  split <;> rfl
theorem Work.sized_ite {c : Prop} [Decidable c] {a b : Work State} (ha : Work.Sized a) (hb : Work.Sized b) :
    Work.Sized (if c then a else b) := by
  split <;> assumption

/-- Work after other work keeps the sizes, if it does for every result that the other can have. -/
theorem Work.sized_bind_of {α : Type} {x : Work α} {f : α → Work State} (hf : ∀ a, x = .ok a → Work.Sized (f a)) :
    Work.Sized (x.bind f) := by
  intro t e
  obtain ⟨a, ha, e⟩ := Work.bind_eq_ok e
  exact hf a ha t e

@[simp] theorem Work.sized_bind_read {α : Type} (x : Work α) {f : α → Work State} (hf : ∀ a, Work.Sized (f a)) :
    Work.Sized (x.bind f) :=
  Work.sized_bind_of fun a _ => hf a

@[simp] theorem Work.sized_bind {x : Work State} {f : State → Work State} (hx : Work.Sized x)
    (hf : ∀ t, t.Sized → Work.Sized (f t)) : Work.Sized (x.bind f) :=
  Work.sized_bind_of fun t e => hf t (hx t e)

/-! ### Bytes -/

section
variable {s : State} (h : s.Sized)

theorem State.sized_openPage (k : Nat) : (s.openPage k).Sized ↔ s.Sized := by
  unfold State.openPage
  split <;> rfl

@[simp] theorem State.sized_followed (t : Trail) (k n : Nat) : (s.followed t k n).Sized ↔ s.Sized := by
  unfold State.followed
  split <;> rfl

include h

theorem State.sized_dropResv (k n : Nat) : (s.dropResv k n).Sized := by
  refine State.sized_mapWatches h fun w hw => Watch.sound_withLanes hw ?_ (forall_mem_map (Watch.sound_iff.1 hw).lane fun l hl => ?_)
  · rw [List.length_map, (Watch.sound_iff.1 hw).lanes]
  · unfold Lane.losesResv
    (repeat' split) <;> exact hl

@[simp] theorem State.sized_put (t : Trail) (k : Nat) (bs : List Byte) : (s.put t k bs).Sized := by
  unfold State.put
  split
  · exact h
  · exact (State.sized_followed _ _ _).2 (State.sized_dropResv ((State.sized_openPage k).2 h) _ _)

@[simp] theorem State.sized_write (k : Nat) (bs : List Byte) : (s.write k bs).Sized := State.sized_put h _ _ _

@[simp] theorem State.sized_putThrough (t : Trail) (k : Nat) (bs : List Byte) : (s.putThrough t k bs).Sized := by
  unfold State.putThrough
  dsimp only
  split <;> exact State.sized_put h _ _ _

@[simp] theorem State.sized_store (k n v : Nat) : (s.store k n v).Sized := State.sized_write h _ _

omit h in
theorem State.sized_vwriteFuel (tu dom : Nat) : ∀ (n : Nat) (s : State) (va : Nat) (bs : List Byte), s.Sized →
    (State.vwriteFuel n s tu dom va bs).Sized
  | 0, _, _, _, h => h
  | n + 1, s, va, bs, h => by
    unfold State.vwriteFuel
    split
    · exact h
    · refine State.sized_vwriteFuel tu dom n _ _ _ ?_
      split
      · exact State.sized_write h _ _
      · exact h

@[simp] theorem State.sized_vwrite (tu dom va : Nat) (bs : List Byte) : (s.vwrite tu dom va bs).Sized :=
  State.sized_vwriteFuel _ _ _ _ _ _ h

omit h in
@[simp] theorem State.sized_moveBytes (src dst n : Nat) : (s.moveBytes src dst n).Sized ↔ s.Sized := Iff.rfl

omit h in
@[simp] theorem State.sized_clearBytes (k n : Nat) : (s.clearBytes k n).Sized ↔ s.Sized := Iff.rfl

theorem State.sized_scramblePage (slot p : Nat) : (s.scramblePage slot p).Sized := h

@[simp] theorem State.sized_scramble (slot : Nat) : (s.scramble slot).Sized :=
  State.sized_foldl (fun _ _ hu => State.sized_scramblePage hu _ _) _ h

theorem State.sized_enterOne (e : LateWrite) : (s.enterOne e).Sized := by
  unfold State.enterOne
  extract_lets t
  have ht : t.Sized := by
    simp only [t]
    split
    · exact State.sized_put h _ _ _
    · exact State.sized_putThrough h _ _ _
  split <;> exact ht

@[simp] theorem State.sized_enterSome (sel : Nat → LateWrite → Bool) : (s.enterSome sel).Sized := by
  unfold State.enterSome
  dsimp only
  split
  · exact h
  · exact State.sized_foldl (fun _ e hu => State.sized_enterOne hu e) _ h

@[simp] theorem State.sized_enterAll : s.enterAll.Sized := State.sized_enterSome h _

@[simp] theorem State.sized_pathPut (t : Trail) (num : Nat) (whole : Nat × Nat) (k : Nat) (bs : List Byte) :
    (s.pathPut t num whole k bs).Sized := by
  unfold State.pathPut
  dsimp only
  (repeat' split) <;> simp [h]

@[simp] theorem State.sized_halfPut (t : Trail) (k : Nat) (high : Bool) (v : Nat) : (s.halfPut t k high v).Sized := by
  unfold State.halfPut
  dsimp only
  (repeat' split) <;> simp [h]

omit h in
@[simp] theorem State.sized_mapTrails (f : Trail → Trail) : (s.mapTrails f).Sized ↔ s.Sized := by
  unfold State.mapTrails
  split <;> rfl

@[simp] theorem State.sized_crossPaths (r : WatchRef) (split : Nat) (before : Trail → Bool) (y : Nat) :
    (s.crossPaths r split before y).Sized := by
  have hc : (s.crossSome before).Sized := (State.sized_mapTrails _).2 (State.sized_enterSome h _)
  unfold State.crossPaths State.barStale
  dsimp only
  split <;> exact hc

end

theorem Watch.empty_sound : Watch.empty.sound :=
  Watch.sound_iff.2
    { lanes := rfl, lane := fun l hl => List.eq_of_mem_replicate hl ▸ Lane.empty_sound
      ks := rfl, bears := rfl, shapes := rfl
      caddies := by simp [Watch.empty], sp := Split.empty_sound, sibs := by simp [Watch.empty] }

@[simp] theorem State.sized_off {s : State} : s.off.Sized :=
  ⟨Watch.empty_sound, fun _ hw => absurd hw List.not_mem_nil, fun _ hg => absurd hg List.not_mem_nil⟩

end Sys2Proof.Machine

namespace Sys2Proof.Machine

/-!
Operations that leave every watch as it is, or change watches in one place.
-/

@[simp] theorem State.sized_send (s : State) (o : Outgoing) : (s.send o).Sized ↔ s.Sized := Iff.rfl

@[simp] theorem State.sized_sendAll (s : State) (os : List Outgoing) : (s.sendAll os).Sized ↔ s.Sized :=
  State.sized_foldl_iff State.sized_send os s

@[simp] theorem State.sized_observe (s : State) (reader k n : Nat) : (s.observe reader k n).Sized ↔ s.Sized := Iff.rfl

@[simp] theorem State.sized_barStale (s : State) (r : WatchRef) (split : Nat) (sel : Trail → Bool) (y : Nat) :
    (s.barStale r split sel y).Sized ↔ s.Sized := by
  simp [State.barStale]

@[simp] theorem State.sized_tagTrails (s : State) (cmd : Nat) (k : Option Nat) : (s.tagTrails cmd k).Sized ↔ s.Sized := by
  simp [State.tagTrails]

@[simp] theorem State.sized_flipTrails (s : State) (k : Nat) (init : Bool) : (s.flipTrails k init).Sized ↔ s.Sized := by
  simp [State.flipTrails]

@[simp] theorem State.sized_seePhase (s : State) (k : Nat) (r : WatchRef) (split : Nat) :
    (s.seePhase k r split).Sized ↔ s.Sized := by
  simp [State.seePhase]

@[simp] theorem State.sized_keepBehind (s : State) (reader k n : Nat) : (s.keepBehind reader k n).Sized ↔ s.Sized := by
  simp [State.keepBehind]

@[simp] theorem State.sized_forgetByte (s : State) (n : Nat) : (s.forgetByte n).Sized ↔ s.Sized := Iff.rfl

@[simp] theorem State.sized_forgetKeys (s : State) (inside : Nat → Bool) : (s.forgetKeys inside).Sized ↔ s.Sized := Iff.rfl

@[simp] theorem State.sized_countLost (s : State) (r : Reg) : (s.countLost r).Sized ↔ s.Sized := Iff.rfl

@[simp] theorem State.sized_notifyDone (s : State) (dom : Nat) (notify : Bool) : (s.notifyDone dom notify).Sized ↔ s.Sized := by
  simp [State.notifyDone]

@[simp] theorem State.sized_nextSeq (s : State) (die : Nat) : (s.nextSeq die).Sized ↔ s.Sized := Iff.rfl

@[simp] theorem State.sized_enterPool (s : State) (dom : Nat) (node : Option Nat) (succ : List Nat) (home prio : Nat)
    (r : LaunchRec) (payload : Option DWord) (parent : Option (Nat × Nat)) : (s.enterPool dom node succ home prio r payload parent).Sized ↔ s.Sized :=
  Iff.rfl

@[simp] theorem State.sized_dropCounter (s : State) (dom idx : Nat) : (s.dropCounter dom idx).Sized ↔ s.Sized := by
  unfold State.dropCounter
  rfl

@[simp] theorem State.sized_setRow (s : State) (k : Nat) (r : AccRow) : (s.setRow k r).Sized ↔ s.Sized := Iff.rfl

@[simp] theorem State.sized_setCell (s : State) (k col v : Nat) : (s.setCell k col v).Sized ↔ s.Sized := Iff.rfl

@[simp] theorem State.sized_moveRows (s : State) (src dst n : Nat) : (s.moveRows src dst n).Sized ↔ s.Sized := Iff.rfl

@[simp] theorem State.sized_clearRows (s : State) (k n : Nat) : (s.clearRows k n).Sized ↔ s.Sized := Iff.rfl

@[simp] theorem State.sized_keepWatches {s : State} (h : s.Sized) (p : Watch → Bool) : (s.keepWatches p).Sized := by
  have ho : ∀ w ∈ s.others.filter p, w.sound := fun w hw => h.others w (List.mem_of_mem_filter hw)
  unfold State.keepWatches
  dsimp only
  split
  · exact ⟨h.ctx, ho, h.gangs⟩
  split
  · exact ⟨Watch.empty_sound, fun _ hw => absurd hw List.not_mem_nil, h.gangs⟩
  · next w ws e =>
    rw [e] at ho
    exact ⟨ho w List.mem_cons_self, fun v hv => ho v (List.mem_cons_of_mem _ hv), h.gangs⟩

@[simp] theorem State.sized_setSlice (s : State) (x : Slice) : (s.setSlice x).Sized ↔ s.Sized := Iff.rfl

@[simp] theorem State.sized_returnSwapped (s : State) (l g : Nat) : (s.returnSwapped l g).Sized ↔ s.Sized := by
  unfold State.returnSwapped
  split <;> simp

@[simp] theorem State.sized_pollSwapped (s : State) : s.pollSwapped.Sized ↔ s.Sized :=
  State.sized_foldl_iff (fun _ (_ : Gang) => State.sized_returnSwapped _ _ _) _ s

@[simp] theorem State.sized_joinFall (s : State) (p : Option (Nat × Nat)) : (s.joinFall p).Sized ↔ s.Sized := by
  unfold State.joinFall
  split <;> simp

@[simp] theorem State.sized_flushCount (s : State) (e : CountEntry) : (s.flushCount e).Sized ↔ s.Sized := by
  simp [State.flushCount]

@[simp] theorem State.sized_flushCounts (s : State) (p : CountEntry → Bool) : (s.flushCounts p).Sized ↔ s.Sized :=
  State.sized_foldl_iff State.sized_flushCount _ _

@[simp] theorem State.sized_tally (s : State) (core launch gang slot kind n : Nat) :
    (s.tally core launch gang slot kind n).Sized ↔ s.Sized := by
  unfold State.tally
  dsimp only
  split
  · exact State.sized_flushCounts _ _
  · refine (State.sized_flushCounts _ _).trans ?_
    (repeat' split)
    · exact State.sized_flushCounts _ _
    · rfl
    · rfl

@[simp] theorem State.sized_failLaunch {s : State} (h : s.Sized) (id : Nat) : (s.failLaunch id).Sized :=
  (State.sized_modLaunch _ _ _).2 (State.sized_filterGangs h _)

@[simp] theorem State.sized_settleBlock (s : State) (launch idx block : Nat) :
    (s.settleBlock launch idx block).Sized ↔ s.Sized := by
  unfold State.settleBlock
  (repeat' split) <;> simp

@[simp] theorem State.sized_focus {s : State} (h : s.Sized) (r : WatchRef) (id : Nat) : (s.focus r id).Sized := by
  unfold State.focus
  split
  · exact State.sized_withCtx h (Watch.focus_sound h.ctx)
  split
  · next w hw =>
    refine ⟨Watch.focus_sound (h.others w (List.mem_of_find?_eq_some hw)), fun v hv => ?_, h.gangs⟩
    obtain rfl | hv := List.mem_cons.1 hv
    · exact h.ctx
    · exact h.others v (List.mem_of_mem_filter hv)
  · exact h

@[simp] theorem State.sized_countNumeric (s : State) (w : WatchRef) (tid kind n : Nat) :
    (s.countNumeric w tid kind n).Sized ↔ s.Sized := by
  unfold State.countNumeric; split <;> simp

@[simp] theorem State.sized_fillFrame {s : State} (h : s.Sized) (r : WatchRef) (id : Nat) : (s.fillFrame r id).Sized := by
  have hm : ∀ (blks : Watch → List Nat) (w : Watch), w.sound →
      ({ w with caddies := w.caddies.map fun g => if g.id = id then { g with blks := blks w } else g } : Watch).sound :=
    fun blks w hw => Watch.mapCaddies_sound hw fun c hc => by split <;> exact hc
  unfold State.fillFrame
  split
  · dsimp only
    split
    · split
      · exact h
      · exact State.sized_modWatch h (hm fun w => (s.freeBlocks w.core _).take _)
    · exact State.sized_modWatch h (hm fun _ => [])
  · exact h

@[simp] theorem State.sized_fillFrames {s : State} (h : s.Sized) : s.fillFrames.Sized :=
  State.sized_foldl (fun _ (_ : WatchRef × Nat) hu => State.sized_fillFrame hu _ _) _ h

@[simp] theorem State.sized_pollBarrier {s : State} (h : s.Sized) (r : WatchRef) : (s.pollBarrier r).Sized := by
  have hr : ∀ (u : State) (c : Watch → Bool) (p : Wait → Bool), u.Sized →
      (u.mapWatches fun w => if c w then w.release p else w).Sized := fun u c p hu =>
    State.sized_mapWatches hu fun w hw => Watch.sound_ite (Watch.release_sound hw) hw
  unfold State.pollBarrier
  extract_lets inBlock inGang blk gng u
  have hu : u.Sized := by
    simp only [u]
    split
    · exact (State.sized_modGang_same _ (by exact fun _ => rfl)).2 (hr _ _ _ h)
    · exact h
  split
  · exact (State.sized_modGang_same _ (by exact fun _ => rfl)).2 (hr _ _ _ hu)
  · exact hu

@[simp] theorem State.sized_fillAt (s : State) (place k : Nat) (v : Nat → Byte) : (s.fillAt place k v).Sized ↔ s.Sized := by
  simp [State.fillAt]

@[simp] theorem State.sized_keepLine (s : State) (core : Nat) (places : List Nat) (k : Nat) :
    (s.keepLine core places k).Sized ↔ s.Sized := by
  simp [State.keepLine]

@[simp] theorem State.sized_keepCopy (s : State) (core : Nat) (places : List Nat) (hc : Bool) (k n : Nat) :
    (s.keepCopy core places hc k n).Sized ↔ s.Sized := by
  unfold State.keepCopy
  split
  · exact State.sized_foldl_iff (fun s i => State.sized_keepLine s core places _) _ s
  · rfl

@[simp] theorem State.sized_dropCopies (s : State) (core k n : Nat) : (s.dropCopies core k n).Sized ↔ s.Sized := Iff.rfl

@[simp] theorem State.sized_noteAltered (s : State) {t : State} (h : t.Sized) : (s.noteAltered t).Sized :=
  State.sized_mapGangs h fun g hg => by
    (repeat' split) <;> exact hg

@[simp] theorem State.sized_branchIf (s : State) (taken : Bool) (disp : BitVec 24) : (s.branchIf taken disp).Sized ↔ s.Sized := by
  simp [State.branchIf]

@[simp] theorem State.sized_joinCaddyQ (s : State) (b : Nat) (use : CaddyUse) : (s.joinCaddyQ b use).Sized ↔ s.Sized := Iff.rfl

@[simp] theorem State.sized_numeric (s : State) (kind n : Nat) : (s.numeric kind n).Sized ↔ s.Sized := by simp [State.numeric]

@[simp] theorem State.sized_saturate {s : State} (h : s.Sized) (m : Mask) : (s.saturate m).Sized :=
  (State.sized_numeric _ _ _).2 (State.sized_mapCtx h (Watch.setSatf_sound h.ctx))

@[simp] theorem State.sized_writeCtrcfg (s : State) (core n : Nat) (v : DWord) : (s.writeCtrcfg core n v).Sized ↔ s.Sized := by
  simp [State.writeCtrcfg]

@[simp] theorem State.sized_withdrawReqs {s : State} (h : s.Sized) : s.withdrawReqs.Sized := by
  have hw : (s.mapWatches fun w => if s.halted w then w.mapSplits (fun p => match p.wait with
      | .caddy _ => { p with wait := .none }
      | _ => p) else w).Sized := by
    refine State.sized_mapWatches h fun w hw => Watch.sound_ite (Watch.mapSplits_sound hw fun p hp => ?_) hw
    split <;> exact hp
  exact hw

@[simp] theorem State.sized_masksAfter {s : State} (h : s.Sized) (r : WatchRef) {left : List Mask} (hk : left.length = 7)
    (d : Option (BitVec 3)) (depth : Nat) (ret : Bool) : (s.masksAfter r left d depth ret).Sized := by
  unfold State.masksAfter
  split
  · exact State.sized_mapCtx h (Watch.masksAfter_sound h.ctx hk _ _ _)
  · exact h

@[simp] theorem State.sized_pushScalar {s : State} (h : s.Sized) (v : DWord) : (s.pushScalar v).Sized :=
  (State.sized_advance _ _).2 (State.sized_mapCtx h (Watch.pushUni_sound h.ctx))

@[simp] theorem State.sized_pushLanes {s : State} (h : s.Sized) (m : Mask) (t : Ty) (v : Nat → Nat) : (s.pushLanes m t v).Sized :=
  (State.sized_advance _ _).2 (State.sized_mapCtx h (Watch.pushVal_sound h.ctx))

@[simp] theorem State.sized_pushPair {s : State} (h : s.Sized) (m : Mask) (u v : Nat → Nat) : (s.pushPair m u v).Sized :=
  (State.sized_advance _ _).2 (State.sized_mapCtx h (Watch.push_sound (Watch.push_sound h.ctx)))

@[simp] theorem State.sized_countNans (s : State) (m : Mask) (made : Nat → Bool) : (s.countNans m made).Sized ↔ s.Sized := by
  simp [State.countNans]

@[simp] theorem State.sized_pushCombined {s : State} (h : s.Sized) (f : FmtA) (m : Mask) (v : Nat → Combined) :
    (s.pushCombined f m v).Sized := by
  refine State.sized_pushLanes ((State.sized_countNans _ _ _).2 ?_) _ _ _
  split
  · exact h
  · exact State.sized_saturate h _

@[simp] theorem State.sized_startBear {s : State} (h : s.Sized) (bd : Option (BitVec 3)) {f : Nat → Watch → Watch}
    (hf : ∀ id w, w.sound → (f id w).sound) : (s.startBear bd f).Sized :=
  (State.sized_advance _ _).2 (State.sized_mapCtx ((State.sized_tick s).2 h) (Watch.sound_withFlights (hf _ _ h.ctx)))

@[simp] theorem State.sized_overflowBear (s : State) (b : Bool) : (s.overflowBear b).Sized ↔ s.Sized := by
  unfold State.overflowBear
  split
  · exact State.sized_numeric _ _ _
  · rfl

@[simp] theorem State.sized_writeNormed {s : State} (h : s.Sized) (bd : BitVec 3) (n : Normed) : (s.writeNormed bd n).Sized :=
  State.sized_startBear (by simpa using h) _ fun _ _ hw => Watch.setBear_sound hw

@[simp] theorem State.sized_writeNan {s : State} (h : s.Sized) (bd : BitVec 3) (made : Bool) : (s.writeNan bd made).Sized :=
  State.sized_startBear (by simpa using h) _ fun _ _ hw => Watch.setBear_sound hw

@[simp] theorem State.sized_noteClamp (s : State) (clamped : Bool) : (s.noteClamp clamped).Sized ↔ s.Sized := by
  simp [State.noteClamp]

@[simp] theorem State.sized_release (s : State) (rel : Bool) (scope : Nat) (ps : List Part) :
    (s.release rel scope ps).Sized ↔ s.Sized := by
  simp [State.release]

@[simp] theorem State.sized_retain (s : State) (r : Retained) (ways : Nat) : (s.retain r ways).Sized ↔ s.Sized := by
  simp [State.retain]

@[simp] theorem State.sized_sampleOne (s : State) (salt k : Nat) : (s.sampleOne salt k).Sized ↔ s.Sized := by
  unfold State.sampleOne
  dsimp only
  (repeat' split) <;> simp

@[simp] theorem State.sized_sampleFill (s : State) (evict : BitVec 3) (salt : Nat) (t : Target) :
    (s.sampleFill evict salt t).Sized ↔ s.Sized := by
  unfold State.sampleFill
  split
  · rfl
  · dsimp only
    exact State.sized_foldl_iff (fun _ _ => State.sized_sampleOne _ _ _) _ s

@[simp] theorem State.sized_pushLoads {s : State} (h : s.Sized) (m : Mask) (unit : UnitKind) (va : Nat → Nat)
    (ts : List (Nat × Target)) (vals : List (Nat × List Nat)) : (s.pushLoads m unit va ts vals).Sized :=
  State.sized_withCtx h (Watch.sound_withFlights (Watch.pushEach_sound h.ctx))

@[simp] theorem State.sized_dropLaneResv {s : State} (h : s.Sized) (l : Nat) : (s.dropLaneResv l).Sized := by
  have hw := Watch.sound_iff.1 h.ctx
  refine State.sized_mapCtx h (Watch.sound_withLanes h.ctx ?_ (forall_mem_modAt ?_ _ hw.lane))
  · rw [modAt_length, hw.lanes]
  · exact fun _ hl => hl

@[simp] theorem State.sized_pushOlds {s : State} (h : s.Sized) (t : Ty) (va : Nat → Nat) (ts : List (Nat × Target))
    (olds : List (Nat × List Byte)) : (s.pushOlds t va ts olds).Sized :=
  (State.sized_advance _ _).2 (State.sized_pushLoads h _ _ _ _ _)

@[simp] theorem State.sized_noteUse (s : State) (k : Nat) : (s.noteUse k).Sized ↔ s.Sized := by
  unfold State.noteUse
  dsimp only
  split <;> exact State.sized_release _ _ _ _

@[simp] theorem State.sized_noteInit (s : State) (k : Nat) : (s.noteInit k).Sized ↔ s.Sized := by simp [State.noteInit]

@[simp] theorem State.sized_claimHalves (s : State) (g : Agent) (hs : List Nat) : (s.claimHalves g hs).Sized ↔ s.Sized := by
  unfold State.claimHalves; split <;> rfl

@[simp] theorem State.sized_countConverted (s : State) (w : WatchRef) (tid : Nat) (c : Converted) :
    (s.countConverted w tid c).Sized ↔ s.Sized := by
  simp [State.countConverted]

@[simp] theorem State.sized_charge (s : State) (dom pj : Nat) : (s.charge dom pj).Sized ↔ s.Sized := Iff.rfl

@[simp] theorem State.sized_modCmd (s : State) (id : Nat) (f : EngCmd → EngCmd) : (s.modCmd id f).Sized ↔ s.Sized := Iff.rfl

@[simp] theorem State.sized_setAnchored (s : State) (k col v : Nat) : (s.setAnchored k col v).Sized ↔ s.Sized := Iff.rfl

@[simp] theorem State.sized_addTerms (s : State) (k col : Nat) (ps : List FVal) : (s.addTerms k col ps).Sized ↔ s.Sized := by
  simp [State.addTerms]

theorem State.sized_addPass {s : State} {c : MatCmd} {rank : Nat} {gs : List Nat} {first cols toCol : Nat} {u : State × Bool}
    (e : s.addPass c rank gs first cols toCol = .ok u) : u.1.Sized ↔ s.Sized := by
  obtain ⟨xs, _, e⟩ := Work.bind_eq_ok e
  obtain ⟨ys, _, e⟩ := Work.bind_eq_ok e
  cases e
  refine List.foldlRecOn (motive := fun r : State × Bool => r.1.Sized ↔ s.Sized) _ _ Iff.rfl fun r hr x _ => ?_
  refine List.foldlRecOn (motive := fun r : State × Bool => r.1.Sized ↔ s.Sized) _ _ hr fun r hr y _ => ?_
  exact (State.sized_addTerms _ _ _ _).trans hr

@[simp] theorem State.sized_readmitFuel : ∀ (n : Nat) (s : State), (State.readmitFuel n s).Sized ↔ s.Sized
  | 0, _ => Iff.rfl
  | n + 1, s => by
    unfold State.readmitFuel
    split
    · exact State.sized_readmitFuel n _
    · rfl

@[simp] theorem State.sized_readmit (s : State) : s.readmit.Sized ↔ s.Sized := State.sized_readmitFuel _ s

@[simp] theorem State.sized_modMat (s : State) (id : Nat) (f : MatCmd → MatCmd) : (s.modMat id f).Sized ↔ s.Sized := Iff.rfl

@[simp] theorem State.sized_noteArrays (s : State) (c : MatCmd) (arrays : List Nat) :
    (s.noteArrays c arrays).Sized ↔ s.Sized := by
  simp [State.noteArrays]

@[simp] theorem State.sized_initRow (s : State) (k : Nat) (anchor : BitVec 10) : (s.initRow k anchor).Sized ↔ s.Sized := Iff.rfl

@[simp] theorem State.sized_zeroRead (s : State) (c : MatCmd) : (s.zeroRead c).Sized ↔ s.Sized :=
  State.sized_foldl_iff (fun u _ => State.sized_foldl_iff (fun v _ => by simp) _ u) _ s

@[simp] theorem State.sized_addWatch {s : State} (h : s.Sized) {w : Watch} (hw : w.sound) : (s.addWatch w).Sized := by
  unfold State.addWatch
  split
  · refine ⟨h.ctx, fun v hv => ?_, h.gangs⟩
    obtain hv | hv := List.mem_append.1 hv
    · exact h.others v hv
    · exact List.mem_singleton.1 hv ▸ hw
  · exact State.sized_withCtx h hw

@[simp] theorem State.sized_startBlock {s : State} (h : s.Sized) (l : Launch) (idx block core : Nat) (o : Offer) :
    (s.startBlock l idx block core o).Sized := by
  refine State.sized_foldl (fun u v hu => ?_) _ h
  exact State.sized_addWatch hu startWatch_sound

@[simp] theorem State.sized_restoreBlock {s : State} (h : s.Sized) {ws : List Watch} (hw : ∀ w ∈ ws, w.sound) (core : Nat) (o : Offer) :
    (s.restoreBlock ws core o).Sized := by
  refine List.foldlRecOn (motive := fun u : State => u.Sized) _ _ h fun u hu x hx => ?_
  have hx : x.2.sound := forall_mem_mapFrom (Q := fun x : Nat × Watch => x.2.sound) hw (fun _ _ hw => hw) 0 x hx
  have hc : ({ x.2 with core := core, slot := o.slots.getD x.1 0 } : Watch).sound := Watch.sound_iff.2 { Watch.sound_iff.1 hx with }
  exact State.sized_addWatch hu (State.refeature_sound (State.rehouse_sound hc u) u)

@[simp] theorem State.sized_setPstat (s : State) (core dom st : Nat) : (s.setPstat core dom st).Sized ↔ s.Sized := Iff.rfl

@[simp] theorem State.sized_dropPreempt (s : State) (core dom : Nat) : (s.dropPreempt core dom).Sized ↔ s.Sized := Iff.rfl

@[simp] theorem State.sized_notePstat (s : State) (core dom st : Nat) : (s.notePstat core dom st).Sized ↔ s.Sized := by
  simp [State.notePstat]

@[simp] theorem State.sized_hardStep (s : State) (core dom : Nat) : (s.hardStep core dom).Sized ↔ s.Sized := by
  unfold State.hardStep; split <;> simp

@[simp] theorem State.sized_hardRequest (s : State) (core dom : Nat) : (s.hardRequest core dom).Sized ↔ s.Sized := by
  simp [State.hardRequest]

@[simp] theorem State.sized_nextSlice : ∀ (fuel : Nat) (s : State) (core i : Nat), (State.nextSlice fuel s core i).Sized ↔ s.Sized
  | 0, _, _, _ => by simp [State.nextSlice]
  | fuel + 1, s, core, i => by
    unfold State.nextSlice
    split
    · rfl
    · dsimp only
      split <;> simp [State.sized_nextSlice fuel]

@[simp] theorem State.sized_pollSlice (s : State) (x : Slice) : (s.pollSlice x).Sized ↔ s.Sized := by
  unfold State.pollSlice
  split <;> simp

@[simp] theorem State.sized_addDebt (s : State) (core dom n : Nat) : (s.addDebt core dom n).Sized ↔ s.Sized := Iff.rfl

@[simp] theorem State.sized_lendErr (s : State) (core : Nat) : (s.lendErr core).Sized ↔ s.Sized := Iff.rfl

@[simp] theorem State.sized_modSight (s : State) (die : Nat) (f : Sight → Sight) : (s.modSight die f).Sized ↔ s.Sized := Iff.rfl

@[simp] theorem State.sized_noteDrain {s : State} (h : s.Sized) (core : Nat) : (s.noteDrain core).Sized :=
  State.sized_mapGangs h fun g hg => by split <;> exact hg

@[simp] theorem State.sized_endTest (s : State) (die core : Nat) (fenced : Bool) : (s.endTest die core fenced).Sized ↔ s.Sized :=
  Iff.rfl

@[simp] theorem State.sized_pollClock (s : State) : s.pollClock.Sized ↔ s.Sized := by simp [State.pollClock]

@[simp] theorem State.sized_fillTlb (s : State) (e : TlbEntry) (replaced : Option (Nat × Nat)) :
    (s.fillTlb e replaced).Sized ↔ s.Sized :=
  Iff.rfl

@[simp] theorem State.sized_fillWalk (s : State) (e : WalkEntry) : (s.fillWalk e).Sized ↔ s.Sized := Iff.rfl

@[simp] theorem State.sized_keepReads (s : State) (die dom vpage : Nat) : (s.keepReads die dom vpage).Sized ↔ s.Sized := by
  unfold State.keepReads
  split
  · split
    · rfl
    · exact State.sized_foldl_iff State.sized_fillWalk _ s
  · rfl

@[simp] theorem State.sized_invalidate (s : State) (dom kind count : Nat) : (s.invalidate dom kind count).Sized ↔ s.Sized := by
  simp [State.invalidate]

@[simp] theorem State.sized_idtErr (s : State) : s.idtErr.Sized ↔ s.Sized := Iff.rfl

@[simp] theorem State.sized_idtMap (s : State) (outer : Bool) (page frame : Nat) :
    (s.idtMap outer page frame).Sized ↔ s.Sized := by
  unfold State.idtMap
  dsimp only
  (repeat' split) <;> rfl

@[simp] theorem State.sized_setPin (s : State) (page : Nat) (v : Bool) : (s.setPin page v).Sized ↔ s.Sized := Iff.rfl

@[simp] theorem State.sized_present (s : State) (die page n : Nat) : (s.present die page n).Sized ↔ s.Sized := by
  unfold State.present
  dsimp only
  (repeat' split) <;> rfl

@[simp] theorem State.sized_promote (s : State) (die page : Nat) : (s.promote die page).Sized ↔ s.Sized := by
  unfold State.promote
  dsimp only
  (repeat' split) <;> rfl

@[simp] theorem State.sized_startRetire (s : State) (slot : Nat) : (s.startRetire slot).Sized ↔ s.Sized := by
  simp [State.startRetire]

@[simp] theorem State.sized_sendAborts (s : State) (c : EngCmd) : (s.sendAborts c).Sized ↔ s.Sized := by
  unfold State.sendAborts; split <;> simp

@[simp] theorem State.sized_clearCounters (s : State) (dom : Nat) : (s.clearCounters dom).Sized ↔ s.Sized := Iff.rfl

@[simp] theorem State.sized_enableDomain (s : State) (dom : Nat) : (s.enableDomain dom).Sized ↔ s.Sized := by
  simp [State.enableDomain]

@[simp] theorem State.sized_notifyQueue (s : State) (q : Nat) : (s.notifyQueue q).Sized ↔ s.Sized := by simp [State.notifyQueue]

@[simp] theorem State.sized_modServed (s : State) (q : Nat) (f : Served → Served) : (s.modServed q f).Sized ↔ s.Sized := Iff.rfl

@[simp] theorem State.sized_dropServed (s : State) (q : Nat) : (s.dropServed q).Sized ↔ s.Sized := Iff.rfl

@[simp] theorem State.sized_modCp (s : State) (cp : Nat) (f : CmdProc → CmdProc) : (s.modCp cp f).Sized ↔ s.Sized := Iff.rfl

@[simp] theorem State.sized_releaseCp (s : State) (q : Nat) : (s.releaseCp q).Sized ↔ s.Sized := Iff.rfl

@[simp] theorem State.sized_writeQuota (s : State) (kind : QuotaKind) (core dom : Nat) (v : DWord) :
    (s.writeQuota kind core dom v).Sized ↔ s.Sized := by
  simp [State.writeQuota]

@[simp] theorem State.sized_writePart (s : State) (dom : Nat) (v : DWord) : (s.writePart dom v).Sized ↔ s.Sized := by
  simp [State.writePart]

@[simp] theorem State.sized_writeQrange (s : State) (dom : Nat) (v : DWord) : (s.writeQrange dom v).Sized ↔ s.Sized := by
  simp [State.writeQrange]

@[simp] theorem State.sized_writeCtrown (s : State) (core : Nat) (v : DWord) : (s.writeCtrown core v).Sized ↔ s.Sized :=
  State.sized_foldl_iff (fun u n => by split <;> rfl) _ s

@[simp] theorem State.sized_writeRsvctl (s : State) (die dom n : Nat) (v : DWord) : (s.writeRsvctl die dom n v).Sized ↔ s.Sized :=
  Iff.rfl

@[simp] theorem State.sized_writeEqring (s : State) (dom : Option Nat) (v : DWord) : (s.writeEqring dom v).Sized ↔ s.Sized := by
  unfold State.writeEqring; split <;> rfl

@[simp] theorem State.sized_writeHead (s : State) (r : Reg) (v : DWord) : (s.writeHead r v).Sized ↔ s.Sized := Iff.rfl

@[simp] theorem State.sized_enableQueue (s : State) (q : Nat) : (s.enableQueue q).Sized ↔ s.Sized := by simp [State.enableQueue]

@[simp] theorem State.sized_writeQctl (s : State) (q : Nat) (v : DWord) : (s.writeQctl q v).Sized ↔ s.Sized := by
  simp [State.writeQctl]

@[simp] theorem State.sized_clearOnes (s : State) (r : Reg) (bits v : DWord) : (s.clearOnes r bits v).Sized ↔ s.Sized := Iff.rfl

@[simp] theorem State.sized_writeInvctl (s : State) (dom : Nat) (v : DWord) : (s.writeInvctl dom v).Sized ↔ s.Sized := by
  simp [State.writeInvctl]

@[simp] theorem State.sized_goToClock (s : State) (mhz : Nat) : (s.goToClock mhz).Sized ↔ s.Sized := by simp [State.goToClock]

@[simp] theorem State.sized_recovery (s : State) (code stage versions : Nat) : (s.recovery code stage versions).Sized ↔ s.Sized :=
  Iff.rfl

@[simp] theorem State.sized_train (s : State) (i : FlashImage) (err : Nat) (failed : List ModulePart) :
    (s.train i err failed).Sized ↔ s.Sized := by
  unfold State.train
  split
  · exact State.sized_recovery _ _ _ _
  split
  · exact State.sized_recovery _ _ _ _
  · extract_lets bad u
    have hu : u.Sized ↔ s.Sized := State.sized_foldl_iff (fun u c => State.sized_setRegField u _ _ _ _) _ s
    clear_value u
    exact hu

@[simp] theorem State.sized_poisonBytes (s : State) (k n : Nat) : (s.poisonBytes k n).Sized ↔ s.Sized := by
  unfold State.poisonBytes
  rfl

end Sys2Proof.Machine

namespace Sys2Proof.Machine

/-! ### Late bytes, records, nodes, launches and traps -/

section

variable {s : State} (h : s.Sized)

include h

@[simp] theorem State.sized_enterGang {launch gang : Nat} : (s.enterGang launch gang).Sized := by
  simp [State.enterGang, State.sized_enterSome, h]

@[simp] theorem State.sized_crossSome {sel : Trail → Bool} : (s.crossSome sel).Sized := by
  simp [State.crossSome, State.sized_enterSome, h]

@[simp] theorem State.sized_crossPhase {k : Nat} : (s.crossPhase k).Sized := by simp [State.crossPhase, h]

@[simp] theorem State.sized_crossLaunch {launch : Nat} : (s.crossLaunch launch).Sized := State.sized_enterSome h _

@[simp] theorem State.sized_enterHere {inside : Nat → Bool} : (s.enterHere inside).Sized := by
  simp [State.enterHere, State.sized_enterSome, h]

@[simp] theorem State.sized_domainRecord {dom : Nat} {r : ErrRec} : (s.domainRecord dom r).Sized := by
  simp only [State.domainRecord]
  (repeat' split) <;> simp [State.sized_write, h]

@[simp] theorem State.sized_physRecord {r : ErrRec} {virt : Bool} : (s.physRecord r virt).Sized := by
  simp [State.physRecord, State.sized_write, h]

@[simp] theorem State.sized_record {r : ErrRec} : (s.record r).Sized := by
  simp only [State.record]
  (repeat' split) <;> simp [h]

@[simp] theorem State.sized_changeSignal {k : Nat} {c : SigChange} : (s.changeSignal k c).Sized := by
  unfold State.changeSignal
  (repeat' split) <;> simp [State.sized_store, h]

@[simp] theorem State.sized_signal {launch dom va : Nat} {c : SigChange} {notify : Bool} :
    (s.signal launch dom va c notify).Sized := by
  unfold State.signal
  (repeat' split) <;> simp [h]

@[simp] theorem State.sized_setNodeState {dom idx v : Nat} : (s.setNodeState dom idx v).Sized := by
  simp [State.setNodeState, State.sized_vwrite, h]

@[simp] theorem State.sized_writeBack {die : Nat} : (s.writeBack die).Sized :=
  State.sized_foldl (fun _ _ hu => State.sized_vwrite hu _ _ _ _) _ h

@[simp] theorem State.sized_touchCounter {die dom idx : Nat} : (s.touchCounter die dom idx).Sized :=
  State.sized_writeBack (by exact h)

@[simp] theorem State.sized_putNode {n : Node} : (s.putNode n).Sized := State.sized_touchCounter (by exact h)

@[simp] theorem State.sized_nodeReady {n : Node} : (s.nodeReady n).Sized := by
  unfold State.nodeReady
  rw [State.sized_enterPool]
  exact State.sized_touchCounter (State.sized_setNodeState (State.sized_vwrite (by exact h) _ _ _ _))

@[simp] theorem State.sized_insertNode {n : Node} : (s.insertNode n).Sized := by
  unfold State.insertNode
  extract_lets va s1 s2 s3
  have h2 : s2.Sized := State.sized_vwrite (State.sized_vwrite h _ _ _ _) _ _ _ _
  have h3 : s3.Sized := by
    simp only [s3]
    split <;> exact h2
  split
  · exact State.sized_nodeReady h3
  · exact State.sized_putNode (State.sized_setNodeState h3)

@[simp] theorem State.sized_decNode {dom idx n : Nat} : (s.decNode dom idx n).Sized := by
  unfold State.decNode
  (repeat' split) <;> simp [h]

omit h in
@[simp] theorem State.sized_addCounts {dom buf : Nat} :
    ∀ {es : List EventCount} {s : State}, s.Sized → (s.addCounts dom buf es).Sized
  | [], _, h => h
  | _ :: _, _, h => by
    unfold State.addCounts
    exact State.sized_addCounts (State.sized_vwrite h _ _ _ _)

omit h in
@[simp] theorem State.sized_releaseAll {dom : Nat} :
    ∀ {is : List Nat} {s : State}, s.Sized → (s.releaseAll dom is).Sized
  | [], _, h => h
  | _ :: _, _, h => by
    unfold State.releaseAll
    exact State.sized_releaseAll (State.sized_decNode h)

@[simp] theorem State.sized_endLaunch {l : Launch} {quiet : Bool} : (s.endLaunch l quiet).Sized := by
  unfold State.endLaunch
  split
  · extract_lets s1 s2 s3 s4
    have h1 : s1.Sized := by simp only [s1]; split <;> simp [h]
    have h2 : s2.Sized := by rwa [State.sized_modLaunch]
    have h4 : s4.Sized := State.sized_record (State.sized_signal h2)
    (repeat' split) <;> simp [h4, h2]
  · extract_lets s1 s2 s3 s4 s5
    have h2 : s2.Sized := by simp only [s1, s2]; split <;> simp [h]
    have h3 : s3.Sized := by rwa [State.sized_modLaunch]
    have h4 : s4.Sized := State.sized_releaseAll h3
    rw [State.sized_joinFall]
    exact State.sized_signal h4

@[simp] theorem State.sized_settleLaunch {id : Nat} {quiet : Bool} : (s.settleLaunch id quiet).Sized := by
  unfold State.settleLaunch
  split <;> simp [h]

@[simp] theorem State.sized_dropImage {launch idx : Nat} : (s.dropImage launch idx).Sized := by
  simp [State.dropImage, State.sized_clearBytes, h]

@[simp] theorem State.sized_dropGang {launch idx : Nat} : (s.dropGang launch idx).Sized := by
  have hk := State.sized_keepWatches (State.sized_enterGang h (launch := launch) (gang := idx)) fun w => !w.of launch idx
  unfold State.dropGang
  exact State.sized_dropImage hk (launch := launch) (idx := idx)

/-- New nodes leave memory as it is, whatever the state that they are put in: for a state that is long to evaluate. -/
theorem State.sized_withNodes {ns : List Node} : ({ s with nodes := ns } : State).Sized := h

@[simp] theorem State.sized_failNode {n : Node} : (s.failNode n).Sized := by
  refine State.sized_withNodes ?_
  rw [State.sized_dropCounter]
  exact State.sized_setNodeState h

omit h in
/-- The kids of a killed gang are settled with what each kid's own gangs leave. -/
@[simp] theorem State.sized_killGangFuel : ∀ {fuel : Nat} {s : State} {launch idx : Nat} {again quiet : Bool},
    s.Sized → (State.killGangFuel fuel s launch idx again quiet).Sized
  | 0, _, _, _, _, _, h => h
  | fuel + 1, s, launch, idx, again, quiet, h => by
    unfold State.killGangFuel
    extract_lets s1 kids kidNodes s2 s3 s4 s5
    have h2 : s2.Sized := by
      refine State.sized_foldl (fun u n hu => ?_) _ (State.sized_dropGang h)
      exact State.sized_record (State.sized_signal (State.sized_failNode hu))
    have h3 : s3.Sized := by
      refine State.sized_foldl (fun u l hu => ?_) _ h2
      exact State.sized_settleLaunch (State.sized_foldl (fun v g hv => State.sized_killGangFuel hv) _ (by rwa [State.sized_modLaunch]))
    have h4 : s4.Sized := by rwa [State.sized_modLaunch]
    split
    · exact State.sized_modGang h4 fun g _ w hw => absurd hw List.not_mem_nil
    · exact State.sized_settleLaunch (State.sized_failLaunch (State.sized_filterGangs h4 _) _)

@[simp] theorem State.sized_killGang {launch idx : Nat} {mayRelaunch : Bool} : (s.killGang launch idx mayRelaunch).Sized := by
  simp [State.killGang, h]

@[simp] theorem State.sized_endGang {launch idx : Nat} : (s.endGang launch idx).Sized := by
  have hf := (State.sized_flushCounts s fun e => e.launch == launch && e.gang == idx).2 h
  unfold State.endGang
  dsimp only
  split
  · refine State.sized_settleLaunch (State.sized_filterGangs ?_ _)
    split
    · exact hf
    · exact State.sized_addCounts hf
  · exact hf

@[simp] theorem State.sized_settleGang {launch idx : Nat} : (s.settleGang launch idx).Sized := by
  unfold State.settleGang
  split <;> simp [h]

@[simp] theorem State.sized_byRegister {f : State → State} (hf : (f s).Sized) : Out.Sized (s.byRegister f) := by
  simp [State.byRegister, h, hf]

@[simp] theorem State.sized_countOne {core dom ev n i : Nat} : (s.countOne core dom ev n i).Sized := by
  simp only [State.countOne]
  (repeat' split) <;> simp [h]

@[simp] theorem State.sized_countEvent {core dom ev n : Nat} : (s.countEvent core dom ev n).Sized := by
  simp +contextual [State.countEvent, h]

@[simp] theorem State.sized_endCtx : s.endCtx.Sized := by simp [State.endCtx, h]

@[simp] theorem State.sized_killForTrap {cause : Nat} {detail : DWord} : (s.killForTrap cause detail).Sized := by
  simp [State.killForTrap, h]

@[simp] theorem State.sized_countTrap : s.countTrap.Sized := by simp [State.countTrap, h]

omit h in
@[simp] theorem State.sized_trapFuel : ∀ {fuel : Nat} {s : State} {cause : Nat} {mask : Mask} {detail : DWord} {len : Nat},
    s.Sized → (State.trapFuel fuel s cause mask detail len).Sized
  | 0, _, _, _, _, _, h => State.sized_killForTrap h
  | fuel + 1, s, cause, mask, detail, len, h => by
    unfold State.trapFuel
    extract_lets s1 w
    have h1 : s1.Sized := State.sized_countTrap h
    have hv : ∀ fid pc, ({ s1 with ctx := w.enterHandler fid cause mask detail pc len, fresh := s1.fresh + 1 } : State).Sized :=
      fun fid pc => State.sized_withCtx h1 (Watch.enterHandler_sound h1.ctx)
    split
    · exact State.sized_killForTrap h1
    split
    · next f below e =>
      obtain ⟨hf, hk, hb⟩ := gateBelow_mem e
      have hfs : ∀ f ∈ w.sp.frames, f.sound := Watch.sound_frames h1.ctx
      dsimp only
      split
      · exact State.sized_trapFuel (State.sized_mapCtx h1 (Watch.abortGate_sound h1.ctx (hfs f hf) hk fun g hg => hfs g (hb g hg)))
      split
      · exact hv _ _
      · exact State.sized_killForTrap h1
    split
    · exact State.sized_killForTrap h1
    split
    · exact hv _ _
    · exact State.sized_killForTrap h1

@[simp] theorem State.sized_takeTrapLen {cause : Nat} {mask : Mask} {detail : DWord} {len : Nat} :
    (s.takeTrapLen cause mask detail len).Sized := by simp [State.takeTrapLen, h]

@[simp] theorem State.sized_takeTrap {cause : Nat} {mask : Mask} {detail : DWord} : (s.takeTrap cause mask detail).Sized := by
  simp [State.takeTrap, h]

@[simp] theorem State.sized_takeTrapFree {cause : Nat} {mask : Mask} : (s.takeTrapFree cause mask).Sized := by
  simp [State.takeTrapFree, h]

@[simp] theorem State.sized_domainTrap {mask : Mask} {detail : DWord} : (s.domainTrap mask detail).Sized := by
  simp [State.domainTrap, h]

@[simp] theorem State.sized_consumePoison {dom core : Nat} {r : WatchRef} {sub addr : Nat} :
    (s.consumePoison dom core r sub addr).Sized := by simp [State.consumePoison, h]

@[simp] theorem State.sized_parityKill : s.parityKill.Sized := by simp [State.parityKill, h]

@[simp] theorem State.sized_enter {g : Option Nat} {maj : Nat} {k : State → Out} (hk : Out.Sized (k s)) :
    Out.Sized (s.enter g maj k) := by
  unfold State.enter
  (repeat' split) <;> simp [h, hk]

@[simp] theorem State.sized_vecFront {m : Mask} {srcs : List Src} : CheckSized (s.vecFront m srcs) := by
  simp only [State.vecFront]
  (repeat' split) <;> simp [h]

@[simp] theorem State.sized_uniFront {srcs : List Src} : CheckSized (s.uniFront srcs) := by
  unfold State.uniFront
  split <;> simp [h]

@[simp] theorem State.sized_sendReq {e : PageReq} : (s.sendReq e).Sized := by
  unfold State.sendReq
  extract_lets size tail head va
  split
  · exact h
  split
  · exact h
  · extract_lets u
    have hu : u.Sized := (State.sized_setReg _ _ _).2 (State.sized_write h _ _)
    clear_value u
    exact hu

@[simp] theorem State.sized_sendReqs {dom : Nat} : (s.sendReqs dom).Sized := by simp +contextual [State.sendReqs, h]

@[simp] theorem State.sized_pageReq {dom vpage : Nat} {write engine : Bool} {w : Waiter} :
    (s.pageReq dom vpage write engine w).Sized := by
  unfold State.pageReq
  (repeat' split) <;> simp [h]

@[simp] theorem State.sized_holdPage {dom vpage : Nat} {write : Bool} : (s.holdPage dom vpage write).Sized := by
  simp [State.holdPage, h]

@[simp] theorem State.sized_unmappedPage {r : WatchRef} {key : Nat} : (s.unmappedPage r key).Sized := by
  simp [State.unmappedPage, h]

@[simp] theorem State.sized_writeThrough {k : Nat} {bs : List Byte} : (s.writeThrough k bs).Sized := by
  simp [State.writeThrough, State.sized_putThrough, h]

@[simp] theorem State.sized_writeOpen {dom va : Nat} {bs : List (Option Byte)} : (s.writeOpen dom va bs).Sized :=
  State.sized_vwrite h _ _ _ _

@[simp] theorem State.sized_saveGate {launch gang : Nat} {ref : WatchRef} {d : GateDesc} {v : Watch} :
    (s.saveGate launch gang ref d v).Sized := by
  simp [State.saveGate, h]

@[simp] theorem State.sized_saveGates {w : Watch} : (s.saveGates w).Sized := by simp +contextual [State.saveGates, h]

@[simp] theorem State.sized_writeImage {l : Launch} {g : Gang} : (s.writeImage l g).Sized := by
  simp +contextual [State.writeImage, h]

omit h in
@[simp] theorem State.sized_moveBlocks {f t fa ta : Nat → Nat} {bytes rows : Nat} :
    ∀ {b : Nat} {s : State}, s.Sized → (s.moveBlocks f t fa ta bytes rows b).Sized
  | 0, _, h => h
  | _ + 1, _, h => by
    rw [State.moveBlocks, State.sized_moveRows, State.sized_moveBytes]
    exact State.sized_moveBlocks h

theorem State.imagesOf_sound {launch idx : Nat} {joined : Bool} : ∀ w ∈ s.imagesOf launch idx joined, w.sound := by
  have hi : ∀ w ∈ ((s.watches.filter (fun w => w.of launch idx)).map (Watch.image · joined)), w.sound :=
    forall_mem_map (P := Watch.sound) (fun w hw => h.watches w (List.mem_of_mem_filter hw)) fun w hw => Watch.image_sound hw
  refine List.foldlRecOn (motive := fun ws : List Watch => ∀ w ∈ ws, w.sound) _ _ (by simp) fun ws hws v hv w hw => ?_
  obtain rfl | hw := mem_insertBy hw
  · exact hi w hv
  · exact hws w hw

@[simp] theorem State.sized_saveGang {launch idx : Nat} {joined : Bool} : (s.saveGang launch idx joined).Sized := by
  unfold State.saveGang
  split
  · next g l _ _ =>
    split
    · exact h
    extract_lets s1 g1 g2 s2 s3 s4
    have h1 : s1.Sized := (State.sized_flushCounts _ _).2 h
    have h2 : s2.Sized := by
      simp only [s2]
      split
      · exact h1
      · exact (State.sized_nextSeq _ _).2 h1
    have h3 : s3.Sized := State.sized_keepWatches h2 _
    exact State.sized_writeImage (State.sized_modGang (State.sized_moveBlocks (by exact h3)) fun _ _ => by exact State.imagesOf_sound h1)
  · exact h

@[simp] theorem State.sized_writeArrivals {g : Gang} {r : LaunchRec} {old new : Watch} : (s.writeArrivals g r old new).Sized := by
  unfold State.writeArrivals
  split
  · exact h
  · refine State.sized_foldl (fun _ _ hu => State.sized_foldl (fun _ _ hv => ?_) _ hu) _ h
    split
    · exact State.sized_write hv _ _
    · exact hv

theorem State.sized_intoImage {w : WatchRef} {f : Watch → Watch} (hf : ∀ w, w.sound → (f w).sound) : (s.intoImage w f).Sized := by
  have ht : (s.modWatchOrImage w f).Sized := State.sized_modWatchOrImage h hf
  unfold State.intoImage
  dsimp only
  split
  · split
    · split
      · exact ht
      · exact State.sized_writeArrivals ht
    · exact ht
  · exact ht

@[simp] theorem State.sized_restoreRows {r : LaunchRec} {g : Gang} {x : Altered} : (s.restoreRows r g x).Sized := by
  unfold State.restoreRows
  refine State.sized_foldl (fun u b hu => ?_) _ h
  extract_lets at_ u1
  have h1 : u1.Sized := State.sized_foldl (fun _ _ hv => by exact hv) _ hu
  refine State.sized_foldl (fun v i hv => ?_) _ h1
  extract_lets y k v1 w
  have hv1 : v1.Sized := State.sized_foldl (fun a c ha => (State.sized_setCell a k c _).2 ha) _ hv
  split
  · exact (State.sized_setRow _ _ _).2 hv1
  · exact hv1

end

end Sys2Proof.Machine

namespace Sys2Proof.Machine

/-! ### Control flow, gates, ports and tasks -/

section

variable {s : State} (h : s.Sized)

include h

@[simp] theorem State.sized_pollJoin {r : WatchRef} : (s.pollJoin r).Sized := by
  have h1 : (s.modGang r.launch r.gang fun g => { g with jgen := g.jgen + 1 }).Sized := by simp [h]
  unfold State.pollJoin
  extract_lets inGang at_
  split
  · exact h
  split
  · split
    · exact State.sized_mapWatches h1 fun w hw => Watch.sound_ite (Watch.release_sound hw) hw
    · exact State.sized_saveGang h1
  · exact h

@[simp] theorem State.sized_pollYieldb {r : WatchRef} : (s.pollYieldb r).Sized := by
  unfold State.pollYieldb
  extract_lets inGang at_
  split
  · split
    · exact State.sized_mapWatches h fun w hw => Watch.sound_ite (Watch.release_sound hw) hw
    split
    · exact State.sized_saveGang h
    · exact h
  · exact h

@[simp] theorem State.sized_pollGang {r : WatchRef} : (s.pollGang r).Sized :=
  State.sized_pollYieldb (State.sized_pollJoin (State.sized_pollBarrier h r))

@[simp] theorem State.sized_fetchFault {addr : DWord} {k : FetchFault} : (s.fetchFault addr k).Sized := by
  unfold State.fetchFault
  split <;> simp [h]

@[simp] theorem State.sized_noWord {addr : DWord} {x : Word8} : (s.noWord addr x).Sized := by
  unfold State.noWord
  split <;> simp [h]

@[simp] theorem State.sized_layoutTrap {d : Nat} : (s.layoutTrap d).Sized := by simp [State.layoutTrap, h]

@[simp] theorem State.sized_words8 {entry va : DWord} {n : Nat} : Got.Sized (s.words8 entry va n) := by
  induction n generalizing va with
  | zero => exact Got.sized_ok _
  | succ n ih =>
    unfold State.words8
    split
    · split
      · exact Got.sized_ok _
      · next t e => exact (Got.sized_stop t).2 (ih t e)
    · simp [h]

@[simp] theorem State.sized_rejoinEntry {idx : BitVec 16} : Got.Sized (s.rejoinEntry idx) := by
  unfold State.rejoinEntry
  split
  · simp [h]
  · dsimp only
    split
    · next t e => exact (Got.sized_stop t).2 (State.sized_words8 h t e)
    · split <;> simp [h]

@[simp] theorem State.sized_settle : s.settle.Sized := by
  unfold State.settle
  dsimp only
  split
  · exact State.sized_pollGang (State.sized_endCtx h)
  split
  · exact State.sized_pollGang (State.sized_mapCtx h (Watch.dropSplit_sound h.ctx))
  · exact State.sized_mapCtx h (Watch.redirect_sound h.ctx)

/-- A watch in place of the one in focus, and what follows a control instruction. -/
theorem State.sized_settleCtx {w : Watch} (hw : w.sound) : ({ s with ctx := w } : State).settle.Sized :=
  State.sized_settle (State.sized_withCtx h hw)

@[simp] theorem State.sized_layoutReads {ms : List (Mask × List Nat)} {k : Out} (hk : Out.Sized k) :
    Out.Sized (s.layoutReads ms k) := by simp [State.layoutReads, h, hk]

@[simp] theorem State.sized_spillOr {t : State} {detail : DWord} (ht : t.Sized) : Out.Sized (s.spillOr t detail) := by
  simp [State.spillOr, h, ht]

@[simp] theorem State.sized_openIf {k : BitVec 3} {disp : BitVec 24} {origin : Bool} : Out.Sized (s.openIf k disp origin) := by
  refine Out.sized_ite (by simp [h]) (State.sized_spillOr h ?_)
  rw [State.sized_setPc]
  refine State.sized_withCtx h (Watch.addNest_sound (Watch.sound_withRecs h.ctx fun r hr => ?_) _ _)
  obtain rfl | hr := List.mem_cons.1 hr
  · exact Watch.newRegion_sound h.ctx
  · exact Watch.sound_recs h.ctx r hr

@[simp] theorem State.sized_splitOff {t e : Mask} {resume rejoin child : DWord} :
    Out.Sized (s.splitOff t e resume rejoin child) := by
  have hw := Watch.sound_iff.1 h.ctx
  unfold State.splitOff
  extract_lets w id r sp0 sp c u v
  have hsp : sp.sound := Split.sound_withRecs hw.sp fun q hq => by
    obtain rfl | hq := List.mem_cons.1 hq
    · exact Watch.newRegion_sound h.ctx
    · exact Watch.sound_recs h.ctx q hq
  have hu : u.sound := Watch.mapLanes_sound h.ctx fun i l hl => by split <;> exact hl
  have hv : v.sound := Watch.sound_withSibs (Watch.sound_withSp hu hsp) fun p hp => by
    obtain rfl | hp := List.mem_cons.1 hp
    · exact hsp
    · exact hw.sibs p hp
  exact State.sized_spillOr h ((State.sized_setPc _ _).2 (State.sized_withCtx h hv))

@[simp] theorem sized_execIfs {k : BitVec 3} {disp : BitVec 24} : Out.Sized (execIfs k disp s) := by
  refine State.sized_enter h ?_
  dsimp only
  (repeat' split) <;> simp [h]

@[simp] theorem sized_execElseArm {disp : BitVec 24} : Out.Sized (execElseArm disp s) := by
  refine State.sized_enter h ?_
  dsimp only
  have hrs := Watch.sound_recs h.ctx
  split
  · next r rs e =>
    rw [e] at hrs
    have hr : r.sound := hrs r List.mem_cons_self
    refine Out.sized_ite (by simp [h]) (Out.sized_ite (Out.sized_ite (by simp [h]) ?_) (by simp [h]))
    have hv : ((s.ctx.addNest r.arm0 1).subNest r.arm1).sound := Watch.subNest_sound (Watch.addNest_sound h.ctx _ _) _
    rw [Out.sized_next]
    refine State.sized_settle ((State.sized_setPc _ _).2 (State.sized_withCtx h (Watch.sound_withSp hv ⟨hr.2.2, fun q hq => ?_, ?_⟩)))
    · obtain rfl | hq := List.mem_cons.1 hq
      · exact hr
      · exact hrs q (List.mem_cons_of_mem _ hq)
    · exact Watch.sound_frames hv
  · simp [h]

@[simp] theorem sized_execRejoin {entry : BitVec 16} : Out.Sized (execRejoin entry s) := by
  refine State.sized_enter h ?_
  dsimp only
  have hrs := Watch.sound_recs h.ctx
  split
  · simp [h]
  next r rs e =>
  rw [e] at hrs
  refine Out.sized_ite (by simp [h]) (sized_andThen (State.sized_rejoinEntry h) fun e => ?_)
  refine Out.sized_ite (by simp [h]) (State.sized_layoutReads h (Out.sized_ite ?_ ?_))
  · rw [Out.sized_next]
    exact State.sized_settleCtx h (Watch.closeRegion_sound (Watch.layoutArms_sound h.ctx _ _ _ _) (hrs r List.mem_cons_self) _)
  split
  · rw [Out.sized_next]
    exact State.sized_settleCtx h (Watch.mergeTwins_sound h.ctx _ _ _ _ _)
  · simp [h]

@[simp] theorem sized_execEndloop {k : BitVec 3} {disp : BitVec 24} {entry : BitVec 16} :
    Out.Sized (execEndloop k disp entry s) := by
  refine State.sized_enter h ?_
  have hrs := Watch.sound_recs h.ctx
  split
  · simp [h]
  next r rs e =>
  rw [e] at hrs
  refine Out.sized_ite (by simp [h]) (sized_andThen (State.sized_rejoinEntry h) fun e => ?_)
  refine Out.sized_ite (by simp [h]) (Out.sized_ite (by simp [h]) (State.sized_layoutReads h ?_))
  rw [Out.sized_next]
  exact State.sized_settleCtx h (Watch.endIteration_sound h.ctx (hrs r List.mem_cons_self) _ _ _)

@[simp] theorem State.sized_depart {k : BitVec 3} {entry : BitVec 16} {brk : Bool} : Out.Sized (s.depart k entry brk) := by
  unfold State.depart
  split
  · simp [h]
  refine sized_andThen (State.sized_rejoinEntry h) fun e => Out.sized_ite (by simp [h]) (State.sized_layoutReads h ?_)
  extract_lets w recs
  have hw : w.sound := Watch.addNest_sound (Watch.layout_sound h.ctx _ _ _) _ _
  have hr : ∀ r ∈ recs, r.sound := forall_mem_mapFrom (Watch.sound_recs hw) (fun i q hq => by (repeat' split) <;> exact hq) 0
  rw [Out.sized_next]
  exact State.sized_settle ((State.sized_advance _ _).2 (State.sized_withCtx h (Watch.sound_withRecs hw hr)))

@[simp] theorem State.sized_topReads {n m : Nat} {k : Out} (hk : Out.Sized k) : Out.Sized (s.topReads n m k) := by
  simp [State.topReads, h, hk]

@[simp] theorem State.sized_callTo {target : DWord} {n m b : Nat} : Out.Sized (s.callTo target n m b) := by
  refine Out.sized_ite (by simp [h]) (Out.sized_ite (by simp [h]) (State.sized_topReads h (Out.sized_ite ?_ (by simp [h]))))
  rw [Out.sized_next]
  exact State.sized_withCtx h (Watch.call_sound h.ctx)

@[simp] theorem sized_execCall {n : BitVec 7} {disp : BitVec 24} {m b : BitVec 8} : Out.Sized (execCall n disp m b s) := by
  refine State.sized_enter h ?_
  (repeat' split) <;> simp [h]

@[simp] theorem sized_execCalli {n : BitVec 7} {age : BitVec 4} {m b : BitVec 8} : Out.Sized (execCalli n age m b s) := by
  refine State.sized_enter h ?_
  (repeat' split) <;> simp [h]

@[simp] theorem sized_execRet {n : BitVec 7} {m : BitVec 8} : Out.Sized (execRet n m s) := by
  refine State.sized_enter h ?_
  have hfs := Watch.sound_frames h.ctx
  split
  · simp [h]
  next f below e =>
  rw [e] at hfs
  refine Out.sized_ite (by simp [h]) (Out.sized_ite (by simp [h]) (State.sized_topReads h ?_))
  rw [Out.sized_next]
  exact State.sized_settle (State.sized_mapCtx h
    (Watch.returnWith_sound h.ctx (hfs f List.mem_cons_self) fun g hg => hfs g (List.mem_cons_of_mem _ hg)))

@[simp] theorem sized_execTrap {k : BitVec 3} {code : BitVec 16} : Out.Sized (execTrap k code s) := by
  refine State.sized_enter h ?_
  (repeat' split) <;> simp [h]

@[simp] theorem State.sized_returnFromTrap {next : Bool} : Out.Sized (s.returnFromTrap next) := by
  have hfs := Watch.sound_frames h.ctx
  unfold State.returnFromTrap
  split
  · simp [h]
  next f below e =>
  rw [e] at hfs
  split
  · simp [h]
  next hk =>
  refine Out.sized_ite (by simp [h]) ?_
  rw [Out.sized_next]
  exact State.sized_settle (State.sized_mapCtx h (Watch.exitHandler_sound h.ctx (hfs f List.mem_cons_self) (not_not.1 hk)
    fun g hg => hfs g (List.mem_cons_of_mem _ hg)))

@[simp] theorem sized_execSwr {reg : BitVec 12} {a : Opnd} : Out.Sized (execSwr reg a s) := by
  refine State.sized_enter h (sized_orElse (State.sized_uniFront h) ?_)
  dsimp only
  rw [Out.sized_next, State.sized_advance]
  (repeat' split)
  · exact h
  · exact h
  · exact (State.sized_writeCtrcfg _ _ _ _).2 h
  · exact h

@[simp] theorem sized_execSleep {a : Opnd} : Out.Sized (execSleep a s) := State.sized_enter h (by simp [h])

@[simp] theorem sized_execSleepEnd {w : WatchRef} {split : Nat} : Out.Sized (execSleepEnd w split s) :=
  (Out.sized_next _).2 (State.sized_modSplit h fun p hp => by (repeat' split) <;> exact hp)

@[simp] theorem sized_execYieldb : Out.Sized (execYieldb s) := by
  refine State.sized_enter h ?_
  dsimp only
  (repeat' split) <;> simp [h]

@[simp] theorem sized_execCgrowWait {a : Opnd} : Out.Sized (execCgrowWait a s) := by
  refine State.sized_enter h (sized_orElse (State.sized_uniFront h) ?_)
  dsimp only
  refine Out.sized_ite (by simp [h]) (Out.sized_ite (by simp [h]) (Out.sized_ite (by simp [h]) (Out.sized_ite ?_ (by simp [h]))))
  rw [Out.sized_next, State.sized_advance]
  exact State.sized_mapCtx h (Watch.growCaddy_sound h.ctx)

@[simp] theorem sized_execCgrowTry {a : Opnd} : Out.Sized (execCgrowTry a s) := by
  refine State.sized_enter h (sized_orElse (State.sized_uniFront h) ?_)
  dsimp only
  rw [Out.sized_next, State.sized_advance]
  exact State.sized_mapCtx h (Watch.pushUni_sound (Watch.sound_ite (Watch.growCaddy_sound h.ctx) h.ctx))

@[simp] theorem sized_execCshrink {a : Opnd} : Out.Sized (execCshrink a s) := by
  refine State.sized_enter h (sized_orElse (State.sized_uniFront h) (Out.sized_ite (by simp [h]) ?_))
  rw [Out.sized_next, State.sized_advance]
  exact State.sized_mapCtx h (Watch.shrinkCaddy_sound h.ctx)

@[simp] theorem sized_execCaddyGrant {core pool : Nat} : Out.Sized (execCaddyGrant core pool s) := by
  have hd : s.withdrawReqs.Sized := State.sized_withdrawReqs h
  unfold execCaddyGrant
  dsimp only
  split
  · exact (Out.sized_next _).2 hd
  next r _ =>
  split
  · exact (Out.sized_next _).2 hd
  have hf := State.sized_focus (s := { s.withdrawReqs with caddyQ := s.withdrawReqs.caddyQ.erase r }) hd r.watch r.split
  split
  · exact (Out.sized_next _).2 hf
  split
  · split
    · exact (Out.sized_next _).2 hf
    · exact (Out.sized_next _).2 (State.sized_mapCtx hf (Watch.growCaddy_sound hf.ctx))
  · split
    · exact (Out.sized_next _).2 hf
    · exact (Out.sized_next _).2 (State.sized_withCtx hf (Watch.call_sound hf.ctx))

@[simp] theorem State.sized_gateTrap {d : Nat} : (s.gateTrap d).Sized := by simp [State.gateTrap, h]

@[simp] theorem State.sized_gateSegs {d : GateDesc} : Got.Sized (s.gateSegs d) := by
  unfold State.gateSegs
  (repeat' split) <;> simp [h]

@[simp] theorem sized_execGate {index : BitVec 16} : Out.Sized (execGate index s) := by
  refine State.sized_enter h ?_
  dsimp only
  repeat refine Out.sized_ite (by simp [h]) ?_
  refine sized_andThen (State.sized_gateSegs h) fun segs => State.sized_topReads h (Out.sized_ite (by simp [h]) ?_)
  exact State.sized_spillOr h (State.sized_withCtx h (Watch.enterGate_sound h.ctx))

@[simp] theorem sized_execGret {n : BitVec 7} {m : BitVec 8} : Out.Sized (execGret n m s) := by
  refine State.sized_enter h ?_
  have hfs := Watch.sound_frames h.ctx
  split
  · simp [h]
  next f below e =>
  rw [e] at hfs
  obtain ⟨-, -, hks, hbank⟩ := hfs f List.mem_cons_self
  split
  · simp [h]
  next hk =>
  refine Out.sized_ite (by simp [h]) ?_
  split
  · next d b _ hb =>
    refine Out.sized_ite (by simp [h]) (State.sized_topReads h ?_)
    rw [Out.sized_next]
    refine State.sized_settle (State.sized_mapCtx h (Watch.unstop_sound (Watch.restoreBank_sound ?_ ?_ (hbank b hb))))
    · exact Watch.returnWith_sound h.ctx (hfs f List.mem_cons_self) fun g hg => hfs g (List.mem_cons_of_mem _ hg)
    · exact hks (by simp [not_not.1 hk])
  · simp [h]

@[simp] theorem State.sized_switchPort {w : Watch} {p : Split} : (s.switchPort w p).Sized := by
  have hu := State.sized_modSplit (State.sized_countEvent h (core := w.core) (dom := w.dom) (ev := 9) (n := 1)) (r := w.ref) (id := p.id)
    (f := fun p => { p with held := 0, defer := false }) fun _ hp => hp
  unfold State.switchPort
  dsimp only
  split <;> exact hu

/-- A split that defers to a reservation (R66). -/
theorem State.sized_deferSplit {w : WatchRef} {id : Nat} : (s.modSplit w id fun p => { p with defer := true }).Sized :=
  State.sized_modSplit h fun _ hp => hp

@[simp] theorem sized_execFairnessSwitch {w : WatchRef} {split : Nat} : Out.Sized (execFairnessSwitch w split s) := by
  unfold execFairnessSwitch
  split
  · refine Out.sized_ite (by simp [h]) (Out.sized_ite ?_ (by simp [h]))
    exact (Out.sized_next _).2 (State.sized_deferSplit h)
  · simp [h]

@[simp] theorem sized_execReservationDeferEnd {w : WatchRef} {split : Nat} : Out.Sized (execReservationDeferEnd w split s) := by
  unfold execReservationDeferEnd
  split <;> simp [h]

@[simp] theorem State.sized_fairness {core port : Nat} : (s.fairness core port).Sized := by
  unfold State.fairness
  split
  · exact h
  split
  · exact State.sized_switchPort h
  · exact State.sized_deferSplit h

@[simp] theorem State.sized_countHeld {core port : Nat} : (s.countHeld core port).Sized :=
  State.sized_mapWatches (by exact h) fun w hw => Watch.sound_ite
    (Watch.mapSplits_sound hw fun p hp => by (repeat' split) <;> exact hp) hw

@[simp] theorem State.sized_take {core port : Nat} : CheckSized (s.take core port) := by
  intro t e
  obtain ⟨g, -, rfl⟩ := Option.map_eq_some_iff.1 e
  exact State.sized_countHeld (State.sized_focus (State.sized_fairness h) _ _)

@[simp] theorem State.sized_takeSplit {core port : Nat} {g : WatchRef × Nat} :
    CheckSized (s.takeSplit core port g) := by simp [State.takeSplit, h]

@[simp] theorem State.sized_takeAny : CheckSized s.takeAny :=
  checkSized_findSome (fun _ => checkSized_findSome (fun _ => State.sized_take h) _) _

@[simp] theorem State.sized_countIssue {w : Watch} {port : Nat} : (s.countIssue w port).Sized := by
  unfold State.countIssue
  split
  · exact h
  extract_lets s1 s2
  have h1 : s1.Sized := State.sized_countEvent h
  have h2 : s2.Sized := by simp only [s2]; split <;> simp [h1]
  simp [h2]

@[simp] theorem State.sized_illField {maj len : Nat} : Out.Sized (s.illField maj len) := by simp [State.illField, h]

@[simp] theorem State.sized_nodeTrap {code reason idx : Nat} : (s.nodeTrap code reason idx).Sized := by simp [State.nodeTrap, h]

@[simp] theorem State.sized_taskFront {g : Option Nat} {maj : Nat} {a : Opnd} {k : Nat → State → Out} (hk : ∀ n, Out.Sized (k n s)) :
    Out.Sized (s.taskFront g maj a k) := by
  refine State.sized_enter h ?_
  split
  · simp [h]
  · exact sized_orElse (State.sized_uniFront h) (hk _)

@[simp] theorem State.sized_readsWell {va n : Nat} {k : Out} (hk : Out.Sized k) : Out.Sized (s.readsWell va n k) := by
  unfold State.readsWell
  dsimp only
  split
  · simp [h]
  · simp [h]
  · exact hk

@[simp] theorem State.sized_launchWell {va : Nat} {k : Out} (hk : Out.Sized k) : Out.Sized (s.launchWell va k) := by
  unfold State.launchWell
  split
  · exact hk
  refine State.sized_readsWell h ?_
  split
  · refine State.sized_readsWell h ?_
    split
    · exact State.sized_readsWell h hk
    · exact hk
  · exact hk

@[simp] theorem State.sized_nodeWell {idx : Nat} {k : Out} (hk : Out.Sized k) : Out.Sized (s.nodeWell idx k) := by
  unfold State.nodeWell
  split
  · exact hk
  refine State.sized_readsWell h ?_
  split
  · exact State.sized_launchWell h hk
  · exact hk

@[simp] theorem sized_execNode {a : Opnd} : Out.Sized (execNode a s) := by
  refine State.sized_taskFront h fun n => State.sized_nodeWell h ?_
  split <;> simp [h]

@[simp] theorem sized_execNdep {a : Opnd} {n : BitVec 16} : Out.Sized (execNdep a n s) := by
  refine State.sized_taskFront h fun idx => Out.sized_ite (by simp [h]) ?_
  split
  · simp [h]
  · exact Out.sized_ite (by simp [h]) (by rw [Out.sized_next, State.sized_advance]; exact State.sized_putNode h)

@[simp] theorem sized_execNrel {a : Opnd} {n : BitVec 16} : Out.Sized (execNrel a n s) := by
  refine State.sized_taskFront h fun idx => ?_
  dsimp only
  (repeat' split) <;> simp [h]

@[simp] theorem sized_execFork {a : Opnd} {k : BitVec 8} : Out.Sized (execFork a k s) := by
  refine State.sized_enter h ?_
  split
  · simp [h]
  refine State.sized_taskFront h fun idx => List.foldrRecOn _ _ ?_ fun _ ho _ _ => State.sized_nodeWell h ho
  split
  · simp [h]
  · simp [h]
  · simp [h]
  dsimp only
  split
  · simp [h]
  · rw [Out.sized_next, State.sized_advance]
    exact State.sized_foldl (fun _ _ hu => State.sized_insertNode hu) _ ((State.sized_modGang_same _ (by exact fun _ => rfl)).2 h)

@[simp] theorem sized_execJoin : Out.Sized (execJoin s) := by
  refine State.sized_enter h ?_
  (repeat' split) <;> simp [h]

@[simp] theorem sized_execArm {a : Opnd} : Out.Sized (execArm a s) := by
  refine State.sized_taskFront h fun v => ?_
  dsimp only
  refine Out.sized_ite (by simp [h]) (Out.sized_ite (by simp [h]) ?_)
  split
  · simp [h]
  refine Out.sized_ite (by simp [h]) (State.sized_launchWell h ?_)
  (repeat' split) <;> simp [h]

@[simp] theorem sized_execDisarm {a : Opnd} : Out.Sized (execDisarm a s) := by
  refine State.sized_enter h (sized_orElse (State.sized_uniFront h) ?_)
  dsimp only
  refine Out.sized_ite (by simp [h]) ?_
  rw [Out.sized_next, State.sized_advance]
  exact State.sized_mapCtx (by exact h) (Watch.pushUni_sound h.ctx)

@[simp] theorem sized_execLaunchq {a : Opnd} : Out.Sized (execLaunchq a s) := by
  refine State.sized_taskFront h fun va => ?_
  refine State.sized_launchWell h ?_
  split
  · exact Out.sized_ite ((Out.sized_next _).2 (State.sized_nodeTrap h)) ((Out.sized_next _).2 (State.sized_holdPage h))
  · exact (Out.sized_next _).2 (State.sized_nodeTrap h)
  · exact Out.sized_ite (by simp [h]) (by simp [h])

end

end Sys2Proof.Machine

namespace Sys2Proof.Machine

/-! ### Computation -/

section

variable {s : State} (h : s.Sized)

include h

@[simp] theorem State.sized_scalarOp {f : FmtA} {g : Nat → Nat → Nat → Nat} : Out.Sized (s.scalarOp f g) :=
  State.sized_enter h (by simp [h])

@[simp] theorem sized_execSnot {f : FmtA} : Out.Sized (execSnot f s) := State.sized_enter h (by simp [h])

@[simp] theorem sized_execSsel {f : FmtA} : Out.Sized (execSsel f s) := State.sized_enter h (by simp [h])

@[simp] theorem sized_execSldiHi {a : Opnd} {v : BitVec 16} : Out.Sized (execSldiHi a v s) := State.sized_enter h (by simp [h])

@[simp] theorem State.sized_pushFromLane {f : FmtA} {l : Option Nat} : (s.pushFromLane f l).Sized := by
  unfold State.pushFromLane
  split <;> simp [h]

@[simp] theorem sized_execSlane {f : FmtA} : Out.Sized (execSlane f s) := State.sized_enter h (by simp [h])

@[simp] theorem sized_execSpick {f : FmtA} : Out.Sized (execSpick f s) := State.sized_enter h (by simp [h])

@[simp] theorem State.sized_vector {f : FmtA} {srcs : List Src} {k : Mask → State → Out} (hk : ∀ m, Out.Sized (k m s)) :
    Out.Sized (s.vector f srcs k) := State.sized_enter h (sized_orElse (State.sized_vecFront h) (hk _))

@[simp] theorem State.sized_vectorOp {f : FmtA} {srcs : List Src} {g : Nat → Nat → Nat → Nat} :
    Out.Sized (s.vectorOp f srcs g) := by simp [State.vectorOp, h]

/-- The counters after lanes saturated, if some did. -/
theorem State.sized_saturateSome (m : Mask) : (if m = 0 then s else s.saturate m).Sized := by
  split
  · exact h
  · exact State.sized_saturate h m

@[simp] theorem State.sized_elementwise {f : FmtA} {srcs : List Src} {sgn : Bool} {x : Int → Int → Int → Int} :
    Out.Sized (s.elementwise f srcs sgn x) := by
  refine State.sized_vector h fun m => ?_
  dsimp only
  rw [Out.sized_next]
  exact State.sized_pushLanes (State.sized_saturateSome h _) _ _ _

@[simp] theorem State.sized_shift {f : FmtA} {g : Nat → Nat → Nat → Nat} : Out.Sized (s.shift f g) := by simp [State.shift, h]

@[simp] theorem sized_execStash {f : FmtA} : Out.Sized (execStash f s) := by
  refine State.sized_enter h (Out.sized_ite (by simp [h]) (sized_orElse (State.sized_vecFront h) ?_))
  dsimp only
  rw [Out.sized_next, State.sized_advance]
  exact State.sized_mapCtx h (Watch.sound_ite (Watch.stash_sound (Watch.stash_sound h.ctx)) (Watch.stash_sound h.ctx))

@[simp] theorem State.sized_maskOp {d : BitVec 3} {v : Watch → Mask} : Out.Sized (s.maskOp d v) :=
  State.sized_enter h ((Out.sized_next _).2 (State.sized_mapCtx h (Watch.setK_sound h.ctx)))

@[simp] theorem sized_execKset {d : BitVec 3} {a : Opnd} : Out.Sized (execKset d a s) :=
  State.sized_enter h (sized_orElse (State.sized_uniFront h) ((Out.sized_next _).2 (State.sized_mapCtx h (Watch.setK_sound h.ctx))))

@[simp] theorem State.sized_floatOp {f : FmtA} {srcs : List Src} {g : FFun} :
    Out.Sized (s.floatOp f srcs g) := by simp [State.floatOp, h]

@[simp] theorem State.sized_startUnit {u : UnitKind} {m : Mask} {t : Ty} {v : Nat → Nat} {sat : Mask} :
    (s.startUnit u m t v sat).Sized := by
  unfold State.startUnit
  extract_lets id fl pend s1
  have h1 : s1.Sized := by
    refine State.sized_mapCtx (s := s.tick) h (Watch.sound_withFlights ?_)
    split
    · exact Watch.push_sound (Watch.push_sound h.ctx)
    · exact Watch.push_sound h.ctx
  exact (State.sized_advance _ _).2 (State.sized_countEvent h1)

@[simp] theorem State.sized_sfuOp {f : FmtA} {srcs : List Src} {g : FFun} : Out.Sized (s.sfuOp f srcs g) := by
  simp only [State.sfuOp]
  (repeat' split) <;> simp [h]

@[simp] theorem State.sized_convert {f : FmtA} {g : Nat → Converted} : Out.Sized (s.convert f g) := by
  refine State.sized_enter h (sized_orElse (State.sized_vecFront h) ?_)
  refine Out.sized_ite (by simp [h]) (Out.sized_ite (by simp [h]) ?_)
  extract_lets w sf si di y value sat s1 s2
  have h2 : s2.Sized := (State.sized_numeric _ _ _).2 ((State.sized_numeric _ _ _).2 h)
  exact (Out.sized_next _).2 (State.sized_startUnit h2)

@[simp] theorem sized_execUnitOperationComplete {w : WatchRef} {id : Nat} : Out.Sized (execUnitOperationComplete w id s) :=
  (Out.sized_next _).2 (State.sized_modWatch h fun _ hv => Watch.sound_ite (Watch.complete_sound hv) hv)

@[simp] theorem State.sized_scalarFloat {f : FmtA} {srcs : List Src} {g : FFun} : Out.Sized (s.scalarFloat f srcs g) :=
  State.sized_enter h (by simp [h])

@[simp] theorem sized_execSfcmp {f : FmtA} : Out.Sized (execSfcmp f s) := State.sized_enter h (by simp [h])

@[simp] theorem State.sized_packedOp {f : FmtA} {srcs : List Src} {g : Watch → Nat → Narrowed} :
    Out.Sized (s.packedOp f srcs g) := by
  refine State.sized_vector h fun m => ?_
  dsimp only
  rw [Out.sized_next]
  exact State.sized_pushLanes ((State.sized_numeric _ _ _).2 (State.sized_saturateSome h _)) _ _ _

@[simp] theorem State.sized_dot {f : FmtA} : Out.Sized (s.dot f) := by simp [State.dot, h]

@[simp] theorem State.sized_fdot {f : FmtA} : Out.Sized (s.fdot f) := by simp [State.fdot, h]

@[simp] theorem State.sized_exchange {f : FmtA} {idx : List Src} {j : Watch → Nat → Nat} : Out.Sized (s.exchange f idx j) := by
  refine State.sized_enter h (sized_orElse (State.sized_vecFront h) ?_)
  exact Out.sized_ite (by simp [h]) (Out.sized_ite (by simp [h]) (by simp [h]))

@[simp] theorem sized_execSlide {f : FmtA} : Out.Sized (execSlide f s) := by
  refine State.sized_enter h (sized_orElse (State.sized_vecFront h) ?_)
  exact Out.sized_ite (by simp [h]) (Out.sized_ite (by simp [h]) (by simp [h]))

@[simp] theorem State.sized_redWith {α : Type} {f : FmtA} {c : Combiner α} : Out.Sized (s.redWith f c) := by
  refine State.sized_vector h fun m => ?_
  dsimp only
  split <;> simp [h]

@[simp] theorem State.sized_scanWith {α : Type} {f : FmtA} {c : Combiner α} : Out.Sized (s.scanWith f c) :=
  State.sized_vector h fun m => by simp [h]

@[simp] theorem sized_execRed {op : RedOp} {f : FmtA} : Out.Sized (execRed op f s) := by cases op <;> exact State.sized_redWith h

@[simp] theorem sized_execScan {op : RedOp} {f : FmtA} : Out.Sized (execScan op f s) := by
  cases op <;> exact State.sized_scanWith h

@[simp] theorem State.sized_bearing {maj : Nat} {srcs : List Src} {regs : List (BitVec 3)} {unit : Bool} {k : State → Out}
    (hk : Out.Sized (k s)) : Out.Sized (s.bearing maj srcs regs unit k) :=
  State.sized_enter h (sized_orElse (State.sized_uniFront h) (Out.sized_ite (by simp [h]) hk))

@[simp] theorem sized_execBset {f : FmtA} : Out.Sized (execBset f s) := by
  refine State.sized_enter h (Out.sized_ite (by simp [h]) (sized_orElse (State.sized_vecFront h) ?_))
  exact Out.sized_ite (by simp [h]) (Out.sized_ite (by simp [h]) (by simp [h]))

@[simp] theorem sized_execBscl {f : FmtA} : Out.Sized (execBscl f s) := by
  have hp : ∀ (u : State) (x : Bearing), u.Sized → ((u.mapCtx fun w => w.setBear (bearD f) x).advance 8).Sized :=
    fun u x hu => (State.sized_advance _ _).2 (State.sized_mapCtx hu (Watch.setBear_sound hu.ctx))
  refine State.sized_bearing h ?_
  dsimp only
  refine Out.sized_ite ?_ (Out.sized_ite ?_ (Out.sized_ite ?_ ?_))
  · exact (Out.sized_next _).2 (hp _ _ h)
  · exact (Out.sized_next _).2 (hp _ _ ((State.sized_numeric _ _ _).2 h))
  · exact (Out.sized_next _).2 (hp _ _ ((State.sized_overflowBear _ _).2 h))
  · exact (Out.sized_next _).2 (hp _ _ h)

@[simp] theorem State.sized_mix {f : FmtA} {a b : FVal} : Out.Sized (s.mix f a b) := by simp [State.mix, h]

@[simp] theorem State.sized_accessTrap {order : Nat} {m : Mask} {off : Nat} : (s.accessTrap order m off).Sized := by
  unfold State.accessTrap
  split <;> simp [h]

@[simp] theorem State.sized_checkAll {write : Bool} {uni : Option Mask} {as : List LaneAccess} :
    Got.Sized (s.checkAll write uni as) := by
  unfold State.checkAll
  dsimp only
  (repeat' split) <;> simp [h]

end

end Sys2Proof.Machine

namespace Sys2Proof.Machine

/-! ### Loads, stores, atomics, fences and the agents of the engines -/

section

variable {s : State} (h : s.Sized)

include h

@[simp] theorem State.sized_checkMedia {ts : List (Nat × Target)} : Got.Sized (s.checkMedia ts) := by
  unfold State.checkMedia
  split <;> simp [h]

@[simp] theorem State.sized_scopeTrap {clamped : Bool} {detail : DWord} :
    CheckSized (s.scopeTrap clamped detail) := by simp [State.scopeTrap, h]

@[simp] theorem State.sized_ordered {m : FmtM} {k : Bool → Out} (hk : ∀ c, Out.Sized (k c)) : Out.Sized (s.ordered m k) := by
  simp [State.ordered, h, hk]

@[simp] theorem State.sized_orderedLanes {m : FmtM} {k : Bool → Out} (hk : ∀ c, Out.Sized (k c)) :
    Out.Sized (s.orderedLanes m k) := by
  simp [State.orderedLanes, h, hk]

@[simp] theorem State.sized_meetLate {acq : Bool} {scope : Nat} {ps : List Part} : (s.meetLate acq scope ps).Sized := by
  unfold State.meetLate
  split <;> simp [State.sized_enterSome, h]

@[simp] theorem State.sized_peerRecord {win off ans : Nat} : (s.peerRecord win off ans).Sized := by simp [State.peerRecord, h]

@[simp] theorem State.sized_afterRead {t : Target} {n : Nat} {evict : BitVec 3} {salt : Nat} :
    (s.afterRead t n evict salt).Sized := by
  induction t generalizing s n with
  | store ps =>
    unfold State.afterRead
    exact State.sized_foldl (fun u p hu => by rwa [State.sized_keepCopy]) _ h
  | peer win off =>
    unfold State.afterRead
    exact State.sized_peerRecord (by exact h)
  | cross a k b iha ihb =>
    unfold State.afterRead
    exact ihb (iha h)

omit h in
@[simp] theorem State.sized_writeParts : ∀ {ps : List Part} {bs : List Byte} {s : State},
    s.Sized → (s.writeParts ps bs).Sized
  | [], _, _, h => h
  | _ :: _, _, _, h => by
    unfold State.writeParts
    exact State.sized_writeParts (State.sized_writeThrough h)

@[simp] theorem State.sized_writeTarget {t : Target} {salt : Nat} {bs : List Byte} : (s.writeTarget t salt bs).Sized := by
  induction t generalizing s bs with
  | store ps =>
    unfold State.writeTarget
    exact State.sized_writeParts h
  | peer win off =>
    unfold State.writeTarget
    exact State.sized_peerRecord (by exact h)
  | cross a k b iha ihb =>
    unfold State.writeTarget
    exact ihb (iha h)

@[simp] theorem State.sized_coreAccess {m : FmtM} {clamped rd wr : Bool} {ts : List (Nat × Target)} :
    (s.coreAccess m clamped rd wr ts).Sized := by
  unfold State.coreAccess
  split <;> simp [h]

@[simp] theorem State.sized_loadPoison {key addr : Nat} : (s.loadPoison key addr).Sized := by simp [State.loadPoison, h]

@[simp] theorem State.sized_doLoads {m : Mask} {t : Ty} {n : Nat} {evict : BitVec 3} {va : Nat → Nat} {ts : List (Nat × Target)} :
    (s.doLoads m t n evict va ts).Sized :=
  State.sized_pushLoads (State.sized_foldl (fun _ _ hu => (State.sized_sampleFill _ _ _ _).2 (State.sized_afterRead hu)) _ h) _ _ _ _ _

@[simp] theorem State.sized_loadLanes {m : FmtM} {spad : Bool} {n : Nat} {after : List (Nat × Target) → State → State}
    (ha : ∀ ts u, u.Sized → (after ts u).Sized) : Out.Sized (s.loadLanes m spad n after) := by
  refine State.sized_enter h (State.sized_orderedLanes h fun c => sized_orElse (State.sized_vecFront h) ?_)
  refine Out.sized_ite (by simp [h]) (Out.sized_ite (by simp [h]) ?_)
  refine sized_andThen (State.sized_checkAll h) fun ts => sized_andThen (State.sized_checkMedia h) fun _ => ?_
  split
  · simp [h]
  · rw [Out.sized_next, State.sized_advance]
    exact ha _ _ (State.sized_doLoads (State.sized_coreAccess (by simp [h])))

@[simp] theorem State.sized_doStores {evict : BitVec 3} {ts : List (Nat × Target)} {data : Nat → List Byte} :
    (s.doStores evict ts data).Sized := by
  refine State.sized_foldl (fun u x hu => ?_) _ h
  exact (State.sized_sampleFill _ _ _ _).2 (State.sized_dropLaneResv (State.sized_writeTarget hu) _)

@[simp] theorem State.sized_storeLanes {m : FmtM} {spad : Bool} {n : Nat} : Out.Sized (s.storeLanes m spad n) := by
  refine State.sized_enter h (State.sized_orderedLanes h fun c => sized_orElse (State.sized_vecFront h) ?_)
  refine Out.sized_ite (by simp [h]) ?_
  refine sized_andThen (State.sized_checkAll h) fun ts => sized_andThen (State.sized_checkMedia h) fun _ => ?_
  rw [Out.sized_next, State.sized_advance]
  exact State.sized_doStores (State.sized_coreAccess (by simp [h]))

@[simp] theorem sized_execLdu {m : FmtM} : Out.Sized (execLdu m s) := by
  refine State.sized_enter h (State.sized_ordered h fun c => sized_orElse (State.sized_uniFront h) (Out.sized_ite (by simp [h]) ?_))
  refine sized_andThen (State.sized_checkAll h) fun ts => sized_andThen (State.sized_checkMedia h) fun _ => ?_
  split
  · simp [h]
  · extract_lets s1 v id addr fl s2 s3
    have h1 : s1.Sized := State.sized_coreAccess ((State.sized_noteClamp _ _).2 h)
    have h2 : s2.Sized := (State.sized_sampleFill _ _ _ _).2 (State.sized_afterRead h1)
    have h3 : s3.Sized := State.sized_mapCtx h2 (Watch.sound_withFlights (Watch.spush_sound h2.ctx))
    exact (Out.sized_next _).2 ((State.sized_advance _ _).2 h3)
  · simp [h]

@[simp] theorem sized_execStu {m : FmtM} : Out.Sized (execStu m s) := by
  refine State.sized_enter h (State.sized_ordered h fun c => sized_orElse (State.sized_uniFront h) ?_)
  refine sized_andThen (State.sized_checkAll h) fun ts => sized_andThen (State.sized_checkMedia h) fun _ => ?_
  rw [Out.sized_next, State.sized_advance]
  refine State.sized_foldl (fun u x hu => ?_) _ (State.sized_coreAccess (by simp [h]))
  rw [State.sized_sampleFill]
  exact State.sized_writeTarget hu

@[simp] theorem sized_execLea {m : FmtM} : Out.Sized (execLea m s) :=
  State.sized_enter h (sized_orElse (State.sized_vecFront h) (sized_andThen (State.sized_checkAll h) fun _ => by simp [h]))

@[simp] theorem sized_execPref {m : FmtM} : Out.Sized (execPref m s) := by
  refine State.sized_enter h ?_
  rw [Out.sized_next, State.sized_advance]
  refine State.sized_foldl (fun u l hu => ?_) _ h
  dsimp only
  split
  · split
    · split
      · rwa [State.sized_sampleFill, State.sized_keepCopy]
      · exact hu
    · exact hu
  · exact hu

theorem State.sized_cacheOp {m : FmtM} {k : State → Nat → State}
    (hk : ∀ u a, u.Sized → (k u a).Sized) : Out.Sized (s.cacheOp m k) := by
  refine State.sized_enter h (sized_orElse (State.sized_vecFront h) ?_)
  refine sized_andThen (State.sized_checkAll h) fun ts => sized_andThen (State.sized_checkMedia h) fun _ => ?_
  rw [Out.sized_next, State.sized_advance]
  refine State.sized_foldl (fun u t hu => ?_) _ h
  split
  · exact hk _ _ hu
  · exact hu

@[simp] theorem sized_execCwb {m : FmtM} : Out.Sized (execCwb m s) := State.sized_cacheOp h fun _ _ hu => hu

@[simp] theorem sized_execCinv {m : FmtM} : Out.Sized (execCinv m s) := by
  unfold execCinv
  exact State.sized_cacheOp h fun _ _ hu => by rwa [State.sized_dropCopies]

@[simp] theorem State.sized_loadRecord {r : BitVec 3} {m : FmtM} {x : RecordPart} : Out.Sized (s.loadRecord r m x) := by
  unfold State.loadRecord
  split
  · simp [h]
  · extract_lets bytes u
    have hu : u.Sized := State.sized_foldl (fun v t hv => (State.sized_sampleFill _ _ _ _).2 (State.sized_afterRead hv)) _ h
    split
    · simp [hu]
    · split
      · simp [h]
      · rw [Out.sized_next, State.sized_advance]
        exact State.sized_mapCtx (s := (u.setRecord {}).tick) hu (Watch.setBear_sound ((State.sized_setRecord u {}).2 hu).ctx)

@[simp] theorem State.sized_storeRecord {m : FmtM} {x : RecordPart} : Out.Sized (s.storeRecord m x) := by
  unfold State.storeRecord
  (repeat' split) <;> simp +contextual [h]

theorem State.sized_bearRecord {r : BitVec 3} {m : FmtM} {write : Bool} {k : RecordPart → State → Out}
    (hk : ∀ x u, u.Sized → Out.Sized (k x u)) : Out.Sized (s.bearRecord r m write k) := by
  refine State.sized_enter h ?_
  dsimp only
  split
  · exact hk _ _ h
  refine State.sized_ordered h fun c => sized_orElse (State.sized_uniFront h) (Out.sized_ite (by simp [h]) ?_)
  refine sized_andThen (State.sized_checkAll h) fun ts => sized_andThen (State.sized_checkMedia h) fun _ => ?_
  exact hk _ _ (State.sized_coreAccess (by simp [h]))

@[simp] theorem sized_execBld {r : BitVec 3} {m : FmtM} : Out.Sized (execBld r m s) :=
  State.sized_bearRecord h fun _ _ hu => State.sized_loadRecord hu

@[simp] theorem sized_execBst {r : BitVec 3} {m : FmtM} : Out.Sized (execBst r m s) :=
  State.sized_bearRecord h fun _ _ hu => State.sized_storeRecord hu

@[simp] theorem State.sized_arrive {w : WatchRef} {id : Nat} : (s.arrive w id).Sized :=
  State.sized_intoImage h fun _ hv => Watch.sound_ite (Watch.complete_sound hv) hv

@[simp] theorem State.sized_atomicAt {l n : Nat} {t : Target} {op : BitVec 4} {out : List Byte} {g : Nat → Option Nat} :
    (s.atomicAt l n t op out g).1.Sized := by
  have hd : (s.dropLaneResv l).Sized := State.sized_dropLaneResv h l
  unfold State.atomicAt
  dsimp only
  split
  · split <;> simp [hd]
  · simp [hd]
  · split <;> simp [hd]

omit h in
@[simp] theorem State.sized_atomicAll {n : Nat} {op : BitVec 4} {out : Nat → List Byte} {g : Nat → Nat → Option Nat} :
    ∀ {ts : List (Nat × Target)} {s : State}, s.Sized → (s.atomicAll n op out g ts).1.Sized
  | [], _, h => h
  | (_, _) :: _, _, h => by
    unfold State.atomicAll
    exact State.sized_atomicAll (State.sized_atomicAt h)

theorem State.sized_atomic {m : FmtM} {x : AtomicShape} {k : List (Nat × Target) → State → Out}
    (hk : ∀ ts u, u.Sized → Out.Sized (k ts u)) : Out.Sized (s.atomic m x k) := by
  refine State.sized_enter h (State.sized_orderedLanes h fun c => sized_orElse (State.sized_vecFront h) ?_)
  refine Out.sized_ite (by simp [h]) (Out.sized_ite (by simp [h]) ?_)
  refine sized_andThen (State.sized_checkAll h) fun ts => sized_andThen (State.sized_checkMedia h) fun _ => ?_
  generalize (if x.reads then s.poisonIn ts else none) = p
  cases p with
  | some p => simp [h]
  | none => exact hk _ _ (State.sized_coreAccess (by simp [h]))

@[simp] theorem State.sized_atom {m : FmtM} {op : BitVec 4} {host : Bool} {g : Nat → Nat → Nat → Nat} :
    Out.Sized (s.atom m op host g) := by
  unfold State.atom
  exact State.sized_atomic h fun _ _ hu => by simp [hu]

@[simp] theorem sized_execAcas {m : FmtM} : Out.Sized (execAcas m s) := by
  unfold execAcas
  exact State.sized_atomic h fun _ _ hu => by simp [hu]

@[simp] theorem sized_execAfadd {m : FmtM} : Out.Sized (execAfadd m s) := by
  unfold execAfadd
  exact State.sized_atomic h fun _ _ hu => by simp [hu]

@[simp] theorem sized_execAxadd {m : FmtM} : Out.Sized (execAxadd m s) := by
  unfold execAxadd
  refine State.sized_atomic h fun ts u hu => ?_
  rw [Out.sized_next]
  split <;> simp [hu]

@[simp] theorem sized_execLres {m : FmtM} : Out.Sized (execLres m s) := by
  unfold execLres
  refine State.sized_atomic h fun ts u hu => ?_
  dsimp only
  rw [Out.sized_next]
  refine State.sized_pushOlds (State.sized_mapCtx hu (Watch.mapLanes_sound hu.ctx fun i l hl => ?_)) _ _ _ _
  split <;> exact hl

omit h in
@[simp] theorem State.sized_scndAll {n : Nat} {v : Nat → Nat} :
    ∀ {ts : List (Nat × Target)} {s : State}, s.Sized → (s.scndAll n v ts).1.Sized
  | [], _, h => h
  | (_, _) :: _, _, h => by
    unfold State.scndAll
    refine State.sized_scndAll ?_
    split <;> simp [h]

@[simp] theorem sized_execScnd {m : FmtM} : Out.Sized (execScnd m s) := by
  unfold execScnd
  exact State.sized_atomic h fun _ _ hu => by simp [hu]

@[simp] theorem State.sized_fenceScope {scope : BitVec 3} {detail : DWord} {k : Bool → Out} (hk : ∀ c, Out.Sized (k c)) :
    Out.Sized (s.fenceScope scope detail k) := by simp [State.fenceScope, h, hk]

@[simp] theorem State.sized_fenceAt {ord : BitVec 2} {scope : Nat} : (s.fenceAt ord scope).Sized := by
  unfold State.fenceAt
  extract_lets me ps u
  have hu : u.Sized := by
    simp only [u]
    split
    · exact State.sized_enterSome h _
    · exact h
  split <;> exact hu

@[simp] theorem sized_execFence {ord : BitVec 2} {scope : BitVec 3} : Out.Sized (execFence ord scope s) :=
  State.sized_enter h (State.sized_fenceScope h fun _ => by simp [h])

@[simp] theorem sized_execFencex {scope : BitVec 3} {x y : BitVec 4} : Out.Sized (execFencex scope x y s) := by
  refine State.sized_enter h (State.sized_fenceScope h fun c => ?_)
  exact Out.sized_ite (by simp [h]) (Out.sized_ite (by simp [h]) (by simp [State.sized_crossPaths, h]))

@[simp] theorem State.sized_updateBar {k : Nat} {f : BarObj → BarObj} : (s.updateBar k f).Sized := by
  simp [State.updateBar, State.sized_store, h]

@[simp] theorem State.sized_countBar {t : Trail} {k n : Nat} : (s.countBar t k n).Sized := by
  unfold State.countBar
  split <;> simp [h]

@[simp] theorem State.sized_barFront {e : FmtE} {write reads : Bool} {k : Nat → DWord → State → Out}
    (hk : ∀ key v, Out.Sized (k key v s)) : Out.Sized (s.barFront e write reads k) := by
  refine State.sized_enter h (sized_orElse (State.sized_uniFront h) (sized_andThen (State.sized_checkAll h) fun ts => ?_))
  (repeat' split) <;> simp [h, hk]

@[simp] theorem sized_execBinit {e : FmtE} : Out.Sized (execBinit e s) := by simp [execBinit, State.sized_store, h]

@[simp] theorem State.sized_barTrap {e : FmtE} : (s.barTrap e).Sized := by simp [State.barTrap, h]

@[simp] theorem State.sized_phaseSeen {acq : Bool} {k : Nat} : (s.phaseSeen acq k).Sized := by simp [State.phaseSeen, h]

@[simp] theorem sized_execWaitb {e : FmtE} : Out.Sized (execWaitb e s) := by
  refine State.sized_barFront h fun k v => ?_
  exact Out.sized_ite (by simp [h]) (Out.sized_ite (by simp [h]) (by simp [h]))

@[simp] theorem sized_execTestb {e : FmtE} : Out.Sized (execTestb e s) := by
  refine State.sized_barFront h fun k v => Out.sized_ite (by simp [h]) (Out.sized_ite ?_ ?_)
  · exact (Out.sized_next _).2 ((State.sized_advance _ _).2 (State.sized_mapCtx h (Watch.pushUni_sound h.ctx)))
  · have hp : (s.phaseSeen (e.flags.getLsbD 0) k).Sized := State.sized_phaseSeen h
    exact (Out.sized_next _).2 ((State.sized_advance _ _).2 (State.sized_mapCtx hp (Watch.pushUni_sound hp.ctx)))

@[simp] theorem State.sized_crossDone : s.crossDone.Sized := by simp [State.crossDone, h]

@[simp] theorem sized_execWaitcEng {acq : Bool} {limit : BitVec 6} : Out.Sized (execWaitcEng acq limit s) := by
  refine State.sized_enter h ?_
  (repeat' split) <;> simp [h]

@[simp] theorem State.sized_badFmt : s.badFmt.Sized := by simp [State.badFmt, h]

@[simp] theorem sized_execShld {e : FmtE} : Out.Sized (execShld e s) := by
  refine State.sized_enter h (sized_orElse (State.sized_uniFront h) ?_)
  refine sized_andThen (State.sized_checkAll h) fun ts => sized_andThen (State.sized_checkMedia h) fun _ => ?_
  split
  · simp [h]
  · refine Out.sized_ite (by simp [h]) ?_
    extract_lets u
    have hu : u.Sized := State.sized_foldl (fun _ _ hu => State.sized_afterRead hu) _ (State.sized_meetLate h)
    exact (Out.sized_next _).2 ((State.sized_advance _ _).2 (State.sized_mapCtx (s := u.tick) hu (Watch.setShape_sound hu.ctx)))

@[simp] theorem sized_execShst {e : FmtE} : Out.Sized (execShst e s) := by
  refine State.sized_enter h (sized_orElse (State.sized_uniFront h) ?_)
  refine sized_andThen (State.sized_checkAll h) fun ts => sized_andThen (State.sized_checkMedia h) fun _ => ?_
  rw [Out.sized_next, State.sized_advance]
  exact State.sized_foldl (fun _ _ hu => State.sized_writeTarget hu) _ (by simp [h])

@[simp] theorem sized_execShset {e : FmtE} : Out.Sized (execShset e s) := by
  refine State.sized_enter h (sized_orElse (State.sized_uniFront h) (Out.sized_ite (by simp [h]) ?_))
  exact (Out.sized_next _).2 ((State.sized_advance _ _).2 (State.sized_mapCtx h (Watch.setShape_sound h.ctx)))

@[simp] theorem State.sized_agentHalf {g : Agent} {k : Nat} {high : Bool} {v : Nat} : (s.agentHalf g k high v).Sized := by
  simp [State.agentHalf, State.sized_halfPut, h]

@[simp] theorem State.sized_agentPut {g : Agent} {k : Nat} {bs : List Byte} : (s.agentPut g k bs).Sized := by
  unfold State.agentPut
  extract_lets later s1
  have h1 : s1.Sized := (State.sized_claimHalves _ _ _).2 h
  split
  · exact State.sized_pathPut (by exact h1) _ _ _ _ _
  · refine State.sized_foldl (fun u x hu => ?_) _ h1
    (repeat' split) <;> simp [hu]

omit h in
@[simp] theorem State.sized_writeRuns {g : Agent} :
    ∀ {rs : List (Nat × Nat)} {bs : List Byte} {s : State}, s.Sized → (s.writeRuns g rs bs).Sized
  | [], _, _, h => h
  | _ :: _, _, _, h => by
    unfold State.writeRuns
    exact State.sized_writeRuns (State.sized_agentPut h)

@[simp] theorem State.sized_agentWrite {g : Agent} {spad : Bool} {addr : Nat} {bs : List Byte} :
    Work.Sized (s.agentWrite g spad addr bs) := by simp [State.agentWrite, h]

@[simp] theorem State.sized_writeElem {g : Agent} {a : Shape} {i : Pos} {code : Nat} : Work.Sized (s.writeElem g a i code) := by
  unfold State.writeElem
  (repeat' split) <;> simp [h]

@[simp] theorem State.sized_writeScale {g : Agent} {a : Shape} {i : Pos} {code : Nat} : Work.Sized (s.writeScale g a i code) := by
  unfold State.writeScale
  split <;> simp [h]

@[simp] theorem State.sized_moveElem {g : Agent} {a b : Shape} {i j : Pos} : Work.Sized (s.moveElem g a b i j) := by
  refine Work.sized_bind_read _ fun x => ?_
  split
  · refine Work.sized_bind (State.sized_writeElem h) fun t ht => ?_
    split <;> simp [ht]
  · refine Work.sized_bind (State.sized_writeElem h) fun t ht => ?_
    rw [Work.sized_ok]
    split <;> simp [ht]

@[simp] theorem State.sized_moveRow {c : EngCmd} {gather : Bool} {n : Nat} : Work.Sized (s.moveRow c gather n) := by
  simp [State.moveRow, h]

@[simp] theorem State.sized_copyPart {c : EngCmd} {j : Nat} : Work.Sized (s.copyPart c j) := by simp [State.copyPart, h]

end

end Sys2Proof.Machine

namespace Sys2Proof.Machine

/-! ### Commands of the engines and tiles, placing and losing gangs, and preemption -/

section

variable {s : State} (h : s.Sized)

include h

@[simp] theorem State.sized_collUnit {c : EngCmd} {g : Group} {kind op : BitVec 2} {root : Nat} {pieces : List (List Byte)} {n : Nat} :
    Work.Sized (s.collUnit c g kind op root pieces n) := by
  unfold State.collUnit
  (repeat' split) <;> simp [h]

@[simp] theorem State.sized_engUnit {c : EngCmd} {pieces : List (List Byte)} {n : Nat} : Work.Sized (s.engUnit c pieces n) := by
  unfold State.engUnit
  (repeat' split) <;> simp [h]

omit h in
@[simp] theorem State.sized_engUnits {c : EngCmd} {pieces : List (List Byte)} :
    ∀ {count n : Nat} {s : State}, s.Sized → (s.engUnits c pieces n count).1.Sized
  | 0, _, _, h => h
  | count + 1, n, s, h => by
    have hu : Work.Sized (s.engUnit c pieces n) := State.sized_engUnit h
    unfold State.engUnits
    split
    · exact h
    split
    · next t e => exact State.sized_engUnits (by simpa using hu t e)
    all_goals exact h

@[simp] theorem State.sized_countUnits {c : EngCmd} {n n' : Nat} : (s.countUnits c n n').Sized := by
  refine State.sized_foldl (fun u o hu => ?_) _ h
  split <;> simp [hu]

@[simp] theorem State.sized_dropCmd {c : EngCmd} : (s.dropCmd c).Sized := by simp [State.dropCmd, h]

@[simp] theorem State.sized_engFault {c : EngCmd} {sub addr : Nat} : (s.engFault c sub addr).Sized := by
  refine State.sized_dropCmd (State.sized_record (State.sized_foldl (fun u o hu => ?_) _ h))
  split <;> simp [hu]

@[simp] theorem State.sized_engStop {α : Type} {c : EngCmd} {x : Work α} : (s.engStop c x).Sized := by
  unfold State.engStop
  split <;> simp [h]

@[simp] theorem State.sized_putStatus {c : EngCmd} {v : Nat} : Work.Sized (s.putStatus c v) := by
  unfold State.putStatus
  split <;> simp [h]

@[simp] theorem State.sized_noteDone {c : EngCmd} {n : Nat} : (s.noteDone c n).Sized := by simp [State.noteDone, h]

@[simp] theorem State.sized_endColl {c : EngCmd} {v : Nat} : (s.endColl c v).Sized := by
  unfold State.endColl
  split
  · next t e =>
    have ht : t.Sized := State.sized_putStatus h t e
    simp [ht]
  · simp [h]

@[simp] theorem State.sized_deliverUnits {c : EngCmd} {count : Nat} {pieces : List (List Byte)} :
    (s.deliverUnits c count pieces).Sized := by
  unfold State.deliverUnits
  extract_lets r
  have hr : r.1.Sized := State.sized_engUnits h
  have hx : Work.Sized (if c.total ≤ r.2.1 then r.1.putStatus c 0 else .ok r.1) :=
    Work.sized_ite (State.sized_putStatus hr) ((Work.sized_ok _).2 hr)
  split
  · next t e =>
    have ht : t.Sized := hx t e
    simp [ht]
  · simp [hr]

@[simp] theorem State.sized_putSeq {c : EngCmd} : Work.Sized (s.putSeq c) := by
  unfold State.putSeq
  split <;> simp [h]

@[simp] theorem State.sized_stepSeq {c : EngCmd} : (s.stepSeq c).Sized := by
  unfold State.stepSeq
  split
  · next t e => exact State.sized_putSeq h t e
  · simp [h]

omit h in
@[simp] theorem State.sized_readFirst : ∀ (count : Nat) (s : State) (c : EngCmd), (s.readFirst c count).1.Sized ↔ s.Sized
  | 0, _, _ => Iff.rfl
  | count + 1, s, c => by
    unfold State.readFirst
    split
    · rfl
    · split
      · rw [State.sized_readFirst count]; simp
      all_goals rfl

@[simp] theorem State.sized_sendFirst {c : EngCmd} {count : Nat} : (s.sendFirst c count).Sized := by
  unfold State.sendFirst
  split
  · simp [h]
  · extract_lets r d t
    have ht : t.Sized := (State.sized_readFirst count s c).2 h
    clear_value t
    split
    · split <;> simp [ht]
    · simp [ht]

@[simp] theorem State.sized_deliver {id count : Nat} {pieces : List (List Byte)} : (s.deliver id count pieces).Sized := by
  unfold State.deliver
  (repeat' split) <;> simp [h]

@[simp] theorem State.sized_completeCmd {id : Nat} : (s.completeCmd id).Sized := by
  unfold State.completeCmd
  split <;> simp [h]

@[simp] theorem State.sized_freeTile {c : EngCmd} {n : Nat} : (s.freeTile c n).Sized := by
  induction n with
  | zero => exact h
  | succ n ih =>
    unfold State.freeTile
    dsimp only
    split
    · next t e => exact State.sized_writeElem (by exact ih) t e
    · exact ih

@[simp] theorem sized_execCollAbort {id : Nat} {mismatch : Bool} : Out.Sized (execCollAbort id mismatch s) := by
  unfold execCollAbort
  (repeat' split) <;> simp [h]

@[simp] theorem State.sized_shapeTrap {code : Nat} {reg : Option (BitVec 4)} : (s.shapeTrap code reg).Sized := by
  simp [State.shapeTrap, h]

@[simp] theorem State.sized_shapeFault {r : BitVec 4} {a : Shape} {mustSpad : Bool} : CheckSized (s.shapeFault r a mustSpad) := by
  unfold State.shapeFault
  dsimp only
  (repeat' split) <;> simp [h]

omit h in
@[simp] theorem checkSized_firstFault {l : List (Option State)} (hl : ∀ c ∈ l, CheckSized c) : CheckSized (firstFault l) := by
  induction l with
  | nil => exact checkSized_none
  | cons c l ih =>
    cases c with
    | some t => exact hl (some t) (by simp)
    | none => exact ih fun c hc => hl c (by simp [hc])

@[simp] theorem State.sized_objFault {objs : List Nat} : CheckSized (s.objFault objs) := by
  refine checkSized_firstFault fun c hc => ?_
  obtain ⟨o, _, rfl⟩ := List.mem_map.1 hc
  split
  · exact checkSized_none
  · next t e => exact (checkSized_some t).2 (State.sized_checkAll h t e)

@[simp] theorem State.sized_engFront {g : Option Nat} {maj : Nat} {srcs : List Src} {k : State → Out} (hk : Out.Sized (k s)) :
    Out.Sized (s.engFront g maj srcs k) :=
  State.sized_enter h (Out.sized_ite (by simp [h]) (sized_orElse (State.sized_uniFront h) hk))

theorem State.sized_queueCmd {e : FmtE} {kind : EngKind} {place path obj bytes total : Nat} {group : Option Group}
    {message : Option (Nat × Nat × Nat)} {f : EngCmd → State → State}
    (hf : ∀ c u, u.Sized → (f c u).Sized) :
    Out.Sized (s.queueCmd e kind place path obj bytes total group message f) := by
  unfold State.queueCmd
  extract_lets w c s1
  have h1 : s1.Sized := by simp only [s1]; split <;> simp [State.sized_crossPaths, h]
  split
  · simp [h]
  · rw [Out.sized_next, State.sized_advance]
    exact hf _ _ h1

@[simp] theorem State.sized_pairFault {e : FmtE} {a b : Shape} {boxesDiffer : Bool} :
    CheckSized (s.pairFault e a b boxesDiffer) := by
  unfold State.pairFault
  split <;> simp [h]

@[simp] theorem sized_execCpy {e : FmtE} : Out.Sized (execCpy e s) :=
  State.sized_engFront h (sized_orElse (checkSized_firstFault (by simp [h])) (State.sized_queueCmd h fun _ _ hu => hu))

@[simp] theorem State.sized_cpysFault {r : BitVec 4} {a : Shape} {n : Nat} : CheckSized (s.cpysFault r a n) := by
  unfold State.cpysFault
  dsimp only
  (repeat' split) <;> simp [h]

@[simp] theorem sized_execCpys {e : FmtE} : Out.Sized (execCpys e s) := by
  refine State.sized_engFront h (sized_orElse (checkSized_firstFault ?_) (State.sized_queueCmd h fun _ _ hu => hu))
  simp only [List.forall_mem_cons]
  refine ⟨State.sized_objFault h, State.sized_cpysFault h, State.sized_cpysFault h, ?_, by simp⟩
  (repeat' refine checkSized_ite ?_ ?_) <;> simp [h]

@[simp] theorem sized_execCpyp {e : FmtE} : Out.Sized (execCpyp e s) :=
  State.sized_engFront h (sized_orElse (checkSized_firstFault (by simp [h])) (State.sized_queueCmd h fun _ _ hu => hu))

@[simp] theorem State.sized_rowsCmd {e : FmtE} {gather : Bool} {maj : Nat} : Out.Sized (s.rowsCmd e gather maj) :=
  State.sized_engFront h (sized_orElse (checkSized_firstFault (by simp [h])) (State.sized_queueCmd h fun _ _ hu => hu))

@[simp] theorem State.sized_collFault {e : FmtE} {kind : BitVec 2} {op : Nat} : CheckSized (s.collFault e kind op) := by
  simp only [State.collFault]
  (repeat' split) <;> simp [h]

@[simp] theorem State.sized_collCount {e : FmtE} {m : Nat} : CheckSized (s.collCount e m) := by simp [State.collCount, h]

@[simp] theorem State.sized_collCmd {e : FmtE} {kind : BitVec 2} : Out.Sized (s.collCmd e kind) := by
  refine State.sized_engFront h (sized_orElse (checkSized_firstFault ?_) ?_)
  · simp only [List.forall_mem_cons]
    exact ⟨State.sized_objFault h, State.sized_shapeFault h, State.sized_shapeFault h, State.sized_collFault h,
      checkSized_ite checkSized_none (State.sized_collCount h), by simp⟩
  refine Out.sized_ite (by simp [h]) ?_
  split
  · simp [h]
  · rw [Out.sized_next]
    split <;> simp [h]
  · exact (Out.sized_next _).2 (checkSized_getD (checkSized_bind fun _ => State.sized_collCount h) (State.sized_shapeTrap h))
  · exact State.sized_queueCmd h fun c u hu => State.sized_stepSeq hu

@[simp] theorem State.sized_dropMat {c : MatCmd} : (s.dropMat c).Sized := by simp [State.dropMat, h]

@[simp] theorem State.sized_countMat {c : MatCmd} {n : Nat} : (s.countMat c n).Sized := by
  unfold State.countMat
  split <;> simp [h]

@[simp] theorem State.sized_matStop {c : MatCmd} {x : Work Unit} : (s.matStop c x).Sized := by
  unfold State.matStop
  split
  · exact h
  · simp [h]
  · refine State.sized_dropMat (State.sized_record ?_)
    split <;> simp [h]
  · simp [h]
  · simp [h]

@[simp] theorem State.sized_runPass {c : MatCmd} : Work.Sized (s.runPass c) := by
  unfold State.runPass
  refine Work.sized_ite (by simp) ?_
  extract_lets g arrays nl leader cl cr run running
  refine Work.sized_bind_of fun u hu => Work.sized_bind_of fun v hv => ?_
  have h1 : u.1.Sized := by
    simp only [leader] at hu
    split at hu <;> exact (State.sized_addPass hu).2 h
  have h2 : v.1.Sized := by
    split at hv
    · exact (State.sized_addPass hv).2 h1
    · cases hv
      exact h1
  extract_lets made t1 t2 t3
  have h3 : t3.Sized := by simp [t3, t2, t1, h2]
  exact (Work.sized_ok _).2 h3

omit h in
@[simp] theorem State.sized_grantFuel : ∀ {n : Nat} {s : State} {array : Nat}, s.Sized →
    (State.grantFuel n s array).Sized
  | 0, _, _, h => h
  | n + 1, s, array, h => by
    unfold State.grantFuel
    split
    · exact h
    split
    · next t e => exact State.sized_runPass h t e
    · exact State.sized_grantFuel (State.sized_matStop h)
    all_goals exact State.sized_matStop h

@[simp] theorem State.sized_passGrant {array : Nat} : (s.passGrant array).Sized := by
  unfold State.passGrant
  dsimp only
  split
  · exact h
  · exact State.sized_grantFuel (by exact h)

@[simp] theorem sized_execPairedHold {id : Nat} : Out.Sized (execPairedHold id s) := by simp [execPairedHold, h]

@[simp] theorem State.sized_passEnd {array : Nat} : (s.passEnd array).Sized := by
  unfold State.passEnd
  split
  · exact h
  · extract_lets cycles c s1
    have h1 : s1.Sized := by simp [s1, h]
    (repeat' split) <;> simp [h1]

@[simp] theorem State.sized_accrdUnit {c : MatCmd} {n : Nat} : Work.Sized (s.accrdUnit c n) := by
  unfold State.accrdUnit
  split <;> simp [h]

@[simp] theorem State.sized_accrdwUnit {c : MatCmd} {n : Nat} : Work.Sized (s.accrdwUnit c n) := by
  unfold State.accrdwUnit
  extract_lets l per row first pos vs y
  have h0 : Work.Sized (.ok s) := (Work.sized_ok s).2 h
  refine Work.sized_ite (Work.sized_bind ?_ fun t ht => State.sized_writeScale ht) h0
  refine List.foldlRecOn (motive := Work.Sized) _ _ h0 fun r hr x _ => ?_
  refine Work.sized_bind hr fun t ht => Work.sized_bind (State.sized_writeElem ht) fun u hu => ?_
  rw [Work.sized_ok]
  split <;> simp [hu]

@[simp] theorem State.sized_accaddUnit {c : MatCmd} {n : Nat} : Work.Sized (s.accaddUnit c n) :=
  Work.sized_bind_read _ fun _ => Work.sized_ite (by rwa [Work.sized_ok, State.sized_setAnchored])
      (by rwa [Work.sized_ok, State.sized_addTerms])

@[simp] theorem State.sized_accstatUnit {c : MatCmd} {n : Nat} : Work.Sized (s.accstatUnit c n) := by simp [State.accstatUnit, h]

@[simp] theorem State.sized_portUnit {c : MatCmd} {n : Nat} : Work.Sized (s.portUnit c n) := by
  unfold State.portUnit
  (repeat' split) <;> simp [h]

omit h in
@[simp] theorem State.sized_portUnits {c : MatCmd} :
    ∀ {count n : Nat} {s : State}, s.Sized → (s.portUnits c n count).1.Sized
  | 0, _, _, h => h
  | count + 1, n, s, h => by
    have hu : Work.Sized (s.portUnit c n) := State.sized_portUnit h
    unfold State.portUnits
    split
    · exact h
    split
    · next t e => exact State.sized_portUnits (by simpa using hu t e)
    all_goals exact h

@[simp] theorem State.sized_portDeliver {id count : Nat} : (s.portDeliver id count).Sized := by
  unfold State.portDeliver
  split
  · exact h
  split
  · exact h
  · extract_lets r u v
    have hv : v.Sized := by simp only [v, u, r]; split <;> simp [h]
    simp [hv]

@[simp] theorem State.sized_completeMat {id : Nat} : (s.completeMat id).Sized := by
  unfold State.completeMat
  split <;> simp [h]

@[simp] theorem State.sized_matFront {g : Option Nat} {maj : Nat} {srcs : List Src} {k : State → Out} (hk : Out.Sized (k s)) :
    Out.Sized (s.matFront g maj srcs k) :=
  State.sized_enter h (Out.sized_ite (by simp [h]) (Out.sized_ite (by simp [h]) (sized_orElse (State.sized_uniFront h) hk)))

@[simp] theorem State.sized_rowFault {row n : Nat} {pair : Bool} : CheckSized (s.rowFault row n pair) := by
  unfold State.rowFault
  split <;> simp [h]

@[simp] theorem State.sized_queueMat {e : FmtE} {op : MatOp} {maj row col rows addr obj bytes total : Nat} {pair clear : Bool} :
    Out.Sized (s.queueMat e op maj row col rows addr obj bytes total pair clear) := by
  unfold State.queueMat
  refine Out.sized_ite (by simp [h]) ?_
  extract_lets product c s1
  have h1 : s1.Sized := by simp [s1, h]
  simp [h1]

@[simp] theorem State.sized_productFault {e : FmtE} {a b : Shape} {sparse paired : Bool} {row col : Nat} :
    CheckSized (s.productFault e a b sparse paired row col) := by
  simp only [State.productFault]
  (repeat' split) <;> simp [h]

@[simp] theorem State.sized_sectorFault {a : Shape} {t0 t1 : Nat} : CheckSized (s.sectorFault a t0 t1) := by
  unfold State.sectorFault
  dsimp only
  split
  · split <;> simp [h]
  all_goals simp [h]

@[simp] theorem State.sized_headerFault {a : Shape} : CheckSized (s.headerFault a) :=
  checkSized_findSome (fun _ => State.sized_sectorFault h) _

@[simp] theorem State.sized_product {e : FmtE} {group maj : Nat} {sparse paired : Bool} :
    Out.Sized (s.product e group maj sparse paired) :=
  State.sized_matFront h (sized_orElse (checkSized_firstFault (by simp [h])) (State.sized_queueMat h))

@[simp] theorem sized_execAccinit {e : FmtE} : Out.Sized (execAccinit e s) :=
  State.sized_matFront h (sized_orElse (State.sized_rowFault h) (State.sized_queueMat h))

@[simp] theorem sized_execAnchor {e : FmtE} : Out.Sized (execAnchor e s) := by
  refine State.sized_enter h (Out.sized_ite (by simp [h]) (Out.sized_ite (by simp [h]) ?_))
  exact (Out.sized_next _).2 ((State.sized_advance _ _).2 (State.sized_mapCtx h (Watch.pushUni_sound h.ctx)))

@[simp] theorem State.sized_tileFault {e : FmtE} {a : Shape} {col row : Nat} : CheckSized (s.tileFault e a col row) := by
  simp [State.tileFault, h]

@[simp] theorem State.sized_tileCmd {e : FmtE} {group : Option Nat} {maj : Nat} {op : MatOp} {clear : Bool}
    {format units : Shape → Nat} : Out.Sized (s.tileCmd e group maj op clear format units) :=
  State.sized_matFront h (sized_orElse (checkSized_firstFault (by simp [h])) (State.sized_queueMat h))

@[simp] theorem sized_execAccstat {e : FmtE} : Out.Sized (execAccstat e s) := by
  refine State.sized_matFront h (sized_orElse (checkSized_firstFault ?_) (State.sized_queueMat h))
  simp only [List.forall_mem_cons]
  refine ⟨State.sized_objFault h, State.sized_rowFault h, checkSized_findSome (fun o => ?_) _, by simp⟩
  split
  · exact checkSized_none
  · next t e => exact (checkSized_some t).2 (State.sized_checkAll h t e)

@[simp] theorem State.sized_clearPlaces {r : LaunchRec} {ps : List BlockPlace} : (s.clearPlaces r ps).Sized := by
  simp +contextual [State.clearPlaces, State.sized_clearBytes, h]

@[simp] theorem State.sized_startGang {c : Cand} {os : List (Nat × Offer)} : (s.startGang c os).Sized := by
  unfold State.startGang
  extract_lets l ps core g bad s1 s2 u
  have h1 : s1.Sized := State.sized_clearPlaces h
  have hg : ∀ x ∈ [g], x.sound := fun x hx => by
    rw [List.mem_singleton.1 hx]
    exact fun w hw => absurd hw List.not_mem_nil
  have h2 : s2.Sized := State.sized_appendGangs (State.sized_filterGangs h1 _) hg
  have hu : u.Sized := State.sized_foldl (fun v x hv => State.sized_startBlock hv _ _ _ _ _) _ h2
  obtain _ | ⟨va, k, _ | _⟩ := bad <;> simp [hu]

/-- The gang that a candidate brings, if it brings one, is an image whose watches have their sizes. -/
def Cand.sound (c : Cand) : Prop := ∀ g, c.gang = some g → g.sound

omit h in
theorem Launch.cand_gang (l : Launch) (g : Option Gang) (i : Nat) : (l.cand g i).gang = g := by
  unfold Launch.cand
  (repeat' split) <;> rfl

theorem State.returning_sound {c : Cand} (hc : c ∈ s.returning) : c.sound := by
  obtain ⟨g, hg, e⟩ := List.mem_filterMap.1 hc
  split at e
  · obtain ⟨l, -, rfl⟩ := Option.map_eq_some_iff.1 e
    intro x hx
    rw [Launch.cand_gang] at hx
    exact Option.some.inj hx ▸ h.gangs g hg
  · cases e

omit h in
theorem State.fresh1_sound {die : Nat} {c : Cand} (hc : c ∈ s.fresh1 die) : c.sound := by
  obtain ⟨l, -, e⟩ := List.mem_filterMap.1 hc
  dsimp only at e
  split at e
  · cases e
  · obtain ⟨i, -, rfl⟩ := Option.map_eq_some_iff.1 e
    intro x hx
    rw [Launch.cand_gang] at hx
    exact absurd hx nofun

theorem State.cand_sound {die : Nat} {c : Cand} (hc : c ∈ s.returning ++ s.fresh1 die) : c.sound :=
  (List.mem_append.1 hc).elim (State.returning_sound h) State.fresh1_sound

theorem State.nextCand_sound {die : Nat} {c : Cand} (e : s.nextCand die = some c) : c.sound := by
  unfold State.nextCand at e
  split at e
  · cases e
  · exact State.cand_sound h ((mem_sortCands _ _).1 (List.mem_of_find?_eq_some e))

theorem State.sized_resumeGang {c : Cand} {g : Gang} (hg : g.sound) {os : List (Nat × Offer)} : (s.resumeGang c g os).Sized := by
  unfold State.resumeGang
  extract_lets l ps x ws g1 g2 s0 s1 s2 s3 s4 mine s5
  have h1 : s1.Sized := by
    simp only [s1, s0]
    split
    · exact h
    · exact State.sized_restoreRows (State.sized_physRecord h)
  have h3 : s3.Sized := State.sized_moveBlocks (State.sized_clearPlaces h1)
  have h4 : s4.Sized := State.sized_modGang h3 fun _ _ w hw => absurd hw List.not_mem_nil
  have hw : ∀ w ∈ ws, w.sound := by
    simp only [ws]
    split
    · exact hg
    · exact forall_mem_mapFrom hg (fun i w hw => Gang.returned_sound hw _ _ _ _) 0
  have h5 : s5.Sized := h4
  exact State.sized_pollJoin (State.sized_foldl
    (fun u y hu => State.sized_restoreBlock hu (fun w hm => hw w (List.mem_of_mem_filter hm)) _ _) _ h5)

theorem State.sized_placeCand {die : Nat} {c : Cand} (hc : c.sound) {os : List (Nat × Offer)} : (s.placeCand die c os).Sized := by
  unfold State.placeCand
  split
  · next g e =>
    split
    · exact State.sized_startGang h
    · exact State.sized_resumeGang h (hc g e)
  · exact State.sized_startGang ((State.sized_modLaunch _ _ _).2 h)

theorem State.sized_placeOrHold {core : Nat} {c : Cand} (hc : c.sound) {os : List (Nat × Offer)} :
    (s.placeOrHold core c os).Sized := by
  unfold State.placeOrHold
  split
  · split
    · simp [h]
    · exact State.sized_placeCand h hc
  · exact State.sized_placeCand h hc

@[simp] theorem State.sized_gangPlace {cores : List Nat} : (s.gangPlace cores).Sized := by
  unfold State.gangPlace
  dsimp only
  split
  · exact h
  next c e =>
  split
  · exact h
  split
  · exact h
  · exact State.sized_placeOrHold h (State.nextCand_sound h e)

@[simp] theorem State.sized_loseGangs {die : Nat} {l : Launch} : (s.loseGangs die l).Sized := by
  unfold State.loseGangs
  extract_lets x top again s1 s2
  have h2 : s2.Sized := (State.sized_modLaunch _ _ _).2 (State.sized_foldl (fun _ _ hu => State.sized_killGang hu) _ h)
  clear_value s2
  split
  · exact h2
  split
  · refine State.sized_appendGangs h2 fun g hg => ?_
    obtain ⟨i, -, rfl⟩ := List.mem_map.1 hg
    exact fun w hw => absurd hw List.not_mem_nil
  · simp [h2]

@[simp] theorem State.sized_dieLoss {die : Nat} : (s.dieLoss die).Sized := by
  unfold State.dieLoss
  split
  · exact h
  · extract_lets s1 s2 s3
    have h3 : Out.Sized (.next s3) :=
      -- over outcomes, so that the kernel does not evaluate the counter file
      List.foldlRecOn (motive := fun u => Out.Sized (.next u)) _ _ ((Out.sized_next _).2 h) fun _ hu _ _ =>
        (Out.sized_next _).2 (State.sized_touchCounter ((Out.sized_next _).1 hu))
    clear_value s3
    rw [Out.sized_next] at h3
    exact State.sized_foldl (fun _ _ hu => State.sized_loseGangs hu) _ h3

@[simp] theorem State.sized_pollCore {core : Nat} : (s.pollCore core).Sized := by simp +contextual [State.pollCore, h]

@[simp] theorem State.sized_softRequest {core dom : Nat} : (s.softRequest core dom).Sized := by
  unfold State.softRequest
  split <;> simp [h]

@[simp] theorem State.sized_withdraw {core dom : Nat} : (s.withdraw core dom).Sized := by
  unfold State.withdraw
  split <;> simp [h]

@[simp] theorem sized_execGraceExpiry {core : Nat} : Out.Sized (execGraceExpiry core s) := by
  unfold execGraceExpiry
  split <;> simp [h]

@[simp] theorem State.sized_killOn {core dom : Nat} : (s.killOn core dom).Sized :=
  State.sized_foldl (fun _ _ hu => State.sized_killGang (State.sized_record hu)) _ h

@[simp] theorem sized_execKillTimerExpiry {core : Nat} : Out.Sized (execKillTimerExpiry core s) := by
  unfold execKillTimerExpiry
  split <;> simp [h]

@[simp] theorem sized_execResponseWindowExpiry {core dom : Nat} : Out.Sized (execResponseWindowExpiry core dom s) := by
  simp [execResponseWindowExpiry, h]

@[simp] theorem sized_execResponseTimeout {w : WatchRef} {id : Nat} : Out.Sized (execResponseTimeout w id s) := by
  unfold execResponseTimeout
  split
  · split
    · simp [h]
    · exact (Out.sized_next _).2 (State.sized_record (State.sized_intoImage h fun _ hv => Watch.completeZero_sound hv))
  · simp [h]

@[simp] theorem State.sized_saveOn {core : Nat} {window : Bool} {p : Gang → Launch → Bool} : (s.saveOn core window p).Sized := by
  refine State.sized_foldl (fun u g hu => ?_) _ h
  split <;> simp [hu]

@[simp] theorem State.sized_pollHalt {p : Preempt} : (s.pollHalt p).Sized := by simp [State.pollHalt, h]

@[simp] theorem sized_execSliceEnd {core overrun : Nat} : Out.Sized (execSliceEnd core overrun s) := by
  unfold execSliceEnd
  dsimp only
  split
  · rw [Out.sized_next]
    split <;> simp [h]
  · next d _ =>
    split
    · simp [h]
    · refine (Out.sized_next _).2 ((State.sized_hardRequest _ _ _).2 ?_)
      exact (State.sized_addDebt s core d overrun).2 h

@[simp] theorem State.sized_pollRecall {x : Nat × Bool} : (s.pollRecall x).Sized := by
  unfold State.pollRecall
  dsimp only
  split <;> exact State.sized_saveOn h

@[simp] theorem State.sized_revokeLeeway {core : Nat} : (s.revokeLeeway core).Sized := by simp [State.revokeLeeway, h]

@[simp] theorem State.sized_pollReclaim {x : Reclaim} : (s.pollReclaim x).Sized := by
  unfold State.pollReclaim
  extract_lets core t
  have ht : t.Sized := h
  split
  · exact h
  split
  · exact ht
  next c e =>
  have hc : c.sound := State.cand_sound h (List.mem_of_find?_eq_some e)
  split
  · split
    · exact State.sized_placeOrHold h hc
    · exact State.sized_placeOrHold ht hc
  · exact ht

@[simp] theorem sized_execLendReclaim {core : Nat} : Out.Sized (execLendReclaim core s) := by
  unfold execLendReclaim
  split
  · simp [h]
  · exact (Out.sized_next _).2 (State.sized_pollReclaim (State.sized_foldl (fun _ _ hu => State.sized_revokeLeeway hu) _ (by exact h)))

@[simp] theorem State.sized_writeLend {core : Nat} {slots : Bool} {v : DWord} : (s.writeLend core slots v).Sized := by
  simp [State.writeLend, h]

@[simp] theorem sized_execSightDrain {die : Nat} : Out.Sized (execSightDrain die s) := by
  unfold execSightDrain
  (repeat' split) <;> simp [h]

@[simp] theorem State.sized_pollSight {die : Nat} : (s.pollSight die).Sized := by
  unfold State.pollSight
  (repeat' split) <;> simp [h]

@[simp] theorem State.sized_pollVouched : s.pollVouched.Sized := by simp +contextual [State.pollVouched, h]

@[simp] theorem State.sized_sightFail {die core : Nat} : (s.sightFail die core).Sized := by
  unfold State.sightFail
  refine State.sized_foldl (fun u l hu => State.sized_foldl (fun v i hv => ?_) _ hu) _ (by exact h)
  split <;> simp [hv]

end

end Sys2Proof.Machine

namespace Sys2Proof.Machine

/-! ### The clock, pages, keys, resets, packets, the host and registers -/

section

variable {s : State} (h : s.Sized)

include h

@[simp] theorem State.sized_noteSuspect {core reason id : Nat} : (s.noteSuspect core reason id).Sized := by
  unfold State.noteSuspect
  split <;> simp [h]

@[simp] theorem sized_execSightPassEnd {die : Nat} {passed : Bool} : Out.Sized (execSightPassEnd die passed s) := by
  unfold execSightPassEnd
  split
  case h_2 => simp [h]
  split
  · simp [h]
  split
  · extract_lets reason s1 s2
    have h2 : s2.Sized := State.sized_foldl (fun _ _ hu => State.sized_noteSuspect hu) _ (State.sized_physRecord h)
    exact (Out.sized_next _).2 ((State.sized_endTest _ _ _ _).2 h2)
  split
  · extract_lets s1 r
    have h1 : s1.Sized := h
    clear_value s1
    exact (Out.sized_next _).2 ((State.sized_endTest _ _ _ _).2 ((State.sized_setRegField _ _ _ _ _).2 h1))
  · simp [h]

@[simp] theorem State.sized_poll : s.poll.Sized := by
  unfold State.poll
  extract_lets s1 s2 s3 s4
  have h1 : s1.Sized := State.sized_foldl (fun _ _ hu => State.sized_pollHalt hu) _ h
  have h2 : s2.Sized := State.sized_foldl (fun _ _ hu => State.sized_pollRecall hu) _ h1
  have h3 : s3.Sized := State.sized_foldl (fun _ _ hu => State.sized_pollReclaim hu) _ h2
  have h4 : s4.Sized := State.sized_foldl (fun _ _ hu => State.sized_pollSight hu) _ h3
  have h5 := (State.sized_foldl_iff State.sized_pollSlice s4.slices s4).2 h4
  rw [State.sized_pollSwapped]
  refine State.sized_fillFrames ?_
  rw [State.sized_readmit]
  refine State.sized_withdrawReqs ?_
  rw [State.sized_pollClock]
  exact State.sized_pollVouched h5

@[simp] theorem State.sized_startLaunches : s.startLaunches.Sized := by
  refine State.sized_foldl (fun u l hu => ?_) _ h
  dsimp only
  split <;> simp [hu]

@[simp] theorem State.sized_countCycles {d : Nat} : (s.countCycles d).Sized := by
  unfold State.countCycles
  exact State.sized_foldl (fun _ _ hu => State.sized_countEvent hu) _ (State.sized_foldl (fun _ _ hu => State.sized_countEvent hu) _ h)

@[simp] theorem State.sized_begin : s.begin.Sized := by
  unfold State.begin
  exact State.sized_poll (State.sized_startLaunches (State.sized_countCycles (by exact h)))

@[simp] theorem sized_execPageTableWalk {tu dom vpage : Nat} {replaced : Option (Nat × Nat)} :
    Out.Sized (execPageTableWalk tu dom vpage replaced s) := by
  unfold execPageTableWalk
  (repeat' split) <;> simp [h]

@[simp] theorem sized_execInvalidationComplete {dom : Nat} : Out.Sized (execInvalidationComplete dom s) := by
  refine Out.sized_ite (by simp [h]) ?_
  extract_lets u
  have hu : u.Sized := State.sized_enterAll h
  exact (Out.sized_next _).2 ((State.sized_setRegField _ _ _ _ _).2 (by exact hu))

@[simp] theorem State.sized_answerWaiter {dom vpage : Nat} {decline : Bool} {w : Waiter} :
    (s.answerWaiter dom vpage decline w).Sized := by
  unfold State.answerWaiter
  split
  · refine State.sized_modSplit h fun p hp => ?_
    split <;> exact hp
  · (repeat' split) <;> simp [h]
  · exact h
  · exact h

@[simp] theorem State.sized_prqAnswer {dom tag : Nat} {decline : Bool} : (s.prqAnswer dom tag decline).Sized := by
  unfold State.prqAnswer
  (repeat' split) <;> simp +contextual [h]

@[simp] theorem State.sized_idtUnmap {page : Nat} : (s.idtUnmap page).Sized := by
  unfold State.idtUnmap
  split
  · exact have hu : (s.enterHere fun k => decide (k < 2 ^ 58) && pageOf k == page).Sized := State.sized_enterHere h
      hu
  · exact (State.sized_idtErr _).2 h

@[simp] theorem sized_execTrackingPeriodEnd {die : Nat} {presented : List (Nat × Nat)} :
    Out.Sized (execTrackingPeriodEnd die presented s) := by
  refine Out.sized_ite (by simp [h]) ?_
  extract_lets s1 hot order chosen s2
  have h1 : s1.Sized := (State.sized_foldl_iff (fun u _ => State.sized_present u _ _ _) _ _).2 h
  have h2 : s2.Sized := (State.sized_foldl_iff (fun u _ => State.sized_promote u _ _) _ _).2 h1
  exact (Out.sized_next _).2 (by exact h2)

@[simp] theorem sized_execPageMove {page : Nat} {outer : Bool} {frame : Nat} : Out.Sized (execPageMove page outer frame s) := by
  simp only [execPageMove]
  (repeat' split) <;> simp [h]

@[simp] theorem sized_execZpBackgroundClear {page : Nat} :
    Out.Sized (execZpBackgroundClear page s) := by simp [execZpBackgroundClear, h]

@[simp] theorem State.sized_fetchSector {slot src sector : Nat} : (s.fetchSector slot src sector).Sized := by
  unfold State.fetchSector
  (repeat' split) <;> simp [h]

@[simp] theorem State.sized_fetchPage {slot page : Nat} : (s.fetchPage slot page).Sized := by
  unfold State.fetchPage
  (repeat' split) <;> simp +contextual [h]

@[simp] theorem State.sized_keyLoad {slot : Nat} : (s.keyLoad slot).Sized := by
  unfold State.keyLoad
  extract_lets s1 s2 s3
  have h2 : s2.Sized := h
  have h3 : s3.Sized := State.sized_foldl (fun _ _ hu => State.sized_fetchPage hu) _ h2
  split
  · exact (State.sized_foldl_iff (fun u _ => State.sized_setReg u _ _) _ _).2 h3
  · exact h

@[simp] theorem State.sized_keyRetire {slot : Nat} : (s.keyRetire slot).Sized := by
  unfold State.keyRetire
  split
  · exact h
  · extract_lets mine u
    have hu : u.Sized := State.sized_enterHere h
    exact State.sized_scramble (by exact hu) _

@[simp] theorem sized_execPowerInterval : Out.Sized (execPowerInterval s) := by simp [execPowerInterval, h]

@[simp] theorem State.sized_resetLaunch {l : Launch} : (s.resetLaunch l).Sized :=
  State.sized_settleLaunch (State.sized_foldl (fun _ _ hu => State.sized_killGangFuel hu) _ h)

@[simp] theorem State.sized_resetSignal {launch dom va : Nat} {both : Bool} : (s.resetSignal launch dom va both).Sized := by
  simp [State.resetSignal, h]

@[simp] theorem State.sized_resetPacket {dom : Nat} {bs : List Byte} : (s.resetPacket dom bs).Sized := by
  simp [State.resetPacket, h]

@[simp] theorem State.sized_freeCounts {l : Launch} : (s.freeCounts l).Sized := by
  unfold State.freeCounts
  split
  · exact h
  · exact State.sized_foldl (fun u _ hu => by exact State.sized_vwrite hu _ _ _ _) _ h

@[simp] theorem State.sized_resetDomain {dom : Nat} : (s.resetDomain dom).Sized := by
  unfold State.resetDomain
  split
  · exact h
  extract_lets open1 done waiting commands mine cores packets s0 s1 s2 s3 s4 s5 s6 s7 s8 s9 s10 s11 s12 s13 s14 lo hi s15 s16 s17
  have h0 : s0.Sized := State.sized_foldl (fun _ _ hu => State.sized_freeCounts hu) _ h
  have h2 : s2.Sized :=
    State.sized_foldl (fun _ _ hu => by rw [State.sized_joinFall]; exact State.sized_failNode hu) _ (by exact h0)
  have h4 : s4.Sized := State.sized_foldl (fun _ _ hu => State.sized_resetLaunch hu) _ (by exact h2)
  have h6 : s6.Sized := State.sized_foldl (fun _ _ hu => by rwa [State.sized_sendAborts]) _
    (State.sized_foldl (fun _ _ hu => by exact hu) _ h4)
  have h10 : s10.Sized := State.sized_foldl (fun _ _ hu => State.sized_resetSignal hu) _ (by exact h6)
  have h11 : s11.Sized :=
    State.sized_foldl (fun _ _ hu => by rw [State.sized_modLaunch]; exact State.sized_resetSignal hu) _ h10
  have h12 : s12.Sized := State.sized_foldl (fun _ _ hu => State.sized_resetPacket hu) _ h11
  have h13 : s13.Sized := State.sized_foldl (fun _ _ hu => by rwa [State.sized_setRegField]) _ h12
  have h14 : s14.Sized := by simp only [s14]; split <;> simp [h13]
  have h15 : s15.Sized := State.sized_enterHere h14
  rw [State.sized_setReg, State.sized_setRegField, State.sized_setRegField]
  simp only [s17, State.sized_clearCounters]
  exact h15

@[simp] theorem sized_execFunctionLevelReset {dom : Nat} : Out.Sized (execFunctionLevelReset dom s) := by
  unfold execFunctionLevelReset
  split <;> simp [h]

@[simp] theorem State.sized_ioHold {dom q vpage : Nat} : (s.ioHold dom q vpage).Sized := by simp [State.ioHold, h]

@[simp] theorem State.sized_consumePacket {dom q slot : Nat} : (s.consumePacket dom q slot).Sized := by
  simp [State.consumePacket, State.sized_vwrite, h]

@[simp] theorem State.sized_refusePacket {dom q slot cls reason signal record : Nat} :
    (s.refusePacket dom q slot cls reason signal record).Sized := by
  refine State.sized_consumePacket (State.sized_record ?_)
  split <;> simp [h]

@[simp] theorem State.sized_stopQueue {q dom : Nat} : (s.stopQueue q dom).Sized := by simp [State.stopQueue, h]

@[simp] theorem State.sized_readSlot {cp q dom : Nat} : (s.readSlot cp q dom).Sized := by
  unfold State.readSlot
  (repeat' split) <;> simp [h]

@[simp] theorem sized_execQueueServe {iodie : Nat} : Out.Sized (execQueueServe iodie s) := by
  unfold execQueueServe
  (repeat' split) <;> simp [h]

@[simp] theorem sized_execQueueReread {queue : Nat} : Out.Sized (execQueueReread queue s) := by
  unfold execQueueReread
  (repeat' split) <;> simp [h]

theorem State.sized_withPacket {cp ty : Nat} {k : Nat → Nat → Nat → List Byte → State → State}
    (hk : ∀ dom q slot bs, (k dom q slot bs s).Sized) : Out.Sized (s.withPacket cp ty k) := by
  unfold State.withPacket
  split
  · simp [h]
  split
  · simp [h]
  · exact Out.sized_ite (by simp [h]) ((Out.sized_next _).2 (hk _ _ _ _))

@[simp] theorem State.sized_signalBoth {dom va : Nat} : (s.signalBoth dom va).Sized := by
  unfold State.signalBoth
  split <;> simp [h]

omit h in
theorem State.sized_insertAll {dom q : Nat} : ∀ {is : List Nat} {s t : State}, s.Sized →
    s.insertAll dom q is = .ok t → t.Sized
  | [], s, t, h, e => by cases e; exact h
  | i :: is, s, t, h, e => by
    unfold State.insertAll at e
    split at e
    · exact State.sized_insertAll (State.sized_insertNode h) e
    · split at e
      · split at e <;> cases e
      · cases e
    · cases e

@[simp] theorem sized_execNopPacket {iodie : Nat} : Out.Sized (execNopPacket iodie s) :=
  State.sized_withPacket h fun _ _ _ _ => by simp [h]

@[simp] theorem sized_execLaunchPacket {iodie : Nat} : Out.Sized (execLaunchPacket iodie s) := by
  refine State.sized_withPacket h fun dom q slot bs => ?_
  split
  · simp [h]
  split
  · split <;> simp [h]
  · simp [h]
  · dsimp only
    split
    · exact h
    · rw [State.sized_releaseCp]
      exact State.sized_consumePacket (by rwa [State.sized_enterPool])

@[simp] theorem sized_execInsertPacket {iodie : Nat} : Out.Sized (execInsertPacket iodie s) := by
  refine State.sized_withPacket h fun dom q slot bs => ?_
  split
  · simp [h]
  · simp [h]
  · next t e =>
    have ht : t.Sized := State.sized_insertAll h e
    simp [ht]

@[simp] theorem sized_execReleasePacket {iodie : Nat} : Out.Sized (execReleasePacket iodie s) := by
  refine State.sized_withPacket h fun dom q slot bs => ?_
  split
  · simp [h]
  · simp [h]
  · next t e =>
    rw [State.sized_releaseCp, State.releaseAllowed_eq e]
    exact State.sized_consumePacket (State.sized_signalBoth (State.sized_releaseAll h))

@[simp] theorem sized_execSignalAtomicCompletion {id : Nat} {swapped : Bool} :
    Out.Sized (execSignalAtomicCompletion id swapped s) := by
  unfold execSignalAtomicCompletion
  split <;> simp [h]

@[simp] theorem State.sized_outsidePut {t : Trail} {k : Nat} {bs : List Byte} : (s.outsidePut t k bs).Sized := by
  unfold State.outsidePut
  (repeat' split) <;> simp +contextual [State.sized_pathPut, h]

omit h in
@[simp] theorem State.sized_outsideWriteFuel : ∀ {fuel : Nat} {s : State} {t : Trail} {dom va : Nat} {bs : List Byte},
    s.Sized → (State.outsideWriteFuel fuel s t dom va bs).Sized
  | 0, _, _, _, _, _, h => h
  | fuel + 1, s, t, dom, va, bs, h => by
    unfold State.outsideWriteFuel
    split
    · exact h
    · refine State.sized_outsideWriteFuel (fuel := fuel) ?_
      split <;> simp [h]

@[simp] theorem State.sized_outsideWrite {t : Trail} {dom va : Nat} {bs : List Byte} : (s.outsideWrite t dom va bs).Sized := by
  simp [State.outsideWrite, h]

omit h in
@[simp] theorem State.sized_outsideRead (s : State) (t : Trail) (dom va n : Nat) : (s.outsideRead t dom va n).2.Sized ↔ s.Sized :=
  State.sized_foldl_iff (fun u k => State.sized_observe u t.path k 1) _ s

@[simp] theorem sized_execHostAccess {dom : Nat} {own write : Bool} {addr : Nat} {data : List Byte} :
    Out.Sized (execHostAccess dom own write addr data s) := by
  unfold execHostAccess
  (repeat' split) <;> simp [h]

@[simp] theorem State.sized_inboundError {dom node peer sub addr : Nat} : (s.inboundError dom node peer sub addr).Sized := by
  simp [State.inboundError, h]

@[simp] theorem State.sized_inbound {dom node peer : Nat} {op : FabricOp} {addr n : Nat} {data : List Byte} :
    (s.inbound dom node peer op addr n data).Sized := by
  unfold State.inbound
  (repeat' split) <;> simp [h]

@[simp] theorem State.sized_fireTag {dom tag payload : Nat} : (s.fireTag dom tag payload).Sized := by
  unfold State.fireTag
  split
  · exact h
  · exact State.sized_decNode (by exact State.sized_vwrite (by exact h) _ _ _ _)

@[simp] theorem State.sized_storeMessage {m : Message} : CheckSized (s.storeMessage m) := by
  simp only [State.storeMessage]
  (repeat' split) <;> simp [State.sized_vwrite, h]

omit h in
@[simp] theorem State.sized_deliverMessages {dom : Nat} :
    ∀ {ms : List Message} {s : State}, s.Sized → (s.deliverMessages dom ms).Sized
  | [], _, h => h
  | m :: ms, s, h => by
    unfold State.deliverMessages
    split
    · split
      · next t e => exact State.sized_deliverMessages (State.sized_storeMessage h t e)
      · exact h
    · exact State.sized_deliverMessages h

@[simp] theorem sized_execCtrcfgClear {core n : Nat} : Out.Sized (execCtrcfgClear core n s) := by simp [execCtrcfgClear, h]

@[simp] theorem State.sized_writePreq {core : Nat} {v : DWord} : (s.writePreq core v).Sized := by
  unfold State.writePreq
  (repeat' split) <;> simp [h]

@[simp] theorem State.sized_writeIdtcmd {v : DWord} : (s.writeIdtcmd v).Sized := by
  unfold State.writeIdtcmd
  (repeat' split) <;> simp [h]

@[simp] theorem State.sized_writeKeyctl {v : DWord} : (s.writeKeyctl v).Sized := by
  unfold State.writeKeyctl
  split <;> simp [h]

@[simp] theorem State.sized_writeVfctl {dom : Nat} {v : DWord} : (s.writeVfctl dom v).Sized := by simp [State.writeVfctl, h]

@[simp] theorem State.sized_writeReg {r : Reg} {v : DWord} : (s.writeReg r v).Sized := by
  unfold State.writeReg
  split <;> simp [h]

@[simp] theorem sized_execRegisterWrite {target : RegTarget} {v : DWord} : Out.Sized (execRegisterWrite target v s) := by
  refine State.sized_byRegister h ?_
  (repeat' split) <;> simp [h]

omit h in
@[simp] theorem sized_execThermalShutdown {die : Nat} : Out.Sized (execThermalShutdown die s) := by
  simp [execThermalShutdown, State.sized_off]

omit h in
@[simp] theorem sized_execUndervoltage : Out.Sized (execUndervoltage s) := by simp [execUndervoltage, State.sized_off]

omit h in
@[simp] theorem State.sized_cold : s.cold.Sized := by exact State.sized_off (s := s)

omit h in
@[simp] theorem State.sized_bringUp {failed : List ModulePart} : (s.bringUp failed).Sized := by
  unfold State.bringUp
  split <;> simp

@[simp] theorem sized_execLinkError {kind : LinkKind} {port : Nat} : Out.Sized (execLinkError kind port s) := by
  unfold execLinkError
  split <;> simp [h]

end

end Sys2Proof.Machine

namespace Sys2Proof.Machine

/-! ### Instructions that change the watch in focus, and the last event -/

section
variable {s : State} (h : s.Sized)
include h

/-- An instruction that changes the watch in focus and goes on. -/
theorem State.sized_changeCtx {f : Watch → Watch} (hf : (f s.ctx).sound) {n : Nat} :
    Out.Sized (.next ((s.mapCtx f).advance n)) :=
  (Out.sized_next _).2 ((State.sized_advance _ _).2 (State.sized_mapCtx h hf))

@[simp] theorem sized_execSrd {reg : BitVec 12} : Out.Sized (execSrd reg s) :=
  State.sized_enter h (Out.sized_ite (by simp [h]) (State.sized_changeCtx h (Watch.pushUni_sound h.ctx)))

@[simp] theorem sized_execCtrrd {n : BitVec 4} : Out.Sized (execCtrrd n s) :=
  State.sized_enter h (State.sized_changeCtx h (Watch.pushUni_sound h.ctx))

@[simp] theorem sized_execYield : Out.Sized (execYield s) :=
  State.sized_enter h (Out.sized_ite (by simp [h])
    (State.sized_changeCtx h (Watch.sound_withSp h.ctx (Watch.sound_iff.1 h.ctx).sp)))

@[simp] theorem sized_execFeatq {implemented : Bool} : Out.Sized (execFeatq implemented s) :=
  State.sized_enter h (State.sized_changeCtx h (Watch.pushUni_sound h.ctx))

@[simp] theorem sized_execLoop {n : BitVec 7} {disp : BitVec 24} {x : BitVec 16} : Out.Sized (execLoop n disp x s) := by
  refine State.sized_enter h ?_
  extract_lets w r p w'
  have hr : r.sound := ⟨(List.length_map _).trans (Watch.heads_length h.ctx), List.length_replicate, Watch.sound_swake h.ctx⟩
  have hrs : ∀ y ∈ r :: w.sp.recs, y.sound :=
    List.forall_mem_cons.2 ⟨hr, Watch.sound_recs h.ctx⟩
  have hw : w'.sound := Watch.sound_withRecs h.ctx hrs
  have hu : ({ s.tick with ctx := w' } : State).Sized := State.sized_withCtx ((State.sized_tick s).2 h) hw
  exact State.sized_spillOr h (State.sized_mapCtx ((State.sized_setPc _ _).2 hu) (Watch.redirect_sound hw))

@[simp] theorem sized_execExit {k : BitVec 3} : Out.Sized (execExit k s) :=
  State.sized_enter h ((Out.sized_next _).2 (State.sized_settle
    ((State.sized_advance _ _).2 (State.sized_mapCtx h (Watch.exitLanes_sound h.ctx)))))

@[simp] theorem sized_execLdil {lit : BitVec 48} : Out.Sized (execLdil lit s) :=
  State.sized_enter h (State.sized_changeCtx h (Watch.pushUni_sound h.ctx))

@[simp] theorem sized_execIcmp {cond : Cond} {f : FmtA} : Out.Sized (execIcmp cond f s) :=
  State.sized_vector h fun _ => State.sized_changeCtx h (Watch.compare_sound h.ctx)

@[simp] theorem sized_execFcmp {cond : FCond} {f : FmtA} : Out.Sized (execFcmp cond f s) :=
  State.sized_vector h fun _ => State.sized_changeCtx h (Watch.compare_sound h.ctx)

@[simp] theorem sized_execSatclr {k : BitVec 3} : Out.Sized (execSatclr k s) := by
  refine State.sized_enter h (Out.sized_ite (by simp [h]) (State.sized_changeCtx h (Watch.mapLanes_sound h.ctx fun i l hl => ?_)))
  split <;> exact hl

@[simp] theorem sized_execKbal {f : FmtA} : Out.Sized (execKbal f s) :=
  State.sized_vector h fun _ => (Out.sized_next _).2
    (State.sized_pushLanes (State.sized_mapCtx h (Watch.compare_sound h.ctx)) _ _ _)

@[simp] theorem sized_execBzero {f : FmtA} : Out.Sized (execBzero f s) :=
  State.sized_bearing h (State.sized_changeCtx h (Watch.setBear_sound h.ctx))

@[simp] theorem sized_execBget {f : FmtA} : Out.Sized (execBget f s) :=
  State.sized_bearing h ((Out.sized_next _).2 (State.sized_startBear h _ fun _ _ hw => Watch.pushComps_sound hw))

@[simp] theorem sized_execBdir {f : FmtA} : Out.Sized (execBdir f s) :=
  State.sized_bearing h ((Out.sized_next _).2 (State.sized_startBear h _ fun _ _ hw => Watch.pushComps_sound hw))

@[simp] theorem sized_execBneg {f : FmtA} : Out.Sized (execBneg f s) :=
  State.sized_bearing h (State.sized_changeCtx h (Watch.setBear_sound h.ctx))

@[simp] theorem sized_execBmov {f : FmtA} : Out.Sized (execBmov f s) :=
  State.sized_bearing h (State.sized_changeCtx h (Watch.setBear_sound h.ctx))

@[simp] theorem sized_execBdot {f : FmtA} : Out.Sized (execBdot f s) :=
  State.sized_bearing h ((Out.sized_next _).2 (State.sized_startBear h _ fun _ _ hw => Watch.spushPend_sound hw))

@[simp] theorem sized_execBmatch {f : FmtA} : Out.Sized (execBmatch f s) :=
  State.sized_bearing h ((Out.sized_next _).2 (State.sized_startBear h _ fun _ _ hw => Watch.spushPend_sound hw))

@[simp] theorem sized_execPageRequestRetry {dom vpage : Nat} : Out.Sized (execPageRequestRetry dom vpage s) := by
  refine Out.sized_ite (by simp [h]) ?_
  extract_lets u
  have hu : u.Sized := State.sized_mapWatches h fun w hw => Watch.mapSplits_sound hw fun p hp => by split <;> exact hp
  exact (Out.sized_next _).2 (by exact hu)

/-! ### Instructions, events and steps -/

/-- Every instruction and event keeps the sizes. The arms named here are uses of shared operations, by family; the others have
lemmas of their own. -/
theorem sized_exec (i : Instr) : Out.Sized (exec i s) := by
  cases i with
  | tret | tretNext | nop | br | bany | ball | bnone | ifRegion | brk | cont =>
    simp [exec, execTret, execTretNext, execNop, execBr, execBany, execBall, execBnone, execIfRegion, execBrk, execCont,
      h]
  | sadd | ssub | smul | smulh | sand | sor | sxor | sshl | sshr | ssar | smin | smax | snmin | snmax | scmp | sldi =>
    simp [exec, execSadd, execSsub, execSmul, execSmulh, execSand, execSor, execSxor, execSshl, execSshr, execSsar,
      execSmin, execSmax, execSnmin, execSnmax, execScmp, execSldi, h]
  | iadd | isub | iadc | isbb | imul | imulh | imad | ineg | iabs | imin | imax | nmin | nmax | andv | orv | xorv | notv |
      andnv | shl | shr | sar | rot | bfx | bfi | popc | clz | brev | sel | pick | ldi | ldiHi | unstash =>
    simp [exec, execIadd, execIsub, execIadc, execIsbb, execImul, execImulh, execImad, execIneg, execIabs, execImin,
      execImax, execNmin, execNmax, execAndv, execOrv, execXorv, execNotv, execAndnv, execShl, execShr, execSar, execRot,
      execBfx, execBfi, execPopc, execClz, execBrev, execSel, execPick, execLdi, execLdiHi, execUnstash, h]
  | kand | kor | kxor | kandn | knot | kmov | kpop | kfirst =>
    simp [exec, execKand, execKor, execKxor, execKandn, execKnot, execKmov, execKpop, execKfirst, h]
  | fadd | fsub | fmul | ffma | ffms | fmin | fmax | fclass | frnd | fdiv | frcp | frsq | fsqrt | fexp2 | flog2 | fsin |
      fcos | ftanh | fcvt | icvt | ficvt | hadd2 | hmul2 | hfma2 =>
    simp [exec, execFadd, execFsub, execFmul, execFfma, execFfms, execFmin, execFmax, execFclass, execFrnd, execFdiv,
      execFrcp, execFrsq, execFsqrt, execFexp2, execFlog2, execFsin, execFcos, execFtanh, execFcvt, execIcvt, execFicvt,
      execHadd2, execHmul2, execHfma2, h]
  | sfadd | sfmul | sffma | dot4 | dot8 | fdot4 | fdot8 | mac2 | pack | unpk | shrr | fscl =>
    simp [exec, execSfadd, execSfmul, execSffma, execDot4, execDot8, execFdot4, execFdot8, execMac2, execPack, execUnpk,
      execShrr, execFscl, h]
  | shfl | shflx | bcastl =>
    simp [exec, execShfl, execShflx, execBcastl, h]
  | bnorm | btest | badd | bmix =>
    simp [exec, execBnorm, execBtest, execBadd, execBmix, h]
  | ld | st | lds | sts | ldw | stw | atomAdd | atomAnd | atomOr | atomXor | atomMin | atomMax | atomNmin | atomNmax |
      atomXchg =>
    simp [exec, execLd, execSt, execLds, execSts, execLdw, execStw, execAtomAdd, execAtomAnd, execAtomOr, execAtomXor,
      execAtomMin, execAtomMax, execAtomNmin, execAtomNmax, execAtomXchg, h]
  | barrierBlock | barrierGang | barm | barrive | waitcLd =>
    simp [exec, execBarrierBlock, execBarrierGang, execBarm, execBarrive, execWaitcLd, h]
  | gthr | scat | collRed | collBcast | collGath | collAllred | mma | mmap | mmas | mmasp | accrd | accrdw | accadd |
      illegalMajor | instructionFetchFault =>
    simp [exec, execGthr, execScat, execCollRed, execCollBcast, execCollGath, execCollAllred, execMma, execMmap, execMmas,
      execMmasp, execAccrd, execAccrdw, execAccadd, execIllegalMajor, execInstructionFetchFault, h]
  | pendingValueArrival | engineDelivery | engineCommandComplete | passGrant | passEnd | gangPlace | gangEnd |
      pilotDieLoss =>
    simp [exec, execPendingValueArrival, execEngineDelivery, execEngineCommandComplete, execPassGrant, execPassEnd,
      execGangPlace, execGangEnd, execPilotDieLoss, h]
  | preqWithdraw | preqSoft | preqHard | queueNotify | fabricMemoryAccess | taggedMessage |
      prqResponse | prqDecline =>
    simp [exec, execPreqWithdraw, execPreqSoft, execPreqHard, execQueueNotify, execFabricMemoryAccess, execTaggedMessage,
      execPrqResponse, execPrqDecline, h]
  | invalidatePage | invalidateRange | invalidateAll | idtMap | idtUnmap | idtSetpin | idtClrpin | keyLoad | keyRetire =>
    simp [exec, execInvalidatePage, execInvalidateRange, execInvalidateAll, execIdtMap, execIdtUnmap, execIdtSetpin,
      execIdtClrpin, execKeyLoad, execKeyRetire, h]
  | vfReset | vfEnable | queueEnable | quotaWrite | partWrite | qrangeWrite | ctrownWrite | rsvctlWrite |
      lendConfigWrite | eqringWrite | clockStepDown | clockStepUp | thermalThrottle | powerOn | fundamentalReset |
      attestationRequest | flashImageWrite | prqheadWrite | msgheadWrite =>
    simp [exec, execVfReset, execVfEnable, execQueueEnable, execQuotaWrite, execPartWrite, execQrangeWrite,
      execCtrownWrite, execRsvctlWrite, execLendConfigWrite, execEqringWrite, execClockStepDown, execClockStepUp,
      execThermalThrottle, execPowerOn, execFundamentalReset, execAttestationRequest, execFlashImageWrite,
      execPrqheadWrite, execMsgheadWrite, h]
  | _ => simp [exec, h]

/-- The state after an instruction or event that goes on. -/
theorem sized_of_exec {i : Instr} {t : State} (e : exec i s = .next t) : t.Sized := sized_exec h i t e

theorem sized_of_issue {t : State} (e : issue s = .next t) : t.Sized := by
  obtain ⟨i, u, _, hu, rfl⟩ | ⟨maj, len, _, ht⟩ | ⟨addr, k, ht⟩ | ⟨addr, x, _, rfl⟩ := issue_cases e
  · exact State.sized_countIssue (sized_of_exec h hu)
  · exact State.sized_illField h t ht
  · exact sized_of_exec h ht
  · exact State.sized_noWord h

theorem sized_of_issuePart {n : Nat} {t : State} (e : issuePart s n = .next t) : t.Sized := by
  obtain ⟨u, hu, rfl⟩ := mapOut_next e
  exact State.sized_modSplit (sized_of_issue ((State.sized_setRecord s _).2 h) hu) fun _ hp => hp

/-- An issue of a cycle uses the mask registers that a watch had before the cycle: they have their sizes too. -/
theorem sized_of_issueIn {s0 t : State} (h0 : s0.Sized) (e : issueIn s0 s = .next t) : t.Sized := by
  unfold issueIn at e
  split at e
  · next w hw =>
    split at e
    · exact sized_of_issue h e
    · obtain ⟨u, hu, rfl⟩ := mapOut_next e
      have hk : w.ks.length = 7 := (Watch.sound_iff.1 (h0.watches w (List.mem_of_find?_eq_some hw))).ks
      have hb : (s.masksBefore w.ks).Sized := State.sized_mapCtx h (Watch.sound_withKs h.ctx hk)
      exact State.sized_masksAfter (sized_of_issue hb hu) _ (Watch.sound_iff.1 h.ctx).ks _ _ _
  · exact sized_of_issue h e

theorem sized_of_runEvent {i : Instr} {t : State} (e : runEvent i s = .next t) : t.Sized := by
  obtain ⟨_, ht⟩ | rfl := runEvent_cases e
  · exact sized_of_exec h ht
  · exact h

theorem sized_of_manner {m : Manner} {i : Instr} {t : State} (e : runEvent i { s with manner := m } = .next t) :
    ({ t with manner := .now } : State).Sized :=
  sized_of_runEvent (s := { s with manner := m }) (t := t) h e

theorem sized_of_runAct {s0 t : State} (h0 : s0.Sized) {as : List Act} {a : Act} (e : runAct s0 as a s = .next t) : t.Sized := by
  obtain ⟨i, _, hi⟩ | ⟨core, port, g, u, hu, ht⟩ | rfl := runAct_cases e
  · exact sized_of_runEvent h hi
  · exact sized_of_issueIn (State.sized_takeSplit h u hu) h0 ht
  · exact h

theorem State.sized_fairAll {as : List Act} : (s.fairAll as).Sized := by
  refine State.sized_foldl (fun u a hu => ?_) _ h
  split
  · exact State.sized_fairness hu
  · exact hu

theorem sized_of_runCycle {as : List Act} {t : State} (e : runCycle as s = .next t) : t.Sized :=
  have h0 : (s.fairAll as).Sized := State.sized_fairAll h
  runActs_induct (P := State.Sized) (fun _ _ _ hu ha => sized_of_runAct hu h0 ha) _ h0 e

omit h in
theorem Split.awake_sound {p : Split} (hp : p.sound) (now : Nat) : (p.awake now).sound := by
  unfold Split.awake
  split
  · split <;> exact hp
  · exact hp

omit h in
theorem State.renewSplit_sound (s : State) (w : Watch) {p : Split} (hp : p.sound) : (s.renewSplit w p).sound := by
  unfold State.renewSplit
  extract_lets q
  have hq : q.sound := Split.awake_sound hp _
  split
  · exact hq
  · split <;> exact hq

theorem State.sized_renew : s.renew.Sized := by
  have h1 : (s.mapWatches fun w => w.mapSplits (·.awake s.time)).Sized :=
    State.sized_mapWatches h fun w hw => Watch.mapSplits_sound hw fun p hp => Split.awake_sound hp _
  refine State.sized_mapWatches h1 fun w hw => ?_
  split
  · exact Watch.mapSplits_sound hw fun p hp => State.renewSplit_sound _ _ hp
  · exact hw

theorem State.sized_upset {u : Upset} : (s.upset u).Sized := by
  unfold State.upset
  split
  · exact State.sized_physRecord h
  · exact (State.sized_poisonBytes _ _ _).2 h
  · exact (State.sized_poisonBytes _ _ _).2 h
  · exact h
  · refine State.sized_modWatch h fun w hw => Watch.mapLanes_sound hw fun l x hx => ?_
    split
    · exact ⟨(VWake.upset_length _ _).trans hx.1, hx.2⟩
    · exact hx
  · refine State.sized_modWatch h fun w hw => Watch.mapSplits_sound hw fun p hp => ?_
    split
    · exact ⟨(SWake.upset_length _ _).trans hp.1, hp.2⟩
    · exact hp
  · exact State.sized_modWatch h fun w hw => Watch.sound_withCaddies hw (forall_mem_map (Watch.sound_iff.1 hw).caddies fun f hf => by
      split <;> exact hf)

theorem sized_of_background {t : State} (e : s.background = .next t) : t.Sized := by
  unfold State.background at e
  split at e
  · next f hf =>
    obtain ⟨i, rfl⟩ := State.exec_of_mem_ownEvents (List.mem_of_find?_eq_some hf)
    exact sized_of_exec h e
  · cases e
    exact h

theorem State.sized_withSched (ps : List Pick) : ({ s with sched := ps } : State).Sized := h

theorem State.sized_chose (rest : List Pick) : (s.chose rest).Sized := State.sized_withSched (State.sized_begin h) rest

theorem sized_of_proceed {t : State} (e : proceed s = .next t) : t.Sized := by
  have hc : ∀ rest, (s.chose rest).Sized := State.sized_chose h
  cases proceed_cases e with
  | event i rest _ ht => exact sized_of_runEvent (hc rest) ht
  | nothing rest ht =>
    rw [ht]
    exact hc rest
  | issue core port rest u hu ht => exact sized_of_issue (State.sized_take (hc rest) u hu) ht
  | part core port n rest u hu ht => exact sized_of_issuePart (State.sized_take (hc rest) u hu) ht
  | manner m i rest u hu ht =>
    rw [ht]
    exact sized_of_manner (hc rest) hu
  | enter n rest ht =>
    rw [ht]
    exact State.sized_enterSome (hc rest) _
  | behind r k n rest ht =>
    rw [ht, State.sized_keepBehind]
    exact hc rest
  | forget n rest ht =>
    rw [ht, State.sized_forgetByte]
    exact hc rest
  | refetch slot src sector rest ht =>
    rw [ht]
    exact State.sized_fetchSector (hc rest)
  | together as rest ht => exact sized_of_runCycle (hc rest) ht
  | upset u rest ht =>
    rw [ht]
    exact State.sized_upset (hc rest)
  | any u hu ht => exact sized_of_issue (State.sized_takeAny (State.sized_begin h) u hu) ht
  | own ht => exact sized_of_background (State.sized_enterAll (State.sized_begin h)) ht

end

/-- Settles O7: every instruction and event keeps the sizes (`sized_exec` and the lemmas before it), so does all that a step can
have done (`proceed_cases`), and what a step notes at its end changes no register and no wake. -/
theorem watchFormKept : Obligations.WatchFormKept := by
  intro s t h e
  obtain ⟨u, hu, rfl⟩ := step_cases e
  exact State.sized_iff.1 (State.sized_renew (State.sized_noteAltered _ (sized_of_proceed (State.sized_iff.2 h) hu)))

end Sys2Proof.Machine

namespace Sys2Proof.Machine

/-!
O16. Uniform branches (R70).
-/

/-- A uniform branch moves the split to its target or behind the branch, and does nothing else. -/
theorem State.branchIf_eq (s : State) (taken : Bool) (disp : BitVec 24) :
    s.branchIf taken disp = s.setPc (if taken then s.ctx.sp.pc + 8 * disp.signExtend 64 else s.ctx.sp.pc + 8) := by
  cases taken with
  | true => rw [State.branchIf, if_pos rfl, if_pos rfl, State.target_eq]
  | false => rfl

theorem exec_br {s : State} (h : s.admits none) (disp : BitVec 24) : exec (.br disp) s = .next (s.setPc (s.target disp)) := by
  show execBr disp s = _
  rw [execBr, State.enter_eq h]

theorem exec_bany {s : State} (h : s.admits none) (k : BitVec 3) (disp : BitVec 24) :
    exec (.bany k disp) s = .next (s.branchIf (s.ctx.gov k != 0) disp) := by
  show execBany k disp s = _
  rw [execBany, State.enter_eq h]

theorem exec_ball {s : State} (h : s.admits none) (k : BitVec 3) (disp : BitVec 24) :
    exec (.ball k disp) s = .next (s.branchIf (s.ctx.gov k == s.ctx.k0) disp) := by
  show execBall k disp s = _
  rw [execBall, State.enter_eq h]

theorem exec_bnone {s : State} (h : s.admits none) (k : BitVec 3) (disp : BitVec 24) :
    exec (.bnone k disp) s = .next (s.branchIf (s.ctx.gov k == 0) disp) := by
  show execBnone k disp s = _
  rw [execBnone, State.enter_eq h]

/-- Settles O16: each branch sets the PC of the split by `State.branchIf_eq`, on its own condition. -/
theorem uniformBranches : Obligations.UniformBranches := by
  unfold Obligations.UniformBranches
  intro s k disp h
  refine ⟨?br, ?bany, ?ball, ?bnone, fun pc => ⟨rfl, rfl⟩⟩
  case br => rw [exec_br h, State.target_eq]
  case bany => simp only [exec_bany h, State.branchIf_eq, bne_iff_ne]
  case ball => simp only [exec_ball h, State.branchIf_eq, beq_iff_eq]
  case bnone => simp only [exec_bnone h, State.branchIf_eq, beq_iff_eq]

end Sys2Proof.Machine

namespace Sys2Proof.Machine

/-!
O17. IF, IFS and ELSE (R71 to R80). The rules of this part serve the rest of the class too: masks lane by lane, the active lanes, and
nesting counters.
-/

/-! ### Masks, lane by lane -/

@[simp] theorem has_and (m n : Mask) (l : Nat) : has (m &&& n) l = (has m l && has n l) := BitVec.getLsbD_and
@[simp] theorem has_or (m n : Mask) (l : Nat) : has (m ||| n) l = (has m l || has n l) := BitVec.getLsbD_or
@[simp] theorem has_zero (l : Nat) : has 0#64 l = false := BitVec.getLsbD_zero
@[simp] theorem has_not (m : Mask) (l : Nat) : has (~~~m) l = (decide (l < 64) && !has m l) := BitVec.getLsbD_not

/-- A lane that is in a split's active mask is an active lane of it. -/
theorem Watch.active_of_has_k0 {w : Watch} {l : Nat} (h : has w.k0 l = true) : (w.lane l).active w.sp.id = true := by
  rw [Watch.k0, has_maskWhere, Bool.and_eq_true] at h
  rw [Watch.lane, List.getD_eq_getElem?_getD]
  cases hl : w.lanes[l]? with
  | none => simp [hl] at h
  | some x => simpa [hl] using h.2

theorem Watch.has_k0 (w : Watch) {l : Nat} (hl : l < 64) (h : l < w.lanes.length) : has w.k0 l = (w.lane l).active w.sp.id := by
  rw [Watch.k0, has_maskWhere, Watch.lane, List.getD_eq_getElem?_getD, List.getElem?_eq_getElem h]
  simp [hl]

theorem Watch.nest_of_has_k0 {w : Watch} {l : Nat} (h : has w.k0 l = true) : (w.lane l).wake.nest = 0 := by
  have hactive := Watch.active_of_has_k0 h
  simp only [Lane.active, Bool.and_eq_true, beq_iff_eq] at hactive
  exact hactive.2

/-- A governing mask holds active lanes only (R44). -/
theorem Watch.has_k0_of_gov {w : Watch} {k : BitVec 3} {l : Nat} (h : has (w.gov k) l = true) : has w.k0 l = true := by
  unfold Watch.gov at h
  split at h
  · exact h
  · rw [has_and, Bool.and_eq_true] at h
    exact h.2

/-! ### Nesting counters -/

theorem Watch.addNest_lane (w : Watch) (m : Mask) (d : BitVec 8) {l : Nat} (h : l < w.lanes.length) :
    (w.addNest m d).lane l =
      if has m l then { w.lane l with wake := { (w.lane l).wake with nest := (w.lane l).wake.nest + d } } else w.lane l :=
  w.mapLanes_lane _ l h

theorem Watch.subNest_lane (w : Watch) (m : Mask) {l : Nat} (h : l < w.lanes.length) :
    (w.subNest m).lane l =
      if has m l ∧ (w.lane l).wake.nest ≠ 0 then { w.lane l with wake := { (w.lane l).wake with nest := (w.lane l).wake.nest - 1 } }
      else w.lane l :=
  w.mapLanes_lane _ l h

/-- No counter of an active lane is full: it is 0. -/
theorem Watch.nestFull_of_active {w : Watch} {m : Mask} (h : ∀ l, has m l = true → has w.k0 l = true) : w.nestFull m = 0 := by
  refine mask_ext fun l hl => ?_
  refine Eq.trans ?_ (has_zero l).symm
  rw [Watch.nestFull, has_and, Bool.and_eq_false_iff]
  by_cases hm : has m l = true
  · have hnest := Watch.nest_of_has_k0 (h l hm)
    refine .inr ?_
    rw [has_maskWhere, Bool.and_eq_false_iff]
    rw [Watch.lane, List.getD_eq_getElem?_getD] at hnest
    cases hx : w.lanes[l]? with
    | none => exact .inr rfl
    | some x => simp_all
  · exact .inl (by simpa using hm)

/-! ### IF, and IFS in fallback (R74, R77) -/

/-- The lanes that a region excludes: the active ones outside its governing mask (R74). -/
def Watch.excluded (w : Watch) (k : BitVec 3) : Mask := w.k0 &&& ~~~(w.gov k)

theorem Watch.nestFull_excluded (w : Watch) (k : BitVec 3) : w.nestFull (w.excluded k) = 0 :=
  Watch.nestFull_of_active fun l h => by
    rw [Watch.excluded, has_and, Bool.and_eq_true] at h
    exact h.1

/-- The record that an IF opens (R71, R74). -/
def State.ifRecord (s : State) (k : BitVec 3) (disp : BitVec 24) (origin : Bool) : Region :=
  s.ctx.newRegion s.fresh .ifr (s.target disp) 0 (s.ctx.gov k) (s.ctx.excluded k) origin 0 0

/-- The state behind an IF (R74). -/
def State.ifOpened (s : State) (k : BitVec 3) (disp : BitVec 24) (origin : Bool) : State :=
  let w := s.ctx
  ({ s.tick with ctx := { w with sp := { w.sp with recs := s.ifRecord k disp origin :: w.sp.recs } }.addNest (w.excluded k) 1 } : State).setPc
    (if w.gov k = 0 then s.target disp else w.sp.pc + 8)

theorem State.ifOpened_frame (s : State) (k : BitVec 3) (disp : BitVec 24) (origin : Bool) :
    { s.ifOpened k disp origin with ctx := s.ctx, fresh := s.fresh } = s ∧
    { (s.ifOpened k disp origin).ctx with lanes := s.ctx.lanes, sp := s.ctx.sp } = s.ctx ∧
    { (s.ifOpened k disp origin).ctx.sp with recs := s.ctx.sp.recs, pc := s.ctx.sp.pc, wait := s.ctx.sp.wait } = s.ctx.sp :=
  ⟨rfl, rfl, rfl⟩

theorem State.openIf_eq {s : State} {k : BitVec 3} {disp : BitVec 24} {origin : Bool}
    (hfit : ∀ r, ({ s.ctx with sp := { s.ctx.sp with recs := r :: s.ctx.sp.recs } } : Watch).spillFits = true) :
    s.openIf k disp origin = .next (s.ifOpened k disp origin) := by
  have hfits : (s.ifOpened k disp origin).ctx.spillFits = true := hfit (s.ifRecord k disp origin)
  show (if s.ctx.nestFull (s.ctx.excluded k) ≠ 0 then _ else s.spillOr (s.ifOpened k disp origin) 0) = _
  rw [if_neg (not_not_intro (s.ctx.nestFull_excluded k)), State.spillOr, if_pos hfits]

theorem exec_ifRegion {s : State} (h : s.admits none) (k : BitVec 3) (disp : BitVec 24) :
    exec (.ifRegion k disp) s = s.openIf k disp false := by
  show execIfRegion k disp s = _
  rw [execIfRegion, State.enter_eq h]

/-! ### IFS (R77 to R80) -/

/-- An IFS by its resume word (R77, R80). -/
theorem exec_ifs {s : State} (h : s.admits none) {k : BitVec 3} {disp : BitVec 24} {v : DWord} (hv : s.word8 (s.target disp) = .ok v) :
    exec (.ifs k disp) s =
      let there := s.target disp
      if majOf v ≠ 0x16 ∧ majOf v ≠ 0x17 then .next (s.layoutTrap 0x0A)
      else if s.ctx.gov k = 0 ∨ s.ctx.excluded k = 0 ∨ 4 ≤ s.ctx.splits.length then s.openIf k disp true
      else if majOf v = 0x16 then
        s.splitOff (s.ctx.gov k) (s.ctx.excluded k) there (there + (v.extractLsb' 16 24).signExtend 64 * 8) (there + 8)
      else s.splitOff (s.ctx.gov k) (s.ctx.excluded k) there there there := by
  show execIfs k disp s = _
  rw [execIfs, State.enter_eq h]
  simp only [hv]
  rfl

/-- A watch with fewer than four splits has a free index (R321). -/
theorem Watch.freeSplit_spec {w : Watch} (h : w.splits.length < 4) : w.freeSplit < 4 ∧ ∀ p ∈ w.splits, p.id ≠ w.freeSplit := by
  unfold Watch.freeSplit
  cases hf : (List.range 4).find? (fun i => !(w.splits.any (fun p => p.id == i))) with
  | some i =>
    have hfree : w.splits.any (fun p => p.id == i) = false := by simpa using List.find?_some hf
    exact ⟨List.mem_range.1 (List.mem_of_find?_eq_some hf), by simpa [List.any_eq_false] using hfree⟩
  | none =>
    have hall : List.range 4 ⊆ w.splits.map (·.id) := fun i hi => by
      simpa using List.find?_eq_none.1 hf i hi
    have hlen := (List.nodup_range.subperm hall).length_le
    simp at hlen
    omega

/-- The record that an IFS opens in both splits (R71, R77). -/
def State.ifsRecord (s : State) (t e : Mask) (resume rejoin : DWord) : Region :=
  s.ctx.newRegion s.fresh .ifs resume rejoin t e false s.ctx.sp.id s.ctx.freeSplit

/-- The split that an IFS makes of the lanes that it excludes (R77). -/
def State.ifsChild (s : State) (t e : Mask) (resume rejoin child : DWord) : Split :=
  { s.ctx.sp with recs := s.ifsRecord t e resume rejoin :: s.ctx.sp.recs, id := s.ctx.freeSplit, pc := child, wait := .none,
                  since := s.time, port := 1, held := 0, defer := false }

/-- The state behind an IFS that splits (R77). -/
def State.ifsOpened (s : State) (t e : Mask) (resume rejoin child : DWord) : State :=
  let w := s.ctx
  ({ s.tick with ctx := { w.mapLanes (fun i l => if has e i then { l with split := w.freeSplit } else l) with
    sp := { w.sp with recs := s.ifsRecord t e resume rejoin :: w.sp.recs }
    sibs := s.ifsChild t e resume rejoin child :: w.sibs } } : State).setPc (w.sp.pc + 8)

theorem State.ifsOpened_frame (s : State) (t e : Mask) (resume rejoin child : DWord) :
    { s.ifsOpened t e resume rejoin child with ctx := s.ctx, fresh := s.fresh } = s := rfl

theorem State.splitOff_eq {s : State} {t e : Mask} {resume rejoin child : DWord}
    (hfit : ∀ r, ({ s.ctx with sp := { s.ctx.sp with recs := r :: s.ctx.sp.recs },
                               sibs := { s.ctx.sp with recs := r :: s.ctx.sp.recs } :: s.ctx.sibs } : Watch).spillFits = true) :
    s.splitOff t e resume rejoin child = .next (s.ifsOpened t e resume rejoin child) := by
  have hfits : (s.ifsOpened t e resume rejoin child).ctx.spillFits = true := hfit (s.ifsRecord t e resume rejoin)
  show s.spillOr (s.ifsOpened t e resume rejoin child) 0 = _
  rw [State.spillOr, if_pos hfits]

/-! ### ELSE (R75, R79) -/

/-- The watch behind an ELSE on an IF record: arm 0 is parked, arm 1 runs, and the scalar wake is that of the IF (R75). -/
def Watch.parkArm (w : Watch) (r : Region) (rs : List Region) (there : DWord) : Watch :=
  { (w.addNest r.arm0 1).subNest r.arm1 with
    sp := { w.sp with recs := { r with phase := true, resume := there } :: rs, swake := r.scalar, wait := .none,
                      pc := if r.arm1 = 0 then there else w.sp.pc + 8 } }

theorem Watch.parkArm_frame (w : Watch) (r : Region) (rs : List Region) (there : DWord) :
    { w.parkArm r rs there with sp := w.sp, lanes := w.lanes } = w := rfl

theorem Watch.parkArm_lane (w : Watch) (r : Region) (rs : List Region) (there : DWord) {l : Nat} (h : l < w.lanes.length) :
    let n := (w.lane l).wake.nest + (if has r.arm0 l then 1 else 0)
    (w.parkArm r rs there).lane l =
      { w.lane l with wake := { (w.lane l).wake with nest := if has r.arm1 l ∧ n ≠ 0 then n - 1 else n } } := by
  intro n
  have hadd : (w.addNest r.arm0 1).lane l = { w.lane l with wake := { (w.lane l).wake with nest := n } } := by
    rw [Watch.addNest_lane w _ _ h]
    cases h0 : has r.arm0 l <;> simp [n, h0]
  have hsub := (w.addNest r.arm0 1).subNest_lane r.arm1 (l := l) (by rwa [Watch.addNest, Watch.mapLanes_length])
  rw [hadd] at hsub
  refine Eq.trans hsub ?_
  dsimp only
  split <;> rfl

section
variable {s : State} (h : s.admits none) {disp : BitVec 24} {r : Region} {rs : List Region} (hr : s.ctx.sp.recs = r :: rs)
include h

theorem exec_elseArm_none (hr : s.ctx.sp.recs = []) : exec (.elseArm disp) s = .next (s.layoutTrap 1) := by
  show execElseArm disp s = _
  rw [execElseArm, State.enter_eq h]
  simp only [hr]

include hr

/-- An ELSE by the innermost record (R75, R79). -/
theorem exec_elseArm :
    exec (.elseArm disp) s =
      if r.kind = .ifs ∧ r.phase = false then .next (s.setPc (s.target disp))
      else if r.kind = .ifr ∧ r.phase = false then
        if s.ctx.nestFull r.arm0 ≠ 0 then .next (s.takeTrapFree causeNestovf (s.ctx.nestFull r.arm0))
        else .next (({ s with ctx := s.ctx.parkArm r rs (s.target disp) } : State).settle)
      else .next (s.layoutTrap 1) := by
  show execElseArm disp s = _
  rw [execElseArm, State.enter_eq h]
  simp only [hr]
  rfl

end

section
variable {s : State} (hw : s.ctx.lanes.length = 64) (k : BitVec 3) (disp : BitVec 24) (origin : Bool) {l : Nat} (hl : l < 64)
include hw hl

theorem State.ifOpened_lane :
    (s.ifOpened k disp origin).ctx.lane l =
      { s.ctx.lane l with wake := { (s.ctx.lane l).wake with
          nest := (s.ctx.lane l).wake.nest + (if has (s.ctx.excluded k) l then 1 else 0) } } := by
  have hlane : (s.ifOpened k disp origin).ctx.lane l = (s.ctx.addNest (s.ctx.excluded k) 1).lane l := rfl
  rw [hlane, Watch.addNest_lane _ _ _ (by omega)]
  split <;> simp

/-- The lanes that an IF excludes leave the active mask, and the others stay (R74). -/
theorem State.has_ifOpened_k0 : has (s.ifOpened k disp origin).ctx.k0 l = has (s.ctx.gov k) l := by
  have hlen : (s.ifOpened k disp origin).ctx.lanes.length = 64 := (s.ctx.mapLanes_length _).trans hw
  rw [Watch.has_k0 _ hl (by omega), State.ifOpened_lane hw _ _ _ hl]
  have hk0 := s.ctx.has_k0 hl (by omega)
  by_cases hout : has (s.ctx.excluded k) l = true
  · have hboth := hout
    simp only [Watch.excluded, has_and, has_not, Bool.and_eq_true, Bool.not_eq_true'] at hboth
    obtain ⟨hon, -, hgov⟩ := hboth
    simp [Lane.active, hout, hgov, Watch.nest_of_has_k0 hon]
  · have hsame : has (s.ctx.gov k) l = has s.ctx.k0 l := by
      simp only [Watch.excluded, has_and, has_not, hl, decide_true, Bool.true_and, Bool.and_eq_true, Bool.not_eq_true', not_and,
        Bool.not_eq_false] at hout
      exact Bool.eq_iff_iff.2 ⟨Watch.has_k0_of_gov, hout⟩
    rw [hsame, hk0, if_neg hout, add_zero]
    rfl

end

/-- Settles O17: an IF and an IFS in fallback end in `State.ifOpened`, an IFS that splits in `State.ifsOpened`, and an ELSE that changes
arms in `Watch.parkArm`. -/
theorem openings : Obligations.Openings := by
  unfold Obligations.Openings
  refine ⟨?opens, ?splits, ?arms⟩
  case opens =>
    intro s k disp h hw hfit w T E there opens
    have hlanes : w.lanes.length = 64 := (Watch.sound_iff.1 hw).lanes
    have hthere : s.target disp = there := s.target_eq disp
    have spec : ∀ i origin, exec i s = s.openIf k disp origin → opens i origin := fun i origin hi => by
      refine ⟨s.ifOpened k disp origin, s.ifRecord k disp origin, hi.trans (State.openIf_eq hfit), rfl, rfl, rfl, hthere, rfl, rfl, rfl,
        rfl, rfl, rfl, mask_ext fun l hl => State.has_ifOpened_k0 hlanes k disp origin hl, ?_, rfl,
        fun l hl => State.ifOpened_lane hlanes k disp origin hl, s.ifOpened_frame k disp origin⟩
      rw [← hthere]
      rfl
    refine ⟨spec _ _ (exec_ifRegion h k disp), fun v hv hm hone => spec _ _ ?_⟩
    rw [← hthere] at hv
    exact (exec_ifs h hv).trans ((if_neg (by tauto)).trans (if_pos hone))
  case splits =>
    intro s k disp v h hw hfit w T E there hv
    have hlanes : w.lanes.length = 64 := (Watch.sound_iff.1 hw).lanes
    have hthere : s.target disp = there := s.target_eq disp
    rw [← hthere] at hv
    refine ⟨fun hT hE hfew start hstart => ?_, fun h6 h7 => (exec_ifs h hv).trans (if_pos ⟨h6, h7⟩)⟩
    obtain ⟨hid, hnew⟩ := Watch.freeSplit_spec hfew
    obtain ⟨rejoin, hexec⟩ : ∃ rejoin, exec (.ifs k disp) s = s.splitOff T E there rejoin start := by
      have htwo : ¬ (w.gov k = 0 ∨ w.excluded k = 0 ∨ 4 ≤ w.splits.length) := by
        rintro (h0 | h0 | h0)
        exacts [hT h0, hE h0, absurd h0 (by omega)]
      rw [exec_ifs h hv, ← hthere]
      rcases hstart with ⟨h6, rfl⟩ | ⟨h7, rfl⟩
      · exact ⟨_, (if_neg fun hm => hm.1 h6).trans ((if_neg htwo).trans ((if_pos h6).trans (by rw [hthere]; rfl)))⟩
      · exact ⟨_, (if_neg fun hm => hm.2 h7).trans ((if_neg htwo).trans ((if_neg (by rw [h7]; decide)).trans (by rw [hthere]; rfl)))⟩
    refine ⟨s.ifsOpened T E there rejoin start, s.ifsRecord T E there rejoin, s.ifsChild T E there rejoin start,
      hexec.trans (State.splitOff_eq hfit), rfl, rfl, rfl, rfl, rfl, rfl, rfl, rfl, rfl, rfl, rfl, rfl, rfl, rfl, rfl, rfl, rfl, hid,
      hnew, rfl, fun l hl => ?_, s.ifsOpened_frame T E there rejoin start⟩
    refine (w.mapLanes_lane _ l (by omega)).trans ?_
    split <;> rfl
  case arms =>
    intro s disp h w there
    have hthere : s.target disp = there := s.target_eq disp
    refine ⟨fun r rs hr hk hp hf => ⟨w.parkArm r rs there, ?_, rfl, w.parkArm_frame r rs there,
      fun l hl => w.parkArm_lane r rs there hl⟩, fun r rs hr hk hp hf => ?_, fun r rs hr hk hp => ?_, fun hn => ?_⟩
    · refine (exec_elseArm h hr).trans ((if_neg (by simp [hk])).trans ((if_pos ⟨hk, hp⟩).trans ((if_neg (not_not_intro hf)).trans ?_)))
      rw [hthere]
    · exact (exec_elseArm h hr).trans ((if_neg (by simp [hk])).trans ((if_pos ⟨hk, hp⟩).trans (if_pos hf)))
    · exact (exec_elseArm h hr).trans ((if_pos ⟨hk, hp⟩).trans (by rw [hthere]))
    · rcases hn with hr | ⟨r, rs, hr, hstop⟩
      · exact exec_elseArm_none h hr
      · have hstop : (r.kind = .ifs → r.phase = true) ∧ (r.kind = .ifr → r.phase = true) := by rcases hstop with hk | hp <;> simp [*]
        exact (exec_elseArm h hr).trans ((if_neg (by simpa using hstop.1)).trans (if_neg (by simpa using hstop.2)))

end Sys2Proof.Machine

namespace Sys2Proof.Machine

/-!
O18. Layouts and REJOIN (R72, R76, R81).
-/

/-! ### The layout of one lane (R72) -/

/-- What a layout leaves at a position of a lane's ring, by its distance past the mark and before it (R72). -/
theorem VWake.layout_getD (v : VWake) (mark : BitVec 5) (depth : Nat) (L : List Nat) (h : v.ring.length = 32) (p : BitVec 5) :
    (v.layout mark depth L).ring.getD p.toNat .void =
      if 1 ≤ (p - mark).toNat ∧ (p - mark).toNat ≤ L.length then (L.map v.get).getD ((p - mark).toNat - 1) .void
      else if (mark - p).toNat + depth ≤ 31 then v.ring.getD p.toNat .void
      else .void := by
  have hp : p.toNat < v.ring.length := by omega
  simp only [VWake.layout, List.getD_eq_getElem?_getD, mapFrom_getElem?, List.getElem?_eq_getElem hp, Option.map_some,
    Option.getD_some, Nat.zero_add, BitVec.ofNat_toNat, BitVec.setWidth_eq]

theorem VWake.layout_head (v : VWake) (mark : BitVec 5) (depth : Nat) (L : List Nat) :
    (v.layout mark depth L).head = mark + BitVec.ofNat 5 L.length := rfl

/-- The values of the list stand oldest first, the last one at age 0 (R72). -/
theorem VWake.get_layout_value (v : VWake) (mark : BitVec 5) (depth : Nat) {L : List Nat} (h : v.ring.length = 32) (hL : L.length ≤ 8)
    (i : Nat) (hi : i < L.length) : (v.layout mark depth L).get (L.length - 1 - i) = v.get L[i] := by
  have hpast : (mark + BitVec.ofNat 5 L.length - BitVec.ofNat 5 (L.length - 1 - i) - mark).toNat = i + 1 := by
    simp only [BitVec.toNat_sub, BitVec.toNat_add, BitVec.toNat_ofNat]
    omega
  rw [VWake.get, VWake.layout_head, VWake.layout_getD v mark depth L h, hpast, if_pos (by omega)]
  simp [List.getD_eq_getElem?_getD, List.getElem?_eq_getElem hi]

/-- What stood before the record stands behind the list's values, as far as it has not been overwritten (R72). -/
theorem VWake.get_layout_before (v : VWake) (mark : BitVec 5) (depth : Nat) {L : List Nat} (h : v.ring.length = 32) (q : Nat)
    (hq : L.length + q ≤ 31) : (v.layout mark depth L).get (L.length + q) =
      if q + depth ≤ 31 then v.ring.getD (mark - BitVec.ofNat 5 q).toNat .void else .void := by
  have hpos : mark + BitVec.ofNat 5 L.length - BitVec.ofNat 5 (L.length + q) = mark - BitVec.ofNat 5 q := by
    apply BitVec.eq_of_toNat_eq
    simp only [BitVec.toNat_sub, BitVec.toNat_add, BitVec.toNat_ofNat]
    omega
  have hpast : ¬ (1 ≤ (mark - BitVec.ofNat 5 q - mark).toNat ∧ (mark - BitVec.ofNat 5 q - mark).toNat ≤ L.length) := by
    simp only [BitVec.toNat_sub, BitVec.toNat_ofNat]
    omega
  have hback : (mark - (mark - BitVec.ofNat 5 q)).toNat = q := by
    simp only [BitVec.toNat_sub, BitVec.toNat_ofNat]
    omega
  rw [VWake.get, VWake.layout_head, hpos, VWake.layout_getD v mark depth L h, if_neg hpast, hback]

/-! ### The layout of a mask's lanes -/

/-- The two masks of a record (R71). -/
def Region.arms (r : Region) : Mask × Mask := (r.arm0, r.arm1)

section
variable (w : Watch) (m : Mask) (r : Region) (L : List Nat)

theorem Watch.layout_lane {l : Nat} (h : l < w.lanes.length) :
    (w.layout m r L).lane l =
      if has m l then { w.lane l with wake := (w.lane l).wake.layout (r.marks.getD l 0) (r.depths.getD l 0) L } else w.lane l := by
  simp [Watch.layout, Watch.lane, List.getD_eq_getElem?_getD, mapFrom_getElem?, List.getElem?_eq_getElem h]

@[simp] theorem Watch.layout_lanes_length : (w.layout m r L).lanes.length = w.lanes.length := mapFrom_length ..

/-- A layout changes lanes, and depths in the open records: no arm of them (R71). -/
theorem Watch.layout_arms : (w.layout m r L).sp.recs.map Region.arms = w.sp.recs.map Region.arms := by
  have touches : ∀ (js : List Nat) (rs : List Region) (pos : Nat → List (BitVec 5)),
      (js.foldl (fun rs j => rs.map (Region.touch m (pos j))) rs).map Region.arms = rs.map Region.arms := fun js rs pos => by
    induction js generalizing rs with
    | nil => rfl
    | cons j js ih => rw [List.foldl_cons, ih, List.map_map]; rfl
  exact touches _ _ _

@[simp] theorem Watch.layout_recs_length : (w.layout m r L).sp.recs.length = w.sp.recs.length := by
  simpa using congrArg List.length (w.layout_arms m r L)

end

/-- A layout of two arms that share no lane. -/
theorem Watch.layoutArms_lane (w : Watch) (m : Mask) (r : Region) (l0 l1 : List Nat) {l : Nat} (h : l < w.lanes.length) :
    let u := w.lane l
    let lay := fun L => { u with wake := u.wake.layout (r.marks.getD l 0) (r.depths.getD l 0) L }
    (has (m &&& r.arm0) l = true → has (m &&& r.arm1) l = false → (w.layoutArms m r l0 l1).lane l = lay l0) ∧
    (has (m &&& r.arm1) l = true → has (m &&& r.arm0) l = false → (w.layoutArms m r l0 l1).lane l = lay l1) ∧
    (has (m &&& r.arm0) l = false → has (m &&& r.arm1) l = false → (w.layoutArms m r l0 l1).lane l = u) := by
  rw [Watch.layoutArms, Watch.layout_lane _ _ _ _ (by simpa using h), Watch.layout_lane _ _ _ _ h]
  refine ⟨fun h0 h1 => ?_, fun h1 h0 => ?_, fun h0 h1 => ?_⟩ <;> simp [h0, h1]

@[simp] theorem Watch.layoutArms_lanes_length (w : Watch) (m : Mask) (r : Region) (l0 l1 : List Nat) :
    (w.layoutArms m r l0 l1).lanes.length = w.lanes.length := by
  rw [Watch.layoutArms, Watch.layout_lanes_length, Watch.layout_lanes_length]

@[simp] theorem Watch.layoutArms_recs_length (w : Watch) (m : Mask) (r : Region) (l0 l1 : List Nat) :
    (w.layoutArms m r l0 l1).sp.recs.length = w.sp.recs.length := by
  rw [Watch.layoutArms, Watch.layout_recs_length, Watch.layout_recs_length]

/-! ### What a layout reads (R60, R72, R384) -/

theorem State.layoutReads_eq {s : State} {ms : List (Mask × List Nat)} (h : ∀ x ∈ ms, s.ctx.laysOut x.1 x.2) (k : Out) :
    s.layoutReads ms k = k := by
  have hbad : ms.any (fun x => s.ctx.layoutBad x.1 x.2) = false := List.any_eq_false.2 fun x hx => by simp [(h x hx).1]
  have hpend : ms.any (fun x => s.ctx.layoutPends x.1 x.2) = false := List.any_eq_false.2 fun x hx => by simp [(h x hx).2]
  simp [State.layoutReads, hbad, hpend]

theorem State.layoutReads_bad {s : State} {ms : List (Mask × List Nat)} (h : ∃ x ∈ ms, s.ctx.layoutBad x.1 x.2 = true) (k : Out) :
    s.layoutReads ms k = .next s.parityKill := if_pos (List.any_eq_true.2 h)

/-! ### REJOIN -/

/-- What a REJOIN does once its entries are at hand (R76, R81). -/
def State.rejoined (s : State) (r : Region) (e : RejoinEntry) : Out :=
  if r.kind = .ifr then
    .next (({ s with ctx := (s.ctx.layoutArms (r.arm0 ||| r.arm1) r e.l0 e.l1).closeRegion r (s.ctx.sp.pc + 8) } : State).settle)
  else
    match s.ctx.twin r.rid with
    | some (q, a, b) => .next (({ s with ctx := s.ctx.mergeTwins q e.l0 e.l1 a b } : State).settle)
    | none => .next ((s.hold (.rejoin e.l0 e.l1)).pollGang s.ctx.ref)

theorem exec_rejoin {s : State} (h : s.admits none) {x : BitVec 16} {e : RejoinEntry} {r : Region} {rs : List Region}
    (hr : s.ctx.sp.recs = r :: rs) (hk : r.kind ≠ .loop) (he : s.rejoinEntry x = .ok e) :
    exec (.rejoin x) s =
      if e.l0.length ≠ e.l1.length then .next (s.layoutTrap 2)
      else s.layoutReads [(r.arm0, e.l0), (r.arm1, e.l1)] (s.rejoined r e) := by
  show execRejoin x s = _
  rw [execRejoin, State.enter_eq h]
  simp only [hr, he, Got.andThen]
  rw [if_neg hk]
  rfl

theorem exec_rejoin_laysOut {s : State} (h : s.admits none) {x : BitVec 16} {e : RejoinEntry} {r : Region} {rs : List Region}
    (hr : s.ctx.sp.recs = r :: rs) (hk : r.kind ≠ .loop) (he : s.rejoinEntry x = .ok e) (hlen : e.l0.length = e.l1.length)
    (h0 : s.ctx.laysOut r.arm0 e.l0) (h1 : s.ctx.laysOut r.arm1 e.l1) : exec (.rejoin x) s = s.rejoined r e := by
  rw [exec_rejoin h hr hk he, if_neg (not_not_intro hlen), State.layoutReads_eq (by simp [h0, h1])]

theorem State.rejoined_closes {s : State} {r : Region} {e : RejoinEntry} (hk : r.kind = .ifr) :
    s.rejoined r e = .next
      (({ s with ctx := (s.ctx.layoutArms (r.arm0 ||| r.arm1) r e.l0 e.l1).closeRegion r (s.ctx.sp.pc + 8) } : State).settle) :=
  if_pos hk

theorem State.rejoined_waits {s : State} {r : Region} {e : RejoinEntry} (hk : r.kind = .ifs) (ht : s.ctx.twin r.rid = none) :
    s.rejoined r e = .next ((s.hold (.rejoin e.l0 e.l1)).pollGang s.ctx.ref) := by
  simp [State.rejoined, hk, ht]

theorem State.rejoined_merges {s : State} {r : Region} {e : RejoinEntry} {q : Split} {a b : List Nat} (hk : r.kind = .ifs)
    (ht : s.ctx.twin r.rid = some (q, a, b)) :
    s.rejoined r e = .next (({ s with ctx := s.ctx.mergeTwins q e.l0 e.l1 a b } : State).settle) := by
  simp [State.rejoined, hk, ht]

/-! ### The end of a region (R76) -/

/-- A counter falls by 1, unless it is 0 (R76). -/
def VWake.unnested (u : VWake) : VWake := if u.nest = 0 then u else { u with nest := u.nest - 1 }

theorem Watch.closeRegion_lane (w : Watch) (r : Region) (pc : DWord) {l : Nat} (h : l < w.lanes.length) :
    (w.closeRegion r pc).lane l =
      if has (r.arm0 ||| r.arm1) l then { w.lane l with wake := (w.lane l).wake.unnested } else w.lane l := by
  refine (w.subNest_lane (r.arm0 ||| r.arm1) h).trans ?_
  by_cases hm : has (r.arm0 ||| r.arm1) l = true
  · simp only [hm, true_and, ne_eq, ite_not, if_true, VWake.unnested]
    split <;> rfl
  · simp [hm]

theorem Watch.closeRegion_recs_length (w : Watch) (r : Region) (pc : DWord) : (w.closeRegion r pc).sp.recs.length = w.sp.recs.length - 1 :=
  List.length_drop

/-- The lanes of a region whose arms have been laid out, and which has ended (R76). -/
theorem Watch.region_end_lane (w : Watch) (r : Region) (l0 l1 : List Nat) (pc : DWord) {l : Nat} (h : l < w.lanes.length) :
    let u := w.lane l
    let v := (w.layoutArms (r.arm0 ||| r.arm1) r l0 l1).closeRegion r pc
    let back := fun L => { u with wake := (u.wake.layout (r.marks.getD l 0) (r.depths.getD l 0) L).unnested }
    (has r.arm0 l = true → has r.arm1 l = false → v.lane l = back l0) ∧
    (has r.arm1 l = true → has r.arm0 l = false → v.lane l = back l1) ∧
    (has r.arm0 l = false → has r.arm1 l = false → v.lane l = u) := by
  intro u v back
  obtain ⟨hlay0, hlay1, hlay⟩ := w.layoutArms_lane (r.arm0 ||| r.arm1) r l0 l1 h
  have hclose := (w.layoutArms (r.arm0 ||| r.arm1) r l0 l1).closeRegion_lane r pc (l := l) (by simpa using h)
  refine ⟨fun h0 h1 => ?_, fun h1 h0 => ?_, fun h0 h1 => ?_⟩
  · exact hclose.trans (by rw [hlay0 (by simp [h0]) (by simp [h1])]; simp [h0]; rfl)
  · exact hclose.trans (by rw [hlay1 (by simp [h1]) (by simp [h0])]; simp [h1]; rfl)
  · exact hclose.trans (by rw [hlay (by simp [h0]) (by simp [h1])]; simp [h0, h1]; rfl)

/-- What the end of a region sets besides the lanes: the scalar wake of the IF returns, and the record goes (R76). -/
theorem Watch.closeRegion_fields (w : Watch) (r : Region) (pc : DWord) :
    (w.closeRegion r pc).sp =
      { w.sp with recs := w.sp.recs.drop 1, swake := r.scalar, pc := pc, wait := .none } ∧
    (w.closeRegion r pc).sibs = w.sibs ∧ (w.closeRegion r pc).ks = w.ks ∧ (w.closeRegion r pc).caddies = w.caddies :=
  ⟨rfl, rfl, rfl, rfl⟩

theorem Watch.layout_fields (w : Watch) (m : Mask) (r : Region) (L : List Nat) :
    (w.layout m r L).sp = { w.sp with recs := (w.layout m r L).sp.recs } ∧
    (w.layout m r L).sibs = w.sibs ∧ (w.layout m r L).ks = w.ks ∧ (w.layout m r L).caddies = w.caddies :=
  ⟨rfl, rfl, rfl, rfl⟩

theorem Watch.layoutArms_fields (w : Watch) (m : Mask) (r : Region) (l0 l1 : List Nat) :
    (w.layoutArms m r l0 l1).sp = { w.sp with recs := (w.layoutArms m r l0 l1).sp.recs } ∧
    (w.layoutArms m r l0 l1).sibs = w.sibs ∧ (w.layoutArms m r l0 l1).ks = w.ks ∧ (w.layoutArms m r l0 l1).caddies = w.caddies := by
  obtain ⟨hsp0, hsibs0, hks0, hcad0⟩ := w.layout_fields (m &&& r.arm0) r l0
  obtain ⟨hsp1, hsibs1, hks1, hcad1⟩ := (w.layout (m &&& r.arm0) r l0).layout_fields (m &&& r.arm1) r l1
  refine ⟨?_, hsibs1.trans hsibs0, hks1.trans hks0, hcad1.trans hcad0⟩
  rw [Watch.layoutArms, hsp1, hsp0]

/-! ### The merge of two splits (R81) -/

/-- The lanes and records of two splits as one, before its lanes are laid out (R81). -/
def Watch.joined (w : Watch) (q parent : Split) : Watch :=
  let mine := w.lanesOf w.sp.id
  let theirs := w.lanesOf q.id
  let recs := mapFrom (fun i r => Region.mergeWith theirs r (q.recs.getD i r)) 0 w.sp.recs
  let frames := mapFrom (fun i (f : Frame) => { f with
    recs := mapFrom (fun j r => Region.mergeWith theirs r (((q.frames.getD i f).recs).getD j r)) 0 f.recs }) 0 w.sp.frames
  { w.mapLanes (fun i l => if has (mine ||| theirs) i then { l with split := parent.id } else l) with
    sp := { w.sp with id := parent.id, recs := recs, frames := frames, since := min w.sp.since q.since }
    sibs := w.sibs.filter (fun p => p.id != q.id) }

theorem Watch.mergeTwins_eq (w : Watch) {r : Region} {rs : List Region} (hr : w.sp.recs = r :: rs) (q : Split) (la lb qa qb : List Nat) :
    let parent := if w.sp.id = r.n then w.sp else q
    let r' := r.mergeWith (w.lanesOf q.id) (q.recs.getD 0 r)
    w.mergeTwins q la lb qa qb =
      (((w.joined q parent).layoutArms (w.lanesOf w.sp.id) r' la lb).layoutArms (w.lanesOf q.id) r' qa qb).closeRegion r'
        (parent.pc + 8) := by
  simp only [Watch.mergeTwins, Watch.joined, hr, mapFrom]

theorem Watch.joined_split (w : Watch) (q parent : Split) {l : Nat} (hl : l < 64) (h : l < w.lanes.length) :
    ((w.joined q parent).lane l).split =
      if (w.lane l).split = w.sp.id ∨ (w.lane l).split = q.id then parent.id else (w.lane l).split := by
  have hlane : (w.joined q parent).lane l = _ := w.mapLanes_lane _ l h
  have hof : ∀ id, has (w.lanesOf id) l = ((w.lane l).split == id) := fun id => by
    rw [Watch.lanesOf, has_maskWhere, Watch.lane, List.getD_eq_getElem?_getD, List.getElem?_eq_getElem h]
    simp [hl]
  rw [hlane]
  simp only [has_or, hof, Bool.or_eq_true, beq_iff_eq]
  split <;> rfl

theorem Watch.layout_split (w : Watch) (m : Mask) (r : Region) (L : List Nat) {l : Nat} (h : l < w.lanes.length) :
    ((w.layout m r L).lane l).split = (w.lane l).split := by
  rw [Watch.layout_lane _ _ _ _ h]
  split <;> rfl

theorem Watch.layoutArms_split (w : Watch) (m : Mask) (r : Region) (l0 l1 : List Nat) {l : Nat} (h : l < w.lanes.length) :
    ((w.layoutArms m r l0 l1).lane l).split = (w.lane l).split := by
  rw [Watch.layoutArms, Watch.layout_split _ _ _ _ (by simpa using h), Watch.layout_split _ _ _ _ h]

theorem Watch.closeRegion_split (w : Watch) (r : Region) (pc : DWord) {l : Nat} (h : l < w.lanes.length) :
    ((w.closeRegion r pc).lane l).split = (w.lane l).split := by
  rw [Watch.closeRegion_lane _ _ _ h]
  split <;> rfl

/-- Two splits become one, with the parent's identity, behind the parent's REJOIN; the record goes (R81). -/
theorem Watch.mergeTwins_spec (w : Watch) {r : Region} {rs : List Region} (hr : w.sp.recs = r :: rs) (q : Split) (la lb qa qb : List Nat) :
    let parent := if w.sp.id = r.n then w.sp else q
    let v := w.mergeTwins q la lb qa qb
    v.sp.id = parent.id ∧ v.sp.pc = parent.pc + 8 ∧ v.sp.since = min w.sp.since q.since ∧ v.sp.wait = .none ∧
      v.sp.recs.length = rs.length ∧ v.sibs = w.sibs.filter (fun p => p.id != q.id) ∧
      ∀ l < 64, l < w.lanes.length → (v.lane l).split =
        if (w.lane l).split = w.sp.id ∨ (w.lane l).split = q.id then parent.id else (w.lane l).split := by
  intro parent v
  have hv : v = _ := w.mergeTwins_eq hr q la lb qa qb
  set r' := r.mergeWith (w.lanesOf q.id) (q.recs.getD 0 r)
  set j := w.joined q parent with hj
  set u := j.layoutArms (w.lanesOf w.sp.id) r' la lb with hu
  have hlen : j.lanes.length = w.lanes.length := w.mapLanes_length _
  have hrecs : j.sp.recs.length = rs.length + 1 := (mapFrom_length _ _ _).trans (by rw [hr, List.length_cons])
  obtain ⟨hsp0, hsibs0, -, -⟩ := j.layoutArms_fields (w.lanesOf w.sp.id) r' la lb
  obtain ⟨hsp1, hsibs1, -, -⟩ := u.layoutArms_fields (w.lanesOf q.id) r' qa qb
  obtain ⟨hsp, hsibs, -, -⟩ := (u.layoutArms (w.lanesOf q.id) r' qa qb).closeRegion_fields r' (parent.pc + 8)
  rw [hv]
  refine ⟨by rw [hsp, hsp1, hsp0]; rfl, by rw [hsp], by rw [hsp, hsp1, hsp0]; rfl, by rw [hsp], ?_,
    hsibs.trans (hsibs1.trans hsibs0), fun l hl hl' => ?_⟩
  · rw [Watch.closeRegion_recs_length, Watch.layoutArms_recs_length, hu, Watch.layoutArms_recs_length, hrecs, Nat.add_sub_cancel]
  · rw [Watch.closeRegion_split _ _ _ (by simpa [hu, hlen] using hl'), Watch.layoutArms_split _ _ _ _ _ (by simpa [hu, hlen] using hl'), hu,
      Watch.layoutArms_split _ _ _ _ _ (by simpa [hlen] using hl'), hj, Watch.joined_split _ _ _ hl hl']

/-- Settles O18: a lane's layout position by position, REJOIN on an IF record by `Watch.region_end_lane`, and on an IFS record by
`Watch.mergeTwins_eq`. -/
theorem rejoins : Obligations.Rejoins := by
  unfold Obligations.Rejoins
  refine ⟨?lane, ?region, ?twins⟩
  case lane =>
    intro v mark depth L hv hL u
    exact ⟨rfl, rfl, v.get_layout_value mark depth hv hL, v.get_layout_before mark depth hv⟩
  case region =>
    intro s x e r rs h hw hr hk he w
    have hlanes : w.lanes.length = 64 := (Watch.sound_iff.1 hw).lanes
    refine ⟨fun hne => ?_, fun hlen hbad => ?_, fun hlen h0 h1 hif => ?_⟩
    · rw [exec_rejoin h hr hk he, if_pos hne]
      rfl
    · rw [exec_rejoin h hr hk he, if_neg (not_not_intro hlen), State.layoutReads_bad (by simpa using hbad)]
    · obtain ⟨hsp, hsibs, hks, hcad⟩ := (w.layoutArms (r.arm0 ||| r.arm1) r e.l0 e.l1).closeRegion_fields r (w.sp.pc + 8)
      obtain ⟨hsp0, hsibs0, hks0, hcad0⟩ := w.layoutArms_fields (r.arm0 ||| r.arm1) r e.l0 e.l1
      have hrecs : w.sp.recs.length - 1 = rs.length := by rw [hr]; rfl
      refine ⟨(w.layoutArms (r.arm0 ||| r.arm1) r e.l0 e.l1).closeRegion r (w.sp.pc + 8),
        (exec_rejoin_laysOut h hr hk he hlen h0 h1).trans (State.rejoined_closes hif), by rw [hsp], ?_, by rw [hsp], by rw [hsp],
        by rw [hsp, hsp0], hsibs.trans hsibs0, hks.trans hks0, hcad.trans hcad0,
        fun l hl => w.region_end_lane r e.l0 e.l1 _ (by omega)⟩
      rw [Watch.closeRegion_recs_length, Watch.layoutArms_recs_length, hrecs]
  case twins =>
    intro s x e r rs h hr hk he hlen h0 h1
    have hexec := exec_rejoin_laysOut h hr (by simp [hk]) he hlen h0 h1
    refine ⟨fun ht => hexec.trans (State.rejoined_waits hk ht), fun q a b ht => ⟨_, hexec.trans (State.rejoined_merges hk ht), ?_⟩⟩
    obtain ⟨hid, hpc, hsince, hwait, hrecs, hsibs, hsplit⟩ := s.ctx.mergeTwins_spec hr q e.l0 e.l1 a b
    have hid' := hid.trans (apply_ite Split.id _ _ _)
    refine ⟨hid', hpc.trans (congrArg (· + 8) (apply_ite Split.pc _ _ _)), hsince, hwait, hrecs, hsibs, fun l hl hl' => ?_⟩
    rw [hsplit l hl hl', hid]

end Sys2Proof.Machine

namespace Sys2Proof.Machine

/-!
O19. Loops, departures and exits (R82 to R86).
-/

/-! ### LOOP (R82, R83) -/

/-- The record that a LOOP opens (R71, R83). -/
def State.loopRecord (s : State) (n : BitVec 7) (disp : BitVec 24) (x : BitVec 16) : Region :=
  { rid := s.fresh, kind := .loop, phase := false, resume := s.target disp, rejoin := 0, arm0 := 0, arm1 := 0,
    marks := s.ctx.heads.map (· - BitVec.ofNat 5 n.toNat), depths := List.replicate 64 n.toNat, origin := false,
    scalar := s.ctx.sp.swake, n := n.toNat, x := x.toNat % 256 }

/-- The state behind a LOOP: a split without active lanes goes to the ENDLOOP (R82, R83). -/
def State.loopOpened (s : State) (r : Region) : State :=
  { s with fresh := s.fresh + 1,
           ctx := { s.ctx with sp := { s.ctx.sp with recs := r :: s.ctx.sp.recs, wait := .none,
                                                     pc := if s.ctx.k0 = 0 then r.resume - 8 else s.ctx.sp.pc + 8 } } }

/-- A LOOP marks each lane n entries back: what these hold belongs to the iteration (R83). -/
theorem State.loopRecord_marks {s : State} (hw : s.ctx.lanes.length = 64) (n : BitVec 7) (disp : BitVec 24) (x : BitVec 16) {l : Nat}
    (hl : l < 64) : (s.loopRecord n disp x).marks.getD l 0 = (s.ctx.lane l).wake.head - BitVec.ofNat 5 n.toNat ∧
      (s.loopRecord n disp x).depths.getD l 0 = n.toNat := by
  have hlane : s.ctx.lanes[l]? = some (s.ctx.lane l) := by
    rw [Watch.lane, List.getD_eq_getElem?_getD, List.getElem?_eq_getElem (by omega), Option.getD_some]
  constructor
  · simp only [State.loopRecord, Watch.heads, List.getD_eq_getElem?_getD, List.getElem?_map, hlane, Option.map_some, Option.getD_some]
  · rw [State.loopRecord, List.getD_eq_getElem?_getD, List.getElem?_replicate, if_pos hl, Option.getD_some]

/-- A split with active lanes goes on where it stands; one without goes where its loop ends (R82). -/
theorem Watch.redirect_loop (w : Watch) {r : Region} {rs : List Region} (hr : w.sp.recs = r :: rs) (hk : r.kind = .loop) :
    w.redirect = { w with sp := { w.sp with pc := if w.k0 = 0 then r.resume - 8 else w.sp.pc } } := by
  unfold Watch.redirect
  by_cases h : w.k0 = 0
  · rw [if_neg (not_not_intro h), if_pos h]
    simp only [hr, hk]
  · rw [if_pos h, if_neg h]

theorem exec_loop {s : State} (h : s.admits none) (n : BitVec 7) (disp : BitVec 24) (x : BitVec 16)
    (hfit : ∀ r, ({ s.ctx with sp := { s.ctx.sp with recs := r :: s.ctx.sp.recs } } : Watch).spillFits = true) :
    exec (.loop n disp x) s = .next (s.loopOpened (s.loopRecord n disp x)) := by
  have hfits : (s.loopOpened (s.loopRecord n disp x)).ctx.spillFits = true := hfit (s.loopRecord n disp x)
  have hopened : s.loopOpened (s.loopRecord n disp x) = (({ s.tick with ctx :=
      { s.ctx with sp := { s.ctx.sp with recs := s.loopRecord n disp x :: s.ctx.sp.recs } } } : State).setPc (s.ctx.sp.pc + 8)).mapCtx
        Watch.redirect := by
    rw [State.mapCtx, Watch.redirect_loop _ rfl rfl]
    rfl
  show execLoop n disp x s = _
  rw [execLoop, State.enter_eq h]
  refine Eq.trans (b := s.spillOr (s.loopOpened (s.loopRecord n disp x)) 0) ?_ (by rw [State.spillOr, if_pos hfits])
  rw [hopened]
  rfl

/-! ### ENDLOOP (R84) -/

theorem exec_endloop {s : State} (h : s.admits none) {k : BitVec 3} {disp : BitVec 24} {x : BitVec 16} {e : RejoinEntry} {r : Region}
    {rs : List Region} (hr : s.ctx.sp.recs = r :: rs) (hk : r.kind = .loop) (he : s.rejoinEntry x = .ok e) (h0 : e.l0.length = r.n)
    (h1 : e.l1.length = r.x) (hl0 : s.ctx.laysOut (s.ctx.gov k) e.l0) (hl1 : s.ctx.laysOut (s.ctx.excluded k) e.l1) :
    exec (.endloop k disp x) s = .next (({ s with ctx := s.ctx.endIteration r k e (s.target disp) } : State).settle) := by
  show execEndloop k disp x s = _
  rw [execEndloop, State.enter_eq h]
  simp only [hr, hk, he, h0, h1, Got.andThen, ne_eq, not_true_eq_false, if_false]
  exact State.layoutReads_eq (List.forall_mem_cons.2 ⟨hl0, List.forall_mem_singleton.2 hl1⟩) _

/-- Nesting counters change no entry of a wake, and no head. -/
theorem Watch.addNest_wake (w : Watch) (m : Mask) (d : BitVec 8) {l : Nat} (h : l < w.lanes.length) :
    ((w.addNest m d).lane l).wake.ring = (w.lane l).wake.ring ∧ ((w.addNest m d).lane l).wake.head = (w.lane l).wake.head := by
  rw [Watch.addNest_lane _ _ _ h]
  split <;> exact ⟨rfl, rfl⟩

theorem Watch.subNest_wake (w : Watch) (m : Mask) {l : Nat} (h : l < w.lanes.length) :
    ((w.subNest m).lane l).wake.ring = (w.lane l).wake.ring ∧ ((w.subNest m).lane l).wake.head = (w.lane l).wake.head := by
  rw [Watch.subNest_lane _ _ h]
  split <;> exact ⟨rfl, rfl⟩

@[simp] theorem Watch.addNest_lanes_length (w : Watch) (m : Mask) (d : BitVec 8) : (w.addNest m d).lanes.length = w.lanes.length :=
  w.mapLanes_length _

@[simp] theorem Watch.subNest_lanes_length (w : Watch) (m : Mask) : (w.subNest m).lanes.length = w.lanes.length := w.mapLanes_length _

/-- The lanes at the end of an iteration, laid out: those that go on by the loop's list, those that leave by its exit's (R84). -/
def Watch.iterated (w : Watch) (r : Region) (k : BitVec 3) (e : RejoinEntry) : Watch :=
  (w.layout (w.gov k) r e.l0).layout (w.excluded k) r e.l1

/-- The same with the counters: the lanes that leave are parked, and those that had continued come back (R84). -/
def Watch.recounted (w : Watch) (r : Region) (k : BitVec 3) (e : RejoinEntry) : Watch :=
  ((w.iterated r k e).addNest (w.excluded k) 1).subNest r.arm1

section
variable (w : Watch) (r : Region) (k : BitVec 3) (e : RejoinEntry) (back : DWord)

/-- The loop goes on while a lane wants to, or has continued (R84). -/
theorem Watch.endIteration_back (h : w.gov k ||| r.arm1 ≠ 0) :
    w.endIteration r k e back = { w.recounted r k e with
      sp := { (w.recounted r k e).sp with
        recs := { (w.recounted r k e).sp.recs.head?.getD r with arm0 := r.arm0 ||| w.excluded k, arm1 := 0 } ::
          (w.recounted r k e).sp.recs.drop 1
        pc := back, wait := .none } } := if_pos h

/-- Otherwise it is over, and every lane that had left it comes back (R84). -/
theorem Watch.endIteration_over (h : w.gov k ||| r.arm1 = 0) :
    w.endIteration r k e back = { (w.recounted r k e).subNest (r.arm0 ||| w.excluded k) with
      sp := { (w.recounted r k e).sp with recs := (w.recounted r k e).sp.recs.drop 1, pc := r.resume, wait := .none } } :=
  if_neg (not_not_intro h)

theorem Watch.recounted_recs_length : (w.recounted r k e).sp.recs.length = w.sp.recs.length :=
  (Watch.layout_recs_length _ _ _ _).trans (Watch.layout_recs_length _ _ _ _)

/-- An iteration's end changes the entries of the lanes by their layouts only. -/
theorem Watch.endIteration_wake {l : Nat} (h : l < w.lanes.length) :
    ((w.endIteration r k e back).lane l).wake.ring = ((w.iterated r k e).lane l).wake.ring ∧
    ((w.endIteration r k e back).lane l).wake.head = ((w.iterated r k e).lane l).wake.head := by
  have hlen : (w.iterated r k e).lanes.length = w.lanes.length := by
    rw [Watch.iterated, Watch.layout_lanes_length, Watch.layout_lanes_length]
  have hadd := (w.iterated r k e).addNest_wake (w.excluded k) 1 (l := l) (by omega)
  have hsub := ((w.iterated r k e).addNest (w.excluded k) 1).subNest_wake r.arm1 (l := l) (by simpa [hlen] using h)
  have hover := (w.recounted r k e).subNest_wake (r.arm0 ||| w.excluded k) (l := l) (by simpa [Watch.recounted, hlen] using h)
  by_cases hgo : w.gov k ||| r.arm1 = 0
  · rw [Watch.endIteration_over _ _ _ _ _ hgo]
    exact ⟨hover.1.trans (hsub.1.trans hadd.1), hover.2.trans (hsub.2.trans hadd.2)⟩
  · rw [Watch.endIteration_back _ _ _ _ _ hgo]
    exact ⟨hsub.1.trans hadd.1, hsub.2.trans hadd.2⟩

theorem Watch.iterated_lane {l : Nat} (h : l < w.lanes.length) :
    let lay := fun L => { w.lane l with wake := (w.lane l).wake.layout (r.marks.getD l 0) (r.depths.getD l 0) L }
    (has (w.gov k) l = true → (w.iterated r k e).lane l = lay e.l0) ∧
    (has (w.excluded k) l = true → (w.iterated r k e).lane l = lay e.l1) ∧
    (has w.k0 l = false → (w.iterated r k e).lane l = w.lane l) := by
  intro lay
  have hlane : (w.iterated r k e).lane l = _ := (w.layout (w.gov k) r e.l0).layout_lane (w.excluded k) r e.l1 (by simpa using h)
  rw [Watch.layout_lane _ _ _ _ h] at hlane
  refine ⟨fun hgo => ?_, fun hout => ?_, fun hoff => ?_⟩
  · have hin : has (w.excluded k) l = false := by simp [Watch.excluded, hgo]
    rwa [if_neg (by simp [hin]), if_pos hgo] at hlane
  · have hstop : has (w.gov k) l = false := by
      by_contra hgo
      simp [Watch.excluded, hgo] at hout
    rwa [if_pos hout, if_neg (by simp [hstop])] at hlane
  · have hstop : has (w.gov k) l = false := by
      by_contra hgo
      simp [Watch.has_k0_of_gov (by simpa using hgo)] at hoff
    have hin : has (w.excluded k) l = false := by simp [Watch.excluded, hoff]
    rwa [if_neg (by simp [hin]), if_neg (by simp [hstop])] at hlane

end

/-! ### BRK and CONT (R85) -/

theorem splitAtLoop_eq : ∀ {rs above below : List Region} {r : Region}, splitAtLoop rs = some (above, r, below) → rs = above ++ r :: below
  | [], _, _, _, h => by simp [splitAtLoop] at h
  | q :: rs, above, below, r, h => by
    unfold splitAtLoop at h
    split at h
    · cases h
      rfl
    · split at h
      · rename_i a l b hs
        cases h
        rw [splitAtLoop_eq hs, List.cons_append]
      · cases h

/-- The watch behind a BRK or CONT: its lanes are laid out and parked, leave the arms of the `n` records above the loop's, and join the
loop's broken or continued mask (R85). -/
def Watch.departed (w : Watch) (n : Nat) (d : Mask) (r : Region) (ages : List Nat) (brk : Bool) : Watch :=
  let u := (w.layout d r ages).addNest d 1
  let recs := mapFrom (fun i (q : Region) =>
    if i < n then { q with arm0 := q.arm0 &&& ~~~d, arm1 := q.arm1 &&& ~~~d }
    else if i = n then (if brk then { q with arm0 := q.arm0 ||| d } else { q with arm1 := q.arm1 ||| d })
    else q) 0 u.sp.recs
  { u with sp := { u.sp with recs := recs } }

theorem State.depart_eq {s : State} {k : BitVec 3} {x : BitVec 16} {brk : Bool} {above below : List Region} {r : Region} {e : RejoinEntry}
    (hs : splitAtLoop s.ctx.sp.recs = some (above, r, below)) (he : s.rejoinEntry x = .ok e)
    (hlen : (if brk then e.l1 else e.l0).length = if brk then r.x else r.n)
    (hl : s.ctx.laysOut (s.ctx.gov k) (if brk then e.l1 else e.l0)) :
    s.depart k x brk = .next ((({ s with
      ctx := s.ctx.departed above.length (s.ctx.gov k) r (if brk then e.l1 else e.l0) brk } : State).advance 8).settle) := by
  unfold State.depart
  simp only [hs, he, Got.andThen]
  rw [if_neg (not_not_intro hlen), State.layoutReads_eq (List.forall_mem_singleton.2 hl)]
  rfl

theorem exec_brk {s : State} (h : s.admits none) (k : BitVec 3) (x : BitVec 16) : exec (.brk k x) s = s.depart k x true := by
  show execBrk k x s = _
  rw [execBrk, State.enter_eq h]

theorem exec_cont {s : State} (h : s.admits none) (k : BitVec 3) (x : BitVec 16) : exec (.cont k x) s = s.depart k x false := by
  show execCont k x s = _
  rw [execCont, State.enter_eq h]

section
variable (w : Watch) (n : Nat) (d : Mask) (r : Region) (ages : List Nat) (brk : Bool)

theorem Watch.departed_recs_length : (w.departed n d r ages brk).sp.recs.length = w.sp.recs.length :=
  (mapFrom_length _ _ _).trans (w.layout_recs_length d r ages)

/-- The arms of each record behind a BRK or CONT (R85). -/
theorem Watch.departed_arms {i : Nat} {q : Region} (hq : w.sp.recs[i]? = some q) :
    ∃ q', (w.departed n d r ages brk).sp.recs[i]? = some q' ∧ q'.arms =
      if i < n then (q.arm0 &&& ~~~d, q.arm1 &&& ~~~d)
      else if i = n then (if brk then (q.arm0 ||| d, q.arm1) else (q.arm0, q.arm1 ||| d))
      else q.arms := by
  have harms : ((w.layout d r ages).sp.recs[i]?).map Region.arms = some q.arms := by
    rw [← List.getElem?_map, w.layout_arms, List.getElem?_map, hq, Option.map_some]
  obtain ⟨p, hp, hpq⟩ := Option.map_eq_some_iff.1 harms
  obtain ⟨hp0, hp1⟩ := Prod.mk.inj hpq
  have hget : (w.departed n d r ages brk).sp.recs[i]? = _ := mapFrom_getElem? _ 0 (w.layout d r ages).sp.recs i
  rw [hp, Option.map_some, Nat.zero_add] at hget
  refine ⟨_, hget, ?_⟩
  rw [← hp0, ← hp1, ← hpq]
  split
  · rfl
  split
  · cases brk <;> rfl
  · rfl

theorem Watch.departed_lane {l : Nat} (h : l < w.lanes.length) :
    (w.departed n d r ages brk).lane l =
      if has d l then
        { w.lane l with wake := { (w.lane l).wake.layout (r.marks.getD l 0) (r.depths.getD l 0) ages with
            nest := (w.lane l).wake.nest + 1 } }
      else w.lane l := by
  have hlane : (w.departed n d r ages brk).lane l = _ := (w.layout d r ages).addNest_lane d 1 (by simpa using h)
  rw [hlane, Watch.layout_lane _ _ _ _ h]
  by_cases hd : has d l = true
  · simp only [hd, if_true]
    rfl
  · simp [hd]

end

/-! ### EXIT (R86) -/

theorem exec_exit {s : State} (h : s.admits none) (k : BitVec 3) :
    exec (.exit k) s = .next ((({ s with ctx := s.ctx.exitLanes (s.ctx.gov k) } : State).advance 8).settle) := by
  show execExit k s = _
  rw [execExit, State.enter_eq h]
  rfl

theorem Watch.exitLanes_lane (w : Watch) (d : Mask) {l : Nat} (h : l < w.lanes.length) :
    (w.exitLanes d).lane l = if has d l then { w.lane l with exited := true, resv := none } else w.lane l := w.mapLanes_lane _ l h

/-- A lane that has exited is active no more (R86). -/
theorem Watch.exitLanes_k0 (w : Watch) (d : Mask) : (w.exitLanes d).k0 = w.k0 &&& ~~~d := by
  refine mask_ext fun l hl => ?_
  have hlanes : (w.exitLanes d).lanes[l]? = _ := mapFrom_getElem? _ 0 w.lanes l
  rw [has_and, has_not, Watch.k0, Watch.k0, has_maskWhere, has_maskWhere, hlanes]
  cases hx : w.lanes[l]? with
  | none => simp
  | some x =>
    by_cases hd : has d l = true
    · simp [hd, Lane.active]
    · simp [hl, hd]
      rfl

/-- No arm of a record holds a lane that has been taken out of it. -/
theorem Region.without_arms (d : Mask) (r : Region) : (r.without d).arm0 &&& d = 0 ∧ (r.without d).arm1 &&& d = 0 := by
  refine ⟨mask_ext fun l _ => ?_, mask_ext fun l _ => ?_⟩ <;>
    cases hd : has d l <;> simp [Region.without, hd]

/-- Settles O19: LOOP by `exec_loop`, ENDLOOP by `Watch.endIteration_back` and `Watch.endIteration_over`, BRK and CONT by
`Watch.departed`, EXIT by `Watch.exitLanes`. -/
theorem loopsAndDepartures : Obligations.LoopsAndDepartures := by
  unfold Obligations.LoopsAndDepartures
  refine ⟨?loops, ?departures, ?exits⟩
  case loops =>
    intro s h hw w
    have hlanes : w.lanes.length = 64 := (Watch.sound_iff.1 hw).lanes
    refine ⟨fun n disp x hx hfit => ?_, fun k disp x e r rs hr hk he h0 h1 hl0 hl1 => ?_⟩
    · exact ⟨s.loopRecord n disp x, exec_loop h n disp x hfit, rfl, rfl, Nat.mod_eq_of_lt hx, s.target_eq disp, rfl, rfl,
        fun l hl => State.loopRecord_marks hlanes n disp x hl⟩
    · intro C X
      have hback : s.target disp = w.sp.pc + 8 * disp.signExtend 64 := s.target_eq disp
      have hrecs : (w.recounted r k e).sp.recs.length = rs.length + 1 := by rw [Watch.recounted_recs_length, hr, List.length_cons]
      have goes : C ||| r.arm1 ≠ 0 → _ := w.endIteration_back r k e (s.target disp)
      have ends : C ||| r.arm1 = 0 → _ := w.endIteration_over r k e (s.target disp)
      refine ⟨w.endIteration r k e (s.target disp), exec_endloop h hr hk he h0 h1 hl0 hl1, ?_, fun hgo => ?_, fun hover => ?_, fun l hl => ?_⟩
      · by_cases hover : C ||| r.arm1 = 0
        · rw [ends hover, if_neg (not_not_intro hover)]
        · rw [goes hover, if_pos hover, ← hback]
      · rw [goes hgo]
        exact ⟨_, rfl, rfl, rfl, by simp [hrecs]⟩
      · rw [ends hover]
        simp [hrecs]
      · intro m d
        have hll : l < w.lanes.length := by omega
        obtain ⟨hring, hhead⟩ := w.endIteration_wake r k e (s.target disp) hll
        obtain ⟨hgoes, hleaves, hstays⟩ := w.iterated_lane r k e hll
        rw [hring, hhead, ← h0, ← h1]
        exact ⟨fun hin => by rw [hgoes hin]; exact ⟨rfl, rfl⟩, fun hout => by rw [hleaves hout]; exact ⟨rfl, rfl⟩,
          fun hoff => by rw [hstays hoff]⟩
  case departures =>
    intro s k x above below r e h hw hs he w D departs
    have hlanes : w.lanes.length = 64 := (Watch.sound_iff.1 hw).lanes
    have hrecs : w.sp.recs = above ++ r :: below := splitAtLoop_eq hs
    have spec : ∀ i brk, exec i s = s.depart k x brk → (if brk then e.l1 else e.l0).length = (if brk then r.x else r.n) →
        departs i (if brk then e.l1 else e.l0) brk := fun i brk hi hlen hl => by
      refine ⟨_, hi.trans (State.depart_eq hs he hlen hl), rfl, Watch.departed_recs_length .., fun i hia => ?_, ?_, fun l hll => ?_⟩
      · obtain ⟨q', hq', harms⟩ := w.departed_arms above.length D r (if brk then e.l1 else e.l0) brk
          (i := i) (q := above[i]) (by rw [hrecs, List.getElem?_append_left hia, List.getElem?_eq_getElem hia])
        rw [if_pos hia] at harms
        obtain ⟨h0, h1⟩ := Prod.mk.inj harms
        exact ⟨_, q', by rw [hrecs, List.getElem?_append_left hia, List.getElem?_eq_getElem hia], hq', h0, h1⟩
      · obtain ⟨q', hq', harms⟩ := w.departed_arms above.length D r (if brk then e.l1 else e.l0) brk
          (i := above.length) (q := r) (by rw [hrecs]; simp)
        rw [if_neg (lt_irrefl _), if_pos rfl] at harms
        refine ⟨q', hq', ?_⟩
        cases brk with
        | true => exact ⟨(Prod.mk.inj harms).1, (Prod.mk.inj harms).2⟩
        | false => exact ⟨(Prod.mk.inj harms).1, (Prod.mk.inj harms).2⟩
      · rw [w.departed_lane _ _ _ _ _ (by omega)]
        refine ⟨fun hin => ?_, fun hout => if_neg (by rw [show has D l = false from hout]; decide)⟩
        rw [if_pos hin, Watch.nest_of_has_k0 (Watch.has_k0_of_gov hin)]
        rfl
    exact ⟨fun hlen => spec _ true (exec_brk h k x) hlen, fun hlen => spec _ false (exec_cont h k x) hlen⟩
  case exits =>
    intro s k h w D
    refine ⟨w.exitLanes D, exec_exit h k, fun l hl => w.exitLanes_lane D hl, w.exitLanes_k0 D, rfl, rfl, ?_, ?_, List.length_map _,
      List.length_map _⟩
    · exact List.forall_mem_map.2 fun r _ => r.without_arms D
    · exact List.forall_mem_map.2 fun f _ => List.forall_mem_map.2 fun r _ => r.without_arms D

end Sys2Proof.Machine

/-! ### What writes, records and counts leave as it is

Writes, records, signals and counts leave the gangs, the launches, what stands to be halted, and the watches but for reservations on what
is written (R239). -/

namespace Sys2Proof.Machine

/-- The second state has the work of the first, and shows the same of pre-emption. -/
structure State.SameWork (s t : State) : Prop where
  watches : t.watches.map Watch.unreserved = s.watches.map Watch.unreserved
  gangs : t.gangs = s.gangs
  launches : t.launches = s.launches
  preempts : t.preempts = s.preempts
  recalls : t.recalls = s.recalls
  mats : t.mats = s.mats
  turns : t.turns = s.turns
  pstat : ∀ core, t.reg (.pstat core) = s.reg (.pstat core)

namespace State.SameWork

theorem refl (s : State) : s.SameWork s := ⟨rfl, rfl, rfl, rfl, rfl, rfl, rfl, fun _ => rfl⟩

theorem trans {s t u : State} (h : s.SameWork t) (h' : t.SameWork u) : s.SameWork u :=
  ⟨h'.watches.trans h.watches, h'.gangs.trans h.gangs, h'.launches.trans h.launches, h'.preempts.trans h.preempts,
    h'.recalls.trans h.recalls, h'.mats.trans h.mats, h'.turns.trans h.turns, fun core => (h'.pstat core).trans (h.pstat core)⟩

theorem foldl {α : Type} {f : State → α → State} (hf : ∀ (u : State) a, u.SameWork (f u a)) (l : List α) (s : State) :
    s.SameWork (l.foldl f s) :=
  List.foldlRecOn l f (refl s) fun u hu a _ => hu.trans (hf u a)

/-- Nothing of the work has changed. -/
theorem of_same {s t : State} (hc : t.ctx = s.ctx) (ho : t.others = s.others) (hg : t.gangs = s.gangs) (hl : t.launches = s.launches)
    (hp : t.preempts = s.preempts) (hr : t.recalls = s.recalls) (hm : t.mats = s.mats) (ht : t.turns = s.turns) (hf : t.cfg = s.cfg) :
    s.SameWork t := by
  refine ⟨?_, hg, hl, hp, hr, hm, ht, fun core => ?_⟩
  · rw [State.watches, hc, ho]
    rfl
  · rw [State.reg, hf]
    rfl

end State.SameWork

section
variable (s : State)

theorem State.sameWork_setReg {r : Reg} (v : DWord) (hr : ∀ core, Reg.pstat core ≠ r) : s.SameWork (s.setReg r v) :=
  ⟨rfl, rfl, rfl, rfl, rfl, rfl, rfl, fun core => by rw [State.setReg_reg, if_neg (hr core)]⟩

theorem State.sameWork_openPage (k : Nat) : s.SameWork (s.openPage k) := by
  unfold State.openPage
  split
  · exact .of_same rfl rfl rfl rfl rfl rfl rfl rfl rfl
  · exact .refl s

theorem Lane.losesResv_unreserved (lo hi : Nat) (l : Lane) : { l.losesResv lo hi with resv := none } = { l with resv := none } := by
  unfold Lane.losesResv
  split
  · split <;> rfl
  · rfl

theorem State.sameWork_dropResv (k n : Nat) : s.SameWork (s.dropResv k n) := by
  refine ⟨?_, rfl, rfl, rfl, rfl, rfl, rfl, fun _ => rfl⟩
  rw [State.dropResv, State.mapWatches_watches s (f := fun w : Watch => { w with
    lanes := w.lanes.map (Lane.losesResv (k / 128) ((k + n - 1) / 128)) }) fun _ => rfl, List.map_map]
  refine List.map_congr_left fun w _ => ?_
  simp only [Function.comp, Watch.unreserved, List.map_map, Watch.mk.injEq, true_and, and_true]
  exact List.map_congr_left fun l _ => l.losesResv_unreserved _ _

theorem State.sameWork_followed (t : Trail) (k n : Nat) : s.SameWork (s.followed t k n) := by
  unfold State.followed
  split
  · exact .refl s
  · exact .of_same rfl rfl rfl rfl rfl rfl rfl rfl rfl

theorem State.sameWork_withBytes (m : Memory) (ps : List Nat) : s.SameWork { s with mem := m, poison := ps } :=
  .of_same rfl rfl rfl rfl rfl rfl rfl rfl rfl

theorem State.sameWork_put (t : Trail) (k : Nat) (bs : List Byte) : s.SameWork (s.put t k bs) := by
  unfold State.put
  split
  · exact .refl s
  · exact (((s.sameWork_openPage k).trans (State.sameWork_dropResv _ _ _)).trans (State.sameWork_followed _ _ _ _)).trans
      (State.sameWork_withBytes _ _ _)

theorem State.sameWork_write (k : Nat) (bs : List Byte) : s.SameWork (s.write k bs) := s.sameWork_put _ _ _

theorem State.sameWork_putThrough (t : Trail) (k : Nat) (bs : List Byte) : s.SameWork (s.putThrough t k bs) := by
  refine (s.sameWork_put t k bs).trans ?_
  unfold State.putThrough
  generalize s.put t k bs = u
  dsimp only
  split
  · exact .refl u
  · exact .of_same rfl rfl rfl rfl rfl rfl rfl rfl rfl

theorem State.sameWork_enterOne (e : LateWrite) : s.SameWork (s.enterOne e) := by
  have heal : ∀ u : State, u.SameWork (if u.late.any (fun x => x.num == e.num) then u else
      { u with poison := healPoison e.whole.1 e.whole.2 u.poison }) := fun u => by
    split
    · exact .refl u
    · exact .of_same rfl rfl rfl rfl rfl rfl rfl rfl rfl
  unfold State.enterOne
  dsimp only
  refine .trans ?_ (heal _)
  split
  · exact s.sameWork_put _ _ _
  · exact s.sameWork_putThrough _ _ _

theorem State.sameWork_withLate (es : List LateWrite) : s.SameWork { s with late := es } :=
  .of_same rfl rfl rfl rfl rfl rfl rfl rfl rfl

theorem State.sameWork_enterSome (sel : Nat → LateWrite → Bool) : s.SameWork (s.enterSome sel) := by
  unfold State.enterSome
  split
  · exact .refl s
  · exact ((s.sameWork_withLate _).trans (.foldl State.sameWork_enterOne _ _)).trans (State.sameWork_withLate _ _)

theorem State.sameWork_enterGang (l g : Nat) : s.SameWork (s.enterGang l g) := s.sameWork_enterSome _

end

theorem State.sameWork_vwriteFuel (tu dom : Nat) : ∀ (n : Nat) (s : State) (va : Nat) (bs : List Byte),
    s.SameWork (State.vwriteFuel n s tu dom va bs)
  | 0, s, _, _ => .refl s
  | n + 1, s, va, bs => by
    unfold State.vwriteFuel
    split
    · exact .refl s
    · refine .trans ?_ (State.sameWork_vwriteFuel tu dom n _ _ _)
      split
      · exact s.sameWork_write _ _
      · exact .refl s

section
variable (s : State)

theorem State.sameWork_vwrite (tu dom va : Nat) (bs : List Byte) : s.SameWork (s.vwrite tu dom va bs) := State.sameWork_vwriteFuel ..

theorem State.sameWork_raiseMsix (f v : Nat) : s.SameWork (s.raiseMsix f v) := .of_same rfl rfl rfl rfl rfl rfl rfl rfl rfl

theorem State.sameWork_domainRecord (dom : Nat) (r : ErrRec) : s.SameWork (s.domainRecord dom r) := by
  have lost : s.SameWork (s.countLost (.eqlost dom)) := s.sameWork_setReg _ (by simp)
  simp only [State.domainRecord]
  split
  · exact lost
  split
  · exact lost
  · exact ((s.sameWork_write _ _).trans (State.sameWork_setReg _ _ (by simp))).trans (State.sameWork_raiseMsix _ _ _)

theorem State.sameWork_physRecord (r : ErrRec) (virt : Bool) : s.SameWork (s.physRecord r virt) := by
  simp only [State.physRecord]
  split
  · exact s.sameWork_setReg _ (by simp)
  · exact ((s.sameWork_write _ _).trans (State.sameWork_setReg _ _ (by simp))).trans (State.sameWork_raiseMsix _ _ _)

theorem State.sameWork_record (r : ErrRec) : s.SameWork (s.record r) := by
  refine (s.sameWork_domainRecord r.dom r).trans ?_
  unfold State.record
  generalize s.domainRecord r.dom r = u
  dsimp only
  split
  · exact u.sameWork_physRecord _ _
  split
  · split <;> exact u.sameWork_physRecord _ _
  · exact u.sameWork_physRecord _ _

theorem State.sameWork_changeSignal (k : Nat) (c : SigChange) : s.SameWork (s.changeSignal k c) := by
  have one : ∀ (b : Bool) (u : State) (k n v : Nat), u.SameWork (if b = true then u.store k n v else u) := fun b u k n v => by
    cases b with
    | true => exact u.sameWork_write _ _
    | false => exact .refl u
  exact (one (c.touches false) s _ _ _).trans (one _ _ _ _ _)

theorem State.sameWork_notifyDone (dom : Nat) (notify : Bool) : s.SameWork (s.notifyDone dom notify) := by
  cases notify with
  | true => exact s.sameWork_raiseMsix _ _
  | false => exact .refl s

theorem State.sameWork_signal (launch dom va : Nat) (c : SigChange) (notify : Bool) : s.SameWork (s.signal launch dom va c notify) := by
  unfold State.signal
  split
  · exact s.sameWork_notifyDone _ _
  split
  · split
    · exact s.sameWork_notifyDone _ _
    split
    · exact .of_same rfl rfl rfl rfl rfl rfl rfl rfl rfl
    · exact (s.sameWork_changeSignal _ _).trans (State.sameWork_notifyDone _ _ _)
  · exact s.sameWork_notifyDone _ _

theorem State.sameWork_setNodeState (dom idx v : Nat) : s.SameWork (s.setNodeState dom idx v) := s.sameWork_vwrite _ _ _ _

theorem State.sameWork_dropCounter (dom idx : Nat) : s.SameWork (s.dropCounter dom idx) := .of_same rfl rfl rfl rfl rfl rfl rfl rfl rfl

theorem State.sameWork_withNodes (ns : List Node) : s.SameWork { s with nodes := ns } := .of_same rfl rfl rfl rfl rfl rfl rfl rfl rfl

theorem State.sameWork_failNode (n : Node) : s.SameWork (s.failNode n) :=
  ((s.sameWork_setNodeState _ _ _).trans (State.sameWork_dropCounter _ _ _)).trans (State.sameWork_withNodes _ _)

theorem State.sameWork_countOne (core dom ev n i : Nat) : s.SameWork (s.countOne core dom ev n i) := by
  have hcount : ∀ v, s.SameWork (s.setReg (.ctrcount core i) v) := fun v => s.sameWork_setReg v (by simp)
  have hcfg : ∀ (u : State) lo n v, u.SameWork (u.setRegField (.ctrcfg core i) lo n v) := fun u lo n v => u.sameWork_setReg _ (by simp)
  unfold State.countOne
  split
  · dsimp only
    split
    · exact hcount _
    split
    · exact (((hcount _).trans (hcfg _ _ _ _)).trans (State.sameWork_domainRecord _ _ _)).trans (State.sameWork_raiseMsix _ _ _)
    · exact (hcount _).trans (hcfg _ _ _ _)
  · exact .refl s

theorem State.sameWork_countEvent (core dom ev n : Nat) : s.SameWork (s.countEvent core dom ev n) :=
  .foldl (fun u i => u.sameWork_countOne core dom ev n i) _ s

end

end Sys2Proof.Machine

/-! ### What a kill leaves (R315)

Of the gangs that hold cores some go, and none comes; launches keep their names and domains, and one that has failed stays so. -/

namespace Sys2Proof.Machine

/-- A gang of that name holds those cores. -/
@[reducible] def State.placedAs (s : State) (g : Gang) : Prop :=
  ∃ a ∈ s.gangs, a.phase = .placed ∧ a.launch = g.launch ∧ a.idx = g.idx ∧ a.places = g.places

/-- What is left of a state after a kill. -/
structure State.Killed (s t : State) : Prop where
  launches : t.launches.map (fun l => (l.id, l.dom)) = s.launches.map (fun l => (l.id, l.dom))
  failed : ∀ id, s.launchFailed id = true → t.launchFailed id = true
  gangs : ∀ g ∈ t.gangs, g.phase = .placed → s.placedAs g
  preempts : t.preempts = s.preempts
  pstat : ∀ core, t.reg (.pstat core) = s.reg (.pstat core)

namespace State.Killed

theorem of_gangs {s t : State} (hl : t.launches = s.launches)
    (hg : ∀ g ∈ t.gangs, g.phase = .placed → s.placedAs g)
    (hp : t.preempts = s.preempts) (hc : ∀ core, t.reg (.pstat core) = s.reg (.pstat core)) : s.Killed t :=
  ⟨by rw [hl], fun id h => by rwa [State.launchFailed, State.launchOf, hl], hg, hp, hc⟩

/-- Some gangs have gone, or have taken a phase in which they hold no core. -/
theorem of_subset {s t : State} (hl : t.launches = s.launches) (hg : ∀ g ∈ t.gangs, g.phase = .placed → g ∈ s.gangs)
    (hp : t.preempts = s.preempts) (hc : ∀ core, t.reg (.pstat core) = s.reg (.pstat core)) : s.Killed t :=
  of_gangs hl (fun g hgt hph => ⟨g, hg g hgt hph, hph, rfl, rfl, rfl⟩) hp hc

theorem refl (s : State) : s.Killed s := of_subset rfl (fun _ h _ => h) rfl fun _ => rfl

theorem trans {s t u : State} (h : s.Killed t) (h' : t.Killed u) : s.Killed u := by
  refine ⟨h'.launches.trans h.launches, fun id hf => h'.failed id (h.failed id hf), fun g hg hph => ?_, h'.preempts.trans h.preempts,
    fun core => (h'.pstat core).trans (h.pstat core)⟩
  obtain ⟨b, hb, hbp, hbl, hbi, hbq⟩ := h'.gangs g hg hph
  obtain ⟨a, ha, hap, hal, hai, haq⟩ := h.gangs b hb hbp
  exact ⟨a, ha, hap, hal.trans hbl, hai.trans hbi, haq.trans hbq⟩

theorem foldl {α : Type} {f : State → α → State} (hf : ∀ (u : State) a, u.Killed (f u a)) (l : List α) (s : State) :
    s.Killed (l.foldl f s) :=
  List.foldlRecOn l f (refl s) fun u hu a _ => hu.trans (hf u a)

end State.Killed

theorem State.SameWork.killed {s t : State} (h : s.SameWork t) : s.Killed t :=
  .of_subset h.launches (fun _ hg _ => h.gangs ▸ hg) h.preempts h.pstat

/-- A change of launches that keeps their names is seen through a name. -/
theorem State.modLaunch_launchOf (s : State) (id : Nat) {f : Launch → Launch} (hf : ∀ l, (f l).id = l.id) (i : Nat) :
    (s.modLaunch id f).launchOf i = (s.launchOf i).map (fun l => if l.id = id then f l else l) := by
  rw [State.launchOf, State.modLaunch, State.launchOf, List.find?_map]
  congr 2
  funext l
  simp only [Function.comp]
  split <;> simp [hf]

section
variable (s : State)

theorem State.killed_modLaunch (id : Nat) {f : Launch → Launch} (hi : ∀ l, (f l).id = l.id) (hd : ∀ l, (f l).dom = l.dom)
    (hf : ∀ l, l.faulted = true → (f l).faulted = true) : s.Killed (s.modLaunch id f) := by
  refine ⟨?_, fun i hs => ?_, fun g hg hph => ⟨g, hg, hph, rfl, rfl, rfl⟩, rfl, fun _ => rfl⟩
  · rw [State.modLaunch, List.map_map]
    refine List.map_congr_left fun l _ => ?_
    simp only [Function.comp]
    split <;> simp [hi, hd]
  · rw [State.launchFailed, State.modLaunch_launchOf s id hi]
    rw [State.launchFailed] at hs
    cases ho : s.launchOf i with
    | none => rfl
    | some l =>
      have hl : l.faulted = true := by simpa [ho] using hs
      simp only [Option.map_some, Option.getD_some]
      split
      · exact hf l hl
      · exact hl

theorem State.killed_modGang (l i : Nat) {f : Gang → Gang}
    (hf : ∀ g, (f g).phase = .placed → g.phase = .placed ∧ g.launch = (f g).launch ∧ g.idx = (f g).idx ∧ g.places = (f g).places) :
    s.Killed (s.modGang l i f) := by
  refine .of_gangs rfl (fun g hg hph => ?_) rfl fun _ => rfl
  obtain ⟨a, ha, rfl⟩ := List.mem_map.1 hg
  split at hph
  · next hk =>
    obtain ⟨hp, hl, hi, hq⟩ := hf a hph
    exact ⟨a, ha, hp, by rw [if_pos hk, hl], by rw [if_pos hk, hi], by rw [if_pos hk, hq]⟩
  · next hk => exact ⟨a, ha, hph, by rw [if_neg hk], by rw [if_neg hk], by rw [if_neg hk]⟩

theorem State.killed_nextSeq (die : Nat) : s.Killed (s.nextSeq die) := .of_subset rfl (fun _ h _ => h) rfl fun _ => rfl

/-- A gang that comes back from JOIN holds no core until it is placed (R316). -/
theorem State.killed_returnSwapped (l g : Nat) : s.Killed (s.returnSwapped l g) := by
  unfold State.returnSwapped
  split
  · split
    · exact (s.killed_modGang l g (f := fun y => { y with phase := .saved, seq := _, back := _ }) fun _ h => nomatch h).trans
        (State.killed_nextSeq _ _)
    · exact .refl s
  · exact .refl s

theorem State.killed_joinFall (p : Option (Nat × Nat)) : s.Killed (s.joinFall p) := by
  unfold State.joinFall
  split
  · exact .refl s
  · exact (s.killed_modGang _ _ (f := fun x => { x with join := x.join - 1 }) fun _ h => ⟨h, rfl, rfl, rfl⟩).trans
      (State.killed_returnSwapped _ _ _)

/-- A launch that has failed ends without releasing another (R315). -/
theorem State.killed_endLaunch {l : Launch} (hl : l.faulted = true) (quiet : Bool) : s.Killed (s.endLaunch l quiet) := by
  unfold State.endLaunch
  rw [if_pos hl]
  extract_lets s1 s2 s3 s4
  have h1 : s.Killed s1 := by
    simp only [s1]
    split
    · exact ((s.sameWork_setNodeState _ _ _).trans (State.sameWork_dropCounter _ _ _)).killed
    · exact .refl s
  have h2 : s.Killed s2 := h1.trans (State.killed_modLaunch _ _ (fun _ => rfl) (fun _ => rfl) fun _ h => h)
  have h4 : s.Killed s4 := (h2.trans (State.sameWork_signal _ _ _ _ _ _).killed).trans (State.sameWork_record _ _).killed
  split
  · split
    · exact h2
    · exact h2.trans (State.killed_joinFall _ _)
  · split
    · exact h4
    · exact h4.trans (State.killed_joinFall _ _)

theorem State.killed_settleLaunch {id : Nat} (hf : s.launchFailed id = true) (quiet : Bool) : s.Killed (s.settleLaunch id quiet) := by
  unfold State.settleLaunch
  split
  · next l hl =>
    have hl' : l.faulted = true := by simpa [State.launchFailed, hl] using hf
    split
    · exact s.killed_endLaunch hl' quiet
    · exact .refl s
  · exact .refl s

/-- A launch is failed by a change that marks it. -/
theorem State.modLaunch_failed (id : Nat) {f : Launch → Launch} (hi : ∀ l, (f l).id = l.id) (hf : ∀ l, (f l).faulted = true) :
    (s.modLaunch id f).launchFailed id = true := by
  rw [State.launchFailed, State.modLaunch_launchOf s id hi]
  cases ho : s.launchOf id with
  | none => rfl
  | some l =>
    have hl : l.id = id := by simpa using List.find?_some ho
    simp [hl, hf]

theorem State.failLaunch_failed (id : Nat) : (s.failLaunch id).launchFailed id = true :=
  State.modLaunch_failed _ id (fun _ => rfl) fun _ => rfl

theorem State.killed_withoutGangs (p : Gang → Bool) : s.Killed { s with gangs := s.gangs.filter p } :=
  .of_subset rfl (fun _ hg _ => List.mem_of_mem_filter hg) rfl fun _ => rfl

theorem State.killed_failLaunch (id : Nat) : s.Killed (s.failLaunch id) :=
  (s.killed_withoutGangs _).trans (State.killed_modLaunch _ id (fun _ => rfl) (fun _ => rfl) fun _ _ => rfl)

/-- Only the list of watches changes where some go. -/
theorem State.keepWatches_eq (p : Watch → Bool) : ∃ c o, s.keepWatches p = { s with ctx := c, others := o } := by
  unfold State.keepWatches
  dsimp only
  split
  · exact ⟨s.ctx, _, rfl⟩
  · split
    · exact ⟨_, _, rfl⟩
    · exact ⟨_, _, rfl⟩

theorem State.killed_dropImage (launch idx : Nat) : s.Killed (s.dropImage launch idx) := .of_subset rfl (fun _ h _ => h) rfl fun _ => rfl

theorem State.killed_withWork (cmds : List EngCmd) (mats : List MatCmd) (caddyQ : List CaddyReq) (counts : List CountEntry)
    (prq : List PageReq) : s.Killed { s with cmds := cmds, mats := mats, caddyQ := caddyQ, counts := counts, prq := prq } :=
  .of_subset rfl (fun _ h _ => h) rfl fun _ => rfl

theorem State.killed_dropGang (launch idx : Nat) : s.Killed (s.dropGang launch idx) := by
  have hk : ∀ (u : State) p, u.Killed (u.keepWatches p) := fun u p => by
    obtain ⟨c, o, h⟩ := u.keepWatches_eq p
    rw [h]
    exact .of_subset rfl (fun _ hg _ => hg) rfl fun _ => rfl
  exact (((s.sameWork_enterGang launch idx).killed.trans (hk _ _)).trans (State.killed_dropImage _ _ _)).trans
    (State.killed_withWork _ _ _ _ _ _)

end

/-- A child of a killed gang fails and is killed with it (R315). -/
theorem State.killed_kid {fuel : Nat} (hkid : ∀ (u : State) (l g : Nat) (again quiet : Bool), u.Killed (State.killGangFuel fuel u l g again quiet))
    (s : State) (l : Launch) : s.Killed (
      let u := s.modLaunch l.id (fun x => { x with faulted := true, phase := .running })
      let u := (u.gangs.filter (fun g => g.launch == l.id)).foldl (fun s g => State.killGangFuel fuel s l.id g.idx false true) u
      u.settleLaunch l.id true) := by
  extract_lets u v
  have hu : s.Killed u := s.killed_modLaunch l.id (fun _ => rfl) (fun _ => rfl) fun _ _ => rfl
  have hv : u.Killed v := .foldl (fun x (g : Gang) => hkid x l.id g.idx false true) _ _
  exact (hu.trans hv).trans (v.killed_settleLaunch (hv.failed _ (s.modLaunch_failed l.id (fun _ => rfl) fun _ => rfl)) true)

/-- A kill, and after one that is for good the gang holds no core. -/
theorem State.killGangFuel_succ {fuel : Nat}
    (hkid : ∀ (u : State) (l g : Nat) (again quiet : Bool), u.Killed (State.killGangFuel fuel u l g again quiet))
    (s : State) (launch idx : Nat) (again quiet : Bool) :
    s.Killed (State.killGangFuel (fuel + 1) s launch idx again quiet) ∧
      (again = false → ∀ g ∈ (State.killGangFuel (fuel + 1) s launch idx again quiet).gangs, g.phase = .placed →
        ¬ (g.launch = launch ∧ g.idx = idx)) := by
  unfold State.killGangFuel
  extract_lets s1 kids kidNodes s2 s3 s4 s5
  have h1 : s.Killed s1 := s.killed_dropGang launch idx
  have h2 : s1.Killed s2 := .foldl (fun u n =>
    (((u.sameWork_failNode n).trans (State.sameWork_signal _ _ _ _ _ _)).trans (State.sameWork_record _ _)).killed) _ _
  have h3 : s2.Killed s3 := .foldl (State.killed_kid hkid) _ _
  have h4 : s3.Killed s4 := s3.killed_modLaunch launch (fun _ => rfl) (fun _ => rfl) fun _ h => h
  have h5 : s4.Killed s5 := s4.killed_withoutGangs _
  have h6 : s5.Killed ((s5.failLaunch launch).settleLaunch launch quiet) :=
    (s5.killed_failLaunch launch).trans (State.killed_settleLaunch _ (s5.failLaunch_failed launch) quiet)
  have h : s.Killed s4 := ((h1.trans h2).trans h3).trans h4
  split
  · next hc =>
    refine ⟨h.trans (s4.killed_modGang _ _ fun _ hg => nomatch hg), fun ha => ?_⟩
    rw [ha] at hc
    exact nomatch hc
  · refine ⟨(h.trans h5).trans h6, fun _ g hg hph => ?_⟩
    obtain ⟨a, ha, -, hal, hai, -⟩ := h6.gangs g hg hph
    have hkey := (List.mem_filter.1 ha).2
    rw [hal, hai] at hkey
    simpa [imp_iff_not_or] using hkey

theorem State.killed_killGangFuel : ∀ (fuel : Nat) (s : State) (launch idx : Nat) (again quiet : Bool),
    s.Killed (State.killGangFuel fuel s launch idx again quiet)
  | 0, s, _, _, _, _ => .refl s
  | fuel + 1, s, launch, idx, again, quiet => (State.killGangFuel_succ (State.killed_killGangFuel fuel) s launch idx again quiet).1

theorem State.killed_killGang (s : State) (launch idx : Nat) (again : Bool) : s.Killed (s.killGang launch idx again) :=
  State.killed_killGangFuel _ _ _ _ _ _

/-- A gang that is killed for good holds no core. -/
theorem State.killGang_unplaced (s : State) (launch idx : Nat) :
    ∀ g ∈ (s.killGang launch idx false).gangs, g.phase = .placed → ¬ (g.launch = launch ∧ g.idx = idx) :=
  (State.killGangFuel_succ (State.killed_killGangFuel _) s launch idx _ false).2 (Bool.false_and _)

/-! ### The kill timer's kill (R340) -/

/-- The step of a kill on a core: the record, and the kill of one gang. -/
def State.killOne (core dom : Nat) (s : State) (g : Gang) : State :=
  (s.record { kind := 0x0B, dom := dom, gang := g.idx, detail := placeBits core }).killGang g.launch g.idx false

theorem State.killed_killOne (core dom : Nat) (s : State) (g : Gang) : s.Killed (s.killOne core dom g) :=
  (s.sameWork_record _).killed.trans (State.killed_killGang _ _ _ _)

theorem State.killOn_eq (s : State) (core dom : Nat) :
    s.killOn core dom = (s.gangsOn core (fun _ l => l.dom == dom)).foldl (State.killOne core dom) s := rfl

theorem State.killed_killOn (s : State) (core dom : Nat) : s.Killed (s.killOn core dom) := by
  rw [State.killOn_eq]
  exact .foldl (State.killed_killOne core dom) _ _

/-- After the gangs of a list have been killed none of them holds a core. -/
theorem State.foldl_killOne_unplaced (core dom : Nat) (gs : List Gang) (s : State) {a g : Gang} (ha : a ∈ gs)
    (hg : g ∈ (gs.foldl (State.killOne core dom) s).gangs) (hph : g.phase = .placed) : ¬ (g.launch = a.launch ∧ g.idx = a.idx) := by
  induction gs generalizing s with
  | nil => exact absurd ha List.not_mem_nil
  | cons b gs ih =>
    rw [List.foldl_cons] at hg
    obtain rfl | ha := List.mem_cons.1 ha
    · obtain ⟨x, hx, hxp, hxl, hxi, -⟩ := (State.Killed.foldl (State.killed_killOne core dom) gs _).gangs g hg hph
      rw [← hxl, ← hxi]
      exact State.killGang_unplaced _ _ _ x hx hxp
    · exact ih _ ha hg

theorem State.mem_gangsOn {s : State} {core : Nat} {p : Gang → Launch → Bool} {g : Gang} :
    g ∈ s.gangsOn core p ↔ g ∈ s.gangs ∧ g.phase = .placed ∧ (∃ q ∈ g.places, q.core = core) ∧
      ∃ l, s.launchOf g.launch = some l ∧ p g l = true := by
  rw [State.gangsOn, List.mem_filter]
  cases s.launchOf g.launch <;> simp [and_assoc]

/-- The domain behind a launch's name survives a kill. -/
theorem State.Killed.launchDom {s t : State} (h : s.Killed t) {id : Nat} {m : Launch} (hm : t.launchOf id = some m) :
    ∃ l, s.launchOf id = some l ∧ l.dom = m.dom := by
  have hid : ∀ u : State, (u.launches.map (fun l => (l.id, l.dom))).find? (fun x => x.1 == id) = (u.launchOf id).map (fun l => (l.id, l.dom)) :=
    fun u => List.find?_map ..
  have hs := hid s
  rw [← h.launches, hid t, hm] at hs
  obtain ⟨l, hl, he⟩ := Option.map_eq_some_iff.1 hs.symm
  exact ⟨l, hl, congrArg Prod.snd he⟩

/-- After the kill nothing of the domain holds the core. -/
theorem State.killOn_gangsOn (s : State) (core dom : Nat) : (s.killOn core dom).gangsOn core (fun _ l => l.dom == dom) = [] := by
  refine List.eq_nil_iff_forall_not_mem.2 fun g hg => ?_
  obtain ⟨hmem, hph, ⟨q, hq, hqc⟩, m, hm, hd⟩ := State.mem_gangsOn.1 hg
  have hk := s.killed_killOn core dom
  obtain ⟨a, ha, hap, hal, hai, haq⟩ := hk.gangs g hmem hph
  obtain ⟨l, hl, hld⟩ := hk.launchDom hm
  have hon : a ∈ s.gangsOn core (fun _ l => l.dom == dom) :=
    State.mem_gangsOn.2 ⟨ha, hap, ⟨q, haq ▸ hq, hqc⟩, l, hal ▸ hl, by simpa [hld] using hd⟩
  rw [State.killOn_eq] at hmem
  exact State.foldl_killOne_unplaced core dom _ s hon hmem hph ⟨hal.symm, hai.symm⟩

end Sys2Proof.Machine

/-! ### What saving a gang leaves (R342, R348)

A gang that is saved holds no core and has no resident watch; the other gangs stay as they are, and so does what they have to wait for. -/

namespace Sys2Proof.Machine

/-- The gangs whose names satisfy p are in the same phase, with the same watches but for reservations and the same passes running. -/
structure State.Spares (p : Nat → Nat → Prop) (s t : State) : Prop where
  launches : t.launches = s.launches
  preempts : t.preempts = s.preempts
  pstat : ∀ core, t.reg (.pstat core) = s.reg (.pstat core)
  phase : ∀ l i, p l i → (t.gangOf l i).map (·.phase) = (s.gangOf l i).map (·.phase)
  watches : ∀ l i, p l i → (t.watches.filter (·.of l i)).map Watch.unreserved = (s.watches.filter (·.of l i)).map Watch.unreserved
  mats : t.mats.map (fun c => (c.watch, c.running)) = s.mats.map (fun c => (c.watch, c.running))

section
variable {p : Nat → Nat → Prop}

namespace State.Spares

theorem of_same {s t : State} (hw : t.watches = s.watches) (hg : t.gangs = s.gangs) (hl : t.launches = s.launches)
    (hp : t.preempts = s.preempts) (hm : t.mats = s.mats) (hc : t.cfg = s.cfg) : s.Spares p t :=
  ⟨hl, hp, fun core => by rw [State.reg, hc]; rfl, fun l i _ => by rw [State.gangOf, hg]; rfl, fun _ _ _ => by rw [hw], by rw [hm]⟩

theorem refl (s : State) : s.Spares p s := of_same rfl rfl rfl rfl rfl rfl

theorem trans {s t u : State} (h : s.Spares p t) (h' : t.Spares p u) : s.Spares p u :=
  ⟨h'.launches.trans h.launches, h'.preempts.trans h.preempts, fun core => (h'.pstat core).trans (h.pstat core),
    fun l i hp => (h'.phase l i hp).trans (h.phase l i hp), fun l i hp => (h'.watches l i hp).trans (h.watches l i hp),
    h'.mats.trans h.mats⟩

theorem foldl {α : Type} {f : State → α → State} (hf : ∀ (u : State) a, u.Spares p (f u a)) (l : List α) (s : State) :
    s.Spares p (l.foldl f s) :=
  List.foldlRecOn l f (refl s) fun u hu a _ => hu.trans (hf u a)

/-- A gang that has no watch gets none. -/
theorem watchless {s t : State} (h : s.Spares p t) {l i : Nat} (hp : p l i) (hs : ∀ w ∈ s.watches, w.of l i = false) :
    ∀ w ∈ t.watches, w.of l i = false := by
  have hnil : s.watches.filter (·.of l i) = [] := List.filter_eq_nil_iff.2 fun w hw => by simp [hs w hw]
  have ht := h.watches l i hp
  rw [hnil, List.map_nil, List.map_eq_nil_iff, List.filter_eq_nil_iff] at ht
  exact fun w hw => by simpa using ht w hw

end State.Spares

theorem State.SameWork.spares {s t : State} (h : s.SameWork t) : s.Spares p t := by
  refine ⟨h.launches, h.preempts, h.pstat, fun l i _ => by rw [State.gangOf, h.gangs]; rfl, fun l i _ => ?_, by rw [h.mats]⟩
  have hf : ∀ u : State, (u.watches.filter (·.of l i)).map Watch.unreserved = (u.watches.map Watch.unreserved).filter (·.of l i) :=
    fun u => by rw [List.filter_map]; rfl
  rw [hf, hf, h.watches]

/-- A change of a gang that keeps its name is seen through its name. -/
theorem State.gangOf_modGang (s : State) (l i : Nat) {f : Gang → Gang}
    (hf : ∀ g, g.launch = l → g.idx = i → (f g).launch = l ∧ (f g).idx = i) (a b : Nat) :
    (s.modGang l i f).gangOf a b = (s.gangOf a b).map (fun g => if g.launch = l ∧ g.idx = i then f g else g) := by
  rw [State.gangOf, State.modGang, State.gangOf, List.find?_map]
  congr 2
  funext g
  simp only [Function.comp]
  split
  · next h =>
    obtain ⟨hl, hi⟩ := hf g h.1 h.2
    rw [hl, hi, h.1, h.2]
  · rfl

section
variable (s : State)

/-- A change of one gang spares the others, -/
theorem State.spares_modGang {l i : Nat} {f : Gang → Gang} (hf : ∀ g, g.launch = l → g.idx = i → (f g).launch = l ∧ (f g).idx = i)
    (hp : ¬ p l i) : s.Spares p (s.modGang l i f) := by
  refine ⟨rfl, rfl, fun _ => rfl, fun a b hab => ?_, fun _ _ _ => rfl, rfl⟩
  rw [s.gangOf_modGang l i hf, Option.map_map]
  refine Option.map_congr fun g hg => ?_
  have hk : g.launch = a ∧ g.idx = b := by simpa using List.find?_some hg
  rw [Function.comp, if_neg]
  rintro ⟨rfl, rfl⟩
  exact hp (hk.1 ▸ hk.2 ▸ hab)

/-- and one that keeps its phase spares all. -/
theorem State.spares_modGang_phase (l i : Nat) {f : Gang → Gang} (hl : ∀ g, (f g).launch = g.launch) (hi : ∀ g, (f g).idx = g.idx)
    (hph : ∀ g, (f g).phase = g.phase) : s.Spares p (s.modGang l i f) := by
  refine ⟨rfl, rfl, fun _ => rfl, fun a b hab => ?_, fun _ _ _ => rfl, rfl⟩
  rw [s.gangOf_modGang l i fun g h h' => ⟨(hl g).trans h, (hi g).trans h'⟩, Option.map_map]
  refine Option.map_congr fun g _ => ?_
  rw [Function.comp]
  split
  · exact hph g
  · rfl

theorem State.spares_flushCount (e : CountEntry) : s.Spares p (s.flushCount e) :=
  s.spares_modGang_phase _ _ (f := fun g =>
    { g with staging := addCount e.slot 2 e.nan (addCount e.slot 1 e.flush (addCount e.slot 0 e.sat g.staging)) })
    (fun _ => rfl) (fun _ => rfl) fun _ => rfl

theorem State.spares_flushCounts (q : CountEntry → Bool) : s.Spares p (s.flushCounts q) := by
  refine .trans (t := { s with counts := s.counts.filter (fun e => !q e) }) (.of_same rfl rfl rfl rfl rfl rfl) ?_
  exact .foldl State.spares_flushCount _ _

theorem State.spares_nextSeq (die : Nat) : s.Spares p (s.nextSeq die) := .of_same rfl rfl rfl rfl rfl rfl

/-- The watches of one gang leave their cores. -/
theorem State.spares_keepWatches {l i : Nat} (hp : ¬ p l i) : s.Spares p (s.keepWatches (fun w => !w.of l i)) := by
  obtain ⟨c, o, he⟩ := s.keepWatches_eq (fun w => !w.of l i)
  have hw := s.keepWatches_watches (fun w => !w.of l i)
  rw [he] at hw ⊢
  refine ⟨rfl, rfl, fun _ => rfl, fun _ _ _ => rfl, fun a b hab => ?_, rfl⟩
  rw [hw, List.filter_filter]
  congr 1
  refine List.filter_congr fun w _ => ?_
  cases hab' : w.of a b with
  | false => simp
  | true =>
    have hne : w.of l i = false := by
      by_contra hli
      simp only [Watch.of, Bool.and_eq_true, beq_iff_eq, Bool.not_eq_false] at hab' hli
      exact hp (hli.1 ▸ hli.2 ▸ hab'.1 ▸ hab'.2 ▸ hab)
    simp [hne]

/-- The requests for caddy blocks of a gang go, and its commands are saved with it. -/
theorem State.spares_withSaved (caddyQ : List CaddyReq) (q : MatCmd → Prop) [DecidablePred q] :
    s.Spares p { s with caddyQ := caddyQ, mats := s.mats.map (fun (c : MatCmd) => if q c then { c with saved := true } else c) } := by
  refine ⟨rfl, rfl, fun _ => rfl, fun _ _ _ => rfl, fun _ _ _ => rfl, ?_⟩
  rw [List.map_map]
  refine List.map_congr_left fun c _ => ?_
  rw [Function.comp]
  split <;> rfl

theorem State.sameWork_moveBytes (src dst n : Nat) : s.SameWork (s.moveBytes src dst n) := .of_same rfl rfl rfl rfl rfl rfl rfl rfl rfl
theorem State.sameWork_moveRows (src dst n : Nat) : s.SameWork (s.moveRows src dst n) := .of_same rfl rfl rfl rfl rfl rfl rfl rfl rfl

theorem State.sameWork_moveBlocks (f t fa ta : Nat → Nat) (bytes rows : Nat) : ∀ n, s.SameWork (s.moveBlocks f t fa ta bytes rows n)
  | 0 => .refl s
  | n + 1 => ((State.sameWork_moveBlocks f t fa ta bytes rows n).trans (State.sameWork_moveBytes _ _ _ _)).trans
      (State.sameWork_moveRows _ _ _ _)

theorem State.sameWork_withFresh (n : Nat) : s.SameWork { s with fresh := n } := .of_same rfl rfl rfl rfl rfl rfl rfl rfl rfl

theorem State.sameWork_writeOpen (dom va : Nat) (bs : List (Option Byte)) : s.SameWork (s.writeOpen dom va bs) :=
  (s.sameWork_vwrite _ _ _ _).trans (State.sameWork_withFresh _ _)

theorem State.spares_saveGate (launch gang : Nat) (ref : WatchRef) (d : GateDesc) (v : Watch) :
    s.Spares p (s.saveGate launch gang ref d v) :=
  (s.sameWork_writeOpen _ _ _).spares.trans (State.spares_modGang_phase _ _ _ (fun _ => rfl) (fun _ => rfl) fun _ => rfl)

theorem State.spares_saveGates (w : Watch) : s.Spares p (s.saveGates w) := .foldl (fun u _ => u.spares_saveGate _ _ _ _ _) _ _

theorem State.spares_writeImage (l : Launch) (g : Gang) : s.Spares p (s.writeImage l g) :=
  .trans ((s.sameWork_writeOpen _ _ _).spares.trans
      (State.spares_modGang_phase _ _ _ (f := fun g => { g with image := _, altered := [], saves := [] }) (fun _ => rfl) (fun _ => rfl) fun _ => rfl))
    (.foldl State.spares_saveGates _ _)

/-- Before its place is given up: what a gang has counted is put into its staging record (R153, R348). -/
def State.beforeSave (launch idx : Nat) (l : Launch) (joined : Bool) : State :=
  let u := s.flushCounts (fun e => e.launch == launch && e.gang == idx)
  if joined then u else u.nextSeq l.home

/-- A gang as it is saved. -/
def State.savedGang (launch idx : Nat) (l : Launch) (g : Gang) (joined : Bool) : Gang :=
  { g with phase := if joined then .swapped else .saved, seq := s.seqs.getD l.home 0, back := s.time, watches := s.imagesOf launch idx joined }

/-- Its watches have left their cores. -/
def State.afterSave (launch idx : Nat) : State :=
  { s.keepWatches (fun w => !w.of launch idx) with
    caddyQ := (s.keepWatches (fun w => !w.of launch idx)).caddyQ.filter (fun c => !(c.watch.launch == launch && c.watch.gang == idx))
    mats := (s.keepWatches (fun w => !w.of launch idx)).mats.map (fun (c : MatCmd) =>
      if c.watch.launch = launch ∧ c.watch.gang = idx then { c with saved := true } else c) }

end

/-- The name of the gang behind a name. -/
theorem State.gangOf_key {s : State} {l i : Nat} {g : Gang} (h : s.gangOf l i = some g) : g.launch = l ∧ g.idx = i := by
  simpa using List.find?_some h

theorem State.gangOf_getD_key {s u : State} {l i : Nat} {g : Gang} (hg : s.gangOf l i = some g) :
    ((u.gangOf l i).getD g).launch = l ∧ ((u.gangOf l i).getD g).idx = i := by
  cases hu : u.gangOf l i with
  | none => exact State.gangOf_key hg
  | some x => exact State.gangOf_key hu

/-- A save, in its parts: the gang's rows move, it takes its new phase, and its image is written. -/
theorem State.saveGang_eq {s : State} {launch idx : Nat} {g : Gang} {l : Launch} (hg : s.gangOf launch idx = some g)
    (hl : s.launchOf launch = some l) (hph : g.phase = .placed) (joined : Bool) :
    ∃ (u : State) (g' : Gang), ((s.beforeSave launch idx l joined).afterSave launch idx).SameWork u ∧ g'.launch = launch ∧ g'.idx = idx ∧
      g'.phase = (if joined then .swapped else .saved) ∧
      s.saveGang launch idx joined = (u.modGang launch idx (fun _ => g')).writeImage l g' := by
  let u := s.flushCounts (fun e => e.launch == launch && e.gang == idx)
  let g1 := (u.gangOf launch idx).getD g
  let g' := u.savedGang launch idx l g1 joined
  obtain ⟨hkl, hki⟩ := State.gangOf_getD_key (u := u) hg
  refine ⟨((s.beforeSave launch idx l joined).afterSave launch idx).moveBlocks g1.spadAt g'.spadAt g1.accAt g'.accAt (128 * l.recd.sprows)
    l.recd.accrows l.recd.blocks, g', State.sameWork_moveBlocks _ _ _ _ _ _ _ _, hkl, hki, rfl, ?_⟩
  unfold State.saveGang
  rw [hg, hl]
  dsimp only
  rw [if_neg (not_not_intro hph)]
  rfl

/-- What a save does before and after it puts the gang in its new phase spares the gangs. -/
theorem State.spares_beforeSave (s : State) (launch idx : Nat) (l : Launch) (joined : Bool) :
    s.Spares p (s.beforeSave launch idx l joined) := by
  refine (s.spares_flushCounts (fun e => e.launch == launch && e.gang == idx)).trans ?_
  unfold State.beforeSave
  dsimp only
  split
  · exact .refl _
  · exact State.spares_nextSeq _ _

theorem State.spares_afterSave (s : State) {launch idx : Nat} (hp : ¬ p launch idx) : s.Spares p (s.afterSave launch idx) :=
  (s.spares_keepWatches hp).trans (State.spares_withSaved _ _ _)

theorem State.afterSave_watches (s : State) (launch idx : Nat) : ∀ w ∈ (s.afterSave launch idx).watches, w.of launch idx = false := by
  have hw : (s.afterSave launch idx).watches = (s.keepWatches (fun w => !w.of launch idx)).watches := rfl
  rw [hw, s.keepWatches_watches]
  exact fun w hm => by simpa using (List.mem_filter.1 hm).2

theorem State.afterSave_gangOf (s : State) (launch idx a b : Nat) : (s.afterSave launch idx).gangOf a b = s.gangOf a b := by
  obtain ⟨c, o, he⟩ := s.keepWatches_eq (fun w => !w.of launch idx)
  rw [State.afterSave, he]
  rfl

/-- A save spares the other gangs (R348). -/
theorem State.spares_saveGang (s : State) {launch idx : Nat} (hp : ¬ p launch idx) (joined : Bool) :
    s.Spares p (s.saveGang launch idx joined) := by
  cases hg : s.gangOf launch idx with
  | none =>
    unfold State.saveGang
    rw [hg]
    exact .refl s
  | some g =>
  cases hl : s.launchOf launch with
  | none =>
    unfold State.saveGang
    rw [hg, hl]
    exact .refl s
  | some l =>
  by_cases hph : g.phase = .placed
  · obtain ⟨u, g', hu, hgl, hgi, -, he⟩ := State.saveGang_eq hg hl hph joined
    rw [he]
    exact (((s.spares_beforeSave launch idx l joined).trans (State.spares_afterSave _ hp)).trans hu.spares).trans
      ((u.spares_modGang (fun _ _ _ => ⟨hgl, hgi⟩) hp).trans (State.spares_writeImage _ _ _))
  · unfold State.saveGang
    rw [hg, hl]
    dsimp only
    rw [if_pos hph]
    exact .refl s

end

/-- A gang that is saved for pre-emption stands in its image, and no watch of it is resident (R342, R348). -/
theorem State.saveGang_saved {s : State} {launch idx : Nat} {g : Gang} {l : Launch} (hg : s.gangOf launch idx = some g)
    (hl : s.launchOf launch = some l) (hph : g.phase = .placed) :
    ((s.saveGang launch idx false).gangOf launch idx).map (·.phase) = some .saved ∧
      ∀ w ∈ (s.saveGang launch idx false).watches, w.of launch idx = false := by
  obtain ⟨u, g', hu, hgl, hgi, hgp, he⟩ := State.saveGang_eq hg hl hph false
  have hwrite := (u.modGang launch idx (fun _ => g')).spares_writeImage (p := fun _ _ => True) l g'
  rw [he]
  refine ⟨?_, hwrite.watchless trivial (hu.spares.watchless (p := fun _ _ => True) trivial (State.afterSave_watches _ _ _))⟩
  obtain ⟨x, hx, -⟩ : ∃ x, (s.beforeSave launch idx l false).gangOf launch idx = some x ∧ x.phase = .placed := by
    have h := (s.spares_beforeSave (p := fun _ _ => True) launch idx l false).phase launch idx trivial
    rw [hg, Option.map_some, hph] at h
    simpa using h
  have hux : u.gangOf launch idx = some x := by
    rw [State.gangOf, hu.gangs, ← State.gangOf, State.afterSave_gangOf, hx]
  rw [hwrite.phase launch idx trivial, State.gangOf_modGang _ _ _ fun _ _ _ => ⟨hgl, hgi⟩, hux, Option.map_some, Option.map_some,
    if_pos (State.gangOf_key hx), hgp]
  rfl

/-! ### Saves of the gangs on a core (R342, R350) -/

/-- What a gang has to wait for hangs on its own watches and passes. -/
theorem State.Spares.mustWait {p : Nat → Nat → Prop} {s t : State} (h : s.Spares p t) {l i : Nat} (hp : p l i) (window : Bool) :
    t.mustWait l i window = s.mustWait l i window := by
  have hany : ∀ (u : State) (q : Watch → Bool), (∀ w, q w.unreserved = q w) →
      u.watches.any (fun w => w.of l i && q w) = ((u.watches.filter (·.of l i)).map Watch.unreserved).any q := fun u q hq => by
    rw [List.any_map, List.any_filter]
    simp only [Function.comp, hq]
  have hmats : ∀ u : State, u.mats.any (fun c => c.watch.launch == l && c.watch.gang == i && !c.running.isEmpty) =
      (u.mats.map (fun c => (c.watch, c.running))).any (fun x => x.1.launch == l && x.1.gang == i && !x.2.isEmpty) := fun u => by
    rw [List.any_map]
    rfl
  rw [State.mustWait, State.mustWait, hmats t, hmats s, h.mats, hany t _ fun _ => rfl, hany s _ fun _ => rfl, h.watches l i hp,
    hany t (fun w => w.flights.any (fun f => !f.inUnit)) fun _ => rfl, hany s (fun w => w.flights.any (fun f => !f.inUnit)) fun _ => rfl,
    h.watches l i hp]

/-- One gang of those on a core is saved when it waits for nothing. -/
def State.saveReady (window : Bool) (s : State) (g : Gang) : State :=
  if s.mustWait g.launch g.idx window then s else s.saveGang g.launch g.idx false

theorem State.saveOn_eq (s : State) (core : Nat) (window : Bool) (q : Gang → Launch → Bool) :
    s.saveOn core window q = (s.gangsOn core q).foldl (State.saveReady window) s := rfl

theorem State.spares_saveReady {p : Nat → Nat → Prop} (window : Bool) (s : State) {g : Gang} (hp : ¬ p g.launch g.idx) :
    s.Spares p (s.saveReady window g) := by
  unfold State.saveReady
  split
  · exact .refl s
  · exact s.spares_saveGang hp false

theorem State.Spares.foldl_mem {p : Nat → Nat → Prop} {α : Type} {f : State → α → State} (l : List α) (s : State)
    (hf : ∀ a ∈ l, ∀ u : State, u.Spares p (f u a)) : s.Spares p (l.foldl f s) :=
  List.foldlRecOn l f (.refl s) fun u hu a ha => hu.trans (hf a ha u)

/-- Of gangs with different names, each that waits for nothing is saved. -/
theorem State.foldl_saveReady_saved (window : Bool) (s : State) (gs : List Gang) (hn : (gs.map (fun g => (g.launch, g.idx))).Nodup)
    {g : Gang} (hg : g ∈ gs) (hs : s.gangOf g.launch g.idx = some g) (hl : (s.launchOf g.launch).isSome) (hph : g.phase = .placed)
    (hw : s.mustWait g.launch g.idx window = false) :
    ((gs.foldl (State.saveReady window) s).gangOf g.launch g.idx).map (·.phase) = some .saved ∧
      ∀ w ∈ (gs.foldl (State.saveReady window) s).watches, w.of g.launch g.idx = false := by
  obtain ⟨as, bs, rfl⟩ := List.append_of_mem hg
  have hne : ∀ a ∈ as ++ bs, ¬ (g.launch = a.launch ∧ g.idx = a.idx) := by
    rw [List.map_append, List.map_cons, List.nodup_middle, List.nodup_cons, ← List.map_append] at hn
    rintro a ha ⟨hal, hai⟩
    exact hn.1 (List.mem_map.2 ⟨a, ha, by rw [hal, hai]⟩)
  rw [List.foldl_append, List.foldl_cons]
  have other : ∀ (l : List Gang) (u : State), (∀ a ∈ l, a ∈ as ++ bs) →
      u.Spares (fun l i => l = g.launch ∧ i = g.idx) (l.foldl (State.saveReady window) u) := fun l u hsub =>
    .foldl_mem l u fun a ha v => v.spares_saveReady window fun h => hne a (hsub a ha) ⟨h.1.symm, h.2.symm⟩
  have hbefore := other as s fun a ha => List.mem_append_left _ ha
  set u := as.foldl (State.saveReady window) s
  obtain ⟨x, hx, hxp⟩ : ∃ x, u.gangOf g.launch g.idx = some x ∧ x.phase = .placed := by
    have h := hbefore.phase _ _ ⟨rfl, rfl⟩
    rw [hs, Option.map_some, hph] at h
    simpa using h
  obtain ⟨l, hul⟩ : ∃ l, u.launchOf g.launch = some l := by
    rw [State.launchOf, hbefore.launches, ← State.launchOf]
    exact Option.isSome_iff_exists.1 hl
  have hstep : State.saveReady window u g = u.saveGang g.launch g.idx false := by
    rw [State.saveReady, hbefore.mustWait ⟨rfl, rfl⟩, hw]
    rfl
  obtain ⟨hsaved, hgone⟩ := State.saveGang_saved hx hul hxp
  have hafter := other bs (State.saveReady window u g) fun a ha => List.mem_append_right _ ha
  rw [hstep] at hafter ⊢
  exact ⟨(hafter.phase _ _ ⟨rfl, rfl⟩).trans hsaved, hafter.watchless ⟨rfl, rfl⟩ hgone⟩

end Sys2Proof.Machine

/-! ### The ladder of pre-emption (R340, R342) -/

namespace Sys2Proof.Machine

/-- The first in an order by a number has the least (R66, R340). -/
theorem firstOf_least {α : Type} {n : α → Nat} : ∀ {l : List α}, l ≠ [] →
    ∃ a, firstOf (fun x y => decide (n x < n y)) l = some a ∧ a ∈ l ∧ ∀ b ∈ l, n a ≤ n b
  | a :: as, _ => by
    unfold firstOf
    split
    · next h =>
      have has : as = [] := by
        by_contra hne
        obtain ⟨b, hb, -⟩ := firstOf_least (n := n) hne
        rw [h] at hb
        exact nomatch hb
      subst has
      exact ⟨a, rfl, List.mem_singleton_self a, by simp⟩
    · next b h =>
      obtain ⟨c, hc, hmem, hleast⟩ := firstOf_least (n := n) (l := as) (by rintro rfl; exact nomatch h)
      obtain rfl : b = c := Option.some.inj (h.symm.trans hc)
      by_cases hlt : n b < n a
      · exact ⟨b, by simp [hlt], List.mem_cons_of_mem _ hmem, List.forall_mem_cons.2 ⟨hlt.le, hleast⟩⟩
      · exact ⟨a, by simp [hlt], List.mem_cons_self, List.forall_mem_cons.2 ⟨le_rfl, fun x hx => (not_lt.1 hlt).trans (hleast x hx)⟩⟩

theorem State.firstDue_eq (s : State) : ∀ l, s.firstDue l = firstOf (fun p q => decide (s.dueAt p < s.dueAt q)) l
  | [] => rfl
  | p :: ps => by
    rw [State.firstDue, firstOf, s.firstDue_eq ps]
    cases firstOf (fun p q => decide (s.dueAt p < s.dueAt q)) ps with
    | none => rfl
    | some q => simp

/-- Of some requests, the one whose timer ends before every other's is the first due. -/
theorem State.firstDue_of_least {s : State} {l : List Preempt} {p : Preempt} (hp : p ∈ l)
    (hleast : ∀ q ∈ l, q ≠ p → s.dueAt p < s.dueAt q) : s.firstDue l = some p := by
  obtain ⟨a, ha, hmem, hle⟩ := firstOf_least (n := s.dueAt) (List.ne_nil_of_mem hp)
  rw [State.firstDue_eq, ha]
  by_contra hne
  exact absurd (hle p hp) (not_le.2 (hleast a hmem fun h => hne (congrArg some h)))

/-! #### What PSTAT shows (R340) -/

/-- PSTAT of a core shows a state of a domain's request. -/
def State.shows (t : State) (core dom st : Nat) : Prop := t.reg (.pstat core) = BitVec.ofNat 64 (dom + st * 2 ^ 8)

/-- PSTAT follows the request of a domain while it names it. -/
def State.follows (s t : State) (core dom st : Nat) : Prop :=
  (s.regField (.pstat core) 0 5 = dom → t.shows core dom st) ∧
    (s.regField (.pstat core) 0 5 ≠ dom → t.reg (.pstat core) = s.reg (.pstat core))

theorem State.setPstat_shows (s : State) (core dom st : Nat) : (s.setPstat core dom st).shows core dom st := by
  rw [State.shows, State.setPstat, State.setReg_reg, if_pos rfl]

theorem State.notePstat_follows (s : State) (core dom st : Nat) : s.follows (s.notePstat core dom st) core dom st := by
  refine ⟨fun h => ?_, fun h => ?_⟩
  · rw [State.notePstat, if_pos h]
    exact s.setPstat_shows core dom st
  · rw [State.notePstat, if_neg h]

/-- Only PSTAT changes with a request's state. -/
theorem State.notePstat_eq (s : State) (core dom st : Nat) : ∃ c, s.notePstat core dom st = { s with cfg := c } := by
  unfold State.notePstat
  split
  · exact ⟨_, rfl⟩
  · exact ⟨s.cfg, rfl⟩

/-! #### Looking again at the arrivals of a core's gangs (R343) -/

/-- The requests, and PSTAT of every core, are the same. -/
def State.SameRequests (s t : State) : Prop := t.preempts = s.preempts ∧ ∀ core, t.reg (.pstat core) = s.reg (.pstat core)

theorem State.pollYieldb_sameRequests (s : State) (r : WatchRef) : s.SameRequests (s.pollYieldb r) := by
  have hsave := s.spares_saveGang (p := fun _ _ => False) (launch := r.launch) (idx := r.gang) id false
  unfold State.pollYieldb
  split
  · split
    · exact ⟨rfl, fun _ => rfl⟩
    split
    · exact ⟨hsave.preempts, hsave.pstat⟩
    · exact ⟨rfl, fun _ => rfl⟩
  · exact ⟨rfl, fun _ => rfl⟩

theorem State.pollCore_sameRequests (s : State) (core : Nat) : s.SameRequests (s.pollCore core) :=
  List.foldlRecOn _ _ (⟨rfl, fun _ => rfl⟩ : s.SameRequests s) fun u hu w _ =>
    ⟨(u.pollYieldb_sameRequests w.ref).1.trans hu.1, fun core => ((u.pollYieldb_sameRequests w.ref).2 core).trans (hu.2 core)⟩

/-! #### Requests (R340) -/

/-- A request that a domain does not have yet. -/
def Preempt.fresh (core dom time : Nat) (hard : Bool) : Preempt := { core := core, dom := dom, hard := hard, window := true, begun := time }

section
variable {s : State} {core dom : Nat}

theorem exec_preqSoft (hup : s.isUp = true) : exec (.preqSoft core dom) s = .next (s.softRequest core dom) :=
  State.byRegister_up hup (·.softRequest core dom)

theorem exec_preqHard (hup : s.isUp = true) : exec (.preqHard core dom) s = .next (s.hardRequest core dom) :=
  State.byRegister_up hup (·.hardRequest core dom)

theorem exec_preqWithdraw (hup : s.isUp = true) : exec (.preqWithdraw core dom) s = .next (s.withdraw core dom) :=
  State.byRegister_up hup (·.withdraw core dom)

theorem exec_preqSoft_new (hup : s.isUp = true) (hp : s.preemptOf core dom = none) :
    ∃ t, exec (.preqSoft core dom) s = .next t ∧ t.preempts = s.preempts ++ [Preempt.fresh core dom s.time false] ∧ t.shows core dom 1 := by
  refine ⟨_, exec_preqSoft hup, ?_⟩
  rw [State.softRequest, hp]
  obtain ⟨hpre, hstat⟩ := State.pollCore_sameRequests (State.setPstat
    { s with preempts := s.preempts ++ [Preempt.fresh core dom s.time false] } core dom 1) core
  exact ⟨hpre, (hstat core).trans (State.setPstat_shows _ core dom 1)⟩

theorem exec_preqSoft_again (hup : s.isUp = true) {p : Preempt} (hp : s.preemptOf core dom = some p) :
    exec (.preqSoft core dom) s = .next (s.setPstat core dom p.shown) := by
  refine (exec_preqSoft hup).trans ?_
  rw [State.softRequest, hp]

/-- The request that a hard one adds or changes stands behind the hard step. -/
theorem State.hardStep_new (hp : s.preemptOf core dom = none) :
    s.hardStep core dom = { s with preempts := s.preempts ++ [Preempt.fresh core dom s.time true] } := by
  rw [State.hardStep, hp]
  rfl

/-- A request at its hard step, with its response window. -/
def Preempt.hardened (core dom time : Nat) (q : Preempt) : Preempt :=
  if q.core = core ∧ q.dom = dom then { q with hard := true, window := true, begun := time } else q

theorem State.hardStep_soft {p : Preempt} (hp : s.preemptOf core dom = some p) (hsoft : p.hard = false) :
    s.hardStep core dom = { s with preempts := s.preempts.map (Preempt.hardened core dom s.time) } := by
  rw [State.hardStep, hp]
  simp only [hsoft]
  rfl

theorem State.hardStep_hard {p : Preempt} (hp : s.preemptOf core dom = some p) (hhard : p.hard = true) : s.hardStep core dom = s := by
  rw [State.hardStep, hp]
  simp only [hhard, if_true]

theorem State.preemptOf_key {p : Preempt} (hp : s.preemptOf core dom = some p) : p ∈ s.preempts ∧ p.core = core ∧ p.dom = dom :=
  ⟨List.mem_of_find?_eq_some hp, by simpa using List.find?_some hp⟩

theorem State.preemptOf_hardStep_new (hp : s.preemptOf core dom = none) :
    (s.hardStep core dom).preemptOf core dom = some (Preempt.fresh core dom s.time true) := by
  rw [State.preemptOf] at hp
  rw [State.hardStep_new hp, State.preemptOf, List.find?_append, hp, Option.none_or, List.find?_cons_of_pos]
  simp [Preempt.fresh]

theorem State.preemptOf_hardStep_soft {p : Preempt} (hp : s.preemptOf core dom = some p) (hsoft : p.hard = false) :
    (s.hardStep core dom).preemptOf core dom = some { p with hard := true, window := true, begun := s.time } := by
  have hk := (State.preemptOf_key hp).2
  rw [State.hardStep_soft hp hsoft, State.preemptOf, List.find?_map]
  have hpred : ((fun q : Preempt => q.core == core && q.dom == dom) ∘ Preempt.hardened core dom s.time) =
      fun q => q.core == core && q.dom == dom := by
    funext q
    rw [Function.comp, Preempt.hardened]
    split <;> rfl
  rw [hpred, ← State.preemptOf, hp, Option.map_some, Preempt.hardened, if_pos hk]

theorem exec_preqHard_new (hup : s.isUp = true) (hp : s.preemptOf core dom = none) :
    ∃ t, exec (.preqHard core dom) s = .next t ∧ t.preempts = s.preempts ++ [Preempt.fresh core dom s.time true] ∧ t.shows core dom 2 ∧
      { t with preempts := s.preempts, cfg := s.cfg } = s := by
  refine ⟨_, exec_preqHard hup, ?_⟩
  rw [State.hardRequest, State.preemptOf_hardStep_new hp, State.hardStep_new hp]
  exact ⟨rfl, State.setPstat_shows _ core dom 2, rfl⟩

theorem exec_preqHard_soft (hup : s.isUp = true) {p : Preempt} (hp : s.preemptOf core dom = some p) (hsoft : p.hard = false) :
    ∃ t, exec (.preqHard core dom) s = .next t ∧
      (∀ q ∈ t.preempts, q.core = core → q.dom = dom → q.hard = true ∧ q.window = true) ∧
      t.shows core dom (if p.killed = true then 4 else 2) ∧ { t with preempts := s.preempts, cfg := s.cfg } = s := by
  refine ⟨_, exec_preqHard hup, ?_⟩
  rw [State.hardRequest, State.preemptOf_hardStep_soft hp hsoft, State.hardStep_soft hp hsoft]
  refine ⟨fun q hq hc hd => ?_, State.setPstat_shows _ core dom _, rfl⟩
  obtain ⟨a, -, rfl⟩ := List.mem_map.1 hq
  by_cases ha : a.core = core ∧ a.dom = dom
  · rw [Preempt.hardened, if_pos ha]
    exact ⟨rfl, rfl⟩
  · rw [Preempt.hardened, if_neg ha] at hc hd
    exact absurd ⟨hc, hd⟩ ha

theorem exec_preqHard_hard (hup : s.isUp = true) {p : Preempt} (hp : s.preemptOf core dom = some p) (hhard : p.hard = true) :
    exec (.preqHard core dom) s = .next (s.setPstat core dom p.shown) := by
  refine (exec_preqHard hup).trans ?_
  rw [State.hardRequest, State.hardStep_hard hp hhard, hp]
  rfl

theorem exec_preqWithdraw_hard (hup : s.isUp = true) {p : Preempt} (hp : s.preemptOf core dom = some p) (hhard : p.hard = true) :
    exec (.preqWithdraw core dom) s = .next s := by
  refine (exec_preqWithdraw hup).trans ?_
  rw [State.withdraw, hp]
  simp only [hhard, if_true]

theorem exec_preqWithdraw_none (hup : s.isUp = true) (hp : s.preemptOf core dom = none) : exec (.preqWithdraw core dom) s = .next s := by
  refine (exec_preqWithdraw hup).trans ?_
  rw [State.withdraw, hp]

/-- A soft request that is withdrawn stands no more (R340). -/
theorem exec_preqWithdraw_soft (hup : s.isUp = true) {p : Preempt} (hp : s.preemptOf core dom = some p) (hsoft : p.hard = false) :
    ∃ t, exec (.preqWithdraw core dom) s = .next t ∧ t.preemptOf core dom = none ∧ s.follows t core dom 0 := by
  refine ⟨_, exec_preqWithdraw hup, ?_⟩
  rw [State.withdraw, hp]
  simp only [hsoft]
  set u := (s.dropPreempt core dom).notePstat core dom 0 with hu
  obtain ⟨hpre, hstat⟩ := u.pollCore_sameRequests core
  have hnote : s.follows u core dom 0 := (s.dropPreempt core dom).notePstat_follows core dom 0
  obtain ⟨c, hc⟩ := (s.dropPreempt core dom).notePstat_eq core dom 0
  refine ⟨?_, fun h => (hstat core).trans (hnote.1 h), fun h => (hstat core).trans (hnote.2 h)⟩
  rw [State.preemptOf, show (if false = true then s else u.pollCore core).preempts = u.preempts from hpre, hu, hc]
  refine List.find?_eq_none.2 fun q hq => ?_
  simpa [imp_iff_not_or] using (List.mem_filter.1 hq).2

/-! #### Timers (R340) -/

/-- The grace timer that ends first makes its request hard. -/
theorem exec_graceExpiry_first {p : Preempt} (hf : s.firstDue (s.preempts.filter (fun q => q.core == core && !q.hard)) = some p)
    (hp : s.preemptOf core p.dom = some p) (hsoft : p.hard = false) :
    ∃ t, exec (.graceExpiry core) s = .next t ∧ s.follows t core p.dom 2 ∧ (t.preemptOf core p.dom).map (·.hard) = some true ∧
      { t with preempts := s.preempts, cfg := s.cfg } = s := by
  refine ⟨(s.hardStep core p.dom).notePstat core p.dom 2, ?_, ?_⟩
  · change execGraceExpiry core s = _
    rw [execGraceExpiry, hf]
  have hpre := State.preemptOf_hardStep_soft hp hsoft
  have hnote := (s.hardStep core p.dom).notePstat_follows core p.dom 2
  obtain ⟨c, hc⟩ := (s.hardStep core p.dom).notePstat_eq core p.dom 2
  have hcfg : (s.hardStep core p.dom).cfg = s.cfg := by rw [State.hardStep_soft hp hsoft]
  refine ⟨?_, ?_, ?_⟩
  · have hreg : ∀ q, (s.hardStep core p.dom).reg q = s.reg q := fun q => by rw [State.reg, hcfg]; rfl
    rw [State.follows, State.regField, hreg] at hnote
    exact hnote
  · have hsame : ((s.hardStep core p.dom).notePstat core p.dom 2).preemptOf core p.dom = (s.hardStep core p.dom).preemptOf core p.dom := by
      rw [hc]
      rfl
    rw [hsame, hpre]
    rfl
  · rw [hc, State.hardStep_soft hp hsoft]

/-- The requests of a domain on a core count as killed. -/
def Preempt.markKilled (core dom : Nat) (q : Preempt) : Preempt := if q.core = core ∧ q.dom = dom then { q with killed := true } else q

theorem exec_killTimer_idle {p : Preempt} (hf : s.firstDue (s.preempts.filter (fun q => q.core == core && q.hard && !q.killed)) = some p)
    (hg : s.gangsOn core (fun _ l => l.dom == p.dom) = []) (hpass : s.passOn core p.dom = false) :
    exec (.killTimerExpiry core) s = .next s := by
  change execKillTimerExpiry core s = _
  rw [execKillTimerExpiry, hf]
  dsimp only
  rw [hg, hpass, if_pos ⟨rfl, by decide⟩]

theorem exec_killTimer_kills {p : Preempt} (hf : s.firstDue (s.preempts.filter (fun q => q.core == core && q.hard && !q.killed)) = some p)
    (h : s.gangsOn core (fun _ l => l.dom == p.dom) ≠ [] ∨ s.passOn core p.dom = true) :
    ∃ t, exec (.killTimerExpiry core) s = .next t ∧ t.gangsOn core (fun _ l => l.dom == p.dom) = [] ∧ s.follows t core p.dom 4 ∧
      ∀ q ∈ t.preempts, q.core = core → q.dom = p.dom → q.killed = true := by
  have hcond : ¬ ((s.gangsOn core (fun _ l => l.dom == p.dom)).isEmpty = true ∧ ¬ s.passOn core p.dom = true) := by
    rintro ⟨he, hn⟩
    exact h.elim (fun hne => hne (List.isEmpty_iff.1 he)) hn
  let u : State := { s with preempts := s.preempts.map (Preempt.markKilled core p.dom) }
  refine ⟨(u.notePstat core p.dom 4).killOn core p.dom, ?_, State.killOn_gangsOn _ _ _, ?_⟩
  · change execKillTimerExpiry core s = _
    rw [execKillTimerExpiry, hf]
    dsimp only
    rw [if_neg hcond]
    rfl
  have hk := (u.notePstat core p.dom 4).killed_killOn core p.dom
  have hnote : s.follows (u.notePstat core p.dom 4) core p.dom 4 := u.notePstat_follows core p.dom 4
  refine ⟨⟨fun h => (hk.pstat core).trans (hnote.1 h), fun h => (hk.pstat core).trans (hnote.2 h)⟩, ?_⟩
  obtain ⟨c, hc⟩ := u.notePstat_eq core p.dom 4
  rw [hk.preempts, hc]
  intro q hq hqc hqd
  obtain ⟨a, -, rfl⟩ := List.mem_map.1 hq
  by_cases ha : a.core = core ∧ a.dom = p.dom
  · rw [Preempt.markKilled, if_pos ha]
  · rw [Preempt.markKilled, if_neg ha] at hqc hqd
    exact absurd ⟨hqc, hqd⟩ ha

end

/-! #### The response window (R342) -/

theorem exec_responseWindow (s : State) (core dom : Nat) : ∃ t, exec (.responseWindowExpiry core dom) s = .next t ∧
    (∀ p ∈ t.preempts, p.core = core → p.dom = dom → p.window = false) ∧ (∀ x ∈ t.sights, x.next = some core → x.window = false) ∧
    (∀ x ∈ t.recalls, x.1 = core → x.2 = false) ∧
    t.preempts.map (fun p => (p.core, p.dom, p.hard, p.killed)) = s.preempts.map (fun p => (p.core, p.dom, p.hard, p.killed)) ∧
    { t with preempts := s.preempts, sights := s.sights, recalls := s.recalls } = s := by
  refine ⟨_, rfl, ?_, ?_, ?_, ?_, rfl⟩
  · refine List.forall_mem_map.2 fun p _ => ?_
    split
    · exact fun _ _ => rfl
    · next h => exact fun hc hd => absurd ⟨hc, hd⟩ h
  · refine List.forall_mem_map.2 fun x _ => ?_
    split
    · exact fun _ => rfl
    · next h => exact fun hc => absurd hc h
  · refine List.forall_mem_map.2 fun x _ => ?_
    split
    · exact fun _ => rfl
    · next h => exact fun hc => absurd hc h
  · rw [List.map_map]
    refine List.map_congr_left fun p _ => ?_
    rw [Function.comp]
    split <;> rfl

end Sys2Proof.Machine

/-! ### A response that fails to come (R342, R379) -/

namespace Sys2Proof.Machine

theorem VWake.get_mapEntries (v : VWake) {f : Entry Word → Entry Word} (hf : f .void = .void) (a : Nat) :
    (v.mapEntries f).get a = f (v.get a) := by
  simp only [VWake.get, VWake.mapEntries, List.getD_eq_getElem?_getD, List.getElem?_map]
  cases v.ring[(v.head - BitVec.ofNat 5 a).toNat]? with
  | none => exact hf.symm
  | some e => rfl

/-- A change of every lane's wake, seen in one lane. -/
theorem Watch.mapEntries_wake (w : Watch) (f : Entry Word → Entry Word) (g : Entry DWord → Entry DWord) {l : Nat} (hl : l < w.lanes.length) :
    ((w.mapEntries f g).lane l).wake = (w.lane l).wake.mapEntries f := by
  simp [Watch.mapEntries, Watch.lane, List.getElem?_eq_getElem hl]

theorem Watch.setSatf_wake (w : Watch) (m : Mask) (l : Nat) : ((w.setSatf m).lane l).wake = (w.lane l).wake := by
  simp only [Watch.setSatf, Watch.mapLanes, Watch.lane, List.getD_eq_getElem?_getD, mapFrom_getElem?]
  cases w.lanes[l]? with
  | none => rfl
  | some x =>
    simp only [Option.map_some, Option.getD_some]
    split <;> rfl

/-- What an operation that completes leaves in a lane (R34). -/
theorem Watch.complete_wake (w : Watch) (id : Nat) {l : Nat} (hl : l < w.lanes.length) :
    ((w.complete id).lane l).wake = (w.lane l).wake.mapEntries (Entry.settle id) := by
  unfold Watch.complete
  dsimp only
  split
  · exact w.mapEntries_wake (Entry.settle id) (Entry.settle id) hl
  · rw [Watch.setSatf_wake]
    exact w.mapEntries_wake (Entry.settle id) (Entry.settle id) hl

theorem Watch.complete_flights (w : Watch) (id : Nat) : (w.complete id).flights = w.flights.filter (fun f => f.id != id) := by
  unfold Watch.complete
  dsimp only
  split <;> rfl

theorem Watch.complete_name (w : Watch) (id : Nat) : (w.complete id).ref = w.ref ∧ (w.complete id).resident = w.resident := by
  unfold Watch.complete
  dsimp only
  split <;> exact ⟨rfl, rfl⟩

/-- An answer of zero in the lanes that wait for the host or a peer, and the value in the others. -/
theorem Watch.completeZero_wake (w : Watch) {id : Nat} {f : Flight} (hf : w.flights.find? (fun f => f.id == id) = some f) {l : Nat}
    (hl : l < w.lanes.length) (a : Nat) : ((w.completeZero id).lane l).wake.get a =
      Entry.settle id (if has f.remote l = true then Entry.settleZero id ((w.lane l).wake.get a) else (w.lane l).wake.get a) := by
  unfold Watch.completeZero
  rw [hf, Option.map_some, Option.getD_some]
  dsimp only
  rw [Watch.complete_wake _ _ (by simp [Watch.mapEntries, hl]), VWake.get_mapEntries _ rfl, Watch.mapEntries_wake _ _ _ (by simp [hl]),
    VWake.get_mapEntries _ rfl]
  simp only [Watch.lane, List.getD_eq_getElem?_getD, mapFrom_getElem?, List.getElem?_eq_getElem hl, Option.map_some, Option.getD_some,
    Nat.zero_add]
  split
  · rw [VWake.get_mapEntries _ rfl]
  · rfl

theorem Watch.completeZero_flights (w : Watch) (id : Nat) : (w.completeZero id).flights = w.flights.filter (fun f => f.id != id) :=
  Watch.complete_flights _ _

theorem Watch.completeZero_name (w : Watch) (id : Nat) : (w.completeZero id).ref = w.ref ∧ (w.completeZero id).resident = w.resident :=
  Watch.complete_name _ _

/-- A watch that is changed, resident or in an image, is found as it has become. -/
theorem State.findWatch_modWatchOrImage (s : State) (r : WatchRef) {F : Watch → Watch}
    (hF : ∀ w, (F w).ref = w.ref ∧ (F w).resident = w.resident) : (s.modWatchOrImage r F).findWatch r = (s.findWatch r).map F := by
  have hw : (s.modWatchOrImage r F).watches = s.watches.map (fun w => if w.resident ∧ w.ref = r then F w else w) :=
    State.mapWatches_watches s (f := fun w => if w.resident ∧ w.ref = r then F w else w) fun w => by
      split
      · exact (hF w).2
      · rfl
  have hres : (s.modWatchOrImage r F).watches.find? (fun w => decide (w.ref = r)) = (s.watches.find? (fun w => decide (w.ref = r))).map F := by
    rw [hw, List.find?_map]
    have hpred : ((fun w : Watch => decide (w.ref = r)) ∘ fun w => if w.resident ∧ w.ref = r then F w else w) =
        fun w => decide (w.ref = r) := by
      funext w
      rw [Function.comp]
      split
      · rw [(hF w).1]
      · rfl
    rw [hpred]
    refine Option.map_congr fun w hfw => if_pos ⟨?_, by simpa using List.find?_some hfw⟩
    exact (List.mem_filter.1 (List.mem_of_find?_eq_some hfw)).2
  have himg : ((s.modWatchOrImage r F).gangOf r.launch r.gang).map (·.watches) =
      ((s.gangOf r.launch r.gang).map (·.watches)).map (·.map fun w => if w.ref = r then F w else w) := by
    have hg := s.gangOf_modGang r.launch r.gang (f := fun g => { g with watches := g.watches.map fun w => if w.ref = r then F w else w })
      (fun _ h h' => ⟨h, h'⟩) r.launch r.gang
    refine (congrArg (Option.map (·.watches)) hg).trans ?_
    rw [Option.map_map, Option.map_map]
    refine Option.map_congr fun g hg => ?_
    rw [Function.comp, if_pos (State.gangOf_key hg)]
    rfl
  unfold State.findWatch
  rw [hres, himg]
  cases s.watches.find? (fun w => decide (w.ref = r)) with
  | some w => rfl
  | none =>
    cases s.gangOf r.launch r.gang with
    | none => rfl
    | some g =>
      simp only [Option.map_none, Option.map_some, Option.bind_some, List.find?_map]
      have hpred : ((fun w : Watch => decide (w.ref = r)) ∘ fun w => if w.ref = r then F w else w) = fun w => decide (w.ref = r) := by
        funext w
        rw [Function.comp]
        split
        · rw [(hF w).1]
        · rfl
      rw [hpred]
      exact Option.map_congr fun w hfw => if_pos (by simpa using List.find?_some hfw)

/-- A watch is found after writes and records, but for reservations. -/
theorem State.SameWork.findWatch {s t : State} (h : s.SameWork t) (r : WatchRef) :
    (t.findWatch r).map Watch.unreserved = (s.findWatch r).map Watch.unreserved := by
  have hw : ∀ u : State, (u.watches.find? (fun w => decide (w.ref = r))).map Watch.unreserved =
      (u.watches.map Watch.unreserved).find? (fun w => decide (w.ref = r)) := fun u => by
    rw [List.find?_map]
    rfl
  have ht := hw t
  rw [h.watches, ← hw s] at ht
  unfold State.findWatch
  rw [State.gangOf, h.gangs, ← State.gangOf]
  cases hs' : s.watches.find? (fun w => decide (w.ref = r)) with
  | none =>
    rw [hs', Option.map_none, Option.map_eq_none_iff] at ht
    rw [ht]
  | some w =>
    rw [hs'] at ht
    obtain ⟨v, hv, hvw⟩ := Option.map_eq_some_iff.1 ht
    rw [hv]
    exact congrArg some hvw

theorem State.sameWork_writeArrivals (s : State) (g : Gang) (l : LaunchRec) (old new : Watch) : s.SameWork (s.writeArrivals g l old new) := by
  unfold State.writeArrivals
  split
  · exact .refl s
  refine .foldl (fun u x => .foldl (fun v y => ?_) _ u) _ s
  split
  · exact v.sameWork_write _ _
  · exact .refl v

/-- What arrives changes the watch that it is for, and the bytes of its image. -/
theorem State.sameWork_intoImage (s : State) (r : WatchRef) (F : Watch → Watch) : (s.modWatchOrImage r F).SameWork (s.intoImage r F) := by
  unfold State.intoImage
  dsimp only
  split
  · split
    · split
      · exact .refl _
      · exact State.sameWork_writeArrivals _ _ _ _ _
    · exact .refl _
  · exact .refl _

theorem Watch.unreserved_wake {v w : Watch} (h : v.unreserved = w.unreserved) (l : Nat) : (v.lane l).wake = (w.lane l).wake := by
  have hu : ∀ w : Watch, (w.lane l).wake = (w.unreserved.lane l).wake := fun w => by
    simp only [Watch.lane, Watch.unreserved, List.getD_eq_getElem?_getD, List.getElem?_map]
    cases w.lanes[l]? <;> rfl
  rw [hu v, hu w, h]

/-- A load or atomic that gets no answer completes, with zero in the lanes that wait for the host or a peer. -/
theorem exec_responseTimeout_remote {s : State} {r : WatchRef} {id : Nat} {w : Watch} {f : Flight} (hw : s.findWatch r = some w)
    (hs : w.sound) (hf : w.flights.find? (fun f => f.id == id) = some f) (hu : f.unit = .load ∨ f.unit = .atomic) (hp : f.path ≠ .local) :
    ∃ t v, exec (.responseTimeout r id) s = .next t ∧ t.findWatch r = some v ∧
      (∀ l < 64, ∀ a x, (w.lane l).wake.get a = .pend x id → (v.lane l).wake.get a = .val (if has f.remote l = true then 0 else x)) ∧
      (∀ l < 64, ∀ a x j, j ≠ id → (w.lane l).wake.get a = .pend x j → (v.lane l).wake.get a = .pend x j) ∧
      (∀ g, g ∈ v.flights ↔ g ∈ w.flights ∧ g.id ≠ id) := by
  have hlanes : w.lanes.length = 64 := (Watch.sound_iff.1 hs).lanes
  have hunit : f.inUnit = false := by
    obtain h | h := hu <;> simp [Flight.inUnit, h]
  obtain ⟨e, he⟩ : ∃ e, exec (.responseTimeout r id) s = .next ((s.intoImage r (fun x => x.completeZero id)).record e) := by
    change ∃ e, execResponseTimeout r id s = _
    simp only [execResponseTimeout, hw, Option.bind_some, hf, Option.map_some]
    rw [if_neg (by simp [hunit, hp])]
    exact ⟨_, rfl⟩
  have hsame := (s.sameWork_intoImage r (fun x => x.completeZero id)).trans (State.sameWork_record _ e)
  have hfind := hsame.findWatch r
  rw [s.findWatch_modWatchOrImage r fun w => w.completeZero_name id, hw, Option.map_some, Option.map_some] at hfind
  obtain ⟨v, hv, hun⟩ := Option.map_eq_some_iff.1 hfind
  have hget : ∀ l < 64, ∀ a, (v.lane l).wake.get a =
      Entry.settle id (if has f.remote l = true then Entry.settleZero id ((w.lane l).wake.get a) else (w.lane l).wake.get a) :=
    fun l hl a => by rw [Watch.unreserved_wake hun, w.completeZero_wake hf (by omega)]
  refine ⟨_, v, he, hv, fun l hl a x hx => ?_, fun l hl a x j hj hx => ?_, fun g => ?_⟩
  · rw [hget l hl, hx]
    split <;> simp [Entry.settle, Entry.settleZero]
  · rw [hget l hl, hx]
    split <;> simp [Entry.settle, Entry.settleZero, hj]
  · have hflights : v.flights = (w.completeZero id).flights := (congrArg (fun u : Watch => u.flights) hun :)
    rw [hflights, Watch.completeZero_flights, List.mem_filter]
    simp

/-- An answer that comes from the core's own module does not fail to come. -/
theorem exec_responseTimeout_local {s : State} {r : WatchRef} {id : Nat} {w : Watch} {f : Flight} (hw : s.findWatch r = some w)
    (hf : w.flights.find? (fun f => f.id == id) = some f) (hp : f.path = .local) : exec (.responseTimeout r id) s = .next s := by
  change execResponseTimeout r id s = _
  rw [execResponseTimeout, hw, Option.bind_some, hf, Option.map_some]
  dsimp only
  rw [if_pos (.inr hp)]

end Sys2Proof.Machine

/-! ### Slices and lending (R330, R346, R349, R350, R365) -/

namespace Sys2Proof.Machine

/-- A field that shares no bit with another keeps its value when that one is written. -/
theorem field_setField_of_disjoint (w : DWord) {lo n lo' n' : Nat} (v : Nat) (hd : lo' + n' ≤ lo ∨ lo + n ≤ lo') :
    field (setField w lo n v) lo' n' = field w lo' n' := by
  refine Nat.eq_of_testBit_eq fun i => ?_
  have hbit : ∀ j, ¬ (lo ≤ j ∧ j < lo + n) → (setField w lo n v).getLsbD j = w.getLsbD j := fun j hj => by
    have hmask : Nat.testBit ((2 ^ n - 1) * 2 ^ lo) j = false := by
      rw [Nat.testBit_mul_two_pow, Nat.testBit_two_pow_sub_one]
      simp only [Bool.and_eq_false_iff, decide_eq_false_iff_not]
      omega
    have hval : Nat.testBit (v % 2 ^ n * 2 ^ lo) j = false := by
      rw [Nat.testBit_mul_two_pow, Nat.testBit_mod_two_pow]
      simp only [Bool.and_eq_false_iff, decide_eq_false_iff_not]
      omega
    by_cases hj64 : j < 64
    · simp only [setField, BitVec.getLsbD_or, BitVec.getLsbD_and, BitVec.getLsbD_not, BitVec.getLsbD_ofNat, hmask, hval, hj64]
      simp
    · rw [BitVec.getLsbD_of_ge _ _ (by omega), BitVec.getLsbD_of_ge _ _ (by omega)]
  simp only [field, bitsAt, Nat.testBit_mod_two_pow, Nat.testBit_div_two_pow, BitVec.testBit_toNat]
  by_cases hi : i < n'
  · rw [hbit _ (by omega)]
  · simp [hi]

/-! #### The end of a slice (R346, R365) -/

section
variable {s : State} {core d n : Nat}

theorem State.sliceOf_core (s : State) (core : Nat) : (s.sliceOf core).core = core := by
  unfold State.sliceOf
  cases h : s.slices.find? (fun x => x.core == core) with
  | none => rfl
  | some x => simpa using List.find?_some h

/-- The position that was set last for a core is its position. -/
theorem State.sliceOf_head {t : State} {x : Slice} {xs : List Slice} (h : t.slices = x :: xs) (hx : x.core = core) : t.sliceOf core = x := by
  simp [State.sliceOf, h, hx]

/-- Behind a hard request one stands, and only PSTAT has changed besides. -/
theorem State.hardRequest_eq (s : State) (core dom : Nat) :
    ∃ ps st, s.hardRequest core dom = ({ s with preempts := ps } : State).setPstat core dom st ∧
      ∃ p ∈ ps, p.core = core ∧ p.dom = dom ∧ p.hard = true := by
  unfold State.hardRequest
  cases hp : s.preemptOf core dom with
  | none =>
    rw [State.hardStep_new hp]
    exact ⟨_, _, rfl, _, List.mem_append_right _ (List.mem_singleton_self _), rfl, rfl, rfl⟩
  | some p =>
    obtain ⟨hmem, hk⟩ := State.preemptOf_key hp
    cases hh : p.hard with
    | true =>
      rw [State.hardStep_hard hp hh]
      exact ⟨s.preempts, _, rfl, p, hmem, hk.1, hk.2, hh⟩
    | false =>
      rw [State.hardStep_soft hp hh]
      refine ⟨_, _, rfl, _, List.mem_map_of_mem hmem, ?_⟩
      rw [Preempt.hardened, if_pos hk]
      exact ⟨hk.1, hk.2, rfl⟩

/-- The commands of some gangs pause (R271). -/
def pauseOf (gs : List Gang) (cs : List EngCmd) : List EngCmd :=
  cs.map fun (c : EngCmd) => if ∃ g ∈ gs, g.launch = c.watch.launch ∧ g.idx = c.watch.gang then { c with paused := true } else c

/-- A slice is over: its overrun is debt, its domain leaves, and the commands of that domain's gangs pause. -/
def State.sliceOver (s : State) (core d n : Nat) : State :=
  { s with cfg := (s.addDebt core d n).cfg
           slices := (s.setSlice { s.sliceOf core with leaving := some d }).slices
           cmds := pauseOf (s.gangsOn core (fun _ l => l.dom == d)) s.cmds }

/-- At the end of a slice the overrun is debt, the outgoing domain leaves, its commands pause, and it is halted. -/
theorem exec_sliceEnd_leaves (hws : s.wsOn core = true) (hd : s.wsEntry core (s.sliceOf core).index = some d)
    (hl : (s.sliceOf core).leaving = none) (hn : s.nopreOn core d = false) :
    exec (.sliceEnd core n) s = .next ((s.sliceOver core d n).hardRequest core d) := by
  change execSliceEnd core n s = _
  rw [execSliceEnd]
  dsimp only
  rw [hd]
  dsimp only
  rw [if_neg (by simp [hws, hl, hn])]
  have hpause : pauseOf (s.gangsOn core (fun _ l => l.dom == d)) s.cmds = s.cmds.map (fun (c : EngCmd) =>
      if (s.gangsOn core (fun _ l => l.dom == d)).any (fun g => g.launch == c.watch.launch && g.idx == c.watch.gang) then
        { c with paused := true } else c) := by
    refine List.map_congr_left fun c _ => ?_
    simp only [List.any_eq_true, Bool.and_eq_true, beq_iff_eq]
  rw [State.sliceOver, hpause]
  rfl

theorem exec_sliceEnd (hws : s.wsOn core = true) (hd : s.wsEntry core (s.sliceOf core).index = some d)
    (hl : (s.sliceOf core).leaving = none) (hn : s.nopreOn core d = false) :
    ∃ t, exec (.sliceEnd core n) s = .next t ∧
      t.regField (.debt core d) 0 32 = min (s.regField (.debt core d) 0 32 + n) (2 ^ 32 - 1) ∧
      (t.sliceOf core).leaving = some d ∧ (t.sliceOf core).index = (s.sliceOf core).index ∧
      (∃ p ∈ t.preempts, p.core = core ∧ p.dom = d ∧ p.hard = true) ∧
      t.cmds = pauseOf (s.gangsOn core (fun _ l => l.dom == d)) s.cmds ∧
      { t with cfg := s.cfg, slices := s.slices, cmds := s.cmds, preempts := s.preempts } = s := by
  refine ⟨_, exec_sliceEnd_leaves hws hd hl hn, ?_⟩
  obtain ⟨ps, st, he, hps⟩ := (s.sliceOver core d n).hardRequest_eq core d
  rw [he]
  have hslice : ∀ (t : State) (xs : List Slice), t.slices = { s.sliceOf core with leaving := some d } :: xs →
      t.sliceOf core = { s.sliceOf core with leaving := some d } := fun t xs h => State.sliceOf_head h (s.sliceOf_core core)
  have hleaving : ∀ (t : State) (xs : List Slice), t.slices = { s.sliceOf core with leaving := some d } :: xs →
      (t.sliceOf core).leaving = some d := fun t xs h => by rw [hslice t xs h]
  have hindex : ∀ (t : State) (xs : List Slice), t.slices = { s.sliceOf core with leaving := some d } :: xs →
      (t.sliceOf core).index = (s.sliceOf core).index := fun t xs h => by rw [hslice t xs h]
  refine ⟨?_, hleaving _ _ rfl, hindex _ _ rfl, hps, rfl, rfl⟩
  have hreg : ((s.addDebt core d n).setPstat core d st).regField (.debt core d) 0 32 =
      min (s.regField (.debt core d) 0 32 + n) (2 ^ 32 - 1) := by
    rw [State.regField, State.setPstat, State.setReg_reg, if_neg (by simp), State.addDebt, State.setReg_reg, if_pos rfl]
    simp only [field, bitsAt, BitVec.toNat_ofNat]
    omega
  exact hreg

/-- A slice does not end while its domain is leaving, or runs NOPRE work. -/
theorem exec_sliceEnd_waits (hd : s.wsEntry core (s.sliceOf core).index = some d)
    (h : (s.sliceOf core).leaving ≠ none ∨ s.nopreOn core d = true) : exec (.sliceEnd core n) s = .next s := by
  change execSliceEnd core n s = _
  rw [execSliceEnd]
  dsimp only
  rw [hd]
  dsimp only
  rw [if_pos (.inr (h.imp_left Option.isSome_iff_ne_none.2))]

end

/-! #### Lent rows are taken back (R350) -/

/-- The argument block of a gang is read through the domain's tables, which a standing request does not touch. -/
theorem State.MapsLike.vread {s t : State} (h : t.MapsLike s) (tu dom : Nat) : ∀ n va, t.vread tu dom va n = s.vread tu dom va n
  | 0, _ => rfl
  | n + 1, va => by
    rw [State.vread, State.vread, h.reachAt]
    cases s.reachAt tu dom va false with
    | ok k =>
      dsimp only
      rw [h.vread tu dom n, h.byte]
    | hold p => rfl
    | refused p => rfl

theorem State.MapsLike.argHold {s t : State} (h : t.MapsLike s) (core dom : Nat) (r : LaunchRec) :
    t.argHold core dom r = s.argHold core dom r := by
  rw [State.argHold, State.argHold, h.vread]

/-- A request stands while a revocation that it needs does. -/
theorem State.pollReclaim_waits {s : State} {x : Reclaim} (h : ∃ y ∈ s.recalls, y.1 ∈ x.cores) : s.pollReclaim x = s := by
  obtain ⟨y, hy, hyx⟩ := h
  unfold State.pollReclaim
  rw [if_pos (List.any_eq_true.2 ⟨y, hy, by simpa using hyx⟩)]

/-- With every revocation done, the owner's gang is placed. -/
theorem State.pollReclaim_places {s : State} {x : Reclaim} (h : ∀ y ∈ s.recalls, y.1 ∉ x.cores) {c : Cand} {os : List (Nat × Offer)}
    (hc : (s.returning ++ s.fresh1 (x.cores.headD 0 / 160)).find? (fun z => z.launch.id == x.launch && z.idx == x.gang) = some c)
    (ho : (choose c.launch.recd.blocks ((List.range 4).map (· + 4 * (x.cores.headD 0 / 4)))).findSome?
      (fun cores => State.offers { s with reclaims := s.reclaims.filter (· != x) } c [] 0 cores) = some os)
    (ha : s.argHold (x.cores.headD 0) c.launch.dom c.launch.recd = none) :
    s.pollReclaim x = State.placeCand { s with reclaims := s.reclaims.filter (· != x) } (x.cores.headD 0 / 160) c os := by
  have hmaps : State.MapsLike { s with reclaims := s.reclaims.filter (· != x) } s := .of_fields rfl rfl rfl rfl rfl rfl
  have hrecalls : s.recalls.any (fun y => x.cores.contains y.1) = false := by
    rw [List.any_eq_false]
    exact fun y hy => by simpa using h y hy
  unfold State.pollReclaim
  rw [hrecalls, ← List.headD_eq_head?_getD]
  dsimp only
  rw [hc]
  dsimp only
  rw [ho]
  dsimp only
  rw [ha]
  simp only [Option.isSome_none, Bool.false_eq_true, if_false]
  rw [State.placeOrHold, hmaps.argHold, ha]

theorem exec_lendReclaim_idle {s : State} {core : Nat} (h : s.ownerCand core = none) : exec (.lendReclaim core) s = .next s := by
  change execLendReclaim core s = _
  rw [execLendReclaim, h]

theorem exec_lendReclaim {s : State} {core : Nat} {c : Cand} {cs lent : List Nat} (h : s.ownerCand core = some (c, cs, lent)) :
    exec (.lendReclaim core) s = .next ((lent.foldl (fun (u : State) k => u.revokeLeeway k)
      { s with reclaims := s.reclaims.filter (· != ⟨lent, c.launch.id, c.idx⟩) ++ [⟨lent, c.launch.id, c.idx⟩] }).pollReclaim
        ⟨lent, c.launch.id, c.idx⟩) := by
  change execLendReclaim core s = _
  rw [execLendReclaim, h]

/-! #### Revocation (R342, R350) -/

/-- The end of a revocation's step changes no gang and no watch. -/
theorem State.pollRecall_eq (s : State) (x : Nat × Bool) :
    ∃ rs, s.pollRecall x = { s.saveOn x.1 x.2 (fun _ l => l.recd.cls == 2) with recalls := rs } := by
  unfold State.pollRecall
  dsimp only
  split
  · exact ⟨_, rfl⟩
  · exact ⟨(s.saveOn x.1 x.2 (fun _ l => l.recd.cls == 2)).recalls, rfl⟩

/-- A gang is the one of its name where names are distinct. -/
theorem State.gangOf_of_nodup {s : State} (hn : (s.gangs.map (fun g => (g.launch, g.idx))).Nodup) {g : Gang} (hg : g ∈ s.gangs) :
    s.gangOf g.launch g.idx = some g := by
  cases hf : s.gangOf g.launch g.idx with
  | none => exact absurd (List.find?_eq_none.1 hf g hg) (by simp)
  | some x =>
    obtain ⟨hl, hi⟩ := State.gangOf_key hf
    exact congrArg some (List.inj_on_of_nodup_map hn (List.mem_of_find?_eq_some hf) hg (Prod.ext hl hi))

/-- A revocation saves the leeway gangs of the core that wait for nothing. -/
theorem State.revokeLeeway_saved {s : State} {core : Nat} (hn : (s.gangs.map (fun g => (g.launch, g.idx))).Nodup)
    (hr : ∀ y ∈ s.recalls, y.1 ≠ core) {g : Gang} (hg : g ∈ s.gangsOn core (fun _ l => l.recd.cls == 2))
    (hw : s.mustWait g.launch g.idx true = false) :
    ((s.revokeLeeway core).gangOf g.launch g.idx).map (·.phase) = some .saved ∧
      ∀ w ∈ (s.revokeLeeway core).watches, w.of g.launch g.idx = false := by
  obtain ⟨hmem, hph, -, l, hl, -⟩ := State.mem_gangsOn.1 hg
  have hany : s.recalls.any (fun x => x.1 == core) = false := by
    rw [List.any_eq_false]
    exact fun y hy => by simpa using hr y hy
  obtain ⟨rs, he⟩ := State.pollRecall_eq { s with recalls := s.recalls ++ [(core, true)] } (core, true)
  rw [State.revokeLeeway, hany, if_neg (by decide), he, State.saveOn_eq]
  exact State.foldl_saveReady_saved true { s with recalls := s.recalls ++ [(core, true)] } (s.gangsOn core (fun _ l => l.recd.cls == 2))
    (hn.sublist (List.filter_sublist.map _)) hg (State.gangOf_of_nodup hn hmem) (Option.isSome_iff_exists.2 ⟨l, hl⟩) hph hw

/-- A core without leeway gangs has nothing to revoke. -/
theorem State.revokeLeeway_idle {s : State} {core : Nat} (h : s.gangsOn core (fun _ l => l.recd.cls == 2) = []) :
    s.revokeLeeway core = s := by
  unfold State.revokeLeeway
  split
  · rfl
  · next hany =>
    have hsave : ∀ u : State, u.gangsOn core (fun _ l => l.recd.cls == 2) = [] → u.pollRecall (core, true) =
        { u with recalls := u.recalls.filter (fun y => y.1 != core) } := fun u hu => by
      have hs : u.saveOn core true (fun _ l => l.recd.cls == 2) = u := by
        rw [State.saveOn_eq, hu]
        rfl
      rw [State.pollRecall]
      dsimp only
      rw [hs, hu]
      rfl
    rw [hsave { s with recalls := s.recalls ++ [(core, true)] } h]
    have hrecalls : (s.recalls ++ [(core, true)]).filter (fun y => y.1 != core) = s.recalls := by
      rw [List.filter_append, List.filter_eq_self.2 fun y hy => ?_]
      · simp
      · simp only [List.any_eq_true, not_exists, not_and, beq_iff_eq] at hany
        simpa using hany y hy
    exact congrArg (fun rs => { s with recalls := rs }) hrecalls

/-! #### Writes of LSLOT and LENDRNG (R330, R350) -/

section
variable {s : State} {core : Nat} {v : DWord}

theorem exec_lendConfigWrite_down (h : s.isUp = false) (b : Bool) : exec (.lendConfigWrite core b v) s = .next s :=
  State.byRegister_down h (·.writeLend core b v)

theorem exec_lendConfigWrite_slots (hup : s.isUp = true) (h : s.gangsOn core (fun _ l => l.recd.cls == 2) = []) :
    exec (.lendConfigWrite core true v) s = .next (s.setReg (.lslot core) (v &&& 0x9F9F#64)) := by
  refine (State.byRegister_up hup (·.writeLend core true v)).trans ?_
  rw [State.writeLend, State.revokeLeeway_idle h]
  rfl

/-- Whose rows are lent does not hang on LENDRNG.ERR. -/
theorem State.lendOwner_lendErr (s : State) (core : Nat) : (s.lendErr core).lendOwner core = s.lendOwner core := by
  have hrng : ∀ lo n, lo + n ≤ 30 → (s.lendErr core).regField (.lendrng core) lo n = s.regField (.lendrng core) lo n := fun lo n h => by
    rw [State.regField, State.lendErr, State.setRegField_reg, if_pos rfl, field_setField_of_disjoint _ _ (.inl h)]
    rfl
  have hspad : ∀ d lo n, (s.lendErr core).regField (.qspad core d) lo n = s.regField (.qspad core d) lo n := fun d lo n => by
    rw [State.regField, State.lendErr, State.setRegField_reg, if_neg (by simp)]
    rfl
  unfold State.lendOwner
  simp only [hrng 0 12 (by decide), hrng 16 13 (by decide), hspad]

/-- ERR is no part of what a write puts into LENDRNG. -/
theorem setField_and_err (v : DWord) (x : Nat) :
    setField (v &&& 0x9FFF0FFF#64) 30 1 x &&& ~~~0x40000000#64 = v &&& 0x9FFF0FFF#64 := by
  have hbit : ∀ b : BitVec 64, b &&& ~~~0x40000000#64 = 0#64 →
      ((v &&& 0x9FFF0FFF#64) &&& ~~~0x40000000#64 ||| b) &&& ~~~0x40000000#64 = v &&& 0x9FFF0FFF#64 := fun b hb => by
    rw [BitVec.and_comm _ (~~~0x40000000#64), BitVec.and_or_distrib_left, BitVec.and_comm _ b, hb, BitVec.or_zero,
      BitVec.and_comm _ (_ &&& _), BitVec.and_assoc, BitVec.and_self, BitVec.and_assoc]
    rfl
  obtain hx | hx := Nat.mod_two_eq_zero_or_one x
  · rw [setField, pow_one, hx]
    exact hbit _ (by decide)
  · rw [setField, pow_one, hx]
    exact hbit _ (by decide)

theorem exec_lendConfigWrite_range (hup : s.isUp = true) (h : s.gangsOn core (fun _ l => l.recd.cls == 2) = []) :
    ∃ t, exec (.lendConfigWrite core false v) s = .next t ∧ (t.reg (.lendrng core)) &&& ~~~0x40000000#64 = v &&& 0x9FFF0FFF#64 ∧
      t.regField (.lendrng core) 30 1 = (if t.lendOwner core = none then 1 else 0) ∧ { t with cfg := s.cfg } = s := by
  set u := s.setReg (.lendrng core) (v &&& 0x9FFF0FFF#64) with hu
  refine ⟨u.lendErr core, ?_, ?_, ?_, rfl⟩
  · refine (State.byRegister_up hup (·.writeLend core false v)).trans ?_
    rw [State.writeLend, State.revokeLeeway_idle h]
    rfl
  · rw [State.lendErr, State.setRegField_reg, if_pos rfl, hu, State.setReg_reg, if_pos rfl]
    exact setField_and_err v _
  · rw [State.lendOwner_lendErr, State.lendErr, State.regField_setRegField _ _ _ _ _ (by decide)]
    cases u.lendOwner core <;> rfl

end

end Sys2Proof.Machine

/-! ### The fairness switch (R66) -/

namespace Sys2Proof.Machine

/-- A split other than the one named waits for a port of a core, and is critical or normal. -/
def State.waitsFor (s : State) (w : Watch) (p : Split) (e : Watch × Split) : Prop :=
  e ∈ s.eligible w.core p.port ∧ e.1.cls ≠ 2 ∧ ¬ (e.1.ref = w.ref ∧ e.2.id = p.id)

theorem State.mem_rivals {s : State} {w : Watch} {p : Split} {e : Watch × Split} :
    e ∈ s.rivals w.core p.port w.ref p.id ↔ s.waitsFor w p e := by
  simp [State.rivals, State.waitsFor, imp_iff_not_or]

/-- A switch gives the port to the split that has waited longest, if one waits. -/
structure State.Switched (s : State) (w : Watch) (p : Split) (t : State) : Prop where
  some : (∃ e, s.waitsFor w p e) → ∃ e, s.waitsFor w p e ∧ (∀ d, s.waitsFor w p d → e.2.since ≤ d.2.since) ∧
    t.turns = (w.core, p.port, e.1.ref, e.2.id) :: s.turns
  none : (¬ ∃ e, s.waitsFor w p e) → t.turns = s.turns

theorem State.switchPort_switched (s : State) (w : Watch) (p : Split) : s.Switched w p (s.switchPort w p) := by
  have hturns : ((s.countEvent w.core w.dom 9 1).modSplit w.ref p.id (fun p => { p with held := 0, defer := false })).turns = s.turns :=
    (s.sameWork_countEvent w.core w.dom 9 1).turns
  unfold State.switchPort
  dsimp only
  refine ⟨fun ⟨e, he⟩ => ?_, fun hno => ?_⟩
  · obtain ⟨a, ha, hmem, hleast⟩ := firstOf_least (n := fun e : Watch × Split => e.2.since) (List.ne_nil_of_mem (State.mem_rivals.2 he))
    refine ⟨a, State.mem_rivals.1 hmem, fun d hd => hleast d (State.mem_rivals.2 hd), ?_⟩
    rw [ha]
    exact congrArg (_ :: ·) hturns
  · have hnil : s.rivals w.core p.port w.ref p.id = [] :=
      List.eq_nil_iff_forall_not_mem.2 fun e he => hno ⟨e, State.mem_rivals.1 he⟩
    rw [hnil]
    exact hturns

section
variable {s : State} {r : WatchRef} {id : Nat} {w : Watch} {p : Split} (h : s.findSplit r id = some (w, p))
include h

theorem exec_fairnessSwitch_early (hp : p.held < 512) : exec (.fairnessSwitch r id) s = .next s := by
  change execFairnessSwitch r id s = _
  rw [execFairnessSwitch, h]
  exact if_pos hp

theorem exec_fairnessSwitch (hp : 512 ≤ p.held) (hr : w.holdsResv p.id = false ∨ 768 ≤ p.held) :
    exec (.fairnessSwitch r id) s = .next (s.switchPort w p) := by
  have hdefer : ¬ (w.holdsResv p.id = true ∧ p.held < 768) := by
    rintro ⟨hres, hlt⟩
    obtain hno | hlong := hr
    · simp [hno] at hres
    · omega
  change execFairnessSwitch r id s = _
  rw [execFairnessSwitch, h]
  dsimp only
  rw [if_neg (not_lt.2 hp), if_neg hdefer]

/-- A reservation of the split defers the switch. -/
theorem exec_fairnessSwitch_defers (hp : 512 ≤ p.held) (hr : w.holdsResv p.id = true) (hlt : p.held < 768) :
    ∃ t, exec (.fairnessSwitch r id) s = .next t ∧ t.turns = s.turns ∧
      ∃ v q, t.findSplit r id = some (v, q) ∧ q = { p with defer := true } := by
  refine ⟨s.modSplit r id (fun p => { p with defer := true }), ?_, rfl, ?_⟩
  · change execFairnessSwitch r id s = _
    rw [execFairnessSwitch, h]
    dsimp only
    rw [if_neg (not_lt.2 hp), if_pos ⟨hr, hlt⟩]
  · obtain ⟨v, hv⟩ := State.findSplit_modSplit h r id (f := fun p => { p with defer := true }) fun _ => rfl
    rw [if_pos ⟨rfl, rfl⟩] at hv
    exact ⟨v, _, hv, rfl⟩

theorem exec_reservationDeferEnd (hd : p.defer = true) (hr : w.holdsResv p.id = false ∨ 768 ≤ p.held) :
    exec (.reservationDeferEnd r id) s = .next (s.switchPort w p) := by
  change execReservationDeferEnd r id s = _
  rw [execReservationDeferEnd, h]
  exact if_pos ⟨hd, hr.imp_left Bool.eq_false_iff.1⟩

theorem exec_reservationDeferEnd_idle (hd : p.defer = false) : exec (.reservationDeferEnd r id) s = .next s := by
  change execReservationDeferEnd r id s = _
  rw [execReservationDeferEnd, h]
  exact if_neg fun hc => by simp [hd] at hc

end

/-! ### O58 -/

/-- Settles O58: of requests the one whose timer ends first is due; a kill and a save change the gangs of their own only, and what writes
and records leave as it is (`State.SameWork`) keeps the rest. -/
theorem preemptionAndSlices : Obligations.PreemptionAndSlices := by
  unfold Obligations.PreemptionAndSlices
  refine ⟨?ladder, ?slices, ?fairness⟩
  case ladder =>
    intro s core dom id r stat goes fresh
    refine ⟨fun hdown i hi => ?_, fun hup hp => ⟨exec_preqSoft_new hup hp, exec_preqHard_new hup hp, exec_preqWithdraw_none hup hp⟩,
      fun p hup hp => ⟨exec_preqSoft_again hup hp, fun hsoft => ⟨exec_preqHard_soft hup hp hsoft, exec_preqWithdraw_soft hup hp hsoft⟩,
        fun hhard => ⟨exec_preqHard_hard hup hp hhard, exec_preqWithdraw_hard hup hp hhard⟩⟩, ?_⟩
    · simp only [List.mem_cons, List.not_mem_nil, or_false] at hi
      obtain rfl | rfl | rfl := hi
      · exact State.byRegister_down hdown (·.softRequest core dom)
      · exact State.byRegister_down hdown (·.hardRequest core dom)
      · exact State.byRegister_down hdown (·.withdraw core dom)
    intro grace killt
    refine ⟨fun p hp hc hsoft hd hof hleast => ?_, fun p hp hc hhard hkilled hd hleast => ?_, exec_responseWindow s core dom,
      fun w f hw hs hf => ⟨fun hu hpath => exec_responseTimeout_remote hw hs hf hu hpath, exec_responseTimeout_local hw hf⟩⟩
    · have hdue : s.firstDue (s.preempts.filter (fun q => q.core == core && !q.hard)) = some p := by
        refine State.firstDue_of_least (List.mem_filter.2 ⟨hp, by simp [hc, hsoft]⟩) fun q hq hne => ?_
        obtain ⟨hqm, hqc⟩ := List.mem_filter.1 hq
        obtain ⟨hqcore, hqsoft⟩ : q.core = core ∧ q.hard = false := by simpa using hqc
        simpa [State.dueAt, hsoft, hqsoft] using hleast q hqm hqcore hqsoft hne
      subst hd
      exact exec_graceExpiry_first hdue hof hsoft
    · have hdue : s.firstDue (s.preempts.filter (fun q => q.core == core && q.hard && !q.killed)) = some p := by
        refine State.firstDue_of_least (List.mem_filter.2 ⟨hp, by simp [hc, hhard, hkilled]⟩) fun q hq hne => ?_
        obtain ⟨hqm, hqc⟩ := List.mem_filter.1 hq
        obtain ⟨⟨hqcore, hqhard⟩, hqkilled⟩ : (q.core = core ∧ q.hard = true) ∧ q.killed = false := by simpa using hqc
        simpa [State.dueAt, hhard, hqhard] using hleast q hqm hqcore hqhard hqkilled hne
      subst hd
      exact ⟨exec_killTimer_idle hdue, exec_killTimer_kills hdue⟩
  case slices =>
    intro s core n d v x
    refine ⟨fun hws hd => ⟨fun hl hn => exec_sliceEnd hws hd hl hn, exec_sliceEnd_waits hd⟩, exec_lendReclaim_idle, ?_,
      fun hn hr g hg hw => State.revokeLeeway_saved hn hr hg hw, exec_lendConfigWrite_down,
      fun hup hg => ⟨exec_lendConfigWrite_slots hup hg, exec_lendConfigWrite_range hup hg⟩⟩
    intro c cs lent hc x u k
    have hexec : exec (.lendReclaim core) s = .next (u.pollReclaim x) := exec_lendReclaim hc
    exact ⟨fun hwait => hexec.trans (congrArg _ (State.pollReclaim_waits hwait)),
      fun hdone c' hc' os ho ha => hexec.trans (congrArg _ (State.pollReclaim_places (x := x) hdone hc' ho ha))⟩
  case fairness =>
    intro s r id w p h port waits switched
    have hswitch : ∀ i, exec i s = .next (s.switchPort w p) → switched i := fun i hi =>
      ⟨_, hi, (s.switchPort_switched w p).some, (s.switchPort_switched w p).none⟩
    exact ⟨exec_fairnessSwitch_early h, fun hp hr => hswitch _ (exec_fairnessSwitch h hp hr), exec_fairnessSwitch_defers h,
      fun hd hr => hswitch _ (exec_reservationDeferEnd h hd hr), exec_reservationDeferEnd_idle h⟩

end Sys2Proof.Machine
